-- ==== Sys2Proof/Word.lean ====
section
/-! DEFINITION. The word types of the part (00 R12, 08 R183). -/
namespace Sys2Proof

/-- A byte. -/
abbrev Byte := BitVec 8
/-- A 64-bit scalar or control register (R183). -/
abbrev Word := BitVec 64
/-- A 512-bit vector register (R183). -/
abbrev Vec := BitVec 512

end Sys2Proof
end

