-- ==== Sys2Proof/Config.lean ====
section
/-! DEFINITION. What an implementation of the part fixes, and the values the spec leaves open. A free value is an opaque
function of a plain counter or of the operands: nothing constrains it. -/
namespace Sys2Proof.Config

/-- A value the spec leaves open, for each use a fresh one; the argument is the count of such uses.
(DESIGN CHOICE, safe; log 6.) -/
opaque freeWord : Nat → BitVec 64

/-- The coefficient, in nanojoules, that turns one counted unit of each class of R434 into energy; fused at test.
(DESIGN CHOICE, unsafe; log 43.) -/
opaque energyCoefficient : Nat → Nat

/-- The estimated package power of a microsecond, in W (17 R428); how it is estimated is not laid down.
(DESIGN CHOICE, unsafe; log 62.) -/
opaque packageEstimate : Nat → Nat

/-- The estimated power of a job's partition, in W (17 R428). (DESIGN CHOICE, unsafe; log 62.) -/
opaque partitionEstimate : Nat → Nat → Nat

/-- The vendor key hash in fuses (18 R450). (DESIGN CHOICE, safe; log 74.) -/
opaque vendorKeyHash : BitVec 512

/-- The fused secret of the identity (18 R453). (DESIGN CHOICE, safe; log 74.) -/
opaque fusedSecret : List Byte

/-- The number by which a telemetry record names an alarm source (17 R439), which the spec does not state; the argument is the
source's field of SEC.POL. (DESIGN CHOICE, unsafe; log 72.) -/
opaque alarmCode : Nat → Nat

/-- The burst size of an 802.1Qci meter in bits (18 R440), which the spec does not state. -/
opaque meterBurst : Nat

/-- The traffic class of 802.1Qbv in which a frame leaves (18 R440), which the spec does not state; the argument tells the kinds of
frames apart. (DESIGN CHOICE, safe; log 102.) -/
opaque trafficClass : Nat → Nat

end Sys2Proof.Config
end

