-- ==== Sys2Proof/Machine/Table.lean ====
section
/-! DEFINITION. Sparse tables: lists of a number and a value, in rising order of the number. A number that
a table does not list stands for a default that its user names. -/
namespace Sys2Proof.Machine

/-- A sparse table. -/
abbrev Table (α : Type) := List (Nat × α)

/-- The entry at `k`, if the table lists it. -/
def Table.get? {α : Type} : Table α → Nat → Option α
  | [], _ => none
  | (k', v) :: t, k => if k' = k then some v else Table.get? t k

/-- The entry at `k`, or the default `d`. -/
def Table.getD {α : Type} (t : Table α) (k : Nat) (d : α) : α := (Table.get? t k).getD d

/-- The table with `v` at `k`, in order. -/
def Table.set {α : Type} : Table α → Nat → α → Table α
  | [], k, v => [(k, v)]
  | (k', v') :: t, k, v =>
    if k < k' then (k, v) :: (k', v') :: t
    else if k = k' then (k, v) :: t
    else (k', v') :: Table.set t k v

/-- The table without an entry at `k`. -/
def Table.erase {α : Type} (t : Table α) (k : Nat) : Table α := t.filter (fun e => e.1 ≠ k)

/-- The table without any entry at a number from `lo` up to but not at `hi`. -/
def Table.eraseRange {α : Type} (t : Table α) (lo hi : Nat) : Table α :=
  t.filter (fun e => ¬ (lo ≤ e.1 ∧ e.1 < hi))

end Sys2Proof.Machine
end

