-- ==== Sys2Proof/Syntax.lean ====
section
/-! DEFINITION. The instruction type of the model: one constructor for every row of the opcode table.

Rows that have a word carry the fields of that word, each as a number below two to its width (08 R192, R195).
Rows without a word are steps of the hardware, register writes and requests from outside; each carries the
names of what it acts on. What a row does stands in the machine, never here. -/
namespace Sys2Proof

/-- A core id, y * 16 + x (00 R2). -/
abbrev CoreId := Fin 256
/-- A square id, sy * 8 + sx (00 R3). -/
abbrev SquareId := Fin 64
/-- A job id; job 0 is the system job (01 R16). -/
abbrev JobId := Fin 256

/-- What a background scrubber of R64 and R65 walks: a square memory or a die's chip scratchpad. -/
inductive ScrubUnit where
  | square (sq : SquareId)
  | chip (die : Fin 2)
  deriving DecidableEq, Repr

/-- Where an event that reaches a queue comes from: an external stream (18 R441), a core's `evsend`
(13 R357), or the fault buffer of a die with the entry it reports (16 R417). -/
inductive EventOrigin where
  | external
  | core (sender : CoreId)
  | faultBuffer (die : Fin 2) (entry : Nat)
  deriving DecidableEq, Repr

/-- The alarm sources of SEC.POL (18 R454, R455). -/
inductive AlarmSource where
  | link | dbg | case | temp | clk | volt
  deriving DecidableEq, Repr

/-- An event frame on a port (18 R441): its Ethernet fields, its sequence number under 802.1CB, its length
in bytes and its events, each a header and a payload. -/
structure EthFrame where
  etype : Nat
  dmac : Nat
  vid : Nat
  seq : Nat
  size : Nat
  events : List (BitVec 64 × BitVec 64)
  deriving DecidableEq, Repr

namespace Rv

/-- The branch conditions of RV32I. -/
inductive Cond where
  | beq | bne | blt | bge | bltu | bgeu
  deriving DecidableEq, Repr

/-- The load forms of RV32I. -/
inductive Load where
  | lb | lh | lw | lbu | lhu
  deriving DecidableEq, Repr

/-- The store forms of RV32I. -/
inductive Store where
  | sb | sh | sw
  deriving DecidableEq, Repr

/-- The arithmetic operations of RV32I and of its M extension. -/
inductive Alu where
  | add | sub | sll | slt | sltu | xor | srl | sra | or | and
  | mul | mulh | mulhsu | mulhu | div | divu | rem | remu
  deriving DecidableEq, Repr

/-- An ordinary RV32IM operation (14 R372); a compressed word decodes to the operation it stands for. -/
inductive Op where
  | lui (rd : Fin 32) (imm : BitVec 32)
  | auipc (rd : Fin 32) (imm : BitVec 32)
  | jal (rd : Fin 32) (offset : BitVec 32)
  | jalr (rd rs1 : Fin 32) (offset : BitVec 32)
  | branch (c : Cond) (rs1 rs2 : Fin 32) (offset : BitVec 32)
  | load (k : Load) (rd rs1 : Fin 32) (offset : BitVec 32)
  | store (k : Store) (rs1 rs2 : Fin 32) (offset : BitVec 32)
  | aluImm (f : Alu) (rd rs1 : Fin 32) (imm : BitVec 32)
  | alu (f : Alu) (rd rs1 rs2 : Fin 32)
  deriving DecidableEq, Repr

end Rv

/-- The instructions and steps of the part, one constructor for each row of the opcode table. -/
inductive Instr where
  /-- ADD (R220): Integer add of two scalar operands modulo 2^W. -/
  | add (d : Fin 16) (a b : Fin 32) (w : Fin 4)
  /-- SUB (R220): Integer subtract modulo 2^W. -/
  | sub (d : Fin 16) (a b : Fin 32) (w : Fin 4)
  /-- AND (R220): Bitwise AND of two scalars. -/
  | and (d : Fin 16) (a b : Fin 32) (w : Fin 4)
  /-- OR (R220): Bitwise OR of two scalars. -/
  | or (d : Fin 16) (a b : Fin 32) (w : Fin 4)
  /-- XOR (R220): Bitwise XOR of two scalars. -/
  | xor (d : Fin 16) (a b : Fin 32) (w : Fin 4)
  /-- ANDN (R220): x AND NOT y. -/
  | andn (d : Fin 16) (a b : Fin 32) (w : Fin 4)
  /-- ORN (R220): x OR NOT y. -/
  | orn (d : Fin 16) (a b : Fin 32) (w : Fin 4)
  /-- SLL (R220): Logical shift left by a register amount. -/
  | sll (d : Fin 16) (a b : Fin 32) (w : Fin 4)
  /-- SRL (R220): Logical shift right by a register amount. -/
  | srl (d : Fin 16) (a b : Fin 32) (w : Fin 4)
  /-- SRA (R220): Arithmetic shift right by a register amount. -/
  | sra (d : Fin 16) (a b : Fin 32) (w : Fin 4)
  /-- ROL (R220): Rotate left by a register amount. -/
  | rol (d : Fin 16) (a b : Fin 32) (w : Fin 4)
  /-- ROR (R220): Rotate right by a register amount. -/
  | ror (d : Fin 16) (a b : Fin 32) (w : Fin 4)
  /-- MIN (R220): Signed minimum. -/
  | min (d : Fin 16) (a b : Fin 32) (w : Fin 4)
  /-- MAX (R220): Signed maximum. -/
  | max (d : Fin 16) (a b : Fin 32) (w : Fin 4)
  /-- MINZ (R220): Unsigned minimum. -/
  | minz (d : Fin 16) (a b : Fin 32) (w : Fin 4)
  /-- MAXZ (R220): Unsigned maximum. -/
  | maxz (d : Fin 16) (a b : Fin 32) (w : Fin 4)
  /-- ADDX2 (R220): x*2 + y modulo 2^W. -/
  | addx2 (d : Fin 16) (a b : Fin 32) (w : Fin 4)
  /-- ADDX4 (R220): x*4 + y modulo 2^W. -/
  | addx4 (d : Fin 16) (a b : Fin 32) (w : Fin 4)
  /-- ADDX8 (R220): x*8 + y modulo 2^W. -/
  | addx8 (d : Fin 16) (a b : Fin 32) (w : Fin 4)
  /-- ADDX16 (R220): x*16 + y modulo 2^W. -/
  | addx16 (d : Fin 16) (a b : Fin 32) (w : Fin 4)
  /-- CLMUL (R220): Low half of the carry-less product. -/
  | clmul (d : Fin 16) (a b : Fin 32) (w : Fin 4)
  /-- CLMULH (R220): High half of the carry-less product. -/
  | clmulh (d : Fin 16) (a b : Fin 32) (w : Fin 4)
  /-- CLZ (R221): Count leading zeros. -/
  | clz (d : Fin 16) (a : Fin 32) (w : Fin 4)
  /-- CTZ (R221): Count trailing zeros. -/
  | ctz (d : Fin 16) (a : Fin 32) (w : Fin 4)
  /-- POP (R221): Population count. -/
  | pop (d : Fin 16) (a : Fin 32) (w : Fin 4)
  /-- BREV (R221): Bit reversal. -/
  | brev (d : Fin 16) (a : Fin 32) (w : Fin 4)
  /-- BSWAP (R221): Byte reversal. -/
  | bswap (d : Fin 16) (a : Fin 32) (w : Fin 4)
  /-- SEXTB (R221): Sign-extend the low byte. -/
  | sextb (d : Fin 16) (a : Fin 32) (w : Fin 4)
  /-- SEXTH (R221): Sign-extend the low half-word. -/
  | sexth (d : Fin 16) (a : Fin 32) (w : Fin 4)
  /-- SEXTW (R221): Sign-extend the low word. -/
  | sextw (d : Fin 16) (a : Fin 32) (w : Fin 4)
  /-- ZEXTB (R221): Zero-extend the low byte. -/
  | zextb (d : Fin 16) (a : Fin 32) (w : Fin 4)
  /-- ZEXTH (R221): Zero-extend the low half-word. -/
  | zexth (d : Fin 16) (a : Fin 32) (w : Fin 4)
  /-- ZEXTW (R221): Zero-extend the low word. -/
  | zextw (d : Fin 16) (a : Fin 32) (w : Fin 4)
  /-- NEG (R221): Two's-complement negation. -/
  | neg (d : Fin 16) (a : Fin 32) (w : Fin 4)
  /-- NOT (R221): Bitwise complement. -/
  | not (d : Fin 16) (a : Fin 32) (w : Fin 4)
  /-- MOV (R221): Copy a scalar. -/
  | mov (d : Fin 16) (a : Fin 32) (w : Fin 4)
  /-- MUL (R222): Low half of the product. -/
  | mul (d : Fin 16) (a b : Fin 32) (w : Fin 4)
  /-- MULH (R222): High half of the signed product. -/
  | mulh (d : Fin 16) (a b : Fin 32) (w : Fin 4)
  /-- MULHZ (R222): High half of the unsigned product. -/
  | mulhz (d : Fin 16) (a b : Fin 32) (w : Fin 4)
  /-- MULHSZ (R222): High half of signed times unsigned. -/
  | mulhsz (d : Fin 16) (a b : Fin 32) (w : Fin 4)
  /-- DIV (R222): Signed division, no trap on zero. -/
  | div (d : Fin 16) (a b : Fin 32) (w : Fin 4)
  /-- DIVZ (R222): Unsigned division. -/
  | divz (d : Fin 16) (a b : Fin 32) (w : Fin 4)
  /-- REM (R222): Signed remainder. -/
  | rem (d : Fin 16) (a b : Fin 32) (w : Fin 4)
  /-- REMZ (R222): Unsigned remainder. -/
  | remz (d : Fin 16) (a b : Fin 32) (w : Fin 4)
  /-- SEQ (R224): Set 1 if equal. -/
  | seq (d : Fin 16) (a b : Fin 32) (w : Fin 4)
  /-- SNE (R224): Set 1 if not equal. -/
  | sne (d : Fin 16) (a b : Fin 32) (w : Fin 4)
  /-- SLT (R224): Set 1 if signed less. -/
  | slt (d : Fin 16) (a b : Fin 32) (w : Fin 4)
  /-- SGE (R224): Set 1 if signed greater or equal. -/
  | sge (d : Fin 16) (a b : Fin 32) (w : Fin 4)
  /-- SLO (R224): Set 1 if unsigned lower. -/
  | slo (d : Fin 16) (a b : Fin 32) (w : Fin 4)
  /-- SHS (R224): Set 1 if unsigned higher or same. -/
  | shs (d : Fin 16) (a b : Fin 32) (w : Fin 4)
  /-- SEL (R224): Select ka or kb by whether kc is nonzero. -/
  | sel (d : Fin 16) (a b : Fin 32) (w : Fin 4) (c : Fin 16)
  /-- BFX (R225): Extract a bit field, zero-extended. -/
  | bfx (d : Fin 16) (a b : Fin 32) (w : Fin 4)
  /-- BFXS (R225): Extract a bit field, sign-extended. -/
  | bfxs (d : Fin 16) (a b : Fin 32) (w : Fin 4)
  /-- BFI (R225): Insert a bit field into kd. -/
  | bfi (d : Fin 16) (a b : Fin 32) (w : Fin 4)
  /-- ADDI (R226): Add a sign-extended immediate. -/
  | addi (d : Fin 16) (a : Fin 32) (i : Fin 65536)
  /-- ANDI (R226): AND with a zero-extended immediate. -/
  | andi (d : Fin 16) (a : Fin 32) (i : Fin 65536)
  /-- ORI (R226): OR with a zero-extended immediate. -/
  | ori (d : Fin 16) (a : Fin 32) (i : Fin 65536)
  /-- XORI (R226): XOR with a zero-extended immediate. -/
  | xori (d : Fin 16) (a : Fin 32) (i : Fin 65536)
  /-- SLLI (R227): Shift left by an immediate amount. -/
  | slli (d : Fin 16) (a : Fin 32) (w : Fin 2) (s : Fin 64)
  /-- SRLI (R227): Logical shift right by an immediate amount. -/
  | srli (d : Fin 16) (a : Fin 32) (w : Fin 2) (s : Fin 64)
  /-- SRAI (R227): Arithmetic shift right by an immediate amount. -/
  | srai (d : Fin 16) (a : Fin 32) (w : Fin 2) (s : Fin 64)
  /-- ROLI (R227): Rotate left by an immediate amount. -/
  | roli (d : Fin 16) (a : Fin 32) (w : Fin 2) (s : Fin 64)
  /-- CMPI (R228): Compare with an immediate under a condition and write 1 or 0. -/
  | cmpi (d : Fin 16) (a : Fin 32) (c : Fin 8) (i : Fin 8192)
  /-- LI (R226): Load an immediate. -/
  | li (d : Fin 16) (i : Fin 65536)
  /-- GETC (R190): Read a control register into kd or the queue. -/
  | getc (d : Fin 16) (n : Fin 4096)
  /-- SETC (R190): Write a control register that has no behaviour of its own. -/
  | setc (a : Fin 32) (n : Fin 4096)
  /-- SETC_LOG_BASE (R83): Write LOG.BASE after filling logged tiles and emptying the pool. -/
  | setcLogBase (a : Fin 32)
  /-- SETC_TRACE (R133): Write TRACE.BASE or TRACE.LEN with the range and ring checks. -/
  | setcTrace (a : Fin 32) (n : Fin 2)
  /-- SETC_EV_REBASE (R353): Write EV.WIN or EV.ORG and rebase the windows. -/
  | setcEvRebase (a : Fin 32) (n : Fin 2)
  /-- SETC_EV_SPILL (R344): Place the spill ring after it has emptied. -/
  | setcEvSpill (a : Fin 32)
  /-- SETC_MX_MODE (R328): Remote write of MX.MODE or MX.SAMPLE, applying to later commands. -/
  | setcMxMode (a : Fin 32) (n : Fin 2)
  /-- BR (R230): Conditional or unconditional relative branch. -/
  | br (a b : Fin 32) (c : Fin 8) (p : Fin 4096)
  /-- JMP (R231): Relative jump. -/
  | jmp (p : Fin 33554432)
  /-- CALL (R231): Relative call writing k7. -/
  | call (p : Fin 33554432)
  /-- JR (R232): Jump to a register target. -/
  | jr (a : Fin 32)
  /-- CALLR (R232): Call to a register target, writing k7. -/
  | callr (a : Fin 32)
  /-- LNEST (R235): Read a nest descriptor, make the first claim and activate the nest. -/
  | lnest (d : Fin 16) (a : Fin 32)
  /-- LNEXT (R238): Advance the nest iteration or claim a new chunk and branch. -/
  | lnext (p : Fin 4096)
  /-- REP (R240): Repeat the next n vector, matrix or stream instructions with staggered fields. -/
  | rep (n : Fin 8) (a : Fin 32) (s t : Fin 8) (c : Fin 2048)
  /-- REPW (R243): Wait until the running repetition has issued in full. -/
  | repw
  /-- WAIT (R247): Evaluate up to four conditions and sleep until they end the wait. -/
  | wait (d : Fin 16) (a b : Fin 32)
  /-- DONE (R250): End the task after draining and handling tiles and helpers. -/
  | done
  /-- YIELD (R251): Pre-empt the task if an equal or higher priority record waits. -/
  | yield
  /-- TRAP (R252): Software trap with cause SW_TRAP and SKIP 1. -/
  | trap (a : Fin 32)
  /-- BRK (R252): Breakpoint trap with cause BRK. -/
  | brk
  /-- ERET (R253): Leave the trap entry, re-executing or skipping the group at TRAP.PC. -/
  | eret
  /-- CHK (R254): Take a lockstep checkpoint. -/
  | chk
  /-- NOP (R254): No operation. -/
  | nop
  /-- CANCEL (R255): Soft-cancel a level block. -/
  | cancel (a b : Fin 32)
  /-- CANCELH (R255): Hard-cancel a level block. -/
  | cancelh (a b : Fin 32)
  /-- TLBINV (R38): Fence and invalidate translations and L1 lines of a job's VA range. -/
  | tlbinv (a b : Fin 32)
  /-- FBFLUSH (R256): Remove delivered fault-buffer entries, bump the generation and send retries. -/
  | fbflush (d : Fin 16) (a : Fin 32)
  /-- HALT (R257): End the task and withdraw the core until reset. -/
  | halt
  /-- LD (R281): Scalar load with base and scaled offset. -/
  | ld (d : Fin 16) (a : Fin 32) (w : Fin 4) (s : Fin 2) (c : Fin 4) (o : Fin 2048)
  /-- ST (R281): Scalar store into the store buffer. -/
  | st (b a : Fin 32) (w c : Fin 4) (o : Fin 2048)
  /-- LDX (R282): Scalar load with a register index. -/
  | ldx (d : Fin 16) (a b : Fin 32) (w : Fin 4) (s : Fin 2) (c : Fin 4) (k : Fin 2)
  /-- STX (R282): Scalar store with a register index. -/
  | stx (d : Fin 16) (a b : Fin 32) (w c : Fin 4) (k : Fin 2)
  /-- LD_ACQ (R288): Acquire load at a scope. -/
  | ldAcq (d : Fin 16) (a : Fin 32) (p : Fin 8) (w : Fin 4) (s : Fin 2)
  /-- ST_REL (R288): Release store at a scope. -/
  | stRel (a b : Fin 32) (p : Fin 8) (w : Fin 4)
  /-- LD_SC (R288): Sequentially consistent load. -/
  | ldSc (d : Fin 16) (a : Fin 32) (p : Fin 8) (w : Fin 4) (s : Fin 2)
  /-- ST_SC (R288): Sequentially consistent store; a commit point. -/
  | stSc (a b : Fin 32) (p : Fin 8) (w : Fin 4)
  /-- AMO_ADD (R289): Returning atomic add. -/
  | amoAdd (d : Fin 16) (a b : Fin 32) (p : Fin 8) (o : Fin 4) (w : Fin 2)
  /-- AMO_AND (R289): Returning atomic AND. -/
  | amoAnd (d : Fin 16) (a b : Fin 32) (p : Fin 8) (o : Fin 4) (w : Fin 2)
  /-- AMO_OR (R289): Returning atomic OR. -/
  | amoOr (d : Fin 16) (a b : Fin 32) (p : Fin 8) (o : Fin 4) (w : Fin 2)
  /-- AMO_XOR (R289): Returning atomic XOR. -/
  | amoXor (d : Fin 16) (a b : Fin 32) (p : Fin 8) (o : Fin 4) (w : Fin 2)
  /-- AMO_MIN (R289): Returning atomic signed minimum. -/
  | amoMin (d : Fin 16) (a b : Fin 32) (p : Fin 8) (o : Fin 4) (w : Fin 2)
  /-- AMO_MAX (R289): Returning atomic signed maximum. -/
  | amoMax (d : Fin 16) (a b : Fin 32) (p : Fin 8) (o : Fin 4) (w : Fin 2)
  /-- AMO_MINZ (R289): Returning atomic unsigned minimum. -/
  | amoMinz (d : Fin 16) (a b : Fin 32) (p : Fin 8) (o : Fin 4) (w : Fin 2)
  /-- AMO_MAXZ (R289): Returning atomic unsigned maximum. -/
  | amoMaxz (d : Fin 16) (a b : Fin 32) (p : Fin 8) (o : Fin 4) (w : Fin 2)
  /-- AMO_SWAP (R289): Returning atomic swap. -/
  | amoSwap (d : Fin 16) (a b : Fin 32) (p : Fin 8) (o : Fin 4) (w : Fin 2)
  /-- AMO_FADD (R289): Returning atomic FP32 add. -/
  | amoFadd (d : Fin 16) (a b : Fin 32) (p : Fin 8) (o : Fin 4) (w : Fin 2)
  /-- AMO_INCW (R289): Returning atomic wrapping increment against a bound. -/
  | amoIncw (d : Fin 16) (a b : Fin 32) (p : Fin 8) (o : Fin 4) (w : Fin 2)
  /-- RED_ADD (R289): Non-returning atomic add. -/
  | redAdd (a b : Fin 32) (p : Fin 8) (w : Fin 2)
  /-- RED_AND (R289): Non-returning atomic AND. -/
  | redAnd (a b : Fin 32) (p : Fin 8) (w : Fin 2)
  /-- RED_OR (R289): Non-returning atomic OR. -/
  | redOr (a b : Fin 32) (p : Fin 8) (w : Fin 2)
  /-- RED_XOR (R289): Non-returning atomic XOR. -/
  | redXor (a b : Fin 32) (p : Fin 8) (w : Fin 2)
  /-- RED_MIN (R289): Non-returning atomic signed minimum. -/
  | redMin (a b : Fin 32) (p : Fin 8) (w : Fin 2)
  /-- RED_MAX (R289): Non-returning atomic signed maximum. -/
  | redMax (a b : Fin 32) (p : Fin 8) (w : Fin 2)
  /-- RED_MINZ (R289): Non-returning atomic unsigned minimum. -/
  | redMinz (a b : Fin 32) (p : Fin 8) (w : Fin 2)
  /-- RED_MAXZ (R289): Non-returning atomic unsigned maximum. -/
  | redMaxz (a b : Fin 32) (p : Fin 8) (w : Fin 2)
  /-- RED_SWAP (R289): Non-returning atomic swap. -/
  | redSwap (a b : Fin 32) (p : Fin 8) (w : Fin 2)
  /-- RED_FADD (R289): Non-returning atomic FP32 add. -/
  | redFadd (a b : Fin 32) (p : Fin 8) (w : Fin 2)
  /-- CAS (R290): Compare-and-swap returning the old value. -/
  | cas (d : Fin 16) (a b : Fin 32) (p : Fin 8) (o : Fin 4) (w : Fin 2) (c : Fin 16)
  /-- FENCE_ACQ (R125): Acquire fence. -/
  | fenceAcq (p : Fin 8)
  /-- FENCE_REL (R125): Release fence. -/
  | fenceRel (p : Fin 8)
  /-- FENCE_FULL (R125): Full fence. -/
  | fenceFull (p : Fin 8)
  /-- PF (R293): Prefetch a sector; never traps. -/
  | pf (a : Fin 32)
  /-- L1INV (R294): Discard L1D sectors and atomic-buffer entries in a range. -/
  | l1inv (a b : Fin 32)
  /-- SBIND (R297): Bind a stream to a register from a descriptor. -/
  | sbind (s : Fin 8) (b : Fin 32)
  /-- SUNBIND (R300): Unbind a stream. -/
  | sunbind (s : Fin 8)
  /-- SSTAT (R301): Read a stream's status. -/
  | sstat (d : Fin 16) (s : Fin 8)
  /-- EJOB (R305): Check and submit an engine job card. -/
  | ejob (a : Fin 32)
  /-- VADD_FP (R264): Floating-point vector add. -/
  | vaddFp (d : Fin 16) (a b : Fin 32) (t m : Fin 8)
  /-- VSUB_FP (R264): Floating-point vector subtract. -/
  | vsubFp (d : Fin 16) (a b : Fin 32) (t m : Fin 8)
  /-- VMUL_FP (R264): Floating-point vector multiply. -/
  | vmulFp (d : Fin 16) (a b : Fin 32) (t m : Fin 8)
  /-- VMLA_FP (R264): Fused multiply-add into vd. -/
  | vmlaFp (d : Fin 16) (a b : Fin 32) (t m : Fin 8)
  /-- VMLS_FP (R264): Fused multiply-subtract from vd. -/
  | vmlsFp (d : Fin 16) (a b : Fin 32) (t m : Fin 8)
  /-- VMIN_FP (R264): Floating-point minimum. -/
  | vminFp (d : Fin 16) (a b : Fin 32) (t m : Fin 8)
  /-- VMAX_FP (R264): Floating-point maximum. -/
  | vmaxFp (d : Fin 16) (a b : Fin 32) (t m : Fin 8)
  /-- VABS_FP (R264): Clear the sign bit. -/
  | vabsFp (d : Fin 16) (a : Fin 32) (t m : Fin 8)
  /-- VNEG_FP (R264): Invert the sign bit. -/
  | vnegFp (d : Fin 16) (a : Fin 32) (t m : Fin 8)
  /-- VDIV (R264): FP32 vector divide. -/
  | vdiv (d : Fin 16) (a b : Fin 32) (t m : Fin 8)
  /-- VSQRT (R264): FP32 vector square root. -/
  | vsqrt (d : Fin 16) (a : Fin 32) (t m : Fin 8)
  /-- VRCP (R264): Reciprocal estimate. -/
  | vrcp (d : Fin 16) (a : Fin 32) (t m : Fin 8)
  /-- VRSQ (R264): Reciprocal square-root estimate. -/
  | vrsq (d : Fin 16) (a : Fin 32) (t m : Fin 8)
  /-- VADD_INT (R266): Integer vector add. -/
  | vaddInt (d : Fin 16) (a b : Fin 32) (t m : Fin 8)
  /-- VSUB_INT (R266): Integer vector subtract. -/
  | vsubInt (d : Fin 16) (a b : Fin 32) (t m : Fin 8)
  /-- VMUL_INT (R266): Integer vector multiply. -/
  | vmulInt (d : Fin 16) (a b : Fin 32) (t m : Fin 8)
  /-- VMLA_INT (R266): Integer multiply-accumulate. -/
  | vmlaInt (d : Fin 16) (a b : Fin 32) (t m : Fin 8)
  /-- VMIN_INT (R266): Signed lane minimum. -/
  | vminInt (d : Fin 16) (a b : Fin 32) (t m : Fin 8)
  /-- VMAX_INT (R266): Signed lane maximum. -/
  | vmaxInt (d : Fin 16) (a b : Fin 32) (t m : Fin 8)
  /-- VMINZ (R266): Unsigned lane minimum. -/
  | vminz (d : Fin 16) (a b : Fin 32) (t m : Fin 8)
  /-- VMAXZ (R266): Unsigned lane maximum. -/
  | vmaxz (d : Fin 16) (a b : Fin 32) (t m : Fin 8)
  /-- VABS_INT (R266): Integer absolute value. -/
  | vabsInt (d : Fin 16) (a : Fin 32) (t m : Fin 8)
  /-- VNEG_INT (R266): Integer negation. -/
  | vnegInt (d : Fin 16) (a : Fin 32) (t m : Fin 8)
  /-- VADDS (R266): Signed saturating add. -/
  | vadds (d : Fin 16) (a b : Fin 32) (t m : Fin 8)
  /-- VSUBS (R266): Signed saturating subtract. -/
  | vsubs (d : Fin 16) (a b : Fin 32) (t m : Fin 8)
  /-- VADDSZ (R266): Unsigned saturating add. -/
  | vaddsz (d : Fin 16) (a b : Fin 32) (t m : Fin 8)
  /-- VSUBSZ (R266): Unsigned saturating subtract. -/
  | vsubsz (d : Fin 16) (a b : Fin 32) (t m : Fin 8)
  /-- VMULH (R266): High half of the signed lane product. -/
  | vmulh (d : Fin 16) (a b : Fin 32) (t m : Fin 8)
  /-- VDOT4 (R266): Signed 4-way byte dot product per 32-bit lane. -/
  | vdot4 (d : Fin 16) (a b : Fin 32) (t m : Fin 8)
  /-- VDOT4Z (R266): Unsigned 4-way byte dot product per 32-bit lane. -/
  | vdot4z (d : Fin 16) (a b : Fin 32) (t m : Fin 8)
  /-- VCLMUL (R266): Low half of the lane carry-less product. -/
  | vclmul (d : Fin 16) (a b : Fin 32) (t m : Fin 8)
  /-- VCLMULH (R266): High half of the lane carry-less product. -/
  | vclmulh (d : Fin 16) (a b : Fin 32) (t m : Fin 8)
  /-- VAND (R268): Lane AND. -/
  | vand (d : Fin 16) (a b : Fin 32) (t m : Fin 8)
  /-- VOR (R268): Lane OR. -/
  | vor (d : Fin 16) (a b : Fin 32) (t m : Fin 8)
  /-- VXOR (R268): Lane XOR. -/
  | vxor (d : Fin 16) (a b : Fin 32) (t m : Fin 8)
  /-- VANDN (R268): Lane AND NOT. -/
  | vandn (d : Fin 16) (a b : Fin 32) (t m : Fin 8)
  /-- VNOT (R268): Lane complement. -/
  | vnot (d : Fin 16) (a : Fin 32) (t m : Fin 8)
  /-- VSHL (R268): Lane shift left by vector amounts. -/
  | vshl (d : Fin 16) (a b : Fin 32) (t m : Fin 8)
  /-- VSHR (R268): Lane logical shift right by vector amounts. -/
  | vshr (d : Fin 16) (a b : Fin 32) (t m : Fin 8)
  /-- VSRA (R268): Lane arithmetic shift right by vector amounts. -/
  | vsra (d : Fin 16) (a b : Fin 32) (t m : Fin 8)
  /-- VPOPC (R268): Lane population count. -/
  | vpopc (d : Fin 16) (a : Fin 32) (t m : Fin 8)
  /-- VCLZ (R268): Lane leading-zero count. -/
  | vclz (d : Fin 16) (a : Fin 32) (t m : Fin 8)
  /-- VSHLI (R268): Lane shift left by an immediate. -/
  | vshli (d : Fin 16) (a i : Fin 32) (t m : Fin 8)
  /-- VSHRI (R268): Lane logical shift right by an immediate. -/
  | vshri (d : Fin 16) (a i : Fin 32) (t m : Fin 8)
  /-- VSRAI (R268): Lane arithmetic shift right by an immediate. -/
  | vsrai (d : Fin 16) (a i : Fin 32) (t m : Fin 8)
  /-- VEQ (R269): Lane equal compare into a mask. -/
  | veq (d : Fin 16) (a b : Fin 32) (t m : Fin 8)
  /-- VNE (R269): Lane not-equal compare. -/
  | vne (d : Fin 16) (a b : Fin 32) (t m : Fin 8)
  /-- VLT (R269): Lane signed less compare. -/
  | vlt (d : Fin 16) (a b : Fin 32) (t m : Fin 8)
  /-- VGE (R269): Lane signed greater-or-equal compare. -/
  | vge (d : Fin 16) (a b : Fin 32) (t m : Fin 8)
  /-- VLO (R269): Lane unsigned lower compare. -/
  | vlo (d : Fin 16) (a b : Fin 32) (t m : Fin 8)
  /-- VHS (R269): Lane unsigned higher-or-same compare. -/
  | vhs (d : Fin 16) (a b : Fin 32) (t m : Fin 8)
  /-- VFEQ (R269): Lane floating-point equal compare. -/
  | vfeq (d : Fin 16) (a b : Fin 32) (t m : Fin 8)
  /-- VFLT (R269): Lane floating-point less compare. -/
  | vflt (d : Fin 16) (a b : Fin 32) (t m : Fin 8)
  /-- VFLE (R269): Lane floating-point less-or-equal compare. -/
  | vfle (d : Fin 16) (a b : Fin 32) (t m : Fin 8)
  /-- VFUN (R269): Lane unordered compare. -/
  | vfun (d : Fin 16) (a b : Fin 32) (t m : Fin 8)
  /-- MAND (R270): Mask AND. -/
  | mand (d : Fin 16) (a b : Fin 32) (t : Fin 8)
  /-- MOR (R270): Mask OR. -/
  | mor (d : Fin 16) (a b : Fin 32) (t : Fin 8)
  /-- MXOR (R270): Mask XOR. -/
  | mxor (d : Fin 16) (a b : Fin 32) (t : Fin 8)
  /-- MANDN (R270): Mask AND NOT. -/
  | mandn (d : Fin 16) (a b : Fin 32) (t : Fin 8)
  /-- MPOP (R270): Count set mask bits. -/
  | mpop (d : Fin 16) (a : Fin 32) (t : Fin 8)
  /-- MFFS (R270): Index of the lowest set mask bit. -/
  | mffs (d : Fin 16) (a : Fin 32) (t : Fin 8)
  /-- VSEL (R270): Select lanes of va or vb by a mask. -/
  | vsel (d : Fin 16) (a b : Fin 32) (t m : Fin 8)
  /-- VCVT (R273): Floating-point format conversion. -/
  | vcvt (d : Fin 16) (a : Fin 32) (r : Fin 4) (s t m : Fin 8)
  /-- VF2I (R273): Floating-point to saturated signed integer. -/
  | vf2i (d : Fin 16) (a : Fin 32) (r : Fin 4) (s t m : Fin 8)
  /-- VI2F (R273): Integer to floating point. -/
  | vi2f (d : Fin 16) (a : Fin 32) (r : Fin 4) (s t m : Fin 8)
  /-- VNARROW (R273): Integer narrowing with wrap or saturation. -/
  | vnarrow (d : Fin 16) (a : Fin 32) (q : Fin 4) (s t m : Fin 8)
  /-- VWIDEN (R273): Integer widening of one half. -/
  | vwiden (d : Fin 16) (a : Fin 32) (h e : Fin 2) (s t m : Fin 8)
  /-- VPERM (R274): Lane permutation by indices. -/
  | vperm (d : Fin 16) (a b : Fin 32) (t m : Fin 8)
  /-- VSLIDEUP (R274): Slide lanes up by a scalar count. -/
  | vslideup (d : Fin 16) (a b : Fin 32) (t m : Fin 8)
  /-- VSLIDEDN (R274): Slide lanes down by a scalar count. -/
  | vslidedn (d : Fin 16) (a b : Fin 32) (t m : Fin 8)
  /-- VCOMPRESS (R274): Pack mask-selected lanes from lane 0. -/
  | vcompress (d : Fin 16) (a : Fin 32) (t m : Fin 8)
  /-- VEXPAND (R274): Spread lanes to mask-selected positions. -/
  | vexpand (d : Fin 16) (a : Fin 32) (t m : Fin 8)
  /-- VZIP_LO (R274): Interleave low halves. -/
  | vzipLo (d : Fin 16) (a b : Fin 32) (t m : Fin 8)
  /-- VZIP_HI (R274): Interleave high halves. -/
  | vzipHi (d : Fin 16) (a b : Fin 32) (t m : Fin 8)
  /-- VUZP_EV (R274): De-interleave even lanes. -/
  | vuzpEv (d : Fin 16) (a b : Fin 32) (t m : Fin 8)
  /-- VUZP_OD (R274): De-interleave odd lanes. -/
  | vuzpOd (d : Fin 16) (a b : Fin 32) (t m : Fin 8)
  /-- VREV (R274): Reverse lane order. -/
  | vrev (d : Fin 16) (a : Fin 32) (t m : Fin 8)
  /-- VPACK (R274): Join the low halves of two vectors. -/
  | vpack (d : Fin 16) (a b : Fin 32) (t m : Fin 8)
  /-- VRADD (R275): Integer sum reduction to a scalar. -/
  | vradd (d : Fin 16) (a : Fin 32) (t m : Fin 8)
  /-- VRMIN (R275): Signed minimum reduction. -/
  | vrmin (d : Fin 16) (a : Fin 32) (t m : Fin 8)
  /-- VRMAX (R275): Signed maximum reduction. -/
  | vrmax (d : Fin 16) (a : Fin 32) (t m : Fin 8)
  /-- VRMINZ (R275): Unsigned minimum reduction. -/
  | vrminz (d : Fin 16) (a : Fin 32) (t m : Fin 8)
  /-- VRMAXZ (R275): Unsigned maximum reduction. -/
  | vrmaxz (d : Fin 16) (a : Fin 32) (t m : Fin 8)
  /-- VRAND (R275): AND reduction. -/
  | vrand (d : Fin 16) (a : Fin 32) (t m : Fin 8)
  /-- VROR (R275): OR reduction. -/
  | vror (d : Fin 16) (a : Fin 32) (t m : Fin 8)
  /-- VRXOR (R275): XOR reduction. -/
  | vrxor (d : Fin 16) (a : Fin 32) (t m : Fin 8)
  /-- VRFADD (R276): Sequential floating-point sum in lane order. -/
  | vrfadd (d : Fin 16) (a : Fin 32) (t m : Fin 8)
  /-- VSCAN_ADD (R275): Prefix sum over selected lanes. -/
  | vscanAdd (d : Fin 16) (a : Fin 32) (t m : Fin 8)
  /-- VSCAN_XOR (R275): Prefix XOR over selected lanes. -/
  | vscanXor (d : Fin 16) (a : Fin 32) (t m : Fin 8)
  /-- VSCAN_MAX (R275): Prefix signed maximum over selected lanes. -/
  | vscanMax (d : Fin 16) (a : Fin 32) (t m : Fin 8)
  /-- VSPLAT (R277): Broadcast a scalar to active lanes. -/
  | vsplat (d : Fin 16) (a : Fin 32) (t m : Fin 8)
  /-- VEXT (R277): Extract one lane to a scalar. -/
  | vext (d : Fin 16) (a b : Fin 32) (t : Fin 8)
  /-- VINS (R277): Insert a scalar into one lane of vd. -/
  | vins (d : Fin 16) (a b : Fin 32) (t : Fin 8)
  /-- VMOV (R277): Copy active lanes. -/
  | vmov (d : Fin 16) (a : Fin 32) (t m : Fin 8)
  /-- VIDX (R277): Write each lane's index. -/
  | vidx (d : Fin 16) (t m : Fin 8)
  /-- VBITS (R277): Copy a mask to a scalar. -/
  | vbits (d : Fin 16) (a : Fin 32) (t : Fin 8)
  /-- VMSK (R277): Copy a scalar to a mask. -/
  | vmsk (d : Fin 16) (a : Fin 32) (t : Fin 8)
  /-- VLD (R284): Vector load of 16, 32 or 64 bytes. -/
  | vld (d : Fin 16) (a : Fin 32) (z c : Fin 4) (o : Fin 2048)
  /-- VST (R284): Vector store of 16, 32 or 64 bytes. -/
  | vst (b a : Fin 32) (z c : Fin 4) (o : Fin 2048)
  /-- VLSS (R285): Strided vector load. -/
  | vlss (d : Fin 16) (a b : Fin 32) (t : Fin 8) (c : Fin 4) (m : Fin 8)
  /-- VSSS (R285): Strided vector store. -/
  | vsss (d : Fin 16) (a b : Fin 32) (t : Fin 8) (c : Fin 4) (m : Fin 8)
  /-- VGTH (R286): Gather with sentinel and bound, executed at the slices. -/
  | vgth (d : Fin 16) (a b : Fin 32) (k : Fin 16) (i e : Fin 4) (m : Fin 8)
  /-- VSCT (R286): Scatter with sentinel and bound. -/
  | vsct (d : Fin 16) (a b : Fin 32) (k : Fin 16) (i e : Fin 4) (m : Fin 8)
  /-- VLDL (R287): Uniform lane-slice load. -/
  | vldl (d : Fin 16) (a : Fin 32) (t m : Fin 8)
  /-- VLDLX (R287): Indexed lane-slice load. -/
  | vldlx (d : Fin 16) (a : Fin 32) (t m : Fin 8)
  /-- VSTL (R287): Uniform lane-slice store. -/
  | vstl (a b : Fin 32) (t m : Fin 8)
  /-- VSTLX (R287): Indexed lane-slice store. -/
  | vstlx (a b : Fin 32) (t m : Fin 8)
  /-- TCFG (R91): Configure a tile-table entry. -/
  | tcfg (n : Fin 64) (a b : Fin 32)
  /-- TLD (R331): Copy rows from memory into a tile's home. -/
  | tld (n : Fin 64) (a b : Fin 32)
  /-- TST (R331): Copy a tile's rows to memory. -/
  | tst (n : Fin 64) (a b : Fin 32)
  /-- TFETCH (R78): Request the fill of a paged tile. -/
  | tfetch (n : Fin 64)
  /-- TEVICT (R78): Request the eviction of a paged tile. -/
  | tevict (n : Fin 64)
  /-- TZERO (R330): Zero a tile's home bytes. -/
  | tzero (n : Fin 64)
  /-- TSTAT (R330): Push TSTAT, TCFG or TBACK of an entry. -/
  | tstat (n : Fin 64) (s : Fin 32)
  /-- TPIN (R77): Set PINNED on a tile. -/
  | tpin (n : Fin 64)
  /-- TUNPIN (R77): Clear PINNED on a tile. -/
  | tunpin (n : Fin 64)
  /-- MWLD (R317): Queue a dense weight latch of tile tb. -/
  | mwld (u : Fin 16)
  /-- MWLD_SP (R319): Check staged codes and queue a 2:4 sparse weight latch. -/
  | mwldSp (u : Fin 16)
  /-- MMETA (R318): Write 2:4 codes of two columns into the staging buffer. -/
  | mmeta (s a : Fin 32)
  /-- MMUL (R320): Queue a multiplication of tile ta by the latch. -/
  | mmul (t : Fin 16) (c : Fin 2)
  /-- MMUL_SC (R321): Queue a block-scaled FP8 multiplication. -/
  | mmulSc (t u : Fin 16) (a : Fin 32) (c : Fin 2)
  /-- MWSC (R321): Queue a write of the weight scales SB0 and SB1. -/
  | mwsc (a : Fin 32)
  /-- MST (R324): Queue a store of the accumulator into tile td. -/
  | mst (d : Fin 16)
  /-- MLD (R325): Queue a load of the accumulator from tile ta. -/
  | mld (t : Fin 16)
  /-- MFENCE (R326): Wait until the core's MXE queue is empty, then acquire. -/
  | mfence
  /-- CPUSH (R335): Send one contribution to a coalescer slot. -/
  | cpush (a b : Fin 32) (s : Fin 8)
  /-- CFLUSH (R335): Queue a close of a coalescer slot. -/
  | cflush (s : Fin 8)
  /-- CARM (R334): Arm or disarm a coalescer slot with descriptor and template. -/
  | carm (a b : Fin 32) (s : Fin 8)
  /-- EVPOP (R355): Take the next deliverable event into EVH. -/
  | evpop (d : Fin 16)
  /-- EVPAY (R356): Read the payload of the last popped event. -/
  | evpay (d : Fin 16)
  /-- EVSEND (R357): Send a LAYER or BUOY event to a core's slot. -/
  | evsend (a b : Fin 32) (n : Fin 2)
  /-- EVWIN_CLOSE (R358): Close the open window at once (operation 0). -/
  | evwinClose (a b : Fin 32)
  /-- EVWIN_ORIGIN (R358): Set EV.ORG and rebase (operation 1). -/
  | evwinOrigin (a b : Fin 32)
  /-- EVWIN_SLOTS (R358): Set the enabled slots (operation 2). -/
  | evwinSlots (a b : Fin 32)
  /-- EVSTAT (R359): Read the event-queue status. -/
  | evstat (d : Fin 16)
  /-- SPAWN (R363): Spawn a record or launch descriptor onto the deque. -/
  | spawn (a : Fin 32)
  /-- DEC (R364): Decrement a record's DEP at its home and place it at zero. -/
  | dec (a : Fin 32)
  /-- QPUSH (R366): Push a 64-byte entry to a hardware queue. -/
  | qpush (d : Fin 16) (a b : Fin 32)
  /-- QPOP (R366): Pop a 64-byte entry from a hardware queue. -/
  | qpop (d : Fin 16) (a : Fin 32)
  /-- BAR (R368): Arrive at a barrier and wait for its generation to change. -/
  | bar (d : Fin 16) (a b : Fin 32)
  /-- HNT_STALL (R201): Supply stall counts for the next seven instructions. -/
  | hntStall (g f e d c b a : Fin 8)
  /-- HNT_IMM (R202): Extend the target's immediate by 21 bits. -/
  | hntImm (p : Fin 2097152)
  /-- HNT_MOD (R203): Override SC, scope, saturation or rounding of the target. -/
  | hntMod (p : Fin 2097152)
  /-- HNT_BR (R204): Give the target branch's likelihood. -/
  | hntBr (p : Fin 2097152)
  /-- HNT_NOP (R205): Hint kinds 4 to 15, with no effect. -/
  | hntNop (k : Fin 16) (p : Fin 2097152)
  /-- YL_LD_FIFO (R376): Loader reads EW bytes at A into the next place of FIFO n. -/
  | ylLdFifo (n : Fin 8) (h : Fin 4) (s : Fin 32)
  /-- YL_LD_REG (R376): Helper loads a device word into x[rd]. -/
  | ylLdReg (h : Fin 4) (s r : Fin 32)
  /-- YL_PUSH (R377): Loader adds a 4-byte part to the element in FIFO n. -/
  | ylPush (n : Fin 8) (s : Fin 32)
  /-- YL_BASE (R376): Set a 64-bit helper base register. -/
  | ylBase (h : Fin 4) (t s : Fin 32)
  /-- YL_WAIT (R378): Wait for room, an element or DONE, and read status. -/
  | ylWait (n : Fin 8) (r : Fin 32)
  /-- YL_END (R379): End a stream from the helper side, optionally stopping. -/
  | ylEnd (f : Fin 2) (n : Fin 8)
  /-- YL_POP (R377): Storer takes the next 4 bytes of the oldest element. -/
  | ylPop (n : Fin 8) (r : Fin 32)
  /-- YL_ST (R376): Storer removes the oldest element and writes it at A. -/
  | ylSt (n : Fin 8) (h : Fin 4) (s : Fin 32)
  /-- HELPER_RV32_INSTR (R372): A helper executes an ordinary RV32IMC instruction. -/
  | helperRv32Instr (compressed : Bool) (op : Rv.Op)
  /-- HELPER_FENCE (R372): Helper FENCE orders its device accesses as fence.full at .core. -/
  | helperFence
  /-- HELPER_EBREAK (R372): Helper EBREAK faults BRK and stops the helper. -/
  | helperEbreak (compressed : Bool)
  /-- RESULT_WRITEBACK (R208): A variable-latency result arrives and is written to its register or queue slot. -/
  | resultWriteback (c : CoreId)
  /-- STORE_PERFORM (R283): A buffered write performs at its home. -/
  | storePerform (c : CoreId) (i : Nat)
  /-- L1D_SECTOR_FILL (R99): A requested L1D sector returns and is installed unless invalidated meanwhile. -/
  | l1dSectorFill (c : CoreId)
  /-- FB_EVENT_RESEND (R417): A refused fault-buffer event is sent again after 1 µs. -/
  | fbEventResend (die : Fin 2) (entry : Nat)
  /-- FAULT_RETRY (R417): A tagged retry reaches the faulting agent, which resumes, requeues or ends. -/
  | faultRetry (die : Fin 2) (entry gen : Nat)
  /-- TLBINV_COMPLETE (R38): All accesses using dropped entries have performed and tlbinv completes. -/
  | tlbinvComplete (c : CoreId)
  /-- PARITY_LAND (R49): A parity-queue entry lands in its parity bank and may clear a stale bit. -/
  | parityLand (c : CoreId) (g : Fin 4)
  /-- SCRUB_STEP (R53): The core scrubber checks one group row on its interval. -/
  | scrubStep (c : CoreId)
  /-- SQM_SCRUB_STEP (R64): The square-memory or chip-scratchpad scrubber checks one row. -/
  | sqmScrubStep (u : ScrubUnit)
  /-- EPOCH_END (R54): Every 2^30 cycles the corrected-error counts clear. -/
  | epochEnd
  /-- BANK_RETIRE (R54): A bank is retired once its group's parity queue is empty. -/
  | bankRetire (c : CoreId) (bank : Fin 20)
  /-- LEND_CLEAR_DONE (R60): A dark core finishes clearing its lent quarters and begins lending. -/
  | lendClearDone (c : CoreId)
  /-- LEND_END_CLEAR_DONE (R60): After a HOT task ends, the lender finishes clearing its quarters. -/
  | lendEndClearDone (c : CoreId)
  /-- SQUARE_CLEAR_DONE (R67): The clear of a square's memories at a partition change completes. -/
  | squareClearDone (sq : SquareId)
  /-- CSP_CLEAR_DONE (R66): The 512-cycle clear of a chip-scratchpad segment completes. -/
  | cspClearDone (die : Fin 2) (seg : Fin 32)
  /-- TILE_FILL_LAST_BEAT (R76): A fill's last beat lands and log application starts. -/
  | tileFillLastBeat (c : CoreId) (n : Fin 64)
  /-- LOG_APPLY_ENTRY (R86): One log entry is applied; after the last the tile becomes READY. -/
  | logApplyEntry (c : CoreId) (n : Fin 64)
  /-- TILE_DRAIN_DONE (R76): A drain's last beat is written; the log is applied and the state set. -/
  | tileDrainDone (c : CoreId) (n : Fin 64)
  /-- TILE_TRANSFER_FAULT (R81): A fill or drain faults and is handled by what caused it. -/
  | tileTransferFault (c : CoreId) (n : Fin 64)
  /-- BEACON_WINDOW (R129): At each beacon window the announced SC operations take their places in the total order. -/
  | beaconWindow
  /-- TRACE_RECORD_WRITE (R134): A buffered trace record is written to the ring. -/
  | traceRecordWrite (c : CoreId)
  /-- ENGINE_JOB_START (R136): A job whose footprint edges have cleared starts. -/
  | engineJobStart (c : CoreId) (id : Nat)
  /-- ENGINE_JOB_COMPLETE (R138): A job's writes have performed; its counter is incremented with release. -/
  | engineJobComplete (c : CoreId) (id : Nat)
  /-- ENGINE_JOB_FAULT (R307): A non-paging fault ends a running job with a trap-queue record. -/
  | engineJobFault (c : CoreId) (id : Nat)
  /-- OWNERSHIP_GRANT (R147): The home grants a NEAR block to a core's atomic buffer. -/
  | ownershipGrant (c : CoreId)
  /-- REVOKE (R148): A revoke reaches an owner, which returns the block after its issued atomics. -/
  | revoke (c : CoreId) (block : Nat) (byOther : Bool)
  /-- REVOKE_DATA_RETURN (R148): Returned block data is installed at the home and the waiting access served. -/
  | revokeDataReturn (block : Nat)
  /-- DRAM_REFRESH (R111): The controller refreshes one bank. -/
  | dramRefresh (die : Fin 2) (ch : Fin 24) (bank : Fin 16)
  /-- STREAM_FETCH_RETURN (R298): An AGEN read element returns into its stream FIFO. -/
  | streamFetchReturn (c : CoreId) (s : Fin 8)
  /-- MXE_LATCH_LOAD_DONE (R312): Loading another core's latch into the PEs completes. -/
  | mxeLatchLoadDone (sq : SquareId)
  /-- MXE_COMMAND_START (R312): The sequencer starts the chosen queue's head command. -/
  | mxeCommandStart (sq : SquareId)
  /-- MXE_ROW_INJECT (R313): The array injects the next row at the cadence in force. -/
  | mxeRowInject (sq : SquareId)
  /-- MXE_COMMAND_COMPLETE (R313): A matrix command completes and releases its tile references. -/
  | mxeCommandComplete (sq : SquareId)
  /-- MXE_QUEUE_WINDOW_STORE (R316): A 64-byte store into the MXE queue window pushes a command. -/
  | mxeQueueWindowStore (c : CoreId) (byStorer : Bool) (data : BitVec 512)
  /-- COPY_QUEUE_WINDOW_STORE (R306): A 64-byte store into the copy-engine window submits a card. -/
  | copyQueueWindowStore (c : CoreId) (byStorer : Bool) (data : BitVec 512)
  /-- COALESCER_APPLY (R335): The coalescer applies its input queue's head entry. -/
  | coalescerApply (sq : SquareId)
  /-- COALESCER_TIMEOUT (R336): CO.TMO ticks after the first contribution close the slot. -/
  | coalescerTimeout (sq : SquareId) (slot : Fin 8)
  /-- COALESCER_TWIN_READY (R336): The waiting twin's BUSY clears and it becomes the zeroed gathering tile. -/
  | coalescerTwinReady (sq : SquareId) (slot : Fin 8)
  /-- EVENT_ARRIVE (R342): An event reaches a core's queue and is accepted, spilled or dropped. -/
  | eventArrive (c : CoreId) (slot : Fin 8) (header payload : BitVec 64) (origin : EventOrigin)
  /-- WINDOW_STALE_TIMEOUT (R348): The stale timeout closes the window with a STALE event. -/
  | windowStaleTimeout (c : CoreId)
  /-- WAIT_WAKE (R247): A re-evaluation finds the wait's conditions satisfied. -/
  | waitWake (c : CoreId)
  /-- WAIT_TIMEOUT (R247): The wait's deadline passes. -/
  | waitTimeout (c : CoreId)
  /-- BAR_RELEASE (R368): A waiting participant sees GEN change and returns. -/
  | barRelease (c : CoreId)
  /-- TASK_END (R250): done's drains finish and the counts are updated; the core goes IDLE. -/
  | taskEnd (c : CoreId)
  /-- SELECTION_ROUND (R390): Every 32 cycles a half selects records for idle cores. -/
  | selectionRound (die : Fin 2)
  /-- TASK_BIND (R394): A selected record binds, reading its type entry and helper images. -/
  | taskBind (c : CoreId)
  /-- TASK_START (R375): Helper images are in place; the task's first instruction issues. -/
  | taskStart (c : CoreId)
  /-- AGING_TICK (R161): A waiting record's priority rises after each 50 µs. -/
  | agingTick
  /-- STEAL_REQUEST (R396): A steal request reaches a victim deque's controller. -/
  | stealRequest (thief : CoreId)
  /-- STEAL_REPLY (R396): A steal reply reaches the thief, which binds or asks the next core. -/
  | stealReply (thief : CoreId)
  /-- STEAL_BACKOFF (R395): 256 cycles after a failed round the core may steal again. -/
  | stealBackoff (c : CoreId)
  /-- HALF_EXCHANGE (R398): Every 256 cycles the halves exchange counts and may move records. -/
  | halfExchange
  /-- LANTERN_CIRCUIT (R406): A lantern circuit ends at the originator, which may report quiescence. -/
  | lanternCircuit
  /-- FORECAST_TICK (R407): At each microsecond the halves write activity forecasts. -/
  | forecastTick
  /-- RAIL_SETTLE (R427): A district rail settles and raised square clocks switch. -/
  | railSettle (district : Fin 8)
  /-- SLEW_STEP (R431): At each 4-beacon-cycle step the limiter decides start and fall grants. -/
  | slewStep (district : Fin 8)
  /-- NRG_UPDATE (R435): Every 1,024 cycles energy counts are converted and updated. -/
  | nrgUpdate
  /-- TRQ_RETRY (R415): Held trap-queue records are retried every 1 µs. -/
  | trqRetry (die : Fin 2)
  /-- WATCHDOG (R419): A RUN task issues nothing for WDG.LIM ticks and the unit ends. -/
  | watchdog (c : CoreId)
  /-- LOCKSTEP_MISMATCH (R177): Compared lockstep copies differ; the pair replays or fails. -/
  | lockstepMismatch (c : CoreId)
  /-- PREEMPT_DRAIN_DONE (R422): A pre-empted task's drain ends and its context is saved. -/
  | preemptDrainDone (c : CoreId)
  /-- JOB_PTB_WRITE (R24): Write a job's page-table root for later walks. -/
  | jobPtbWrite (job : JobId) (die : Fin 2) (value : BitVec 64)
  /-- CSP_OWN_WRITE (R66): Assign a chip-scratchpad segment, clearing it if owner changes. -/
  | cspOwnWrite (die : Fin 2) (n : Fin 32) (value : BitVec 64)
  /-- SPAD_FORCE_RETIRE (R54): Writing FRET or FRETP requests a bank retirement. -/
  | spadForceRetire (c : CoreId) (value : BitVec 64)
  /-- JOB_PART_WRITE (R168): Change a job's partition; squares leave when their tasks end. -/
  | jobPartWrite (job : JobId) (value : BitVec 64)
  /-- JOB_CTL_WRITE (R168): Enable or disable binding of a job's records. -/
  | jobCtlWrite (job : JobId) (value : BitVec 64)
  /-- HBW_BASE_WRITE (R114): Move the host-write ring for later records. -/
  | hbwBaseWrite (die : Fin 2) (value : BitVec 64)
  /-- FB_KILL (R418): Declare a fault-buffer entry unserviceable. -/
  | fbKill (die : Fin 2) (value : BitVec 64)
  /-- PRE_CTL_REQ (R422): Request pre-emption of a core's task. -/
  | preCtlReq (c : CoreId) (value : BitVec 64)
  /-- PWR_CAP_WRITE (R428): Set the package cap and derive the effective cap. -/
  | pwrCapWrite (value : BitVec 64)
  /-- SEC_ATREQ (R453): Request a signed attestation report into a buffer. -/
  | secAtreq (value : BitVec 64)
  /-- SEC_POL_WRITE (R455): Set alarm actions, ignored while LOCK is set. -/
  | secPolWrite (value : BitVec 64)
  /-- ETH_ROUTE_WRITE (R442): Change a stream route entry for frames matched later. -/
  | ethRouteWrite (stream : Fin 64) (second : Bool) (value : BitVec 64)
  /-- REGISTER_WRITE (R13): Write a device register that has no behaviour of its own. -/
  | registerWrite (address : BitVec 64) (value : BitVec 64)
  /-- ETH_FRAME_RECEIVE (R441): An event frame is matched, filtered and its events routed to queues. -/
  | ethFrameReceive (frame : EthFrame)
  /-- ROCE_WRITE (R444): An incoming RDMA WRITE is checked and performed at the home. -/
  | roceWrite (conn : Nat) (rkey : BitVec 32) (va : BitVec 64) (data : List (BitVec 8))
  /-- ROCE_READ (R444): An incoming RDMA READ is checked and answered. -/
  | roceRead (conn : Nat) (rkey : BitVec 32) (va : BitVec 64) (len : Nat)
  /-- ROCE_FETCH_ADD (R154): A host fetch-add on a SYS page executes at the slice ALU. -/
  | roceFetchAdd (conn : Nat) (rkey : BitVec 32) (va : BitVec 64) (addend : BitVec 64)
  /-- ROCE_COMPARE_SWAP (R154): A host compare-swap on a SYS page executes at the slice ALU. -/
  | roceCompareSwap (conn : Nat) (rkey : BitVec 32) (va : BitVec 64) (compare swap : BitVec 64)
  /-- PLACE (R446): A host frame places a record or descriptor as spawn does. -/
  | place (conn : Nat) (va : BitVec 64)
  /-- HOST_DEC (R446): A host frame decrements a record's DEP. -/
  | hostDec (conn : Nat) (va : BitVec 64)
  /-- HOST_CANCEL (R446): A host frame soft-cancels a level. -/
  | hostCancel (conn : Nat) (level : BitVec 64)
  /-- HOST_CANCELH (R446): A host frame hard-cancels a level. -/
  | hostCancelh (conn : Nat) (level : BitVec 64)
  /-- UCIE_MODULE_FAIL (R449): A die-link module fails and leaves service. -/
  | ucieModuleFail
  /-- THERMAL_THRESHOLD (R439): A sensor crosses 95 °C or returns below 90 °C. -/
  | thermalThreshold (sensor : Fin 256) (celsius : Int)
  /-- MEM_TEMP_CHANGE (R111): Memory crosses 85 °C and refresh rate changes. -/
  | memTempChange (die : Fin 2) (hot : Bool)
  /-- TAMPER_ALARM (R454): An alarm source raises and its policy actions apply. -/
  | tamperAlarm (source : AlarmSource)
  /-- DEBUG_UNLOCK_FAIL (R455): A failed debug unlock counts toward the DBG alarm. -/
  | debugUnlockFail
  /-- COLD_RESET (R450): The boot ROM verifies the firmware image and bring-up runs. -/
  | coldReset (flash : List (BitVec 8))
  /-- BOOT_DATAGRAM (R451): A management-port datagram writes part of a recovery image. -/
  | bootDatagram (offset : Nat) (data : List (BitVec 8))
  /-- BOOT_TRANSFER_END (R451): The end datagram triggers verification of the received image. -/
  | bootTransferEnd
  /-- ILLEGAL_OP_ENCODING (R198): A fetched word that matches no allocated encoding, such as 0x0000_0000, faults ILLEGAL_OP. -/
  | illegalOpEncoding
  /-- INSTRUCTION_FETCH_FAULT (R233): A fetch at a target fails with NONCANON, PAGE_ABSENT, PAGE_PERM or a window fault, and the fault is taken by the target instruction. -/
  | instructionFetchFault
  /-- LOADER_READ_RETURN (R377): The device read of a loader yl.ld returns and its element enters FIFO n in issue order. -/
  | loaderReadReturn (c : CoreId)
  /-- GPTP_MESSAGE_RECEIVE (R440): An IEEE 802.1AS message arrives on a gPTP port and device time is disciplined to the grandmaster. -/
  | gptpMessageReceive (grandmaster : Nat)
  /-- ROCE_UNSUPPORTED_REQUEST (R443): An incoming RoCE packet that uses an unsupported transport or feature, or a SEND with a refused OP, is answered with a remote access error. -/
  | roceUnsupportedRequest (conn : Nat)
  /-- ATTESTATION_REPORT_DONE (R453): The security controller finishes writing the signed report and sets SEC.STAT.DONE. -/
  | attestationReportDone
  deriving DecidableEq, Repr

end Sys2Proof
end

