-- ==== Sys2Proof/Machine/State.lean ====
section
/-! DEFINITION. The state of the part: every piece of state the spec names, as plain data. -/
namespace Sys2Proof.Machine

/-! ## Who acts, and what comes next -/

/-- The three units of a core that run instructions: the core itself (07 R158), its loader and its storer
(14 R372). -/
inductive CoreUnit where
  | main | loader | storer
  deriving DecidableEq, Repr

/-- The unit whose instruction is executed. -/
structure Actor where
  core : CoreId
  part : CoreUnit
  deriving DecidableEq, Repr

/-- A bit error that the environment places in a code word of a memory (02 R43, R52, R64, 04 R106, 14 R373): the location of a
byte of the code word, and whether the code can correct it. -/
structure BitError where
  loc : Nat
  corr : Bool
  deriving DecidableEq, Repr

/-- Hardware steps that an instruction or another step has set under way, each a row of the opcode table that has no
word, with what it acts on. -/
inductive Due where
  | resultWriteback (c : CoreId)
  | storePerform (c : CoreId)
  | l1dFill (c : CoreId)
  | fbResend (die : Fin 2) (entry : Nat)
  | tlbinvComplete (c : CoreId)
  | parityLand (c : CoreId) (g : Fin 4)
  | scrub (c : CoreId)
  | sqmScrub (u : ScrubUnit)
  | epochEnd
  | bankRetire (c : CoreId) (bank : Fin 20)
  | lendClear (c : CoreId)
  | lendEndClear (c : CoreId)
  | squareClear (sq : SquareId)
  | cspClear (die : Fin 2) (seg : Fin 32)
  | tileFill (c : CoreId) (n : Fin 64)
  | logApply (c : CoreId) (n : Fin 64)
  | tileDrain (c : CoreId) (n : Fin 64)
  | beacon
  | traceWrite (c : CoreId)
  | jobStart (c : CoreId) (id : Nat)
  | jobComplete (c : CoreId) (id : Nat)
  | grant (c : CoreId)
  | revokeReturn (block : Nat)
  | streamFetch (c : CoreId) (s : Fin 8)
  | latchDone (sq : SquareId)
  | mxStart (sq : SquareId)
  | mxDone (sq : SquareId)
  | coApply (sq : SquareId)
  | coTimeout (sq : SquareId) (slot : Fin 8)
  | coTwin (sq : SquareId) (slot : Fin 8)
  | waitWake (c : CoreId)
  | waitTimeout (c : CoreId)
  | barRelease (c : CoreId)
  | taskEnd (c : CoreId)
  | selection (die : Fin 2)
  | taskBind (c : CoreId)
  | taskStart (c : CoreId)
  | aging
  | stealRequest (c : CoreId)
  | stealReply (c : CoreId)
  | stealBackoff (c : CoreId)
  | halfExchange
  | lantern
  | forecast
  | rail (district : Fin 8)
  | nrg
  | trqRetry (die : Fin 2)
  | watchdog (c : CoreId)
  | preemptDone (c : CoreId)
  | loaderReturn (c : CoreId)
  | attestDone
  | faultRetry (die : Fin 2) (entry gen : Nat)
  deriving DecidableEq, Repr

/-- One turn of the machine: a core or a helper issues, a step of the hardware or of the outside world
comes about, a bit error strikes, in a memory or in the sector that a core's L1D or L1I (`code`) holds of a job's address
(04 R101), the target of a core's remote-write job acknowledges its packets (05 R118, R138), a SEND brings a host frame of 32 bytes (18 R446), or
the firmware acts: it writes memory at a PA, places a system record (18 R452), or sets a port's gate control list (18 R440).
(DESIGN CHOICE, unsafe; log 103.) -/
inductive Turn where
  | issue (c : CoreId)
  | helper (c : CoreId) (storer : Bool)
  | event (i : Instr)
  | bitError (e : BitError)
  | parityError (c : CoreId) (code : Bool) (job va : Nat)
  | remoteAck (c : CoreId) (job : Nat)
  | send (conn : Nat) (frame : List (BitVec 8))
  | firmwareWrite (die : Fin 2) (pa : Nat) (data : List (BitVec 8))
  | firmwarePlace (va : BitVec 64)
  | gateControl (port : Fin 2) (entries : List (BitVec 8 × Nat))
  deriving DecidableEq, Repr

/-! ## Memory accesses -/

/-- Access kinds of R116; SO, RC and UO are the page's ORD. -/
inductive Order where
  | rc | so | uo
  deriving DecidableEq, Repr

/-- The agent classes of R115, R416 and R134 as the code 0 task, 1 loader, 2 storer, 3 engine, 4 paging engine,
and the host. -/
inductive AgentKind where
  | task | loader | storer | engine | paging | host | walker
  deriving DecidableEq, Repr

/-- What an access does (R31, R416). -/
inductive AccessKind where
  | read | write | fetch | atomic
  deriving DecidableEq, Repr

/-- A stretch of an access after its checks: `loc` is the location of its first byte, `len` its bytes, `off` its
place in the access, `va` its address, and the attributes are those of its page or window (R22, R29); `alloc` says that the L2
allocates a missing sector for it (R103, R104). -/
structure Piece where
  loc : Nat
  len : Nat
  off : Nat
  va : Nat
  paged : Bool
  order : Order
  cache : Nat
  amo : Nat
  hostb : Bool
  size : Nat
  alloc : Bool
  deriving DecidableEq, Repr

/-- An access's checked target: bytes at their homes, or a tile-window slot (R74). -/
inductive Target where
  | bytes (ps : List Piece)
  | tile (n off : Nat)
  deriving DecidableEq, Repr

/-! ## Traps -/

/-- A read of paged memory that an access made before it faulted: the bytes, whether the L2 allocates for them, and whether their
sector was found uncorrectable (R105, R106, R148). -/
structure Met where
  loc : Nat
  len : Nat
  alloc : Bool
  bad : Bool
  deriving DecidableEq, Repr

/-- What a trap reports: the cause code of R410, the address, TRAP.INFO without SKIP and SKIP (R411), for a
paging fault the die, access and agent of its fault-buffer entry (R416), and the reads that its access has made. -/
structure TrapInfo where
  cause : Nat
  addr : Word
  info : Word
  skip : Bool
  die : Nat
  kind : Nat
  flag : Nat
  access : AccessKind
  agent : AgentKind
  tag : Nat
  met : List Met
  deriving DecidableEq, Repr

/-! ## Registers and issue -/

/-- The register files of R183. -/
inductive RegFile where
  | k | q | v | y | m
  deriving DecidableEq, Repr

/-- The registers of one core (R183, R185, R186). Entry i of a queue is the slot at age i + 1. -/
structure Regs where
  k : Vector Word 16
  q : Vector Word 16
  v : Vector Vec 16
  y : Vector Vec 16
  m : Vector Word 8
  deriving DecidableEq, Repr

/-- A result not yet written or not yet readable in time. A fixed-latency result (R207) stands in its register
already and `old` holds what stood there before; until the cycle `landAt` a reader sees `old` (R209). `va` is the address of its
instruction's group (R199), and `pops` what that has popped (R189). A
variable-latency result (R208, `wait` true) holds its value in `value` until it is written. `body` says that an instruction of a
repetition's body issued it; `schedAt` is the scheduled count of its issuer then and `cross` that of the other, the body or the
integer pipeline (R211). `push` says that its register was bound to a stream when it issued, which it goes to (R189), and `vdiv`
that it is of `vdiv` or `vsqrt` (R265). -/
structure Pending where
  file : RegFile
  idx : Nat
  wait : Bool
  old : Vec
  value : Vec
  landAt : Nat
  schedAt : Nat
  cross : Nat
  latency : Nat
  seq : Nat
  body : Bool
  push : Bool
  vdiv : Bool
  va : Word
  pops : List (Nat × BitVec 512)
  deriving DecidableEq, Repr

/-- The hints that stand before the next instruction (R200 to R204): the address of the first, the `hnt.imm`
payloads in order, and the last `hnt.mod` and `hnt.br`. -/
structure Hints where
  va : Option Word
  imms : List Nat
  mod : Option Nat
  br : Option Nat
  deriving DecidableEq, Repr

/-- One captured instruction of a repetition body (R240): its word, its address, its hints and its stall count. -/
structure BodyInstr where
  word : Nat
  va : Word
  hints : Hints
  stall : Nat
  deriving DecidableEq, Repr

/-- What belongs to one stream of instructions at issue (R206, R209): the first cycle it may issue in, the cycle of its last issue,
the count of scheduled cycles, and whether the instruction at issue has found a log or the pool full (R88). -/
structure Clock where
  readyAt : Nat
  lastIssue : Nat
  sched : Nat
  full : Bool
  deriving DecidableEq, Repr

/-- A repetition (R240 to R244): fields of the `rep`, captured body, repetition j, position in the body, the
repetitions to do, the address after the body, the `held` state of a body trap with the TRAP.PC it wrote, the clock of the body
(while a body instruction issues: of the integer pipeline, R211), and whether the body has the next turn. -/
structure Rep where
  n : Nat
  total : Nat
  stagger : Nat
  step : Nat
  body : List BodyInstr
  j : Nat
  pos : Nat
  after : Word
  held : Option Word
  clock : Clock
  bodyNext : Bool
  deriving DecidableEq, Repr

/-- A loop nest (R234 to R239): the descriptor's fields and the chunk, next iteration and end. -/
structure Nest where
  active : Bool
  e : List Nat
  cnt : Word
  parts : Nat
  minChunk : Nat
  order : Nat
  pos : Nat
  stop : Nat
  deriving DecidableEq, Repr

/-- A `wait` under way (R245 to R248): the descriptors, the controls, the deadline, the destination. -/
structure WaitSt where
  desc : Vec
  ctl : Word
  deadline : Nat
  d : Nat
  deriving DecidableEq, Repr

/-- A barrier wait (R368, R369): the block's address, g, the arrival index, the destination. -/
structure BarSt where
  va : Word
  g : Word
  index : Nat
  d : Nat
  deriving DecidableEq, Repr

/-- The issue side of a core (R200 to R213). `iva` is the address of the instruction that issued last, `gva` that of its group and
`gstalls` the stall counts before it (R199); `divides` says that it is `vdiv` or `vsqrt` (R265). `inBody` says that the
instruction at hand is of the repetition's body, and `bodyWait` names the tile that the body's next load waits for (R90). `pops` holds the elements that it has popped, each with its stream (R189). `full` says that the instruction at issue has found a log or the pool full (R88),
and `fullPush` the same of the late result to be pushed next. -/
structure Pipe where
  pc : Word
  iva : Word
  gva : Word
  gstalls : List Nat
  divides : Bool
  hints : Hints
  stalls : List Nat
  pend : List Pending
  readyAt : Nat
  lastIssue : Nat
  sched : Nat
  seq : Nat
  rep : Option Rep
  inBody : Bool
  bodyWait : Option Nat
  skip : Bool
  divFree : Nat
  full : Bool
  fullPush : Bool
  pops : List (Nat × BitVec 512)
  deriving DecidableEq, Repr

/-- The TRAP registers (R411). -/
structure TrapRegs where
  cause : Word
  pc : Word
  addr : Word
  info : Word
  deriving DecidableEq, Repr

/-! ## Tasks -/

/-- The five states of R158. -/
inductive CoreMode where
  | idle | run | wait | park | dark
  deriving DecidableEq, Repr

/-- The unit that runs on a core (R159, R162, R167, R174): its record as placed, `k4`, its type entry, its job, its
priority, the times it was requeued, COMMIT, the gang's mode, rank, BRK and the core of its leader, and
whether its `done` has issued (R250) and was a `halt` (R257), whether its record was stolen, the last job number its core's footprint unit had
given when it started, and the jobs it left at other cores when it was pre-empted (R307). -/
structure Task where
  record : BitVec 128
  rva : Word
  entry : BitVec 512
  job : Nat
  prio : Nat
  rq : Nat
  commit : Bool
  gang : Nat
  rank : Nat
  brk : Bool
  leader : Nat
  ending : Bool
  halting : Bool
  stolen : Bool
  jobsFrom : Nat
  elsewhere : List (Nat × Nat)
  deriving DecidableEq, Repr

/-- A fault-buffer entry an agent waits for (R416, R417): its die, its index (none while the buffer is full or
off), its generation, and what faulted. -/
structure HeldFault where
  core : Nat
  job : Nat
  die : Nat
  index : Option Nat
  gen : Nat
  trap : TrapInfo
  va : Word
  deriving DecidableEq, Repr

/-- Why a pre-emption is under way (R422): a `yield`, a watermark (with its queue's descriptor), or PRE.CTL. -/
inductive PreemptReason where
  | yield | watermark (queue : Word) | request
  deriving DecidableEq, Repr

/-! ## The memory side of a core -/

/-- A buffered store (R283): its pieces, its data, its place in the order of issue, its kind, and whether it is a
release (R119). -/
structure BufStore where
  seq : Nat
  pieces : List Piece
  data : Nat
  len : Nat
  release : Bool
  part : AgentKind
  deriving DecidableEq, Repr

/-- A cached 64-byte sector (R97, R102): the job, the address of its first byte, its bytes as they stood at the fill, the way of
its set that its line takes, and whether a byte of it has a parity error (R101). -/
structure Sector where
  job : Nat
  va : Nat
  data : BitVec 512
  way : Nat
  bad : Bool
  deriving DecidableEq, Repr

/-- An entry of the atomic buffer (R147): the block's address and job, and its location. The block's 64 bytes stand at that
location: every access that reaches the home revokes first (R148), so no agent sees the home without them. -/
structure AtomEntry where
  job : Nat
  va : Nat
  loc : Nat
  deriving DecidableEq, Repr

/-- An entry of the contention predictor (R150). -/
structure PredEntry where
  job : Nat
  block : Nat
  history : Nat
  deriving DecidableEq, Repr

/-- A NEAR atomic that waits for ownership (R147). -/
structure NearReq where
  va : Nat
  loc : Nat
  op : Nat
  width : Nat
  operand : Word
  expected : Word
  acquire : Bool
  dest : Option Nat
  deriving DecidableEq, Repr

/-- A bound or unbound stream (R296 to R301): the descriptor's 32 bytes, BOUND, END, OVER, the position of pops or
pushes, the elements fetched, the FIFO, the helper's end mark, a partly assembled or popped element with
its parts done, and a held fetch fault. -/
structure Strm where
  bound : Bool
  desc : BitVec 256
  endB : Bool
  overB : Bool
  pos : Nat
  fetched : Nat
  fifo : List (BitVec 512)
  endMark : Bool
  part : BitVec 512
  parts : Nat
  fault : Option TrapInfo
  deriving DecidableEq, Repr

/-- A tile-table entry (R68 to R72): TCFG, TBACK, the TSTAT fields, and the head and tail of its log. The transfer
under way, if any, is `moving`: fill or drain, what demanded it, the job it is to the footprint unit, the bytes it has moved
(R80), and whether its beats have all moved. `wanted` says that a `tfetch` has asked for a fill that has still to begin (R79).
A fault of a demanded transfer stands in `fault` until the instruction takes it (R81). `waiters` are the streams whose loads
wait on the tile (R90). -/
structure TileMove where
  fill : Bool
  cause : Nat
  job : Nat
  pos : Nat
  landed : Bool
  deriving DecidableEq, Repr

/-- See `TileMove`. -/
structure Tile where
  cfg : Word
  back : Word
  state : Nat
  dirty : Bool
  pinned : Bool
  conf : Bool
  keep : Bool
  ferr : Bool
  refs : Nat
  logCnt : Nat
  logHead : Nat
  logTail : Nat
  moving : Option TileMove
  wanted : Bool
  fault : Option TrapInfo
  waiters : List Nat
  deriving DecidableEq, Repr

/-- The log pool's registers and free list (R83, R84). -/
structure LogPool where
  base : Word
  ovf : Nat
  peak : Nat
  used : List Nat
  deriving DecidableEq, Repr

/-- The trace registers and their 4-entry buffer (R133, R134). -/
structure Trace where
  base : Word
  len : Word
  count : Nat
  buf : List (BitVec 128)
  lastStamp : Nat
  deriving DecidableEq, Repr

/-- A job of the footprint unit (R135, R136): its number, its engine (0 paging, 1 copy, 3 gather, 4 fill, 5 remote write,
9 MXE command), its regions in 64-byte granules with resolved addresses, the earlier jobs it has edges to, its card, the NRG index
of the task that submitted it (R434), whether it has started, the rows or elements it has done, whether its target has acknowledged them (engine 5, R118), and a fault
it holds at. -/
structure Job where
  id : Nat
  engine : Nat
  reads : List (Nat × Nat)
  writes : List (Nat × Nat)
  after : List Nat
  card : BitVec 512
  job : Nat
  nrg : Nat
  sys : Bool
  started : Bool
  pos : Nat
  acked : Bool
  held : Option HeldFault
  deriving DecidableEq, Repr

/-! ## The matrix engine -/

/-- A command of an MXE queue (R315, R316): its sub-operation, tile entries, flags and scalar operands, the mode it
entered with, its job number in the footprint unit, and whether it came from the sampled count. -/
structure MxCmd where
  sub : Nat
  td : Nat
  ta : Nat
  tb : Nat
  flags : Nat
  arg : Word
  mode : Nat
  sample : Nat
  codes : List Nat
  entered : Nat
  job : Nat
  deriving DecidableEq, Repr

/-- A weight latch (R311, R317): its format (0xF: empty), its columns N, its stored K, the sparse flag, its bytes as the
tile held them, and its codes, column by column (R318). -/
structure Latch where
  fmt : Nat
  n : Nat
  k : Nat
  sparse : Bool
  weights : Nat
  codes : List Nat
  deriving DecidableEq, Repr

/-- Who brought a command to a core's queue window (R316). -/
inductive MxAgent where
  | task | storer | coalescer
  deriving DecidableEq, Repr

/-- What the MXE holds for one core (R311, R328, R329, R433). `issued` is the latch that the queued commands will leave
(R315). -/
structure MxCore where
  queue : List MxCmd
  latch : Latch
  issued : Latch
  staging : Table Nat
  sb0 : BitVec 32
  sb1 : BitVec 32
  acc : Table (BitVec 32)
  mode : Nat
  sample : Nat
  count : Nat
  satStat : Bool
  drop : Bool
  gwait : Nat
  window : List (BitVec 512 × MxAgent)
  deriving DecidableEq, Repr

/-- The array of a square's MXE and its side of the slew limiter (R312, R313, R430 to R433): the core whose command
runs, rows injected and to inject, the core whose latch the PEs hold, the phase of MX.CAD, the cadence level,
MIN, the beacon step the start was requested and granted in, the step that held the request's cycle, the cycle of the next row, the cycle
at which the command's or the latch load's time is over, whether the ramp-down begins at the next step boundary and from which level it
falls, the MIN that is to come with the step and the level of the planned change toward it (R433), and the counters of R437. -/
structure Mxe where
  running : Option CoreId
  loading : Bool
  rows : Nat
  rowsTotal : Nat
  owner : Option CoreId
  phase : Nat
  cur : Nat
  minCad : Nat
  reqStep : Nat
  granted : Option Nat
  reqAt : Nat
  nextRow : Nat
  doneAt : Nat
  down : Bool
  fallFrom : Nat
  pendMin : Option Nat
  minStep : Option (Nat × Nat)
  counters : List (Word × Word)
  deriving DecidableEq, Repr

/-! ## The coalescer -/

/-- A slot of a coalescer (R332 to R337). -/
structure CoSlot where
  armed : Bool
  owner : CoreId
  job : Nat
  ta : Nat
  tb : Nat
  gathering : Nat
  overwrite : Bool
  wbind : Bool
  thresh : Nat
  tmo : Nat
  template : Option (BitVec 512)
  count : Nat
  firstAt : Option Nat
  waiting : Bool
  deriving DecidableEq, Repr

/-- An entry of a coalescer's input queue (R335): a contribution, a `cflush`, a disarm, or a close that a window close or
a timeout brings. `at_` is the cycle in which a contribution or a `cflush` arrived (R339). -/
inductive CoEntry where
  | push (slot : Nat) (value : Word) (row col : Nat) (sender : CoreId) (at_ : Nat)
  | flush (slot : Nat) (at_ : Nat)
  | disarm (slot : Nat)
  | close (slot : Nat)
  deriving DecidableEq, Repr

/-! ## Events -/

/-- An event in a queue (R340, R343): header, payload, slot, arrival number, whether it stands in the spill ring (with its
ring number), the fault-buffer entry it reports, and whether it is late (R350). -/
structure Ev where
  hdr : Word
  pay : Word
  slot : Nat
  arr : Nat
  ring : Option Nat
  fb : Option (Nat × Nat × Nat)
  late : Bool
  deriving DecidableEq, Repr

/-- A window close not yet delivered (R347 to R349): its header, its window number, the arrival number it ranks by, whether
it counts for the windows as they now stand (R353), and the arrival numbers of the events that come before it. -/
structure EvClose where
  hdr : Word
  num : Nat
  arr : Nat
  live : Bool
  before : List Nat
  deriving DecidableEq, Repr

/-- A `tlbinv` whose completion its core waits for (R38): the number that the accesses under way at its issue lie below, its job and
its range, or all of the job's space. -/
structure TlbWait where
  mark : Nat
  job : Nat
  lo : Nat
  hi : Nat
  all : Bool
  deriving DecidableEq, Repr

/-- A core's event queue and its registers (R342 to R360). `spilled` counts the events spilled since the task's start, and `closedAt`
is the cycle after that of the last close, at most one of which comes about in a cycle (R347). -/
structure EvQueue where
  events : List Ev
  closes : List EvClose
  lt : Vector Nat 8
  wnum : Nat
  enabled : Nat
  evh : BitVec 128
  win : Nat
  org : Word
  wtmo : Nat
  lateDrop : Bool
  ldrop : Nat
  spill : Word
  drops : Nat
  spilled : Nat
  arrivals : Nat
  missed : Nat
  closedAt : Nat
  deriving DecidableEq, Repr

/-! ## Helpers -/

/-- A place that a `yl.ld` of the loader has taken in a FIFO (R377): the FIFO, the address, the PC of the `yl.ld`, and the value once
the read has returned, where it stands behind an element that `yl.push` has yet to complete. -/
structure LdRead where
  fifo : Nat
  va : Nat
  pc : Nat
  value : Option (BitVec 512)
  deriving DecidableEq, Repr

/-- A helper (R372 to R383). Its instruction store and data memory stand in `State.mem`. `image` is the image its instruction
store holds; `missing` says that a fault keeps the code of a resumed task out of it (R383). -/
structure Helper where
  x : Vector (BitVec 32) 32
  pc : BitVec 32
  hb : Vector Word 4
  running : Bool
  ended : Bool
  reads : List LdRead
  fault : Option TrapInfo
  delivered : Bool
  held : Option HeldFault
  image : Option (Nat × Word)
  missing : Bool
  deriving DecidableEq, Repr

/-! ## Scratchpad, lending, deque -/

/-- A parity-queue entry (R49). -/
structure ParEntry where
  group : Nat
  row : Nat
  delta : BitVec 128
  deriving DecidableEq, Repr

/-- A scratchpad's registers and error state (R49 to R57). `ce` holds the corrected-error counts of the 16 data banks and
then of the 4 parity banks. `retiring` lists the banks whose retirement waits (R54), with its cause. -/
structure Spad where
  ret : Nat
  dead : Nat
  wdrn : Bool
  pass : Nat
  ce : List Nat
  srate : Nat
  soff : Bool
  scrub : Nat
  parity : List ParEntry
  retiring : List (Nat × Nat)
  deriving DecidableEq, Repr

/-- Where a core's quarters go (R58 to R60): for each quarter the core it is lent to, whether its clear is under
way, and the directions in which this core borrows. -/
structure Lend where
  lentTo : Vector (Option CoreId) 4
  clearing : Vector Bool 4
  returning : Vector Bool 4
  deriving DecidableEq, Repr

/-- A placed entry (R363, R384, R385): the record or template, its address as `k4` gives it, its job, the units still to
come of a descriptor with its extents, its lane, the cycle it was placed, the priority it had reached, its steal mark, its
requeue count, the queue that holds it (R399), the fault that holds it, the saved context, and its place in its job's or its core's
spill ring. (DESIGN CHOICE, unsafe; log 28.) -/
structure Ready where
  record : BitVec 128
  rva : Word
  job : Nat
  ext : Option (Nat × Nat × Nat)
  unit : Nat
  lane : Nat
  placedAt : Nat
  prio : Nat
  stolen : Bool
  rq : Nat
  hold : Option Word
  fault : Option HeldFault
  ctx : Option Nat
  slot : Option Nat
  seq : Nat
  deriving DecidableEq, Repr

/-- A steal round (R395): the cores asked, the core now asked, draws made, draws counted, and the wait. -/
structure StealRound where
  asked : List Nat
  asking : Option Nat
  reply : Option (Option Ready)
  draws : Nat
  counted : Nat
  wakeAt : Nat
  deriving DecidableEq, Repr

/-- The control registers that a task can write (R190, R423): TRAP, STREAM.STAT's END and OVER, MX, EV, EVC, LOG and TRACE. -/
structure CtlRegs where
  trap : TrapRegs
  ends : List (Bool × Bool)
  mxMode : Nat
  mxSample : Nat
  evWin : Nat
  evOrg : Word
  evWtmo : Nat
  evLate : Bool
  evSpill : Word
  evc : Vector Word 8
  evcSel : Vector Word 8
  logBase : Word
  traceBase : Word
  traceLen : Word
  deriving DecidableEq, Repr

/-- A LOCKSTEP checkpoint (R177). -/
structure Check where
  regs : Regs
  ctl : CtlRegs
  pc : Word
  tiles : Table Tile
  nest : Nest
  rep : Option Rep
  deriving DecidableEq, Repr

/-- Everything that belongs to one core. `awayAt` is the last cycle that it was in WAIT or PARK (R419). -/
structure Core where
  mode : CoreMode
  regs : Regs
  pipe : Pipe
  trap : TrapRegs
  task : Task
  nest : Nest
  waitSt : Option WaitSt
  barSt : Option BarSt
  fault : Option HeldFault
  preempt : Option PreemptReason
  check : Option Check
  mismatch : Bool
  sbuf : List BufStore
  l1d : List Sector
  l1dTree : Table Nat
  fills : List Sector
  l1i : List Sector
  l1iTree : Table Nat
  fetchBuf : Option Sector
  atoms : List AtomEntry
  preds : List PredEntry
  near : List NearReq
  streams : Vector Strm 8
  tiles : Table Tile
  pool : LogPool
  trace : Trace
  jobs : List Job
  jobSeq : Nat
  mx : MxCore
  ev : EvQueue
  evc : Vector Word 8
  evcSel : Vector Word 8
  loader : Helper
  storer : Helper
  spad : Spad
  lend : Lend
  deque : List Ready
  spilled : List Ready
  stealGen : Nat
  steal : Option StealRound
  af : Nat
  reserved : Option Nat
  resSeq : Nat
  latched : Option Ready
  kept : Option Nat
  binding : Bool
  tlbWait : Option TlbWait
  nodeCount : Word
  nodeBlack : Bool
  energy : Table Nat
  awayAt : Nat
  deriving DecidableEq, Repr

/-- A pre-empted member's saved context (R423); `unit` is the number of the context of its unit's rank 0. -/
structure Saved where
  unit : Nat
  job : Nat
  die : Nat
  slot : Nat
  core : Core
  fromCore : CoreId
  was : CoreMode
  lent : List Nat
  deriving DecidableEq, Repr

/-! ## Squares, districts, dies, jobs -/

/-- Everything that belongs to one square (R3, R67, R332, R425): its operating point, the target, and the points by which the cap
lowers the target (R428). -/
structure Square where
  point : Nat
  target : Nat
  lowered : Nat
  mxe : Mxe
  slots : Vector CoSlot 8
  coq : List CoEntry
  clearing : Bool
  joining : List Nat
  leaving : List Nat
  copyWin : List (BitVec 512 × CoreId × Bool)
  copyCount : Word
  copyBlack : Bool
  mxCount : Word
  mxBlack : Bool
  deriving DecidableEq, Repr

/-- A grant of a slew limiter (R431, R432): the square, the steps with their rises or falls. -/
structure SlewPlan where
  square : Nat
  rise : Bool
  steps : List (Nat × Nat)
  deriving DecidableEq, Repr

/-- A district (R4, R427, R430, R437). -/
structure District where
  rail : Nat
  ramp : Option Nat
  plans : List SlewPlan
  counters : List (Word × Word)
  deriving DecidableEq, Repr

/-- A translation-bank entry (R33, R112). -/
structure TlbEntry where
  bank : Nat
  job : Nat
  va : Nat
  pte : Word
  size : Nat
  logged : Bool
  deriving DecidableEq, Repr

/-- A walk-cache entry (R33): the level of the table the pointer names, the address bits that lead to it, the
table's address. -/
structure WalkEntry where
  bank : Nat
  job : Nat
  level : Nat
  tag : Nat
  table : Nat
  deriving DecidableEq, Repr

/-- A line of the L2 (R105): its slice, its line number (the physical address divided by 256), the sectors of it that are
there and those that are dirty, as four bits each. The bytes stand in `State.mem`, which holds each location's one value for
all agents (R36, R105). -/
structure L2Line where
  slice : Nat
  line : Nat
  valid : Nat
  dirty : Nat
  deriving DecidableEq, Repr

/-- A fault-buffer entry's hardware side (R416 to R418). Its 32 bytes stand in memory; `accepted` says that its event stands in a
queue, `delivered` that an `evpop` has taken it. -/
structure FbEntry where
  index : Nat
  gen : Nat
  core : Nat
  agent : AgentKind
  job : Nat
  tag : Nat
  va : Word
  kind : Nat
  flag : Nat
  time : Nat
  delivered : Bool
  killed : Bool
  accepted : Bool
  deriving DecidableEq, Repr

/-- A trap-queue record (R415) and its job. -/
structure TrapRec where
  job : Nat
  data : BitVec 512
  deriving DecidableEq, Repr

/-- Everything that belongs to one die (R33, R105, R114, R384, R416, R438). `l2` lists the lines of its L2, the one used last
first; `dram` counts the bytes that each bank of each LPDDR 6 channel has moved (R110, R434). -/
structure Die where
  tlb : List TlbEntry
  walk : List WalkEntry
  l2 : List L2Line
  dram : Table Nat
  hot : Bool
  chcap : Nat
  hbPol : Nat
  hbwBase : Word
  cspOwn : Table Word
  cspClear : List Nat
  fbBase : Word
  fbRoute : Word
  fbGen : Nat
  fb : List FbEntry
  fbWait : List HeldFault
  killed : List Nat
  wdgLim : Word
  trq : List TrapRec
  telBase : Word
  telLost : Nat
  ready : List Ready
  spill : List Ready
  typeCache : List (Nat × Nat × BitVec 512)
  halfCount : Table Word
  halfBlack : List Nat
  refresh : Table Nat
  slices : Table (List (Word × Word))
  deriving DecidableEq, Repr

/-- The registers of one job (R24, R168, R408, R420, R429, R435). -/
structure JobRegs where
  ptb0 : Word
  ptb1 : Word
  ttb : Word
  lvb : Word
  trq : Word
  part : Word
  ctl : Word
  pwr : Word
  ctx0 : Word
  ctx1 : Word
  dqs0 : Word
  dqs1 : Word
  rqs0 : Word
  rqs1 : Word
  lost0 : Nat
  lost1 : Nat
  nrg : Vector Word 16
  deriving DecidableEq, Repr

/-- What the hardware does at a location of a job on its own account (R169): a write, a `red.add` of 1, or a `dec`. -/
inductive HwKind where
  | write (len value : Nat)
  | add
  | dec
  deriving DecidableEq, Repr

/-- Such an access that waits for space in the host-write ring (R112): for whose core's unit, its job and its address. -/
structure HwOp where
  core : Nat
  job : Nat
  va : Nat
  kind : HwKind
  deriving DecidableEq, Repr

/-- A block on its way home after a revoke (R148). -/
structure Return where
  block : Nat
  core : CoreId
  deriving DecidableEq, Repr

/-- An SC operation that has issued (R128, R129): the window it is announced in, its core, its sequence number, what it does and
the destination of its value. `op` is none for `ld.sc`, some 99 for `st.sc`, else the operation of R142. -/
structure ScOp where
  window : Nat
  core : CoreId
  seq : Nat
  pieces : List Piece
  op : Option Nat
  width : Nat
  sext : Bool
  operand : Word
  expected : Word
  dest : Option Nat
  deriving DecidableEq, Repr

/-- The other end of a connection (R444): its queue pair, its addresses, and the port that reaches it. -/
structure Peer where
  rqpn : Nat
  rip : Nat
  rmac : Nat
  port : Nat
  deriving DecidableEq, Repr

/-- An answer to the host on a connection, or a packet for a remote device with the key that it presents (R443 to R447).
(DESIGN CHOICE, safe; log 77.) -/
inductive HostOut where
  | ack (conn : Nat)
  | data (conn : Nat) (bytes : List Byte)
  | value (conn : Nat) (old : Word)
  | refuse (conn : Nat)
  | write (conn : Nat) (peer : Peer) (okey : Nat) (va : Word) (bytes : List Byte)
  deriving DecidableEq, Repr

/-- A request of the host that waits (R447). -/
inductive HostReq where
  | write (rkey : BitVec 32) (va : Word) (data : List (BitVec 8))
  | read (rkey : BitVec 32) (va : Word) (len : Nat)
  | fetchAdd (rkey : BitVec 32) (va addend : Word)
  | compareSwap (rkey : BitVec 32) (va compare swap : Word)
  | place (va : Word)
  | dec (va : Word)
  | cancel (level : Word) (hard : Bool)
  | unsupported
  deriving DecidableEq, Repr

/-- The Ethernet block's registers and histories (R440 to R442, R448). `gates` holds a port's gate control list, each entry the open
classes and its time in ns; `queued` the frames that wait for their gate, each with its port and class; `held` the requests that wait
for a clear, or behind one that does, each with its connection, and `again` says that the request at hand is one of them (R447). -/
structure Eth where
  rta : Table Word
  rtb : Table Word
  cfg : Word
  dup : Nat
  drop : Nat
  history : Table (List Nat)
  meters : Table (Nat × Nat)
  rcBase : Word
  stopped : Bool
  gates : Table (List (BitVec 8 × Nat))
  queued : List (Nat × Nat × HostOut)
  held : List (Nat × HostReq)
  again : Bool
  out : List HostOut
  deriving DecidableEq, Repr

/-- The security controller and boot (R450 to R455). -/
structure Sec where
  pol : Word
  done : Bool
  noKey : Bool
  kdis : Bool
  atreq : Option Word
  unlockFails : Nat
  keyStore : Bool
  antiRollback : Word
  received : Table Byte
  romWait : Bool
  booted : Bool
  placed : Bool
  image : List Byte
  deriving DecidableEq, Repr

/-- The power manager (R428, R429). `estimates` are the package power estimates of the last microseconds. -/
structure Power where
  cap : Nat
  eff : Nat
  idle : Nat
  belowFloor : Bool
  belowGuarantee : Bool
  estimates : List Nat
  deriving DecidableEq, Repr

/-- The reasons the machine itself stops. -/
inductive Fault where
  /-- `exec` was asked to issue an instruction on a core that is not in RUN. `step` never asks it, so this is safe. -/
  | coreNotRunning (c : CoreId)
  /-- `exec` was asked to issue a helper instruction on a helper that does not run. `step` never asks it, so this is safe. -/
  | helperNotRunning (c : CoreId)
  deriving DecidableEq, Repr

/-- The reasons the model gives no meaning. -/
inductive Refusal where
  /-- The instruction named has no meaning yet; raised by `exec` alone. Safe. -/
  | notModelled (mnemonic : String)
  deriving DecidableEq, Repr

/-- The state of the device. `boosts` lists the queues that raise a consumer launch (R399): job, launch, descriptor. `hwHeld` lists
the hardware's accesses that wait, in their order (R112); `zeroed` names the core whose unit brought a phase's CNT to 0, by
the level's index plus 4096 times the job (R384). -/
structure State where
  mem : List Host.Cell
  cyc : Nat
  timeBase : Nat
  free : Nat
  actor : Actor
  agenda : List Turn
  todo : List Due
  rotor : Nat
  cores : Table Core
  squares : Table Square
  districts : Table District
  dies : Table Die
  jobs : Table JobRegs
  saved : Table Saved
  scOps : List ScOp
  returns : List Return
  boosts : List (Nat × Nat × Nat)
  poison : List Nat
  errors : List BitError
  eth : Eth
  power : Power
  sec : Sec
  modules : Nat
  mcCount : Nat
  lantern : List (Nat × Word × Bool)
  hwHeld : List HwOp
  zeroed : Table Nat
  halted : Bool
  thermal : List Nat
  seq : Nat
  deriving DecidableEq, Repr

/-! ## Values after reset -/

/-- No hints. -/
def Hints.none : Hints := { va := .none, imms := [], mod := .none, br := .none }

/-- Registers at a task's start and after reset: every one 0 (R167); `m0` is hard-wired in the accessors. -/
def Regs.reset : Regs where
  k := Vector.replicate 16 0
  q := Vector.replicate 16 0
  v := Vector.replicate 16 0
  y := Vector.replicate 16 0
  m := Vector.replicate 8 0

def Pipe.reset : Pipe where
  pc := 0
  iva := 0
  gva := 0
  gstalls := []
  divides := false
  hints := Hints.none
  stalls := []
  pend := []
  readyAt := 0
  lastIssue := 0
  sched := 0
  seq := 0
  rep := none
  inBody := false
  bodyWait := none
  skip := false
  divFree := 0
  full := false
  fullPush := false
  pops := []

def TrapRegs.reset : TrapRegs := { cause := 0, pc := 0, addr := 0, info := 0 }

def Task.reset : Task where
  record := 0
  rva := 0
  entry := 0
  job := 0
  prio := 0
  rq := 0
  commit := false
  gang := 0
  rank := 0
  brk := false
  leader := 0
  ending := false
  halting := false
  stolen := false
  jobsFrom := 0
  elsewhere := []

def Nest.reset : Nest where
  active := false
  e := [0, 0, 0, 0]
  cnt := 0
  parts := 0
  minChunk := 0
  order := 0
  pos := 0
  stop := 0

def Strm.reset : Strm where
  bound := false
  desc := 0
  endB := false
  overB := false
  pos := 0
  fetched := 0
  fifo := []
  endMark := false
  part := 0
  parts := 0
  fault := none

def Tile.reset : Tile where
  cfg := 0
  back := 0
  state := 0
  dirty := false
  pinned := false
  conf := false
  keep := false
  ferr := false
  refs := 0
  logCnt := 0
  logHead := 0
  logTail := 0
  moving := none
  wanted := false
  fault := none
  waiters := []

def LogPool.reset : LogPool := { base := 0, ovf := 0, peak := 0, used := [] }

def Trace.reset : Trace := { base := 0, len := 0, count := 0, buf := [], lastStamp := 0 }

/-- An empty latch: its format reads 0xF (R328). -/
def Latch.reset : Latch := { fmt := 0xF, n := 0, k := 0, sparse := false, weights := 0, codes := [] }

def MxCore.reset : MxCore where
  queue := []
  latch := Latch.reset
  issued := Latch.reset
  staging := []
  sb0 := 0
  sb1 := 0
  acc := []
  mode := 0
  sample := 0
  count := 0
  satStat := false
  drop := false
  gwait := 0
  window := []

def EvQueue.reset : EvQueue where
  events := []
  closes := []
  lt := Vector.replicate 8 0
  wnum := 0
  enabled := 0
  evh := 0
  win := 0
  org := 0
  wtmo := 0
  lateDrop := false
  ldrop := 0
  spill := 0
  drops := 0
  spilled := 0
  arrivals := 0
  missed := 0
  closedAt := 0

def Helper.reset : Helper where
  x := Vector.replicate 32 0
  pc := 0
  hb := Vector.replicate 4 0
  running := false
  ended := false
  reads := []
  fault := none
  delivered := false
  held := none
  image := none
  missing := false

/-- SPAD.CTL.SRATE is 10 at reset (R57). -/
def Spad.reset : Spad where
  ret := 0
  dead := 0
  wdrn := false
  pass := 0
  ce := List.replicate 20 0
  srate := 10
  soff := false
  scrub := 0
  parity := []
  retiring := []

def Lend.reset : Lend where
  lentTo := Vector.replicate 4 none
  clearing := Vector.replicate 4 false
  returning := Vector.replicate 4 false

/-- A core after reset. The steal generator is set to 0x8000 + the core id (R395). (DESIGN CHOICE, unsafe; log 3.) -/
def Core.reset (id : Nat) : Core where
  mode := .idle
  regs := Regs.reset
  pipe := Pipe.reset
  trap := TrapRegs.reset
  task := Task.reset
  nest := Nest.reset
  waitSt := none
  barSt := none
  fault := none
  preempt := none
  check := none
  mismatch := false
  sbuf := []
  l1d := []
  l1dTree := []
  fills := []
  l1i := []
  l1iTree := []
  fetchBuf := none
  atoms := []
  preds := []
  near := []
  streams := Vector.replicate 8 Strm.reset
  tiles := []
  pool := LogPool.reset
  trace := Trace.reset
  jobs := []
  jobSeq := 0
  mx := MxCore.reset
  ev := EvQueue.reset
  evc := Vector.replicate 8 0
  evcSel := Vector.replicate 8 0
  loader := Helper.reset
  storer := Helper.reset
  spad := Spad.reset
  lend := Lend.reset
  deque := []
  spilled := []
  stealGen := 0x8000 + id
  steal := none
  af := 0
  reserved := none
  resSeq := 0
  latched := none
  kept := none
  binding := false
  tlbWait := none
  nodeCount := 0
  nodeBlack := false
  energy := []
  awayAt := 0

/-- MX.CAD.CUR reads 8 and MIN is 1 at reset (R433). -/
def Mxe.reset : Mxe where
  running := none
  loading := false
  rows := 0
  rowsTotal := 0
  owner := none
  phase := 0
  cur := 8
  minCad := 1
  reqStep := 0
  granted := none
  reqAt := 0
  nextRow := 0
  doneAt := 0
  down := false
  fallFrom := 8
  pendMin := none
  minStep := none
  counters := [(0, 0), (0, 0), (0, 0), (0, 0)]

def CoSlot.reset : CoSlot where
  armed := false
  owner := 0
  job := 0
  ta := 0
  tb := 0
  gathering := 0
  overwrite := false
  wbind := false
  thresh := 0
  tmo := 0
  template := none
  count := 0
  firstAt := none
  waiting := false

/-- A square after reset: operating point 7 (a design choice of the model). The squares of job 0's reset partition are
cleared once after reset (R67). (DESIGN CHOICE, unsafe; log 3.) -/
def Square.reset (id : Nat) : Square where
  point := 7
  target := 7
  lowered := 0
  mxe := Mxe.reset
  slots := Vector.replicate 8 CoSlot.reset
  coq := []
  clearing := id == 0 || id == 32
  joining := []
  leaving := []
  copyWin := []
  copyCount := 0
  copyBlack := false
  mxCount := 0
  mxBlack := false

/-- A district after reset: its rail at 850 mV (a design choice of the model). -/
def District.reset : District where
  rail := 850
  ramp := none
  plans := []
  counters := [(0, 0), (0, 0)]

/-- A die after reset; the fitted channel capacity is code 4 (a design choice of the model). (DESIGN CHOICE, unsafe; log 7.) -/
def Die.reset : Die where
  tlb := []
  walk := []
  l2 := []
  dram := []
  hot := false
  chcap := 4
  hbPol := 0
  hbwBase := 0
  cspOwn := []
  cspClear := []
  fbBase := 0
  fbRoute := 0
  fbGen := 0
  fb := []
  fbWait := []
  killed := []
  wdgLim := 0
  trq := []
  telBase := 0
  telLost := 0
  ready := []
  spill := []
  typeCache := []
  halfCount := []
  halfBlack := []
  refresh := []
  slices := []

/-- A job after reset: job 0 is enabled and holds squares 0 and 32 (R168). -/
def JobRegs.reset (job : Nat) : JobRegs where
  ptb0 := 0
  ptb1 := 0
  ttb := 0
  lvb := 0
  trq := 0
  part := if job = 0 then 0x100000001 else 0
  ctl := if job = 0 then 1 else 0
  pwr := 0
  ctx0 := 0
  ctx1 := 0
  dqs0 := 0
  dqs1 := 0
  rqs0 := 0
  rqs1 := 0
  lost0 := 0
  lost1 := 0
  nrg := Vector.replicate 16 0

def Eth.reset : Eth where
  rta := []
  rtb := []
  cfg := 0
  dup := 0
  drop := 0
  history := []
  meters := []
  rcBase := 0
  stopped := false
  gates := []
  queued := []
  held := []
  again := false
  out := []

/-- SEC.POL.LINK is 1 at reset (R455). -/
def Sec.reset : Sec where
  pol := 0x1000
  done := false
  noKey := false
  kdis := false
  atreq := none
  unlockFails := 0
  keyStore := true
  antiRollback := 0
  received := []
  romWait := false
  booted := false
  placed := false
  image := []

/-- PWR.CAP and PWR.STAT.EFF are 200 at reset (R429). (DESIGN CHOICE, unsafe; log 7.) -/
def Power.reset : Power where
  cap := 200
  eff := 200
  idle := 30
  belowFloor := false
  belowGuarantee := false
  estimates := []

/-- The machine right after device reset. (DESIGN CHOICE, unsafe; log 5.) -/
def State.reset : State where
  mem := []
  cyc := 0
  timeBase := 0
  free := 0
  actor := { core := 0, part := .main }
  agenda := []
  todo := [.squareClear 0, .squareClear 32]
  rotor := 0
  cores := []
  squares := []
  districts := []
  dies := []
  jobs := []
  saved := []
  scOps := []
  returns := []
  boosts := []
  poison := []
  errors := []
  eth := Eth.reset
  power := Power.reset
  sec := Sec.reset
  modules := 8
  mcCount := 0
  lantern := []
  hwHeld := []
  zeroed := []
  halted := false
  thermal := []
  seq := 0

end Sys2Proof.Machine
end

