-- ==== Sys2Proof/Machine/Bits.lean ====
section
/-! DEFINITION. Bit fields, sign extension, bytes and the little-endian order (00 R12, R14). -/
namespace Sys2Proof.Machine

/-- The `n` bits of `v` from bit `lo` up, as a number. -/
def bits (v lo n : Nat) : Nat := v >>> lo % 2 ^ n

/-- The `n` bits of a bit vector from bit `lo` up. -/
def field {w : Nat} (v : BitVec w) (lo n : Nat) : Nat := bits v.toNat lo n

/-- One bit of a bit vector. -/
def flag {w : Nat} (v : BitVec w) (i : Nat) : Bool := v.getLsbD i

/-- `v` with the `n` bits from `lo` up replaced by `x`. -/
def setField {w : Nat} (v : BitVec w) (lo n x : Nat) : BitVec w :=
  BitVec.ofNat w (v.toNat - bits v.toNat lo n * 2 ^ lo + x % 2 ^ n * 2 ^ lo)

/-- The low `n` bits of `v` read as two's complement (R14). -/
def sint (v n : Nat) : Int :=
  let x := v % 2 ^ n
  if 2 ^ (n - 1) ≤ x ∧ 0 < n then (x : Int) - (2 ^ n : Nat) else (x : Int)

/-- A number modulo `2 ^ n`, for negative numbers too. -/
def wrap (x : Int) (n : Nat) : Nat := (x % ((2 ^ n : Nat) : Int)).toNat

/-- The low `n` bits of `v`, sign-extended to 64 bits. -/
def sext64 (v n : Nat) : Word := BitVec.ofInt 64 (sint v n)

/-- `x` clamped to the range (R14). -/
def sat (x lo hi : Int) : Int := if x < lo then lo else if hi < x then hi else x

/-- Byte `i` of a number. -/
def byteAt (v i : Nat) : Byte := BitVec.ofNat 8 (v >>> (8 * i))

/-- The `n` low bytes of a number, the least significant first. -/
def toBytes (n v : Nat) : List Byte :=
  match n with
  | 0 => []
  | n + 1 => BitVec.ofNat 8 v :: toBytes n (v / 256)

/-- The number whose bytes, the least significant first, are these. -/
def ofBytes : List Byte → Nat
  | [] => 0
  | b :: bs => b.toNat + 256 * ofBytes bs

/-- The number of 1 bits among the `n` low bits. -/
def popcount (n v : Nat) : Nat :=
  match n with
  | 0 => 0
  | n + 1 => v % 2 + popcount n (v / 2)

/-- The leading zeros of the `n` low bits; `n` if they are all 0. -/
def leadingZeros (n v : Nat) : Nat :=
  match n with
  | 0 => 0
  | n + 1 => if v >>> n % 2 = 1 then 0 else 1 + leadingZeros n v

/-- The trailing zeros of the `n` low bits; `n` if they are all 0. -/
def trailingZeros (n v : Nat) : Nat :=
  match n with
  | 0 => 0
  | n + 1 => if v % 2 = 1 then 0 else 1 + trailingZeros n (v / 2)

/-- The `n` low bits in reverse order. -/
def reverseBits (n v : Nat) : Nat :=
  match n with
  | 0 => 0
  | n + 1 => v % 2 * 2 ^ n + reverseBits n (v / 2)

/-- The carry-less product: bit k is the XOR of x[i]·y[k−i] over every i (R220), over the `n` low bits of `y`. -/
def clmulNat (n x y : Nat) : Nat :=
  match n with
  | 0 => 0
  | n + 1 => (if y % 2 = 1 then x else 0) ^^^ (2 * clmulNat n x (y / 2))

/-- The boolean as a bit. -/
def b2n (b : Bool) : Nat := if b then 1 else 0

/-- Bit `i` of a number. -/
def bit (v i : Nat) : Bool := v >>> i % 2 = 1

/-- `v` with bit `i` set to `b`. -/
def setBit (v i : Nat) (b : Bool) : Nat :=
  if b then v ||| 2 ^ i else if bit v i then v - 2 ^ i else v

/-- A count that stops at its greatest value. -/
def satAdd (v d top : Nat) : Nat := if v + d < top then v + d else top

/-- The field widths, from the top down, joined: each is a value and its width. -/
def joinFields : List (Nat × Nat) → Nat
  | [] => 0
  | (v, n) :: t => v % 2 ^ n * 2 ^ (t.foldl (fun a e => a + e.2) 0) + joinFields t

/-- Entries in rising order of a key, equal ones in their order. -/
def insertBy {α : Type} (key : α → Nat) (x : α) : List α → List α
  | [] => [x]
  | y :: ys => if key x < key y then x :: y :: ys else y :: insertBy key x ys
def sortBy {α : Type} (key : α → Nat) (l : List α) : List α := l.foldl (fun acc x => insertBy key x acc) []

end Sys2Proof.Machine
end

