-- ==== Sys2Proof/Machine/Regs.lean ====
section
/-! DEFINITION. Where things are on the device, the records of each core, square, district, die and job, and the register
files with their result queues (00 R2 to R6, 08 R183 to R191). -/
namespace Sys2Proof.Machine

/-! ## Places (00 R2 to R5) -/

def coreX (c : Nat) : Nat := c % 16
def coreY (c : Nat) : Nat := c / 16
/-- The core at a column and a row. -/
def coreAt (x y : Nat) : Nat := y * 16 + x
/-- The die of a core: rows 0 to 7 lie on D0 (R2). -/
def dieOf (c : Nat) : Nat := if c < 128 then 0 else 1
/-- The square of a core (R3). -/
def squareOf (c : Nat) : Nat := coreY c / 2 * 8 + coreX c / 2
/-- The district of a square (R4). -/
def districtOf (sq : Nat) : Nat := sq / 8 / 2 * 2 + sq % 8 / 4
/-- The die of a square. -/
def squareDie (sq : Nat) : Nat := if sq < 32 then 0 else 1
/-- The first core of a square, at (2sx, 2sy) (R64). -/
def squareCore (sq : Nat) : Nat := coreAt (2 * (sq % 8)) (2 * (sq / 8))
/-- The four cores of a square in rank order (R173). -/
def squareCores (sq : Nat) : List Nat :=
  let b := squareCore sq
  [b, b + 1, b + 16, b + 17]
/-- Only lit-capable cores run HOT tasks (R5). -/
def litCapable (c : Nat) : Bool := (coreX c + coreY c) % 2 = 0

/-- A core id in range. -/
def coreId (c : Nat) : CoreId := ⟨c % 256, Nat.mod_lt _ (by decide)⟩
def squareId (q : Nat) : SquareId := ⟨q % 64, Nat.mod_lt _ (by decide)⟩
def dieId (d : Nat) : Fin 2 := ⟨d % 2, Nat.mod_lt _ (by decide)⟩
def tileId (n : Nat) : Fin 64 := ⟨n % 64, Nat.mod_lt _ (by decide)⟩

/-- The neighbour of a core in direction 0 north, 1 east, 2 south, 3 west (R19), if it exists on the same die (R20). -/
def neighbour (c dir : Nat) : Option Nat :=
  let x := coreX c
  let y := coreY c
  match dir with
  | 0 => if y = 0 ∨ y = 8 then none else some (c - 16)
  | 1 => if x = 15 then none else some (c + 1)
  | 2 => if y = 7 ∨ y = 15 then none else some (c + 16)
  | _ => if x = 0 then none else some (c - 1)

/-! ## The records of the state -/

def State.core (s : State) (c : Nat) : Core := Table.getD s.cores c (Core.reset c)
def State.setCore (s : State) (c : Nat) (k : Core) : State := { s with cores := Table.set s.cores c k }
def State.modCore (s : State) (c : Nat) (f : Core → Core) : State := s.setCore c (f (s.core c))
def State.square (s : State) (q : Nat) : Square := Table.getD s.squares q (Square.reset q)
def State.setSquare (s : State) (q : Nat) (k : Square) : State := { s with squares := Table.set s.squares q k }
def State.modSquare (s : State) (q : Nat) (f : Square → Square) : State := s.setSquare q (f (s.square q))
def State.district (s : State) (d : Nat) : District := Table.getD s.districts d District.reset
def State.modDistrict (s : State) (d : Nat) (f : District → District) : State :=
  { s with districts := Table.set s.districts d (f (s.district d)) }
def State.die (s : State) (d : Nat) : Die := Table.getD s.dies d Die.reset
def State.modDie (s : State) (d : Nat) (f : Die → Die) : State := { s with dies := Table.set s.dies d (f (s.die d)) }
def State.job (s : State) (j : Nat) : JobRegs := Table.getD s.jobs j (JobRegs.reset j)
def State.modJob (s : State) (j : Nat) (f : JobRegs → JobRegs) : State := { s with jobs := Table.set s.jobs j (f (s.job j)) }

/-- Device time in ns (R6): the model advances it with the cycles at 2.3 GHz from the base that 802.1AS sets.
(DESIGN CHOICE, unsafe; log 5.) -/
def State.time (s : State) : Nat := (s.timeBase + s.cyc * 10 / 23) % 2 ^ 64

/-- A hardware step set under way. -/
def State.due (s : State) (d : Due) : State := { s with todo := s.todo ++ [d] }

/-- The same, unless it is under way already. -/
def State.dueOnce (s : State) (d : Due) : State := if d ∈ s.todo then s else s.due d

/-- A fresh free value and the state after its use. (DESIGN CHOICE, safe; log 6.) -/
def State.fresh (s : State) : State := { s with free := s.free + 1 }

/-! ## Event counters (17 R436, R437) -/

/-- `n` events of a code counted in a core's counters that select it. (DESIGN CHOICE, unsafe; log 42.) -/
def State.evCount (s : State) (c code n : Nat) : State :=
  let hit := fun (w : Word) => flag w 8 && field w 0 8 == code
  if (s.core c).evcSel.any hit then
    s.modCore c (fun k => { k with evc := Vector.ofFn (fun i : Fin 8 =>
      let v := (k.evc[i.val]?).getD 0
      if hit ((k.evcSel[i.val]?).getD 0) then v + BitVec.ofNat 64 n else v) })
  else s

/-- `n` events of a code counted in the counters of another unit. -/
def bumped (l : List (Word × Word)) (code n : Nat) : List (Word × Word) :=
  l.map (fun e => if flag e.2 8 && field e.2 0 8 == code then (e.1 + BitVec.ofNat 64 n, e.2) else e)

/-- `n` units of a class of activity charged to a core's task (R434): they count under its job, its type's NRG index and
the class until the next update. -/
def Core.charge (k : Core) (job nrg cls n : Nat) : Core :=
  let key := (job * 16 + nrg) * 64 + cls
  { k with energy := Table.set k.energy key (Table.getD k.energy key 0 + n) }

/-- Events of a square's MXE. (DESIGN CHOICE, unsafe; log 42.) -/
def State.mxeCount (s : State) (q code n : Nat) : State :=
  s.modSquare q (fun k => { k with mxe := { k.mxe with counters := bumped k.mxe.counters code n } })

/-- Events of a district. -/
def State.districtCount (s : State) (d code n : Nat) : State :=
  s.modDistrict d (fun k => { k with counters := bumped k.counters code n })

/-! ## Tasks -/

/-- A field of the record (07 R159). -/
def recType (r : BitVec 128) : Nat := field r 0 10
def recPrio (r : BitVec 128) : Nat := field r 10 3
def recStealable (r : BitVec 128) : Bool := flag r 13
def recLocal (r : BitVec 128) : Bool := flag r 14
def recSys (r : BitVec 128) : Bool := flag r 15
def recX (r : BitVec 128) : Nat := field r 16 16
def recY (r : BitVec 128) : Nat := field r 32 16
def recZ (r : BitVec 128) : Nat := field r 48 16
def recLaunch (r : BitVec 128) : Nat := field r 64 12
def recDep (r : BitVec 128) : Nat := field r 76 12
def recArg (r : BitVec 128) : Nat := field r 88 32

/-- A field of the type entry (07 R162). -/
def tyEntry (t : BitVec 512) : Word := BitVec.ofNat 64 (field t 0 64)
def tyArgs (t : BitVec 512) : Word := BitVec.ofNat 64 (field t 64 64)
def tyTrapPc (t : BitVec 512) : Word := BitVec.ofNat 64 (field t 128 64)
def tyLdProg (t : BitVec 512) : Word := BitVec.ofNat 64 (field t 192 64)
def tyStProg (t : BitVec 512) : Word := BitVec.ofNat 64 (field t 256 64)
def tySpad (t : BitVec 512) : Nat := field t 320 7
def tyTiles (t : BitVec 512) : Nat := field t 328 7
def tyVreg (t : BitVec 512) : Nat := field t 336 2
def tyHeat (t : BitVec 512) : Nat := field t 338 2
def tyGang (t : BitVec 512) : Nat := field t 340 3
def tyPersist (t : BitVec 512) : Bool := flag t 343
def tyCheck (t : BitVec 512) : Bool := flag t 344
def tyNrg (t : BitVec 512) : Nat := field t 348 4
def tySrcMask (t : BitVec 512) : Nat := field t 352 8
def tyWin (t : BitVec 512) : Nat := field t 384 32
def tyWtmo (t : BitVec 512) : Nat := field t 416 16
def tyLate (t : BitVec 512) : Bool := flag t 432

/-- SYSTEM mode: the record's SYS bit, which only the system job may set (R159). -/
def Task.sys (t : Task) : Bool := recSys t.record && t.job == 0

/-- The bytes of the task's declared scratchpad region (R164). -/
def Task.region (t : Task) : Nat := tySpad t.entry * 4096

/-! ## Registers -/

/-- What stands in a register: `k0` and `v0` read zero, `m0` all ones (R183, R184). -/
def Regs.raw (r : Regs) (f : RegFile) (i : Nat) : Vec :=
  match f with
  | .k => if i = 0 then 0 else (r.k[i]?.getD 0).zeroExtend 512
  | .q => (r.q[i]?.getD 0).zeroExtend 512
  | .v => if i = 0 then 0 else r.v[i]?.getD 0
  | .y => r.y[i]?.getD 0
  | .m => if i = 0 then (BitVec.allOnes 64).zeroExtend 512 else (r.m[i]?.getD 0).zeroExtend 512

/-- A register written; writes to `k0`, `v0` and `m0` are discarded (R183, R184). -/
def Regs.put (r : Regs) (f : RegFile) (i : Nat) (v : Vec) : Regs :=
  match f with
  | .k => if i = 0 then r else { r with k := r.k.setIfInBounds i (v.setWidth 64) }
  | .q => { r with q := r.q.setIfInBounds i (v.setWidth 64) }
  | .v => if i = 0 then r else { r with v := r.v.setIfInBounds i v }
  | .y => { r with y := r.y.setIfInBounds i v }
  | .m => if i = 0 then r else { r with m := r.m.setIfInBounds i (v.setWidth 64) }

/-- A queue with a new slot at age 1 and every other slot one age older (R186). -/
def pushQueue {α : Type} (q : Vector α 16) (v : α) : Vector α 16 :=
  Vector.ofFn (fun i : Fin 16 => if i.val = 0 then v else (q[i.val - 1]?).getD v)

/-- A push of a value to one of the two queues (R186). -/
def Regs.push (r : Regs) (f : RegFile) (v : Vec) : Regs :=
  match f with
  | .q => { r with q := pushQueue r.q (v.setWidth 64) }
  | _ => { r with y := pushQueue r.y v }

/-- What a reader that issues in cycle `t` finds: the register's last write, or what stood there before a write that has
not landed by then (R206, R209). (DEDUCED, unsafe; log 78.) -/
def seenAt (t : Nat) (f : RegFile) (i : Nat) : List Pending → Vec → Vec
  | [], v => v
  | p :: ps, v =>
    if p.file = f ∧ p.idx = i ∧ p.wait = false then
      if t < p.landAt then seenAt t f i ps p.old else v
    else seenAt t f i ps v

/-- The register as the instruction that issues now reads it. (DEDUCED, unsafe; log 78.) -/
def Core.read (k : Core) (f : RegFile) (i : Nat) : Vec := seenAt k.pipe.lastIssue f i k.pipe.pend (k.regs.raw f i)

/-- A variable-latency result of the register is not yet written (R208). -/
def Core.waits (k : Core) (f : RegFile) (i : Nat) : Bool :=
  k.pipe.pend.any (fun p => p.wait && decide (p.file = f ∧ p.idx = i))

/-! ## The body of a repetition and the integer pipeline (R211) -/

/-- The clock of what issues. -/
def Pipe.clock (p : Pipe) : Clock := { readyAt := p.readyAt, lastIssue := p.lastIssue, sched := p.sched, full := p.full }

/-- What issues goes by another clock. -/
def Pipe.withClock (p : Pipe) (x : Clock) : Pipe := { p with readyAt := x.readyAt, lastIssue := x.lastIssue, sched := x.sched, full := x.full }

/-- The clock of the other: of the body for the integer pipeline, of the integer pipeline for the body. -/
def Pipe.otherClock (p : Pipe) : Clock := (p.rep.map (·.clock)).getD p.clock

/-- The last cycle in which the core issued, or was in WAIT or PARK (R419). -/
def Core.quietFrom (k : Core) : Nat := max (max k.pipe.lastIssue k.pipe.otherClock.lastIssue) k.awayAt

/-- A repetition runs. -/
def Core.repeating (k : Core) : Bool := (k.pipe.rep.map (fun r => r.held.isNone)).getD false

/-- The two clocks change places. -/
def Pipe.swapClock (p : Pipe) (body : Bool) : Pipe :=
  { p.withClock p.otherClock with inBody := body, rep := p.rep.map (fun r => { r with clock := p.clock }) }

/-- The position after the one at hand in a repetition; none after the last. -/
def Rep.next (r : Rep) : Option Rep :=
  if r.pos + 1 < r.n then some { r with pos := r.pos + 1 }
  else if r.j + 1 < r.total then some { r with j := r.j + 1, pos := 0 }
  else none

/-- The next instruction is of the repetition's body, if one runs. -/
def Core.enterBody (k : Core) : Core := if k.repeating && !k.pipe.inBody then { k with pipe := k.pipe.swapClock true } else k

/-- The next instruction is of the integer pipeline. -/
def Core.leaveBody (k : Core) : Core := if k.pipe.inBody then { k with pipe := k.pipe.swapClock false } else k

/-- A body instruction has issued: the next position, and after the last the integer pipeline alone. What then consumes a result
of the body counts from where the body ended (R211). -/
def Core.stepBody (k : Core) : Core :=
  match k.pipe.rep with
  | none => k
  | some r =>
    match r.next with
    | some r1 => Core.leaveBody { k with pipe := { k.pipe with rep := some r1 } }
    | none =>
      let m := r.clock
      let p := k.pipe
      let end_ : Clock := { readyAt := Nat.max m.readyAt p.readyAt, lastIssue := Nat.max m.lastIssue p.lastIssue,
                            sched := m.sched, full := m.full }
      let back := fun (x : Pending) =>
        if x.body then { x with body := false, schedAt := m.sched, cross := m.sched, latency := x.latency - (p.sched - x.schedAt) }
        else { x with cross := x.schedAt }
      { k with pipe := { p.withClock end_ with inBody := false, rep := none, pend := p.pend.map back } }

/-- The group that has not issued next: of the running repetition's body, else at the program counter (R176, R199). -/
def Core.firstUnissued (k : Core) : Word :=
  match k.pipe.rep with
  | some r =>
    match if r.held.isNone then r.body[r.pos]? else none with
    | some b => b.hints.va.getD b.va
    | none => k.pipe.hints.va.getD k.pipe.pc
  | none => k.pipe.hints.va.getD k.pipe.pc

/-- The scheduled distance from a result's issue to an instruction at scheduled point `sched`, along what that instruction's
issuer has issued since (R209, R211). -/
def Core.distance (k : Core) (sched : Nat) (p : Pending) : Nat := sched - (if p.body = k.pipe.inBody then p.schedAt else p.cross)

/-- The register is short for an instruction at scheduled distance point `sched` (R209): its last fixed-latency writer is
fewer scheduled cycles away than its latency. -/
def Core.short (k : Core) (sched : Nat) (f : RegFile) (i : Nat) : Bool :=
  match k.pipe.pend.find? (fun p => !p.wait && decide (p.file = f ∧ p.idx = i)) with
  | some p => decide (k.distance sched p < p.latency)
  | none => false

/-- Pending results that time has not yet settled, for the body or for the integer pipeline. -/
def Core.live (k : Core) : List Pending :=
  let o := k.pipe.otherClock
  let seen := Nat.min k.pipe.lastIssue o.lastIssue
  k.pipe.pend.filter (fun p => p.wait || decide (seen < p.landAt) || decide (k.distance k.pipe.sched p < p.latency) ||
    decide (o.sched - (if p.body = k.pipe.inBody then p.cross else p.schedAt) < p.latency))

/-- Pending results after a push to a queue: their slots are one age older; one whose slot is reused is gone. -/
def agePending (f : RegFile) (ps : List Pending) : List Pending :=
  (ps.map (fun p => if p.file = f then { p with idx := p.idx + 1 } else p)).filter
    (fun p => ¬ (p.file = f ∧ 16 ≤ p.idx))

/-- A result that issues now: one of variable latency, its value there. -/
def Core.result (k : Core) (f : RegFile) (i : Nat) (v : Vec) : Pending :=
  { file := f, idx := i, wait := true, old := 0, value := v, landAt := 0, schedAt := k.pipe.sched, cross := k.pipe.otherClock.sched
    latency := 0, seq := k.pipe.seq, body := k.pipe.inBody, push := false, vdiv := k.pipe.divides, va := k.pipe.gva
    pops := k.pipe.pops }

/-- The same of fixed latency, which takes the place of `old`. -/
def Core.fixed (k : Core) (f : RegFile) (i : Nat) (old v : Vec) (latency : Nat) : Pending :=
  { k.result f i v with wait := false, old := old, landAt := k.pipe.lastIssue + latency, latency := latency }

/-- A fixed-latency result written to a named register. One for `m0` is discarded whole (R184, R269). -/
def Core.putFixed (k : Core) (f : RegFile) (i : Nat) (v : Vec) (latency : Nat) : Core :=
  if f = .m ∧ i = 0 then k
  else { k with
    regs := k.regs.put f i v
    pipe := { k.pipe with pend := k.fixed f i (k.regs.raw f i) v latency :: k.live, seq := k.pipe.seq + 1 } }

/-- A fixed-latency result pushed to a queue. -/
def Core.pushFixed (k : Core) (f : RegFile) (v : Vec) (latency : Nat) : Core :=
  { k with
    regs := k.regs.push f v
    pipe := { k.pipe with pend := k.fixed f 0 (k.regs.raw f 15) v latency :: agePending f k.live, seq := k.pipe.seq + 1 } }

/-- A variable-latency result under way for its register. Who reads it consumes no fixed-latency result before it (R209). -/
def Core.later (k : Core) (p : Pending) : Core :=
  { k with pipe := { k.pipe with
      pend := p :: k.pipe.pend.filter (fun x => x.wait || !decide (x.file = p.file ∧ x.idx = p.idx)), seq := k.pipe.seq + 1 } }

/-- The same for a queue, whose slot is allocated now (R186). -/
def Core.laterSlot (k : Core) (p : Pending) : Core :=
  { k with
    regs := k.regs.push p.file (k.regs.raw p.file 15)
    pipe := { k.pipe with pend := p :: agePending p.file k.pipe.pend, seq := k.pipe.seq + 1 } }

/-- A variable-latency result for a named register: written when its write-back comes about (R208). -/
def Core.putLater (k : Core) (f : RegFile) (i : Nat) (v : Vec) : Core := k.later (k.result f i v)

/-- A variable-latency result for a queue. -/
def Core.pushLater (k : Core) (f : RegFile) (v : Vec) : Core := k.laterSlot (k.result f 0 v)

/-- A variable-latency result for a named register whose value is still to come, or for the stream bound there (`push`). Its
number is the pipe's `seq` before. -/
def Core.putAwait (k : Core) (f : RegFile) (i : Nat) (push : Bool) : Core :=
  k.later { k.result f i 0 with landAt := 1, push := push }

/-- The same for a queue. -/
def Core.pushAwait (k : Core) (f : RegFile) : Core := k.laterSlot { k.result f 0 0 with landAt := 1 }

/-- The value of an awaited result comes. -/
def Core.deliver (k : Core) (seq : Nat) (v : Vec) : Core :=
  { k with pipe := { k.pipe with
      pend := k.pipe.pend.map (fun p => if p.seq = seq ∧ p.wait then { p with value := v, landAt := 0 } else p) } }

/-- The oldest pending variable-latency result whose value is there. -/
def oldestWaiting : List Pending → Option Pending
  | [] => none
  | p :: ps =>
    match oldestWaiting ps with
    | some o => some o
    | none => if p.wait && p.landAt == 0 then some p else none

/-- A variable-latency result is written. -/
def Core.writeResult (k : Core) (p : Pending) : Core :=
  { k with
    regs := k.regs.put p.file p.idx p.value
    pipe := { k.pipe with pend := k.pipe.pend.filter (fun x => x.seq ≠ p.seq) } }

/-- The write-back of the oldest variable-latency result. -/
def Core.writeBack (k : Core) : Core :=
  match oldestWaiting k.pipe.pend with
  | none => k
  | some p => k.writeResult p

/-- Every issued result written and no consumer short any more (R210). -/
def Core.settle (k : Core) : Core :=
  { k with
    regs := k.pipe.pend.foldr (fun p r => if p.wait && p.landAt == 0 && !p.push then r.put p.file p.idx p.value else r) k.regs
    pipe := { k.pipe with pend := k.pipe.pend.filter (fun p => p.wait && (p.landAt == 1 || p.push)), stalls := [] } }

/-- The pending result goes to the stream that was bound to its register when it issued (R189). -/
def Pending.toStream (p : Pending) : Bool := p.wait && p.push

/-- A result of an issued instruction whose value is still to come, or still to be pushed. -/
def Core.awaits (k : Core) : Bool := k.pipe.pend.any (fun p => (p.wait && p.landAt == 1) || p.toStream)

/-- A result of a task that must go to its stream is still under way (R189). -/
def Core.pushing (k : Core) (i : Nat) : Bool := k.pipe.pend.any (fun p => p.toStream && decide (p.idx = 12 + i))

/-- A value put into a register with no latency: the start state of a task, a write of the hardware's own. -/
def Core.set (k : Core) (f : RegFile) (i : Nat) (v : Vec) : Core := { k with regs := k.regs.put f i v }

/-! ## The lantern's counts at the interfaces (15 R404, R405) -/

/-- A square belongs to some partition, the one that it is leaving included; a node that belongs to none counts nothing. -/
def State.counts (s : State) (q : Nat) : Bool :=
  let k := s.square q
  !k.leaving.isEmpty || (flag (s.job 0).part q && !k.joining.contains 0) ||
    s.jobs.any (fun e => flag e.2.part q && !k.joining.contains e.1)

/-- A counted item leaves the interface of a core. -/
def sentAt (s : State) (c : Nat) : State :=
  s.modCore c (fun k => if s.counts (squareOf c) then { k with nodeCount := k.nodeCount + 1 } else k)
/-- A counted item reaches the interface of a core. -/
def receivedAt (s : State) (c : Nat) : State :=
  s.modCore c (fun k => if s.counts (squareOf c) then { k with nodeCount := k.nodeCount - 1, nodeBlack := true } else k)

/-! ## Gangs -/

/-- The members of a core's unit in rank order: the cores that R173 gives its gang while it has not broken, else the core
itself. -/
def gangOf (s : State) (c : Nat) : List Nat :=
  let t := (s.core c).task
  if t.brk then [c]
  else match t.gang with
    | 1 => [t.leader, t.leader + 1]
    | 2 => squareCores (squareOf t.leader)
    | 3 => [t.leader, t.leader + 1]
    | _ => [c]

/-- All the cores that a unit of a gang mode holds, from its leader (R173). -/
def unitCores (gang leader : Nat) : List Nat :=
  match gang with
  | 1 => [leader, leader + 1]
  | 2 => squareCores (squareOf leader)
  | 3 => [leader, leader + 1]
  | _ => [leader]

/-- The members whose own registers an instruction of the unit acts on: every member of a FOLLOW gang; of a LOCKSTEP pair the
primary, whom the checker mirrors (R175, R177). (DESIGN CHOICE, unsafe; log 27.) -/
def actingMembers (s : State) (c : Nat) : List Nat :=
  if (s.core c).task.gang = 3 then [(s.core c).task.leader] else gangOf s c

end Sys2Proof.Machine
end

