-- ==== Sys2Proof/Machine/Memory.lean ====
section
/-! DEFINITION. The bytes of every address space, in one canonical list (00 R12, 01 R15 to R22, 02 R43 to R65).

A location is a number. Paged memory of die d stands at d·2^52 plus the physical address; a fixed window stands at its
global address; storage with no address of its own (lane slices, the helpers' stores, parity banks, lent register
quarters) stands above 2^64. A location the list does not hold reads as zero. -/
namespace Sys2Proof.Machine

abbrev Mem := List Host.Cell

/-- What an unlisted location reads as. (DESIGN CHOICE, unsafe; log 1.) -/
def unlisted : Byte := 0

/-- The byte at a location. -/
def Mem.byte (m : Mem) (a : Nat) : Byte := Table.getD m a unlisted

/-- A byte written: the list stays in rising order and holds no entry equal to what an unlisted location reads as. -/
def Mem.put (m : Mem) (a : Nat) (v : Byte) : Mem :=
  if v = unlisted then Table.erase m a else Table.set (Table.erase m a) a v

/-- The `n` bytes from `a` up. -/
def Mem.bytes (m : Mem) (a : Nat) : Nat → List Byte
  | 0 => []
  | n + 1 => Mem.byte m a :: Mem.bytes m (a + 1) n

/-- The `n` bytes from `a` up as a little-endian number (R14). -/
def Mem.read (m : Mem) (a n : Nat) : Nat := ofBytes (Mem.bytes m a n)

/-- Bytes written from `a` up. -/
def Mem.putBytes (m : Mem) (a : Nat) : List Byte → Mem
  | [] => m
  | b :: bs => Mem.putBytes (Mem.put m a b) (a + 1) bs

/-- The `n` low bytes of a number written from `a` up. -/
def Mem.write (m : Mem) (a n v : Nat) : Mem := Mem.putBytes m a (toBytes n v)

/-- A range cleared to zero. -/
def Mem.clear (m : Mem) (lo hi : Nat) : Mem := Table.eraseRange m lo hi

/-- The canonical form: locations strictly rising, no entry equal to what an unlisted location reads as.
(DESIGN CHOICE, unsafe; log 1.) -/
def Mem.wf : Mem → Bool
  | [] => true
  | [e] => e.2 != unlisted
  | e :: f :: t => e.2 != unlisted && decide (e.1 < f.1) && Mem.wf (f :: t)

def State.read (s : State) (a n : Nat) : Nat := Mem.read s.mem a n
def State.write (s : State) (a n v : Nat) : State := { s with mem := Mem.write s.mem a n v }
def State.clearRange (s : State) (lo hi : Nat) : State := { s with mem := Mem.clear s.mem lo hi }

/-! ## Locations -/

/-- Paged memory of a die. -/
def pagedLoc (die pa : Nat) : Nat := die * 2 ^ 52 + pa
def scratchLoc (c : Nat) : Nat := 0xFE00000000000000 + c * 0x100000
def squareLoc (q : Nat) : Nat := 0xFE00000100000000 + q * 0x200000
def chipLoc (die : Nat) : Nat := 0xFE00000200000000 + die * 0x2000000
def deviceLoc : Nat := 0xFE0000FF00000000
def localLoc : Nat := 0xFEF0000000000000
/-- Lane slice `j` of a core (R45). -/
def laneLoc (c j : Nat) : Nat := 2 ^ 64 + c * 0x10000 + j * 0x1000
/-- A helper's instruction store and data memory (R373). -/
def codeLoc (c : Nat) (storer : Bool) : Nat := 2 ^ 65 + c * 0x10000 + b2n storer * 0x8000
def dataLoc (c : Nat) (storer : Bool) : Nat := 2 ^ 65 + c * 0x10000 + b2n storer * 0x8000 + 0x4000
/-- Row `w` of parity bank `g` (R47). -/
def parityLoc (c g w : Nat) : Nat := 2 ^ 66 + c * 0x10000 + g * 0x4000 + w * 16
/-- The register storage a dark core lends (R58). -/
def lentRegLoc (c : Nat) : Nat := 2 ^ 67 + c * 0x800

/-- The installed memory of a die in bytes (04 R109, R114). -/
def installed (s : State) (die : Nat) : Nat := (s.die die).chcap * 4 * 2 ^ 30 * 24

end Sys2Proof.Machine
end

