-- ==== Sys2Proof/Machine/Home.lean ====
section
/-! DEFINITION. How an instruction can end short of its effect, what an access is, and what happens at a memory's port: errors
(02 R43 to R46, R64, 04 R106), the L2 (04 R105), the LPDDR 6 channels (R110), NEAR ownership (06 R148, R150) and telemetry
(17 R438, R439). -/
namespace Sys2Proof.Machine

/-! ## Ends -/

/-- What an instruction that must wait asks of the hardware before it is tried again. -/
inductive Req where
  | due (d : Due)
  | fill (c n cause : Nat)
  | evict (c n : Nat)
  | keep (c n : Nat)
  | overflow (c : Nat)
  | disarm (c slot : Nat)
  | tileWait (c n : Nat)
  | window (c : Nat) (v : BitVec 512)
  deriving DecidableEq, Repr

/-- An instruction traps, or waits at issue and is tried again. -/
inductive Stop where
  | trap (t : TrapInfo)
  | stall (reqs : List Req)
  deriving DecidableEq, Repr

/-- The result of a part of an instruction. -/
abbrev Res (α : Type) := Except Stop α

/-- Cause codes (16 R410). -/
def cIllegalOp : Nat := 0x01
def cStallShort : Nat := 0x02
def cRegGated : Nat := 0x03
def cMisalign : Nat := 0x04
def cNonCanon : Nat := 0x05
def cStraddle : Nat := 0x06
def cWindowDenied : Nat := 0x07
def cPageAbsent : Nat := 0x08
def cPagePerm : Nat := 0x09
def cTileUncfg : Nat := 0x0A
def cTileShape : Nat := 0x0B
def cScaleCount : Nat := 0x0C
def cMxMeta : Nat := 0x0D
def cEcc : Nat := 0x0E
def cLogFault : Nat := 0x10
def cGangBreak : Nat := 0x11
def cLockstep : Nat := 0x12
def cEvqOverflow : Nat := 0x13
def cSwTrap : Nat := 0x14
def cBrk : Nat := 0x15
def cCancelled : Nat := 0x16
def cPriv : Nat := 0x17
def cWatchdog : Nat := 0x18

/-- A trap of a cause with an address and the TRAP.INFO fields of R411. -/
def mkTrap (cause addr : Nat) (info : Word := 0) : TrapInfo :=
  { cause := cause, addr := BitVec.ofNat 64 addr, info := info, skip := false, die := 0, kind := 0, flag := 0,
    access := .read, agent := .task, tag := 0, met := [] }

def raise {α : Type} (cause : Nat) (addr : Nat := 0) (info : Word := 0) : Res α := .error (.trap (mkTrap cause addr info))
def stall {α : Type} (reqs : List Req := []) : Res α := .error (.stall reqs)

/-- A fault of what follows a read carries the read with it. -/
def afterMet {α : Type} (m : Met) : Res α → Res α
  | .error (.trap t) => .error (.trap { t with met := m :: t.met })
  | r => r

/-- The reads that a fault carries with it allocate as their access does. -/
def metAlloc {α : Type} (alloc : Bool) : Res α → Res α
  | .error (.trap t) => .error (.trap { t with met := t.met.map (fun m => { m with alloc := alloc }) })
  | r => r

/-! ## Accesses -/

/-- An access as an agent makes it: core and job of the agent, SYSTEM rights, what it does, its address and length, the
alignment its instruction requires (1: none), and whether it reads a structure (R475) or comes through a window-enabled
connection of the host (R445). `cp` is the instruction's cache request: 0 the page's, 1 C1, 2 C0, 3 NA (R103). -/
structure Access where
  core : Nat
  job : Nat
  sys : Bool
  agent : AgentKind
  kind : AccessKind
  va : Nat
  len : Nat
  align : Nat
  struct : Bool
  cp : Nat := 0
  deriving DecidableEq, Repr

/-- The core whose task or helper makes the access, if any does. -/
def ownAgent (a : Access) : Option Nat :=
  if a.agent = .task ∨ a.agent = .loader ∨ a.agent = .storer then some a.core else none

/-! ## Regions and code words (02 R43, R46, R64, 04 R106, 14 R373) -/

/-- The memory that a location belongs to. -/
inductive Region where
  | l2 (die : Nat)
  | scratch (c a : Nat)
  | square (q : Nat)
  | chip (die : Nat)
  | device
  | lane (c : Nat)
  | helper (c : Nat)
  | parity (c : Nat)
  | regs (c : Nat)
  deriving DecidableEq, Repr

def regionOf (loc : Nat) : Region :=
  if loc < 2 ^ 53 then .l2 (loc / 2 ^ 52)
  else if 2 ^ 67 ≤ loc then .regs ((loc - 2 ^ 67) / 0x800 % 256)
  else if 2 ^ 66 ≤ loc then .parity (loc % 2 ^ 64 / 0x10000 % 256)
  else if 2 ^ 65 ≤ loc then .helper (loc % 2 ^ 64 / 0x10000 % 256)
  else if 2 ^ 64 ≤ loc then .lane (loc % 2 ^ 64 / 0x10000 % 256)
  else
    let o := loc - 0xFE00000000000000
    if o < 0x10000000 then .scratch (o / 0x100000) (o % 0x100000)
    else if o < 0x200000000 then .square ((o - 0x100000000) / 0x200000)
    else if o < 0x204000000 then .chip ((o - 0x200000000) / 0x2000000)
    else .device

/-- The bytes that share one error state: a code word of the region, or in the L2 a sector (R106). -/
def Region.unit : Region → Nat
  | .l2 _ => 64
  | .lane _ | .helper _ => 4
  | .regs _ => 8
  | _ => 16

/-- The units that a range touches, each as the location of its first byte. -/
def unitsIn (u loc n : Nat) : List Nat := (List.range ((loc % u + n + u - 1) / u)).map (fun i => loc / u * u + i * u)

/-- A uncorrectable error in the unit of `u` bytes at a location. -/
def unitBad (s : State) (u at_ : Nat) : Bool := s.errors.any (fun e => !e.corr && decide (at_ ≤ e.loc ∧ e.loc < at_ + u))
/-- A correctable error in it. -/
def unitCorr (s : State) (u at_ : Nat) : Bool := s.errors.any (fun e => e.corr && decide (at_ ≤ e.loc ∧ e.loc < at_ + u))
/-- The unit rewritten without its error. -/
def unitMended (s : State) (u at_ : Nat) : State :=
  { s with errors := s.errors.filter (fun e => !decide (at_ ≤ e.loc ∧ e.loc < at_ + u)) }

/-- The same of the 16-byte rows of a scratchpad and its parity banks, by the row's location divided by 16. -/
def rowBad (s : State) (row : Nat) : Bool := unitBad s 16 (row * 16)
def rowCorr (s : State) (row : Nat) : Bool := unitCorr s 16 (row * 16)
def rowMended (s : State) (row : Nat) : State := unitMended s 16 (row * 16)

/-! ## NEAR ownership and the L2 (04 R105, R106, 06 R148, R150) -/

/-- The slice that a physical address selects (R105). -/
def l2Slice (pa : Nat) : Nat := bits pa 8 5 ^^^ bits pa 13 5 ^^^ bits pa 18 5 ^^^ bits pa 23 5
/-- Its set in the slice (R105). -/
def l2Set (pa : Nat) : Nat := bits pa 13 9

/-- Where a physical address stands in the LPDDR 6 (R110): the channel, the line's number within it, and the bank. -/
structure DramPlace where
  channel : Nat
  line : Nat
  bank : Nat
  deriving DecidableEq, Repr

/-- The mapping of R110. -/
def dramPlace (pa : Nat) : DramPlace :=
  let l := bits pa 8 44
  let j := l / 3
  let a := j / 8
  { channel := 8 * (l % 3) + (bits j 0 3 ^^^ bits j 3 3 ^^^ bits j 6 3), line := a, bank := bits a 0 4 ^^^ bits a 4 4 }

/-- `n` bytes moved between the L2 and the memory's channels (R434). -/
def dramMoved (d : Die) (pa n : Nat) : Die :=
  let p := dramPlace pa
  let key := p.channel * 16 + p.bank
  { d with dram := Table.set d.dram key (Table.getD d.dram key 0 + n) }

/-- Events of an L2 slice (R437). (DESIGN CHOICE, unsafe; log 42.) -/
def sliceBumped (d : Die) (slice code n : Nat) : Die :=
  { d with slices := Table.set d.slices slice (bumped (Table.getD d.slices slice [(0, 0), (0, 0), (0, 0), (0, 0)]) code n) }

/-- What an access does to a die's L2: its lines, its slices' counters and what its memory's banks have moved. -/
def State.modL2 (s : State) (die : Nat) (f : Die → Die) : State :=
  s.modDie die (fun d => let u := f d; { d with l2 := u.l2, dram := u.dram, slices := u.slices })

def sliceCount (s : State) (die slice code n : Nat) : State := s.modL2 die (fun d => sliceBumped d slice code n)

/-- A sector of the line is poisoned, or would be at the read that an eviction makes: the line is never evicted (R106). -/
def linePoisoned (s : State) (die line : Nat) : Bool :=
  s.poison.any (fun e => decide (pagedLoc die (line * 256) ≤ e ∧ e < pagedLoc die (line * 256) + 256)) ||
    unitBad s 256 (pagedLoc die (line * 256))

/-- Room for a line in its set of 16: where the set is full, the line used longest ago leaves, its dirty sectors written to
memory; none while no line of the set may leave (R105, R106). `kept` says which lines poison holds. -/
def l2Room (kept : Nat → Bool) (d : Die) (line : Nat) : Option Die :=
  let peers := d.l2.filter (fun x => x.slice == l2Slice (line * 256) && l2Set (x.line * 256) == l2Set (line * 256))
  if peers.length < 16 then some d
  else (peers.reverse.find? (fun x => !kept x.line)).map (fun v =>
    let d1 : Die := { d with l2 := d.l2.filter (fun x => x.line ≠ v.line) }
    if v.dirty = 0 then d1 else sliceBumped (dramMoved d1 (v.line * 256) (64 * popcount 4 v.dirty)) v.slice 0x82 1)

/-- What an access of a sector leaves in the L2 (R103 to R105): a sector that is there stays and becomes the most recent; a
missing one is allocated if the access's policy says so, read from memory unless a write covers it whole, and else memory
itself is accessed, and for `back` written back as well (R146). -/
def l2Put (kept : Nat → Bool) (d : Die) (pa : Nat) (alloc write whole back : Bool) : Die :=
  let line := pa / 256
  let q := bits pa 6 2
  let old := d.l2.find? (fun x => x.line == line)
  let there := (old.map (fun x => bit x.valid q)).getD false
  if there || alloc then
    let d1 := if there || (write && whole) then d else dramMoved d pa 64
    match (if old.isSome then some d1 else l2Room kept d1 line) with
    | none => d1
    | some d2 =>
      let x : L2Line := old.getD { slice := l2Slice pa, line := line, valid := 0, dirty := 0 }
      let x1 : L2Line := { x with valid := setBit x.valid q true, dirty := if write then setBit x.dirty q true else x.dirty }
      { d2 with l2 := x1 :: d2.l2.filter (fun y => y.line ≠ line) }
  else dramMoved d pa (if back then 128 else 64)

/-- A range of paged memory accessed at its slices, sector by sector (R105); `back` for an atomic (R146). -/
def l2Access (s : State) (loc n : Nat) (alloc write : Bool) (back : Bool := false) : State :=
  let die := loc / 2 ^ 52
  s.modL2 die (fun d => (unitsIn 64 loc n).foldl (fun d at_ =>
    let pa := at_ % 2 ^ 52
    let there := d.l2.any (fun x => x.line == pa / 256 && bit x.valid (bits pa 6 2))
    l2Put (linePoisoned s die) (sliceBumped d (l2Slice pa) (if there then 0x80 else 0x81) 1) pa alloc write
      (decide (loc ≤ at_ ∧ at_ + 64 ≤ loc + n)) back) d)

/-- An owned block comes home as a dirty sector (R147 to R149); `n` revokes have been sent for it. -/
def l2Return (n : Nat) (s : State) (b : Nat) : State :=
  let die := b / 2 ^ 52
  let pa := b % 2 ^ 52
  s.modL2 die (fun d => l2Put (linePoisoned s die) (sliceBumped d (l2Slice pa) 0x85 n) pa true true true false)

/-- A core's entries with a property leave its atomic buffer, and their blocks come home (R147, R149). -/
def releaseBlocks (s : State) (c : Nat) (gone : AtomEntry → Bool) : State :=
  let k := s.core c
  if k.atoms.any gone then
    ((k.atoms.filter gone).map (·.loc)).foldl (l2Return 0) (s.modCore c (fun k => { k with atoms := k.atoms.filter (fun e => !gone e) }))
  else s

/-- An access to a home revokes every owner of a block it touches: the block comes home as a dirty sector, and another agent's
access enters the owner's predictor. (DEDUCED, safe; log 23.) -/
def revoked (s : State) (own : Option Nat) (loc n : Nat) : State :=
  let hit := fun (e : AtomEntry) => decide (loc < e.loc + 64 ∧ e.loc < loc + n)
  if s.cores.any (fun e => e.2.atoms.any hit) then
    let lost := (s.cores.filter (fun e => e.2.atoms.any hit)).map (·.1)
    let blocks := (s.cores.flatMap (fun e => (e.2.atoms.filter hit).map (·.loc))).eraseDups
    let s1 := lost.foldl (fun s c => s.evCount c 0x12 1) s
    let s2 : State := { s1 with cores := s1.cores.map (fun e =>
        let gone := e.2.atoms.filter hit
        if gone = [] then e
        else (e.1, { e.2 with
          atoms := e.2.atoms.filter (fun x => !hit x)
          preds := if own = some e.1 then e.2.preds else e.2.preds.map (fun p =>
            if gone.any (fun g => g.job = p.job ∧ g.va / 64 = p.block) then { p with history := p.history ||| 1 } else p) })) }
    blocks.foldl (l2Return 1) s2
  else s

/-- The reads that a faulting access has made come about at their homes: owners are revoked (R148), the L2 serves them (R105), and
a sector found uncorrectable is poisoned where the L2 allocates it (R106). -/
def State.meets (s : State) (own : Option Nat) (t : TrapInfo) : State :=
  t.met.foldl (fun s m =>
    let s1 := l2Access (revoked s own m.loc m.len) m.loc m.len m.alloc false
    if m.bad && m.alloc && !s1.poison.contains m.loc then { s1 with poison := s1.poison ++ [m.loc] } else s1) s

/-- A write that the hardware makes at a home on its own account: a record of a ring, a fault-buffer entry. -/
def homePut (s : State) (loc n v : Nat) : State := (l2Access (revoked s none loc n) loc n true true).write loc n v

/-! ## Telemetry (R438, R439) -/

/-- The ring of a base register of HBW.BASE's layout: its first location and its length field. -/
def ringOf (die : Nat) (w : Word) : Nat × Nat := (pagedLoc die (field w 12 40 * 4096), field w 4 8)

/-- HEAD and TAIL of a ring in memory, read at their slice (R105, R148), which mends a correctable error; none where their sector is
uncorrectable or poisoned (R106). (DEDUCED, unsafe; log 89.) -/
def ringEnds (s : State) (base : Nat) : Option (Nat × Nat × State) :=
  let at_ := base / 64 * 64
  if unitBad s 64 at_ ∨ s.poison.contains at_ then none
  else
    let s1 := l2Access (revoked (if unitCorr s 64 at_ then unitMended s 64 at_ else s) none base 16) base 16 true false
    some (s1.read base 8, s1.read (base + 8) 8, s1)

/-- One telemetry record of a die: kind, core, job and the 16 bytes that depend on the kind. A record that finds the ring full
or off is dropped and counted. -/
def telemetry (s0 : State) (die kind core job : Nat) (detail : Nat) : State :=
  let (base, len) := ringOf die (s0.die die).telBase
  let n := len * 128 - 2
  let lost := fun (s : State) => s.modDie die (fun d => { d with telLost := satAdd d.telLost 1 (2 ^ 64 - 1) })
  if len = 0 then lost s0
  else match ringEnds s0 base with
  | none => lost s0
  | some (head, tail, s) =>
  if (head + 2 ^ 64 - tail) % 2 ^ 64 = n then lost s
  else
    let w0 := joinFields [(job, 8), (0, 2), (squareOf core, 6), (core, 8), (kind, 8)]
    let r := w0 + s.time * 2 ^ 64 + detail % 2 ^ 128 * 2 ^ 128
    homePut (homePut s (base + 64 + head % n * 32) 32 r) base 8 ((head + 1) % 2 ^ 64)

/-! ## The checks at a port -/

/-- The memory's code in telemetry (R439), for the memories whose corrected errors are reported. -/
def memoryCode : Region → Option Nat
  | .scratch _ _ | .parity _ => some 0
  | .lane _ => some 1
  | .square _ => some 2
  | .chip _ => some 3
  | .l2 _ => some 4
  | _ => none

/-- The bank and the row or address by which a record names a location: of the scratchpad the bank and row of R47, of a lane
slice its number and the word in it, of the L2 the physical address, else bank 0 and the row of 16 bytes.
(DESIGN CHOICE, unsafe; log 32.) -/
def errorPlace (loc : Nat) : Nat × Nat :=
  match regionOf loc with
  | .scratch _ a => (bits a 4 4, bits a 8 10)
  | .parity _ => (16 + loc % 0x10000 / 0x4000, loc % 0x4000 / 16)
  | .lane _ => (loc % 0x10000 / 0x1000, loc % 0x1000 / 4)
  | .square _ => (0, (loc - squareLoc 0) % 0x200000 / 16)
  | .chip _ => (0, (loc - chipLoc 0) % 0x2000000 / 16)
  | .l2 _ => (0, loc % 2 ^ 52)
  | _ => (0, loc / 16)

/-- The die that a location's memory lies on. -/
def homeDie (loc : Nat) : Nat :=
  match regionOf loc with
  | .l2 d | .chip d => d
  | .square q => squareDie q
  | .scratch c _ | .lane c | .helper c | .parity c | .regs c => dieOf c
  | .device => 0

/-- A corrected error reported (R439 kind 2): the memory's code, the bank, the row or address, from the die of the memory; the
core is the one whose access met it. (DESIGN CHOICE, unsafe; log 32.) -/
def eccRecord (s : State) (core loc : Nat) : State :=
  match memoryCode (regionOf loc) with
  | some m =>
    let (bank, row) := errorPlace loc
    telemetry s (homeDie loc) 2 core (s.core core).task.job (m + bank * 256 + row * 2 ^ 64)
  | none => s

/-- The unit at a location lies whole in a range. -/
def covered (u at_ loc n : Nat) : Bool := decide (loc ≤ at_ ∧ at_ + u ≤ loc + n)

/-- An access of a range of any memory but a scratchpad finds no uncorrectable or poisoned unit, or ends in ECC_UNCORR;
correctable ones are corrected and reported. A write of a whole unit needs none of its old bytes and clears its poison (R46,
R64, R106). (DESIGN CHOICE, unsafe; log 80.) -/
def wordCheck (s : State) (c loc n va : Nat) (write : Bool) : Res State :=
  if s.errors = [] ∧ s.poison = [] then .ok s
  else
    let u := (regionOf loc).unit
    let units := unitsIn u loc n
    let bad := units.filter (fun at_ => (unitBad s u at_ || s.poison.contains at_) && !(write && covered u at_ loc n))
    if bad ≠ [] then
      .error (.trap { mkTrap cEcc va with met := if loc < 2 ^ 53 then bad.map (fun at_ => { loc := at_, len := u, alloc := true, bad := true }) else [] })
    else
      let s1 := units.foldl (fun s at_ =>
        if unitCorr s u at_ then eccRecord (unitMended s u at_) c at_ else s) s
      let whole := if write then units.filter (fun at_ => covered u at_ loc n) else []
      let s2 := whole.foldl (fun s at_ => unitMended s u at_) s1
      .ok { s2 with poison := s2.poison.filter (fun e => !whole.contains e) }

/-- Bytes of paged memory read at their slice. -/
def l2Read (s : State) (a : Access) (loc n va : Nat) (alloc : Bool) : Res (Nat × State) := do
  let s1 ← metAlloc alloc (wordCheck (revoked s (ownAgent a) loc n) a.core loc n va false)
  let s2 := l2Access s1 loc n alloc false
  pure (s2.read loc n, s2)

/-- Bytes of paged memory written at their slice. -/
def l2Write (s : State) (a : Access) (loc n va v : Nat) (alloc : Bool) : Res State := do
  let s1 ← metAlloc alloc (wordCheck (revoked s (ownAgent a) loc n) a.core loc n va true)
  pure ((l2Access s1 loc n alloc true).write loc n v)

end Sys2Proof.Machine
end

