-- ==== Sys2Proof/Machine/Space.lean ====
section
/-! DEFINITION. How an instruction can end short of its effect, the address spaces, translation and the checks of an access
(01 R15 to R42, R473, R475). -/
namespace Sys2Proof.Machine

/-! ## Spaces (R15, R17, R19) -/

/-- The spaces of the virtual layout and the rows of the windows. -/
inductive Space where
  | paged (die : Nat)
  | scratch (c : Nat)
  | square (q : Nat)
  | chip (die : Nat)
  | device
  | ownScratch
  | lent (dir : Nat)
  | lentRegs (dir : Nat)
  | lane
  | slot (n : Nat)
  | ownSquare
  | mxQueue
  | copyQueue
  deriving DecidableEq, Repr

/-- A space with the address of its first byte and its extent. -/
structure Row where
  space : Space
  base : Nat
  size : Nat
  deriving DecidableEq, Repr

/-- The row of the local window that an offset lies in (R19). (DESIGN CHOICE, unsafe; log 94.) -/
def localRow (o : Nat) : Option Row :=
  let at_ (sp : Space) (b n : Nat) : Option Row := some ⟨sp, localLoc + b, n⟩
  if o < 0x40000 then at_ .ownScratch 0 0x40000
  else if o < 0x80000 then
    let d := (o - 0x40000) / 0x10000
    at_ (.lent d) (0x40000 + d * 0x10000) 0x10000
  else if o < 0x80800 then
    let d := (o - 0x80000) / 0x200
    at_ (.lentRegs d) (0x80000 + d * 0x200) 0x200
  else if 0x200000 ≤ o ∧ o < 0x201000 then at_ .lane 0x200000 0x1000
  else if 0x400000 ≤ o ∧ o < 0x500000 then
    let n := (o - 0x400000) / 0x4000
    at_ (.slot n) (0x400000 + n * 0x4000) 0x4000
  else if 0x800000 ≤ o ∧ o < 0xA00000 then at_ .ownSquare 0x800000 0x200000
  else if 0x1000000 ≤ o ∧ o < 0x1000400 then at_ .mxQueue 0x1000000 0x400
  else if 0x1010000 ≤ o ∧ o < 0x1010400 then at_ .copyQueue 0x1010000 0x400
  else none

/-- The row that an address lies in; none is NONCANON (R15, R17, R19). (DESIGN CHOICE, unsafe; log 94.) -/
def rowOf (va : Nat) : Option Row :=
  if va < 2 ^ 53 then some ⟨.paged (va / 2 ^ 52), va / 2 ^ 52 * 2 ^ 52, 2 ^ 52⟩
  else if va < 0xFE00000000000000 ∨ 0xFF00000000000000 ≤ va then none
  else
    let o := va - 0xFE00000000000000
    if o < 0x10000000 then
      let c := o / 0x100000
      if o % 0x100000 < 0x40000 then some ⟨.scratch c, scratchLoc c, 0x40000⟩ else none
    else if 0x100000000 ≤ o ∧ o < 0x100000000 + 64 * 0x200000 then
      let q := (o - 0x100000000) / 0x200000
      some ⟨.square q, squareLoc q, 0x200000⟩
    else if 0x200000000 ≤ o ∧ o < 0x204000000 then
      let d := (o - 0x200000000) / 0x2000000
      some ⟨.chip d, chipLoc d, 0x2000000⟩
    else if 0xFF00000000 ≤ o ∧ o < 0x10000000000 then some ⟨.device, deviceLoc, 0x100000000⟩
    else if localLoc ≤ va ∧ va < localLoc + 0x2000000 then localRow (va - localLoc)
    else none

/-- The row's storage, if its bytes are plain storage: where its first byte lies. -/
def rowLoc (c : Nat) (r : Row) : Nat :=
  match r.space with
  | .ownScratch => scratchLoc c
  | .ownSquare => squareLoc (squareOf c)
  | .lent d => scratchLoc ((neighbour c d).getD 0) + (d + 2) % 4 * 0x10000
  | .lentRegs d => lentRegLoc ((neighbour c d).getD 0) + (d + 2) % 4 * 0x200
  | _ => r.base

/-- The direction-facing quarter of the neighbour is lent to this core (R20, R58). -/
def borrows (s : State) (c dir : Nat) : Bool :=
  match neighbour c dir with
  | none => false
  | some n => ((s.core n).lend.lentTo[(dir + 2) % 4]?.getD none) == some (coreId c)

/-- The square of the neighbour in a direction is under its clear (R67). -/
def lenderClears (s : State) (c dir : Nat) : Bool := (s.square (squareOf ((neighbour c dir).getD 0))).clearing

/-! ## An access and its checks -/

def paging (a : Access) (cause flag die va : Nat) : Stop :=
  .trap { cause := cause, addr := BitVec.ofNat 64 va, info := BitVec.ofNat 64 (flag * 16), skip := false, die := die,
          kind := cause, flag := flag, access := a.kind, agent := a.agent, tag := 0, met := [] }

/-! ### The walk (R26 to R33) -/

/-- The translation bank of an address (R33). -/
def bankOf (va : Nat) : Nat := bits va 12 4 ^^^ bits va 16 4 ^^^ bits va 20 4 ^^^ bits va 24 4

/-- The bytes of a page of a size code (R27). -/
def pageSize (n : Nat) : Nat := 4096 * 4 ^ n

/-- What is wrong with a leaf read at a level, as the FLAG of R411, or none (R30). -/
def leafFlag (inst level pte : Nat) : Option Nat :=
  let size := bits pte 5 4
  let pa := bits pte 12 40 * 4096
  if (level = 1 ∧ ¬ (5 ≤ size ∧ size ≤ 9)) ∨ (level = 0 ∧ 4 < size) ∨ 9 < size then some 1
  else if pa % pageSize size ≠ 0 then some 1
  else if bits pte 9 2 = 3 ∨ bits pte 52 2 = 3 ∨ bit pte 11 then some 2
  else if inst < pa + pageSize size then some 3
  else none

/-- The walk of one address from the table of a level down (R26, R30): the leaf, and the walk-cache entries it read. A pointer
that the walk cache of the bank holds is not read again (R33); each other entry is read at its L2 slice (R105). -/
def walkFrom (s : State) (a : Access) (va : Nat) : Nat → Nat → List WalkEntry → Except Stop (Nat × List WalkEntry × State)
  | level, table, seen =>
    let die := va / 2 ^ 52
    let entry := pagedLoc die (table + bits va (12 + 10 * level) 10 * 8)
    let met : Met := { loc := entry, len := 8, alloc := true, bad := false }
    match level with
    | 0 => do
      let (pte, s1) ← l2Read s a entry 8 va true
      afterMet met (
        if pte % 2 = 0 then .error (paging a cPageAbsent 0 die va)
        else if bits pte 1 3 = 0 then .error (paging a cPagePerm 1 die va)
        else match leafFlag (installed s die) 0 pte with
          | some f => .error (paging a cPagePerm f die va)
          | none => pure (pte, seen, s1))
    | l + 1 =>
      match (s.die die).walk.find? (fun w =>
          w.bank = bankOf va ∧ w.job = a.job ∧ w.level = l + 1 ∧ w.tag = va / 2 ^ (12 + 10 * (l + 1))) with
      | some w => walkFrom s a va l w.table seen
      | none => do
        let (pte, s1) ← l2Read s a entry 8 va true
        afterMet met (
          if pte % 2 = 0 then .error (paging a cPageAbsent 0 die va)
          else if bits pte 1 3 = 0 then
            let next := bits pte 13 39 * 8192
            if installed s die < next + 8192 then .error (paging a cPagePerm 3 die va)
            else
              let w : WalkEntry :=
                { bank := bankOf va, job := a.job, level := l + 1, tag := va / 2 ^ (12 + 10 * (l + 1)), table := next }
              walkFrom s1 a va l next (w :: seen)
          else if l = 0 then
            match leafFlag (installed s die) 1 pte with
            | some f => .error (paging a cPagePerm f die va)
            | none => pure (pte, seen, s1)
          else .error (paging a cPagePerm 1 die va))

/-- The entry of the bank that serves an address: of several matching ones the smallest size wins (R40). -/
def tlbHit (s : State) (die job va : Nat) : Option TlbEntry :=
  ((s.die die).tlb.filter (fun e =>
      e.bank = bankOf va ∧ e.job = job ∧ e.va ≤ va ∧ va < e.va + pageSize e.size)).foldl
    (fun best e => match best with
      | none => some e
      | some b => if e.size < b.size then some e else some b) none

/-- The root of a job's tables for a die (R24): none while EN = 0. -/
def rootOf (s : State) (die job : Nat) : Option Nat :=
  let w := if die = 0 then (s.job job).ptb0 else (s.job job).ptb1
  if flag w 0 then some (field w 13 39 * 8192) else none

/-- A list in which at most `n` entries have a property: the first ones. -/
def capped {α : Type} (has : α → Bool) : Nat → List α → List α
  | _, [] => []
  | n, x :: l =>
    if has x then
      match n with
      | 0 => capped has 0 l
      | m + 1 => x :: capped has m l
    else x :: capped has n l

/-- The set of a bank that an entry takes: the spec lays the banks out in 8 ways and names no index.
(DESIGN CHOICE, unsafe; log 15.) -/
def tlbSet (e : TlbEntry) : Nat := e.va / pageSize e.size % 256

/-- An entry joins its bank: its set holds 8, and the oldest of them goes (R33). (DESIGN CHOICE, unsafe; log 15.) -/
def tlbFill (l : List TlbEntry) (e : TlbEntry) : List TlbEntry :=
  e :: capped (fun x => x.bank == e.bank && tlbSet x == tlbSet e) 7 l

/-- An entry joins the walk cache of its bank, which holds 64; the oldest goes (R33). (DESIGN CHOICE, unsafe; log 15.) -/
def walkFill (l : List WalkEntry) (e : WalkEntry) : List WalkEntry := e :: capped (fun x => x.bank == e.bank) 63 l

/-- The page of an address for a job: its page-table entry, with the bank and its walk cache filled (R33).
(DEDUCED, unsafe; log 17.) -/
def translate (s : State) (a : Access) (va : Nat) : Except Stop (Nat × State) :=
  let die := va / 2 ^ 52
  match tlbHit s die a.job va with
  | some e => .ok (e.pte.toNat, s)
  | none =>
    match rootOf s die a.job with
    | none => .error (paging a cPageAbsent 0 die va)
    | some root =>
      if installed s die < root + 8192 then .error (paging a cPagePerm 3 die va) else do
        let (pte, seen, s1) ← walkFrom s a va 3 root []
        let size := bits pte 5 4
        let e : TlbEntry :=
          { bank := bankOf va, job := a.job, va := va / pageSize size * pageSize size, pte := BitVec.ofNat 64 pte,
            size := size, logged := false }
        pure (pte, s1.modDie die (fun d => { d with tlb := tlbFill d.tlb e, walk := seen.foldr (fun w l => walkFill l w) d.walk }))

/-- A page grants an access (R31, R112): else PAGE_PERM with flag PERM. -/
def pageGrants (s : State) (a : Access) (die pte : Nat) : Bool :=
  let r := bit pte 1
  let w := bit pte 2
  let x := bit pte 3
  let rights := match a.kind with
    | .read => r
    | .write => w
    | .fetch => x
    | .atomic => r && w
  let writes := a.kind == .write || a.kind == .atomic
  rights && (a.sys || !bit pte 4) && !(writes && bit pte 56 && (s.die die).hbPol == 2 && a.agent != .host)

/-! ### The cache policy (R29, R103, R104) -/

/-- The effective policy of a load from the page's CACHE (R29: 0 C2, 1 C1, 2 C0) and the instruction's cp: 0 C0, 1 C1, 2 C2,
3 NA (R103, R122). -/
def policy (c : Nat) (p : Piece) (cp : Nat) : Nat :=
  let own := p.paged ∧ p.va / 2 ^ 52 = dieOf c
  let page := if p.cache = 0 then (if ¬ own ∨ p.hostb ∨ p.order = .so then 1 else 2) else 2 - p.cache
  match cp with
  | 0 => page
  | 1 => min page 1
  | 2 => 0
  | _ => if page = 2 then 3 else 0

/-- The L2 allocates a missing sector under C2 and C1 (R103, R104). -/
def allocates (pol : Nat) : Bool := pol == 1 || pol == 2

/-- One page's part of an access: translated, checked, its piece. -/
def pagePart (s : State) (a : Access) (va len off : Nat) : Except Stop (Piece × State) := do
  let (pte, s1) ← translate s a va
  let die := va / 2 ^ 52
  if pageGrants s1 a die pte = false then .error (paging a cPagePerm 4 die va)
  let size := bits pte 5 4
  let pa := bits pte 12 40 * 4096 + va % pageSize size
  let ord := match bits pte 9 2 with
    | 1 => Order.so
    | 2 => Order.uo
    | _ => Order.rc
  let p : Piece :=
    { loc := pagedLoc die pa, len := len, off := off, va := va, paged := true, order := ord, cache := bits pte 52 2,
      amo := bits pte 54 2, hostb := bit pte 56, size := size, alloc := true }
  pure ({ p with alloc := allocates (policy a.core p a.cp) }, s1)

/-- The bytes of an access up to the end of the page it starts in. A translation serves a page of its size; an access of
more pages than two does not arise, since none is longer than the smallest page. -/
def firstPageLen (va len size : Nat) : Nat := min len (pageSize size - va % pageSize size)

/-- The host-write record of a device write to a host-backed page (R112, R113): the first through the bank's entry that serves
the address since that entry was loaded. -/
def hostWriteRecord (s : State) (a : Access) (p : Piece) : Res State :=
  let die := p.va / 2 ^ 52
  let d := s.die die
  let len := field d.hbwBase 4 8
  if ¬ (p.paged && p.hostb && d.hbPol == 1 && len != 0 && (a.kind == .write || a.kind == .atomic) && a.agent != .host) then
    .ok s
  else match tlbHit s die a.job p.va with
    | none => .ok s
    | some e =>
      if e.logged then .ok s
      else
        let base := pagedLoc die (field d.hbwBase 12 40 * 4096)
        let n := len * 512 - 8
        match ringEnds s base with
        | none => raise cEcc p.va
        | some (head, tail, s0) =>
        if (head + 2 ^ 64 - tail) % 2 ^ 64 = n then stall
        else
          let rec_ := joinFields
            [(a.job, 8), (0, 4), (p.va / pageSize p.size * pageSize p.size / 4096, 40), (p.size, 4), (0, 8)]
          let s1 := homePut (homePut s0 (base + 64 + head % n * 8) 8 rec_) base 8 ((head + 1) % 2 ^ 64)
          .ok (s1.modDie die (fun d => { d with tlb := d.tlb.map (fun x => if x = e then { e with logged := true } else x) }))

/-- Pieces with differing attributes: a crossing between them is STRADDLE (R42). -/
def attrsDiffer (p q : Piece) : Bool := p.order != q.order || p.cache != q.cache || p.amo != q.amo

/-- The pieces of a paged access (R41 steps 3 to 5, R42). The accesses of engines may cross pages of differing attributes
(R303). -/
def pagedPieces (s : State) (a : Access) : Except Stop (List Piece × State) := do
  let (p, s1) ← pagePart s a a.va a.len 0
  let n1 := firstPageLen a.va a.len p.size
  if n1 = a.len then
    let s2 ← hostWriteRecord s1 a p
    pure ([p], s2)
  else
    let (q, s2) ← pagePart s1 a (a.va + n1) (a.len - n1) n1
    if (a.va + n1) / 2 ^ 52 ≠ a.va / 2 ^ 52 ∨ (attrsDiffer p q = true ∧ a.agent ≠ .engine ∧ a.agent ≠ .paging) then
      raise cStraddle a.va
    else
      let s3 ← hostWriteRecord s2 a p
      let s4 ← hostWriteRecord s3 a q
      pure ([{ p with len := n1 }, q], s4)

/-- A piece cut at the next 8-byte boundaries: `n` is the number of cuts it may need. -/
def cutPiece : Nat → Piece → List Piece
  | 0, p => [p]
  | n + 1, p =>
    let m := 8 - p.va % 8
    if p.len ≤ m then [p]
    else { p with len := m } :: cutPiece n { p with loc := p.loc + m, len := p.len - m, off := p.off + m, va := p.va + m }

/-- An access of 1 to 64 bytes aligned to its size (R280). -/
def naturallyAligned (a : Access) : Bool :=
  [1, 2, 4, 8, 16, 32, 64].contains a.len && decide (a.va % a.len = 0)

/-- An access of a task or a helper that is not naturally aligned is split at each 8-byte boundary it crosses (R280). -/
def accessParts (a : Access) (ps : List Piece) : List Piece :=
  if (a.agent == .task || a.agent == .loader || a.agent == .storer) && a.kind != .fetch && !naturallyAligned a then
    ps.flatMap (fun p => cutPiece (p.len / 8 + 1) p)
  else ps

/-- The square is in the job's partition: JOB.PART names it and its clear is over, or it has not left yet (R67, R168). -/
def holdsSquare (s : State) (job q : Nat) : Bool :=
  (flag (s.job job).part q && !(s.square q).joining.contains job) || (s.square q).leaving.contains job

/-- The rights to a window row (R17, R18, R20, R22, R59, R61, R473, R475), as a cause that denies it, or a wait for a clear
(R66, R67). -/
def windowDenies (s : State) (a : Access) (r : Row) : Res Unit :=
  let deny : Res Unit := raise cWindowDenied a.va
  let mine (q : Nat) : Bool := a.sys || holdsSquare s a.job q
  let atomic := a.kind == .atomic
  match r.space with
  | .paged _ => .ok ()
  | .scratch c =>
    let first := (a.va - r.base) / 0x10000
    let last := min 3 ((a.va + a.len - 1 - r.base) / 0x10000)
    let lent (q : Nat) : Bool := ((s.core c).lend.lentTo[q]?.getD none).isSome
    let busy (q : Nat) : Bool := ((s.core c).lend.clearing[q]?.getD false) || ((s.core c).lend.returning[q]?.getD false)
    if (s.square (squareOf c)).clearing then stall
    else if mine (squareOf c) = false then deny
    else if lent first then deny
    else if lent last then raise cWindowDenied (r.base + last * 0x10000)
    else if busy first || busy last then stall
    else .ok ()
  | .square q => if (s.square q).clearing then stall else if mine q = false then deny else .ok ()
  | .chip d =>
    let seg := (a.va - r.base) / 0x100000
    let last := (a.va + a.len - 1 - r.base) / 0x100000
    let owns (n : Nat) : Bool :=
      let w := Table.getD (s.die d).cspOwn n 0
      a.sys || (flag w 8 && decide (field w 0 8 = a.job))
    if owns seg = false then deny
    else if last < 32 ∧ owns last = false then raise cWindowDenied (r.base + last * 0x100000)
    else if seg ∈ (s.die d).cspClear ∨ last ∈ (s.die d).cspClear then stall
    else .ok ()
  | .device =>
    if a.sys = false then raise cPriv a.va
    else if a.kind = .fetch ∨ atomic ∨ a.va % 8 ≠ 0 ∨ a.len % 8 ≠ 0 ∨ a.len = 0 ∨ (64 < a.len ∧ a.agent ≠ .host) then deny
    else .ok ()
  | .ownScratch => if (s.square (squareOf a.core)).clearing then stall else .ok ()
  | .lent d => if borrows s a.core d = false then deny else if lenderClears s a.core d then stall else .ok ()
  | .lentRegs d =>
    if borrows s a.core d = false ∨ atomic ∨ a.kind = .fetch then deny
    else if lenderClears s a.core d then stall
    else .ok ()
  | .lane => deny
  | .slot _ => if a.struct ∨ a.kind = .fetch then deny else .ok ()
  | .ownSquare => if (s.square (squareOf a.core)).clearing then stall else .ok ()
  | .mxQueue | .copyQueue =>
    if a.struct ∨ a.kind ≠ .write ∨ a.len ≠ 64 then deny else .ok ()

/-- The access touches a tile-window slot or a queue window anywhere (R475). -/
def touchesSlots (va len : Nat) : Bool :=
  let hit (b n : Nat) : Bool := decide (va < localLoc + b + n ∧ localLoc + b < va + len)
  hit 0x400000 0x100000 || hit 0x1000000 0x400 || hit 0x1010000 0x400

/-- The checks of one access in their order (R41), and what it reaches. (DEDUCED, unsafe; log 18.)
(DESIGN CHOICE, unsafe; log 94.) -/
def checkAccess (s : State) (a : Access) : Except Stop (Row × Target × State) :=
  match rowOf a.va with
  | none => raise cNonCanon a.va
  | some r =>
    if a.va < 2 ^ 53 ∧ 2 ^ 53 < a.va + a.len then raise cNonCanon a.va
    else if a.va % a.align ≠ 0 then raise cMisalign a.va
    else if a.struct && touchesSlots a.va a.len then raise cWindowDenied a.va
    else
      match r.space with
      | .paged _ => do
        let (ps, s1) ← pagedPieces s a
        pure (r, .bytes (accessParts a ps), s1)
      | .slot n => do
        windowDenies s a r
        pure (r, .tile n (a.va - r.base), s)
      | .mxQueue | .copyQueue => do
        windowDenies s a r
        if a.va % 64 ≠ 0 then raise cMisalign a.va
        pure (r, .bytes [], s)
      | _ => do
        windowDenies s a r
        if a.va + a.len > r.base + r.size then raise cStraddle a.va
        let p : Piece :=
          { loc := rowLoc a.core r + (a.va - r.base), len := a.len, off := 0, va := a.va, paged := false,
            order := if r.space = .device then .so else .rc, cache := 2, amo := 0, hostb := false, size := 0, alloc := false }
        pure (r, .bytes (accessParts a [p]), s)

end Sys2Proof.Machine
end

