-- ==== Sys2Proof/Machine/Report.lean ====
section
/-! DEFINITION. Hardware queues, and what the hardware reports on its own: trap-queue records, telemetry records, machine
checks, and entries of the fault buffers (13 R365, R366; 16 R415 to R420; 17 R438, R439). -/
namespace Sys2Proof.Machine

/-! ## Hardware queues (R365, R366) -/

/-- The fields of a hardware queue's descriptor. -/
structure QDesc where
  ring : Nat
  size : Nat
  hwm : Nat
  head : Nat
  tail : Nat
  empty : Nat
  cons : Nat
  cen : Bool
  high : Bool
  lwm : Nat
  ok : Bool
  deriving DecidableEq, Repr

/-- A descriptor's 64 bytes read; `ok` is false where a zero field or a size, a watermark or the ring is out of place. -/
def qDesc (va d : Nat) : QDesc :=
  let ring := bits d 0 64
  let size := bits d 64 32
  let hwm := bits d 96 17
  let lwm := bits d 352 16
  let zero := bits d 113 15 = 0 ∧ bits d 332 3 = 0 ∧ bits d 337 15 = 0 ∧ bits d 368 144 = 0
  { ring := ring, size := size, hwm := hwm, head := bits d 128 64, tail := bits d 192 64, empty := bits d 256 64,
    cons := bits d 320 12, cen := bit d 335, high := bit d 336, lwm := lwm,
    ok := decide (zero ∧ 1 ≤ size ∧ size ≤ 65536 ∧ hwm ≤ size ∧ (hwm = 0 ∨ lwm < hwm) ∧ ring % 64 = 0 ∧
      ring < 2 ^ 53 ∧ ring / 2 ^ 52 = va / 2 ^ 52) }

/-- The number of entries in the queue. -/
def QDesc.depth (q : QDesc) : Nat := (q.head + 2 ^ 64 - q.tail) % 2 ^ 64

/-- The location of an access's single piece. -/
def locOf : Target → Nat
  | .bytes (p :: _) => p.loc
  | _ => 0

/-- The L2 allocates for the access's first piece. -/
def allocOf : Target → Bool
  | .bytes (p :: _) => p.alloc
  | _ => true

/-- The access of a queue's ring at an entry's number (R365, R366). -/
def ringAccess (a : Access) (q : QDesc) (n : Nat) (kind : AccessKind) : Access :=
  { a with va := q.ring + n % q.size * 64, len := 64, kind := kind, align := 1, struct := false }

/-- The queue's controller performs a push at the descriptor's home slice (R366): bit 0 pushed, bit 1 HIGH. While HIGH and CEN are 1
the consumer launch is raised (R367, R399). -/
def queuePush (s0 : State) (a : Access) (dloc : Nat) (data : Nat) : Except Stop (Nat × State) := do
  let (d, s) ← l2Read s0 a dloc 64 a.va true
  let q := qDesc a.va d
  if q.depth = q.size then pure (2 * b2n q.high, s)
  else
    let r := ringAccess a q q.head .write
    let (_, t, s1) ← checkAccess s r
    let high := q.high || (q.hwm != 0 && decide (q.hwm ≤ q.depth + 1))
    let s2 ← l2Write s1 a (locOf t) 64 r.va data (allocOf t)
    let s3 ← l2Write s2 a (dloc + 16) 8 (a.va + 16) ((q.head + 1) % 2 ^ 64) true
    let s4 := s3.write (dloc + 42) 1 (b2n high)
    let key := (a.job, q.cons, a.va)
    let s5 : State := if high ∧ q.cen ∧ key ∉ s4.boosts then { s4 with boosts := s4.boosts ++ [key] } else s4
    pure (1 + 2 * b2n high, s5)

/-- The queue's controller performs a pop at the descriptor's home slice (R366): the value, and whether HIGH has just cleared. -/
def queuePop (s0 : State) (a : Access) (dloc : Nat) : Except Stop (Nat × Bool × State) := do
  let (d, s) ← l2Read s0 a dloc 64 a.va true
  let q := qDesc a.va d
  if q.depth = 0 then pure (q.empty, false, s)
  else
    let r := ringAccess a q q.tail .read
    let (_, t, s1) ← checkAccess s r
    let (v, s2) ← l2Read s1 a (locOf t) 64 r.va (allocOf t)
    let clears := q.high && decide (q.depth - 1 < q.lwm)
    let s3 ← l2Write s2 a (dloc + 24) 8 (a.va + 24) ((q.tail + 1) % 2 ^ 64) true
    let s4 := if clears then s3.write (dloc + 42) 1 0 else s3
    let s5 : State := if clears then { s4 with boosts := s4.boosts.filter (fun b => ¬ (b.1 = a.job ∧ b.2.2 = a.va)) } else s4
    pure (v, clears, s5)

/-! ## The trap queue (R415) -/

/-- An access of the hardware on behalf of a job. -/
def hwAccess (core job va len : Nat) (kind : AccessKind) : Access :=
  { core := core, job := job, sys := true, agent := .walker, kind := kind, va := va, len := len, align := 1, struct := false }

/-- One push to a job's trap queue: whether it could be made now, and the state, which a queue found full has seen read.
(DEDUCED, unsafe; log 26.) -/
def trqPush (s : State) (r : TrapRec) : Bool × State :=
  let va := field (s.job r.job).trq 6 47 * 64
  let a := hwAccess 0 r.job va 64 .read
  let stopped := fun (s : State) => fun
    | Stop.trap t => (false, s.meets none t)
    | Stop.stall _ => (false, s)
  match checkAccess s a with
  | .error e => stopped s e
  | .ok (_, t, s1) =>
    if (qDesc va (s1.read (locOf t) 64)).ok = false then (false, s1)
    else match queuePush s1 a (locOf t) r.data.toNat with
      | .ok (res, s2) => (res % 2 = 1, s2)
      | .error e => stopped s1 e

/-- Count a record that is lost (R415, R420). -/
def trqLost (s : State) (die job : Nat) : State :=
  s.modJob job (fun j =>
    let n := if die = 0 then j.lost0 else j.lost1
    let m := satAdd n 1 (2 ^ 64 - 1)
    if die = 0 then { j with lost0 := m }
    else { j with lost1 := m })

/-- A record that cannot be pushed now: held in the die's buffer of 16, or lost (R415). -/
def trqHold (s : State) (die : Nat) (r : TrapRec) : State :=
  if (s.die die).trq.length < 16 then
    (s.modDie die (fun d => { d with trq := d.trq ++ [r] })).dueOnce (.trqRetry (dieId die))
  else trqLost s die r.job

/-- A record for a job's trap queue: pushed, or, where the queue is full, held or lost (R415).
(DEDUCED, unsafe; log 26.) -/
def trapRecord (s : State) (die : Nat) (r : TrapRec) : State :=
  if (s.job r.job).trq = 0 then trqLost s die r.job
  else match trqPush s r with
    | (true, s1) => s1
    | (false, s1) => trqHold s1 die r

/-- The 64 bytes of a trap-queue record. -/
def trapData (s : State) (cause origin core launch type : Nat) (pc addr info rec_ : Word) (tag : Nat) : BitVec 512 :=
  BitVec.ofNat 512 (joinFields [(0, 64), (s.time, 64), (0, 48), (tag, 16), (rec_.toNat, 64), (info.toNat, 64),
    (addr.toNat, 64), (pc.toNat, 64), (0, 18), (type, 10), (launch, 12), (core, 8), (0, 5), (origin, 3), (cause, 8)])

/-- A record about the task of a core. -/
def taskTrapRecord (s : State) (c cause origin : Nat) (pc addr info : Word) (tag : Nat := 0) : State :=
  let t := (s.core c).task
  trapRecord s (dieOf c) { job := t.job, data := (trapData s cause origin c (recLaunch t.record)
    (recType t.record) pc addr info t.rva tag) }

/-- A machine check (R419): a telemetry record, a record with ORIGIN 7 for job 0, and the count. -/
def machineCheck (s : State) (c cause : Nat) (pc : Word) : State :=
  let s1 := telemetry s (dieOf c) 9 c (s.core c).task.job (cause + pc.toNat * 2 ^ 64)
  let t := (s.core c).task
  let s2 := trapRecord s1 (dieOf c)
    { job := 0, data := (trapData s1 cause 7 c (recLaunch t.record)
      (recType t.record) pc 0 0 t.rva 0) }
  { s2 with mcCount := (s2.mcCount + 1) % 2 ^ 64 }

/-! ## The fault buffer (R416, R417) -/

/-- The event that reports an entry, for the handler of FB.ROUTE: header and payload (R417). -/
def fbEvent (s : State) (die : Nat) (e : FbEntry) : Word × Word :=
  let src := field (s.die die).fbRoute 16 8
  (BitVec.ofNat 64 (src * 2 ^ 48 + e.time % 2 ^ 48), BitVec.ofNat 64 (e.index + e.gen * 2 ^ 40))

/-- The code of an agent in an entry (R416). -/
def agentCode : AgentKind → Nat
  | .task => 0
  | .loader => 1
  | .storer => 2
  | .engine => 3
  | .paging => 4
  | .host => 4
  | .walker => 0

def accessCode : AccessKind → Nat
  | .read => 0
  | .write => 1
  | .fetch => 2
  | .atomic => 3

/-- The lowest free index of a die's fault buffer. (DESIGN CHOICE, unsafe; log 14.) -/
def freeIndex (used : List Nat) : Nat → Nat → Option Nat
  | _, 0 => none
  | i, n + 1 => if i ∈ used then freeIndex used (i + 1) n else some i

/-- A paging fault enters the owning die's buffer (R416): with its entry and generation, or, while the buffer is off or full,
waiting for one. -/
def fbEnter (s : State) (c job : Nat) (t : TrapInfo) : HeldFault × State :=
  let d := s.die t.die
  let wait : HeldFault := { core := c, job := job, die := t.die, index := none, gen := d.fbGen, trap := t, va := t.addr }
  if flag d.fbBase 0 = false then (wait, s)
  else match freeIndex (d.fb.map (·.index)) 0 512 with
    | none => (wait, s)
    | some i =>
      let agent := agentCode t.agent
      let w1 := joinFields [(0, 8), (d.fbGen, 16), (t.kind, 8), (0, 7), (t.flag, 4), (accessCode t.access, 2), (agent, 3),
        (c, 8), (job, 8)]
      let r := joinFields [(t.tag, 64), (s.time, 64), (w1, 64), (t.addr.toNat, 64)]
      let e : FbEntry := { index := i, gen := d.fbGen, core := c, agent := t.agent, job := job, tag := t.tag, va := t.addr,
                           kind := t.kind, flag := t.flag,
                           time := s.time, delivered := false, killed := false, accepted := false }
      let s1 := homePut s (pagedLoc t.die (field d.fbBase 14 38 * 16384) + i * 32) 32 r
      let s2 := s1.modDie t.die (fun d => { d with fb := d.fb ++ [e] })
      ({ wait with index := some i }, s2.due (.fbResend (dieId t.die) i))

/-- The same, with its place among those that wait for an entry where it has none yet. -/
def fbHeld (s : State) (c job : Nat) (t : TrapInfo) : HeldFault × State :=
  let (h, s1) := fbEnter s c job t
  (h, if h.index = none then s1.modDie t.die (fun d => { d with fbWait := d.fbWait ++ [h] }) else s1)

end Sys2Proof.Machine
end

