-- ==== Sys2Proof/Machine/Device.lean ====
section
/-! DEFINITION. The registers of the device-register window: what a read returns and what a write does (01 R23 to R25, 02 R57,
04 R114, 07 R168, 15 R408, 16 R420, 17 R429, R435 to R438, 18 R442, R448, R455). -/
namespace Sys2Proof.Machine

/-- The bits of a value that a register keeps: RSV fields read 0 (00 R13). -/
def keepBits (v mask : Nat) : Word := BitVec.ofNat 64 (v &&& mask)

/-! ## Squares that join and leave a partition (02 R67, 07 R168) -/

/-- A task runs, waits or is parked on some core of the square, or a core of it lends to a task (R59). (DEDUCED, unsafe; log 36.) -/
def squareBusy (s : State) (q : Nat) : Bool :=
  (squareCores q).any (fun c =>
    let k := s.core c
    match k.mode with
    | .run | .wait | .park => true
    | .dark => k.lend.lentTo.any (·.isSome) || k.lend.clearing.any id || k.lend.returning.any id
    | .idle => k.latched.isSome || k.kept.isSome || k.binding)

/-- The clear of a square begins. -/
def beginSquareClear (s : State) (q : Nat) : State :=
  (s.modSquare q (fun k => { k with clearing := true })).dueOnce (.squareClear (squareId q))

/-- A square leaves a job once its tasks have ended. -/
def tryLeave (s : State) (q : Nat) : State :=
  if (s.square q).leaving = [] ∨ squareBusy s q then s
  else beginSquareClear (s.modSquare q (fun k => { k with leaving := [] })) q

/-- A write of JOB.PART (R168): squares taken out leave when their tasks have ended, and each square that leaves or joins
is cleared before a task binds there. -/
def writePart (s : State) (job : Nat) (v : Word) : State :=
  let old := (s.job job).part
  let s1 := s.modJob job (fun j => { j with part := v })
  (List.range 64).foldl (fun s q =>
    if flag old q && !flag v q then
      tryLeave (s.modSquare q (fun k => { k with leaving := k.leaving ++ [job], joining := k.joining.filter (· ≠ job) })) q
    else if !flag old q && flag v q then
      let s2 := s.modSquare q (fun k => { k with joining := k.joining ++ [job] })
      if (s.square q).leaving = [] then beginSquareClear s2 q else s2
    else s) s1

/-- Everything that a square's clear clears (R67), with the L1s of its cores (R100). (DESIGN CHOICE, unsafe; log 95.) -/
def clearSquare (s : State) (q : Nat) : State :=
  let s1 := (squareCores q).foldl (fun s c =>
    let s := s.clearRange (scratchLoc c) (scratchLoc c + 0x40000)
    let s := s.clearRange (laneLoc c 0) (laneLoc c 0 + 0x10000)
    let s := s.clearRange (parityLoc c 0 0) (parityLoc c 0 0 + 0x10000)
    s.modCore c (fun k => { k with
      spad := { k.spad with parity := [] }, l1d := [], l1i := [], fills := [], nodeCount := 0, nodeBlack := false })) s
  (s1.clearRange (squareLoc q) (squareLoc q + 0x200000)).modSquare q (fun k => { k with
    clearing := false, joining := [], copyCount := 0, copyBlack := false, mxCount := 0, mxBlack := false })

/-! ## Effects of writes -/

/-- The sum of the guaranteed floors of the enabled jobs (R428). -/
def floorSum (s : State) : Nat :=
  (List.range 256).foldl (fun a j => if flag (s.job j).ctl 0 then a + field (s.job j).pwr 0 16 else a) 0

/-- The effective cap and its two flags, as they follow from the written cap and the floors (R428, R429): at a write of the cap, of a
floor, or of a job's enable. A cap of 0 means no cap. (DEDUCED, unsafe; log 99.) -/
def deriveCap (s : State) : State :=
  let cap := s.power.cap
  let sum := floorSum s
  let low := decide (cap ≠ 0 ∧ cap < s.power.idle)
  let c1 := if low then s.power.idle else cap
  let under := decide (cap ≠ 0 ∧ cap < sum)
  let c2 := if under ∧ c1 < sum then sum else c1
  { s with power := { s.power with eff := c2, belowFloor := low, belowGuarantee := under } }

/-- A write of PWR.CAP (R428). -/
def writeCap (s : State) (v : Word) : State := deriveCap { s with power := { s.power with cap := field v 0 16 } }

/-- A write of JOB.CTL (R168): EN from 0 to 1 zeroes the job's energy counts (R435) and the lantern's counts (R404). -/
def writeJobCtl (s : State) (job : Nat) (v : Word) : State :=
  let was := flag (s.job job).ctl 0
  let s1 := deriveCap (s.modJob job (fun j => { j with ctl := keepBits v.toNat 1 }))
  if was = false ∧ flag v 0 then
    let s2 := ((s1.modJob job (fun j => { j with nrg := Vector.replicate 16 0 })).modDie 0 (fun d => { d with
      halfCount := Table.erase d.halfCount job, halfBlack := d.halfBlack.filter (· ≠ job) })).modDie 1 (fun d => { d with
      halfCount := Table.erase d.halfCount job, halfBlack := d.halfBlack.filter (· ≠ job) })
    (List.range 64).foldl (fun s q =>
      if holdsSquare s job q then
        (squareCores q).foldl (fun s c => s.modCore c (fun k => { k with nodeCount := 0, nodeBlack := false }))
          (s.modSquare q (fun k => { k with copyCount := 0, mxCount := 0, copyBlack := false, mxBlack := false }))
      else s) s2
  else s1

/-- A write of CSP.OWN.n (R25): a change of V or JOB starts the segment's clear (R66). -/
def writeCspOwn (s : State) (die n : Nat) (v : Word) : State :=
  let old := Table.getD (s.die die).cspOwn n 0
  let new := keepBits v.toNat 0x1FF
  let s1 := s.modDie die (fun d => { d with cspOwn := Table.set d.cspOwn n new })
  if old = new then s1
  else (s1.modDie die (fun d => { d with cspClear := if n ∈ d.cspClear then d.cspClear else n :: d.cspClear })).dueOnce
    (.cspClear (dieId die) ⟨n % 32, Nat.mod_lt _ (by decide)⟩)

/-- The banks that a SPAD.CTL write retires (R54, R57): their retirement waits for the group's parity queue. -/
def forceRetire (s : State) (c : Nat) (v : Word) : State :=
  (List.range 20).foldl (fun s b =>
    if flag v b ∧ bit (s.core c).spad.ret b = false ∧ ¬ (s.core c).spad.retiring.any (fun e => e.1 = b) then
      (s.modCore c (fun k => { k with spad := { k.spad with retiring := k.spad.retiring ++ [(b, 2)] } })).due
        (.bankRetire (coreId c) ⟨b % 20, Nat.mod_lt _ (by decide)⟩)
    else s) s

def writeSpadCtl (s : State) (c : Nat) (v : Word) : State :=
  forceRetire (s.modCore c (fun k => { k with spad := { k.spad with srate := field v 20 4, soff := flag v 24 } })) c v

/-- A write of PRE.CTL (R420, R422): REQ requests the pre-emption of the core's task. -/
def writePreCtl (s : State) (c : Nat) (v : Word) : State :=
  let k := s.core c
  let holds := k.mode = .run ∨ k.mode = .wait ∨ k.mode = .park
  if flag v 0 ∧ holds ∧ k.preempt = none ∧ k.task.ending = false then
    (s.modCore c (fun k => { k with preempt := some .request })).due (.preemptDone (coreId c))
  else s

/-- A write of FB.KILL (R418). -/
def writeFbKill (s : State) (die : Nat) (v : Word) : State :=
  s.modDie die (fun d => { d with fb := d.fb.map (fun e => if e.index = field v 0 9 then { e with killed := true } else e) })

/-- Faults that waited for an entry, while entries are to be had (R416). The agents that hold them take the entry's tag, on whichever
core they are now, and saved ones too (R383). -/
def admitFaults (s : State) (die : Nat) : State :=
  (s.die die).fbWait.foldl (fun s h =>
    let d := s.die die
    if flag d.fbBase 0 = false then s
    else
      let (h', s1) := fbEnter s (h.core) (h.job) h.trap
      if h'.index = none then s
      else
        let fix (x : Option HeldFault) : Option HeldFault := if x = some h then some h' else x
        let s2 := s1.modDie die (fun d => { d with fbWait := d.fbWait.filter (· ≠ h) })
        let fixCore (k : Core) : Core := { k with
          fault := fix k.fault
          loader := { k.loader with held := fix k.loader.held }
          storer := { k.storer with held := fix k.storer.held }
          jobs := k.jobs.map (fun j => { j with held := fix j.held }) }
        { s2 with
          dies := s2.dies.map (fun e => (e.1, { e.2 with
            ready := e.2.ready.map (fun r => { r with fault := fix r.fault })
            spill := e.2.spill.map (fun r => { r with fault := fix r.fault }) }))
          cores := s2.cores.map (fun e => (e.1, fixCore e.2))
          saved := s2.saved.map (fun e => (e.1, { e.2 with core := fixCore e.2.core })) }) s

def writeFbBase (s : State) (die : Nat) (v : Word) : State :=
  admitFaults (s.modDie die (fun d => { d with fbBase := keepBits v.toNat 0xFFFFFFFFFC001 })) die

/-- A write of SEC.POL (R455): ignored while LOCK = 1. -/
def writeSecPol (s : State) (v : Word) : State :=
  if flag s.sec.pol 63 then s else { s with sec := { s.sec with pol := keepBits v.toNat 0x8000000000003FFC } }

/-- A write of SEC.ATREQ (R453): the controller writes the report. -/
def writeAtreq (s : State) (v : Word) : State := { s with sec := { s.sec with atreq := some v } }.due .attestDone

/-- A write of ETH.RTA.s or ETH.RTB.s (R442). -/
def writeRoute (s : State) (stream : Nat) (second : Bool) (v : Word) : State :=
  if second then { s with eth := { s.eth with rtb := Table.set s.eth.rtb stream (keepBits v.toNat 0xE0FFFFFFFF07FF00) } }
  else { s with eth := { s.eth with rta := Table.set s.eth.rta stream (keepBits v.toNat 0x0FFFFFFFFFFFFFFF) } }

def writePtb (s : State) (job die : Nat) (v : Word) : State :=
  let w := keepBits v.toNat 0xFFFFFFFFFE001
  s.modJob job (fun j => if die = 0 then { j with ptb0 := w } else { j with ptb1 := w })

def writeHbwBase (s : State) (die : Nat) (v : Word) : State :=
  s.modDie die (fun d => { d with hbwBase := keepBits v.toNat 0xFFFFFFFFFFFF0 })

/-- A write of a unit's counter or selector (R437): a selector keeps its value against a code outside the unit's range. -/
def putCounter (l : List (Word × Word)) (i : Nat) (sel : Bool) (v : Word) (lo hi : Nat) : List (Word × Word) :=
  match l, i with
  | [], _ => []
  | (a, b) :: t, 0 =>
    if sel then
      let code := field v 0 8
      (if lo ≤ code ∧ code ≤ hi then (a, keepBits v.toNat 0x1FF) else (a, b)) :: t
    else (v, b) :: t
  | e :: t, i + 1 => e :: putCounter t i sel v lo hi

/-! ## The map -/

/-- A register of the window. -/
inductive DevReg where
  | jobWord (job word : Nat)
  | cspOwn (die n : Nat)
  | spadStat (c : Nat)
  | spadCe (c g : Nat)
  | spadCtl (c : Nat)
  | preCtl (c : Nat)
  | memCfg (die : Nat)
  | hbCtl (die : Nat)
  | hbwBase (die : Nat)
  | dis (job word : Nat)
  | af (g : Nat)
  | fb (die word : Nat)
  | ctx (job die : Nat)
  | pwrCap
  | pwrStat
  | counter (unit i : Nat) (sel : Bool)
  | nrg (job n : Nat)
  | telBase (die : Nat)
  | telLost (die : Nat)
  | route (stream : Nat) (second : Bool)
  | ethCfg
  | ethStat
  | rcBase
  | secPol
  | secStat
  | secAtreq
  | none
  deriving DecidableEq, Repr

/-- The register at an offset in the window. -/
def devReg (o : Nat) : DevReg :=
  let page := o / 0x10000
  let p := o % 0x10000
  if o % 8 ≠ 0 then .none
  else match page with
  | 0x01 => if p < 0x4000 then .jobWord (p / 0x40) (p % 0x40 / 8) else .none
  | 0x02 => if p < 0x200 then .cspOwn (p / 0x100) (p % 0x100 / 8) else .none
  | 0x04 =>
    if p < 0x4000 then
      match p % 0x40 / 8 with
      | 0 => .spadStat (p / 0x40)
      | 1 => .spadCe (p / 0x40) 0
      | 2 => .spadCe (p / 0x40) 1
      | 3 => .spadCe (p / 0x40) 2
      | 4 => .spadCe (p / 0x40) 3
      | 5 => .spadCtl (p / 0x40)
      | 6 => .preCtl (p / 0x40)
      | _ => .none
    else .none
  | 0x06 =>
    if p < 0x200 then
      match p % 0x100 / 8 with
      | 0 => .memCfg (p / 0x100)
      | 1 => .hbCtl (p / 0x100)
      | 2 => .hbwBase (p / 0x100)
      | _ => .none
    else .none
  | 0x08 => if p < 0x4000 ∧ p % 0x40 / 8 < 5 then .dis (p / 0x40) (p % 0x40 / 8) else .none
  | 0x0A => if p < 0x100 then .af (p / 8) else .none
  | 0x0C => if p < 0x200 ∧ p % 0x100 / 8 < 5 then .fb (p / 0x100) (p % 0x100 / 8) else .none
  | 0x0D => if p < 0x1000 then .ctx (p / 0x10) (p % 0x10 / 8) else .none
  | 0x10 => if p = 0 then .pwrCap else if p = 8 then .pwrStat else .none
  | 0x11 =>
    let unit := p / 0x100
    let i := p % 0x100 / 0x10
    if (unit < 0x80 ∧ i < 4) ∨ (unit < 0x88 ∧ i < 2) then .counter unit i (p % 0x10 == 8) else .none
  | 0x12 => if p < 0x8000 then .nrg (p / 0x80) (p % 0x80 / 8) else .none
  | 0x13 => if p < 0x200 ∧ p % 0x100 = 0 then .telBase (p / 0x100) else if p < 0x200 ∧ p % 0x100 = 8 then .telLost (p / 0x100)
    else .none
  | 0x14 => if p < 0x400 then .route (p / 0x10) (p % 0x10 == 8) else if p = 0x400 then .ethCfg else if p = 0x408 then .ethStat
    else .none
  | 0x15 => if p = 0 then .rcBase else .none
  | 0x16 => if p = 0 then .secPol else if p = 8 then .secStat else if p = 16 then .secAtreq else .none
  | _ => .none

/-- SPAD.STAT of a core (R57). -/
def spadStat (k : Spad) : Word :=
  BitVec.ofNat 64 (joinFields [(k.pass, 16), (0, 7), (b2n k.wdrn, 1), (k.dead, 4), (k.ret / 65536, 4), (k.ret % 65536, 16)])

/-- SPAD.CE.g of a core (R57). -/
def spadCe (k : Spad) (g : Nat) : Word :=
  let n (i : Nat) : Nat := k.ce[i]?.getD 0
  BitVec.ofNat 64 (joinFields [(n (16 + g), 5), (n (4 * g + 3), 5), (n (4 * g + 2), 5), (n (4 * g + 1), 5), (n (4 * g), 5)])

/-- The units an entry still holds. -/
def Ready.units (r : Ready) : Nat :=
  match r.ext with
  | some (x, y, z) => x * y * z - r.unit
  | none => 1

/-- The units that a list of entries holds. -/
def unitsOf (l : List Ready) : Nat := l.foldl (fun a r => a + r.units) 0

/-- The records of a job that wait on a die (R408), every unit of a descriptor one (R385). (DEDUCED, unsafe; log 98.) -/
def waitingOn (s : State) (job die : Nat) : Nat :=
  let mine := fun (l : List Ready) => unitsOf (l.filter (fun r => r.job = job))
  let d := s.die die
  let dq := (s.cores.filter (fun e => dieOf e.1 = die)).foldl (fun a e => a + mine (e.2.deque ++ e.2.spilled)) 0
  let placed := (d.ready ++ d.spill).filter (fun r => r.fault.isNone || r.ctx.isSome)
  min (mine placed + dq) (2 ^ 32 - 1)

/-- The counters of a unit (R437). -/
def counters (s : State) (unit : Nat) : List (Word × Word) :=
  if unit < 0x40 then (s.square unit).mxe.counters
  else if unit < 0x80 then Table.getD (s.die ((unit - 0x40) / 32)).slices ((unit - 0x40) % 32) [(0, 0), (0, 0), (0, 0), (0, 0)]
  else (s.district (unit - 0x80)).counters

/-- Words 0 to 7 of a job-table entry (R168). -/
def jobWord (j : JobRegs) : Nat → Word
  | 0 => j.ptb0
  | 1 => j.ptb1
  | 2 => j.ttb
  | 3 => j.lvb
  | 4 => j.trq
  | 5 => j.part
  | 6 => j.ctl
  | _ => j.pwr

/-- What a read of a register returns; WO registers read 0 (00 R13). A word of the window that holds no register reads a
free value, which the spec does not state. (DESIGN CHOICE, unsafe; log 24.) -/
def readDevReg (s : State) : DevReg → Word
  | .jobWord j w => jobWord (s.job j) w
  | .cspOwn d n => Table.getD (s.die d).cspOwn n 0
  | .spadStat c => spadStat (s.core c).spad
  | .spadCe c g => spadCe (s.core c).spad g
  | .spadCtl c => BitVec.ofNat 64 (b2n (s.core c).spad.soff * 2 ^ 24 + (s.core c).spad.srate % 16 * 2 ^ 20)
  | .preCtl _ => 0
  | .memCfg d => BitVec.ofNat 64 (b2n (s.die d).hot * 16 + (s.die d).chcap % 16)
  | .hbCtl d => BitVec.ofNat 64 ((s.die d).hbPol % 4)
  | .hbwBase d => (s.die d).hbwBase
  | .dis j w =>
    match w with
    | 0 => (s.job j).dqs0
    | 1 => (s.job j).dqs1
    | 2 => (s.job j).rqs0
    | 3 => (s.job j).rqs1
    | _ => BitVec.ofNat 64 (waitingOn s j 1 * 2 ^ 32 + waitingOn s j 0)
  | .af g => BitVec.ofNat 64 (ofBytes ((List.range 8).map (fun i => BitVec.ofNat 8 (s.core (8 * g + i)).af)))
  | .fb d w =>
    match w with
    | 0 => (s.die d).fbBase
    | 1 => (s.die d).fbRoute
    | 2 => BitVec.ofNat 64 ((s.die d).fbGen % 65536 * 65536 + (s.die d).fb.length % 1024)
    | 3 => 0
    | _ => (s.die d).wdgLim
  | .ctx j d => if d = 0 then (s.job j).ctx0 else (s.job j).ctx1
  | .pwrCap => BitVec.ofNat 64 s.power.cap
  | .pwrStat => BitVec.ofNat 64 (joinFields [(b2n s.power.belowGuarantee, 1), (b2n s.power.belowFloor, 1), (s.power.eff, 16),
      (s.power.idle, 16)])
  | .counter u i sel => let e := (counters s u)[i]?.getD (0, 0); if sel then e.2 else e.1
  | .nrg j n => (s.job j).nrg[n]?.getD 0
  | .telBase d => (s.die d).telBase
  | .telLost d => BitVec.ofNat 64 (s.die d).telLost
  | .route n b => if b then Table.getD s.eth.rtb n 0 else Table.getD s.eth.rta n 0
  | .ethCfg => s.eth.cfg
  | .ethStat => BitVec.ofNat 64 (s.eth.dup % 2 ^ 32 * 2 ^ 32 + s.eth.drop % 2 ^ 32)
  | .rcBase => s.eth.rcBase
  | .secPol => s.sec.pol
  | .secStat => BitVec.ofNat 64 (b2n s.sec.kdis * 4 + b2n s.sec.noKey * 2 + b2n s.sec.done)
  | .secAtreq => 0
  | .none => Config.freeWord s.free

/-- What a write of a register does: RO registers and words that hold no register ignore it (00 R13).
(DESIGN CHOICE, unsafe; log 24.) -/
def writeDevReg (s : State) (r : DevReg) (v : Word) : State :=
  match r with
  | .jobWord j w =>
    match w with
    | 0 => writePtb s j 0 v
    | 1 => writePtb s j 1 v
    | 2 => s.modJob j (fun k => { k with ttb := keepBits v.toNat 0x1FFFFFFFFF07FF })
    | 3 => s.modJob j (fun k => { k with lvb := keepBits v.toNat 0x1FFFFFFFFE0000 })
    | 4 => s.modJob j (fun k => { k with trq := keepBits v.toNat 0x1FFFFFFFFFFFC0 })
    | 5 => writePart s j v
    | 6 => writeJobCtl s j v
    | _ => deriveCap (s.modJob j (fun k => { k with pwr := keepBits v.toNat 0xFFFF }))
  | .cspOwn d n => writeCspOwn s d n v
  | .spadStat _ => s
  | .spadCe _ _ => s
  | .spadCtl c => writeSpadCtl s c v
  | .preCtl c => writePreCtl s c v
  | .memCfg _ => s
  | .hbCtl d => s.modDie d (fun k => { k with hbPol := field v 0 2 })
  | .hbwBase d => writeHbwBase s d v
  | .dis j w =>
    match w with
    | 0 => s.modJob j (fun k => { k with dqs0 := keepBits v.toNat 0x1FFFFFFFE00001 })
    | 1 => s.modJob j (fun k => { k with dqs1 := keepBits v.toNat 0x1FFFFFFFE00001 })
    | 2 => s.modJob j (fun k => { k with rqs0 := keepBits v.toNat 0x1FFFFFFFFF00FF })
    | 3 => s.modJob j (fun k => { k with rqs1 := keepBits v.toNat 0x1FFFFFFFFF00FF })
    | _ => s
  | .af _ => s
  | .fb d w =>
    match w with
    | 0 => writeFbBase s d v
    | 1 => s.modDie d (fun k => { k with fbRoute := keepBits v.toNat 0xFF07FF })
    | 2 => s
    | 3 => writeFbKill s d v
    | _ => s.modDie d (fun k => { k with wdgLim := keepBits v.toNat 0xFFFFFFFF })
  | .ctx j d =>
    let w := keepBits v.toNat 0x1FFFFFFFF01FFF
    s.modJob j (fun k => if d = 0 then { k with ctx0 := w } else { k with ctx1 := w })
  | .pwrCap => writeCap s v
  | .pwrStat => s
  | .counter u i sel =>
    if u < 0x40 then
      s.modSquare u (fun k => { k with mxe := { k.mxe with counters := putCounter k.mxe.counters i sel v 0x40 0x47 } })
    else if u < 0x80 then
      let new := Table.set (s.die ((u - 0x40) / 32)).slices ((u - 0x40) % 32) (putCounter (counters s u) i sel v 0x80 0x85)
      s.modDie ((u - 0x40) / 32) (fun d => { d with slices := new })
    else s.modDistrict (u - 0x80) (fun k => { k with counters := putCounter k.counters i sel v 0xC0 0xC2 })
  | .nrg _ _ => s
  | .telBase d => s.modDie d (fun k => { k with telBase := keepBits v.toNat 0xFFFFFFFFFFFF0 })
  | .telLost _ => s
  | .route n b => writeRoute s n b v
  | .ethCfg => { s with eth := { s.eth with cfg := keepBits v.toNat 0x3FFFF } }
  | .ethStat => s
  | .rcBase => { s with eth := { s.eth with rcBase := keepBits v.toNat 0xFFFFFFFFFFFF0 } }
  | .secPol => writeSecPol s v
  | .secStat => if flag v 0 then { s with sec := { s.sec with done := false } } else s
  | .secAtreq => writeAtreq s v
  | .none => s

/-- Registers read in rising address order (R22). -/
def readDevice (s : State) (loc : Nat) : Nat → Nat
  | 0 => 0
  | n + 1 => (readDevReg s (devReg (loc - deviceLoc))).toNat + 2 ^ 64 * readDevice s (loc + 8) n

/-- Registers written in rising address order (R22). -/
def writeDevice (s : State) (loc v : Nat) : Nat → State
  | 0 => s
  | n + 1 => writeDevice (writeDevReg s (devReg (loc - deviceLoc)) (BitVec.ofNat 64 v)) (loc + 8) (v / 2 ^ 64) n

/-- The state after reading registers: each word without a register used a free value. -/
def afterDeviceRead (s : State) : State := s.fresh

end Sys2Proof.Machine
end

