-- ==== Sys2Proof/Machine/Access.lean ====
section
/-! DEFINITION. How reads and writes perform at their homes: errors and parity (02 R47 to R56, R64, 04 R106), the trace ring
(05 R133, R134), NEAR ownership (06 R147 to R150), the L1 data cache (04 R97 to R104) and the store buffer (11 R283). -/
namespace Sys2Proof.Machine

/-- The rows of 16 bytes that a range touches, each as its location divided by 16. -/
def rowsIn (loc n : Nat) : List Nat := (List.range ((loc % 16 + n + 15) / 16)).map (fun i => loc / 16 + i)

/-! ## The scratchpad's parity (R49, R54 to R56) -/

/-- The row of the bank and row numbers: its location divided by 16. -/
def spadRowNo (c b w : Nat) : Nat := scratchLoc c / 16 + w * 16 + b

/-- The oldest entry of a group's parity queue lands (R49). -/
def landParity (s : State) (c g : Nat) : State :=
  match (s.core c).spad.parity.find? (fun e => e.group = g) with
  | none => s
  | some e =>
    let at_ := parityLoc c g e.row
    let s1 := s.write at_ 16 (s.read at_ 16 ^^^ e.delta.toNat)
    s1.modCore c (fun k => { k with spad := { k.spad with parity := k.spad.parity.erase e } })

/-- Every entry of a group's queue lands, so that no row of it is stale. -/
def landGroup (s : State) (c g : Nat) : State :=
  (List.range 8).foldl (fun s _ => landParity s c g) s

/-- The bank or parity bank is retired; data banks are 0 to 15, parity banks 16 to 19. -/
def retired (k : Spad) (b : Nat) : Bool := bit k.ret b

/-- The group has a retired data or parity bank (R52). -/
def degraded (k : Spad) (g : Nat) : Bool :=
  retired k (16 + g) || (List.range 4).any (fun i => retired k (4 * g + i))

/-- A cause code of R410 that can be reported, by a free value. -/
def someCause (w : Word) : Nat :=
  let i := w.toNat % 23 + 1
  if i < 0x0F then i else i + 1

/-- A bank is retired (R54, R56): once its group's parity queue is empty. Which cause code a machine check reports for
a second retirement is not stated: it is a free value among those of R410 that are reported. (DESIGN CHOICE, safe; log 31.) -/
def retireBank (s : State) (c b cause : Nat) : State :=
  let g := if b < 16 then b / 4 else b - 16
  let s1 := landGroup s c g
  let was := degraded (s1.core c).spad g
  if retired (s1.core c).spad b then
    s1.modCore c (fun k => { k with spad := { k.spad with retiring := k.spad.retiring.filter (fun e => e.1 ≠ b) } })
  else
  let s2 := s1.modCore c (fun k => { k with spad := { k.spad with
    ret := setBit k.spad.ret b true
    retiring := k.spad.retiring.filter (fun e => e.1 ≠ b) } })
  let s3 := telemetry s2 (dieOf c) 4 c (s2.core c).task.job (b % 16 + b / 16 * 2 ^ 8 + cause * 2 ^ 16)
  if was then
    let s4 := s3.modCore c (fun k => { k with spad := { k.spad with dead := setBit k.spad.dead g true, wdrn := true } })
    machineCheck s4.fresh c (someCause (Config.freeWord s4.free)) 0
  else s3

/-- Retirements of the group that wait come before any access to it (R54). -/
def retireWaiting (s : State) (c g : Nat) : State :=
  ((s.core c).spad.retiring.filter (fun e => (if e.1 < 16 then e.1 / 4 else e.1 - 16) = g)).foldl
    (fun s e => retireBank s c e.1 e.2) s

/-- A corrected error counted against a bank: at 16 the bank is to retire (R54). -/
def countError (s : State) (c b : Nat) : State :=
  let n := satAdd ((s.core c).spad.ce[b]?.getD 0) 1 16
  let s1 := s.modCore c (fun k => { k with spad := { k.spad with ce := k.spad.ce.set b n } })
  if n = 16 ∧ retired (s1.core c).spad b = false ∧ ¬ (s1.core c).spad.retiring.any (fun e => e.1 = b) then
    (s1.modCore c (fun k => { k with spad := { k.spad with retiring := k.spad.retiring ++ [(b, 0)] } })).due
      (.bankRetire (coreId c) ⟨b % 20, Nat.mod_lt _ (by decide)⟩)
  else s1

/-- The sources of a reconstruction of bank `b` at row `w`, each with its bank: the group's other three banks and its parity
bank (R52). -/
def reconRows (c b w : Nat) : List (Nat × Nat) :=
  ((List.range 4).map (fun i => b / 4 * 4 + i)).filterMap (fun i => if i = b then none else some (i, spadRowNo c i w)) ++
    [(16 + b / 4, parityLoc c (b / 4) w / 16)]

/-- A correctable error of a row corrected, counted against its bank and reported (R52, R54). -/
def correctRow (s : State) (c b row : Nat) : State :=
  if rowCorr s row then eccRecord (countError (rowMended s row) c b) c (row * 16) else s

/-- A reconstruction of bank `b` at row `w`: its sources corrected, unless one of them is uncorrectable (R52). -/
def reconstruct (s0 : State) (c b w : Nat) : Option State :=
  let s := landGroup s0 c (b / 4)
  let sources := reconRows c b w
  if sources.any (fun e => rowBad s e.2) then none
  else some ((sources.foldl (fun s e => correctRow s c e.1 e.2) s).evCount c 0x09 1)

/-- One 16-byte read of a scratchpad row (R52, R55, R56): the error says whether a reconstruction took part. -/
def spadRow (s0 : State) (c a : Nat) : Except Bool State :=
  let b := bits a 4 4
  let w := bits a 8 10
  let g := b / 4
  let s := retireWaiting s0 c g
  let k := (s.core c).spad
  let row := spadRowNo c b w
  if retired k b then
    if bit k.dead g then .error true
    else match reconstruct s c b w with
      | some s1 => .ok s1
      | none => .error true
  else if rowBad s row then
    if degraded k g then .error false
    else match reconstruct s c b w with
      | some s1 => .ok (eccRecord (countError (rowMended s1 row) c b) c (row * 16))
      | none => .error true
  else .ok (correctRow s c b row)

/-- The rows of a range of a scratchpad read, the first failure reported. (DESIGN CHOICE, safe; log 31.) -/
def spadRows (s : State) (c : Nat) : List Nat → Except Bool State
  | [] => .ok s
  | r :: rs => do
    let s1 ← spadRow s c (r * 16 % 0x40000)
    spadRows s1 c rs

/-- The parity of a row brought up to date after a write (R49, R55). -/
def parityAfter (s : State) (c row old : Nat) : State :=
  let a := row * 16 % 0x40000
  let b := bits a 4 4
  let w := bits a 8 10
  let g := b / 4
  let delta := old ^^^ s.read (row * 16) 16
  let k := (s.core c).spad
  if retired k (16 + g) then s
  else if retired k b then s.write (parityLoc c g w) 16 (s.read (parityLoc c g w) 16 ^^^ delta)
  else
    let s1 := if 8 ≤ (k.parity.filter (fun e => e.group = g)).length then landParity s c g else s
    (s1.modCore c (fun k => { k with spad := { k.spad with parity := k.spad.parity ++
      [{ group := g, row := w, delta := BitVec.ofNat 128 delta }] } })).dueOnce (.parityLand (coreId c) ⟨g % 4, Nat.mod_lt _ (by decide)⟩)

/-- Bytes written to a scratchpad by its port, with their parity. (DESIGN CHOICE, safe; log 31.) -/
def spadWrite (s : State) (c loc n v : Nat) : State :=
  let rows := rowsIn loc n
  let olds := rows.map (fun r => (r, s.read (r * 16) 16))
  olds.foldl (fun s e => parityAfter s c e.1 e.2) (s.write loc n v)

/-! ## The checks at a port -/

/-- An access of a range finds no uncorrectable row, or ends in ECC_UNCORR; correctable ones are corrected and reported (R46, R52
to R56, R64, R106). -/
def portCheck (s : State) (c loc n va : Nat) (write : Bool) : Res State :=
  match regionOf loc with
  | .device => .ok s
  | .scratch o _ =>
    if s.errors = [] ∧ (s.core o).spad.ret = 0 ∧ (s.core o).spad.retiring = [] then .ok s
    else match spadRows s o (rowsIn loc n) with
      | .ok s1 => .ok s1
      | .error recon => raise cEcc va (if recon then 2 else 0)
  | _ => wordCheck s c loc n va write

/-- The bytes of an access at a location, and the access itself where it is one of a scratchpad, charged to the task of its core: an
access of the task, a helper or a tile transfer. The scratchpad may be that of a DARK lender (R434). (DESIGN CHOICE, unsafe; log 43.) -/
def bytesCharged (s : State) (a : Access) (loc n : Nat) : State :=
  let pad := match regionOf loc with
    | .scratch _ _ => 1
    | _ => 0
  match a.agent with
  | .task | .loader | .storer | .paging => s.modCore a.core (fun k =>
    let k1 := k.charge k.task.job (tyNrg k.task.entry) 8 n
    if pad = 0 then k1 else k1.charge k.task.job (tyNrg k.task.entry) 14 pad)
  | _ => s

/-- What an access of a piece does at its home before its bytes move: it revokes the owners of a block (R148), finds no error
(R52, R64, R106), and is served by the L2 slice that holds it (R103 to R105). -/
def served (s : State) (a : Access) (kind : AccessKind) (p : Piece) : Res State := do
  let s1 ← metAlloc p.alloc (portCheck (bytesCharged (revoked s (ownAgent a) p.loc p.len) a p.loc p.len) a.core p.loc p.len p.va (kind == .write))
  let s2 ← if kind = .atomic then metAlloc p.alloc (portCheck s1 a.core p.loc p.len p.va true) else pure s1
  match regionOf p.loc with
  | .l2 die =>
    let s3 := if kind = .atomic then sliceCount s2 die (l2Slice (p.loc % 2 ^ 52)) 0x83 1 else s2
    pure (l2Access s3 p.loc p.len p.alloc (kind == .write || kind == .atomic) (kind == .atomic))
  | _ => pure s2

/-- The checker of the LOCKSTEP pair whose primary the core is (R177). -/
def checkerOf (s : State) (c : Nat) : Option Nat :=
  let t := (s.core c).task
  if t.gang = 3 ∧ t.leader = c then some (c + 1) else none

/-- What the hardware writes for its task into the own scratchpad of a pair's primary stands in the checker's as well (R177).
(DEDUCED, unsafe; log 76.) -/
def paired (s : State) (c loc n v : Nat) : State :=
  match checkerOf s c, regionOf loc with
  | some m, .scratch o a => if o = c then spadWrite s m (scratchLoc m + a) n v else s
  | _, _ => s

/-- A range of its scratchpad that a core's own rings and checkpoints read: its rows are checked at their port (R52 to R56); an
uncorrectable one is a machine check (R419), and what stands there is read. (DESIGN CHOICE, unsafe; log 91.) -/
def ringRead (s : State) (c loc n : Nat) : Nat × State :=
  match portCheck s c loc n loc false with
  | .ok s1 => (s1.read loc n, s1)
  | .error _ => (s.read loc n, machineCheck s c cEcc 0)

/-- The same for a write, which an uncorrectable row loses. (DESIGN CHOICE, unsafe; log 91.) -/
def ringWrite (s : State) (c loc n v : Nat) : State :=
  match portCheck s c loc n loc true with
  | .ok s1 => paired (spadWrite s1 c loc n v) c loc n v
  | .error _ => machineCheck s c cEcc 0

/-! ## The trace ring (R133, R134) -/

/-- A trace record written to the ring: the oldest of the buffer. -/
def traceFlush (s : State) (c : Nat) : State :=
  let t := (s.core c).trace
  match t.buf with
  | [] => s
  | r :: rest =>
    let loc := scratchLoc c + field t.len 50 6 * 4096 + t.count % 256 * 16
    let s1 := ringWrite s c loc 16 r.toNat
    s1.modCore c (fun k => { k with trace := { k.trace with count := (k.trace.count + 1) % 2 ^ 32, buf := rest } })

/-- The core's trace sees a write of another agent: while its task is in RUN or WAIT and not in PARK. OFF of a write that begins
below the range wraps to its 21 bits. (DESIGN CHOICE, unsafe; log 97.) -/
def traceOne (s : State) (o : Nat) (a : Access) (kind loc n : Nat) : State :=
  let k := s.core o
  let base := k.trace.base.toNat
  let own := a.core = o ∧ (a.agent = .task ∨ a.agent = .loader ∨ a.agent = .storer)
  if flag k.trace.len 63 ∧ (k.mode = .run ∨ k.mode = .wait) ∧ ¬ own ∧ loc < base + field k.trace.len 0 16 * 64 ∧
      base < loc + n then
    let stamp := if k.trace.lastStamp < s.cyc then s.cyc else k.trace.lastStamp + 1
    let agent := match a.agent with
      | .task => 0
      | .loader => 1
      | .storer => 2
      | .host => 4
      | _ => 3
    let w1 := joinFields [(if a.agent = .host then 0xFF else a.core, 8), (agent, 3), (Nat.log2 n, 3), (kind, 2), (0, 27),
      (wrap ((loc : Int) - base) 21, 21)]
    let s1 := if 4 ≤ k.trace.buf.length then traceFlush s o else s
    (s1.modCore o (fun k => { k with trace := { k.trace with
      buf := k.trace.buf ++ [BitVec.ofNat 128 (stamp + w1 * 2 ^ 64)]
      lastStamp := stamp } })).due (.traceWrite (coreId o))
  else s

/-- A write that a remote port serves is traced by the owners of the memory, in requests of at most 64 bytes. -/
def traced (s : State) (a : Access) (kind loc n : Nat) : State :=
  let owners := match regionOf loc with
    | .scratch o _ => [o]
    | .square q => squareCores q
    | _ => []
  if owners.any (fun o => flag (s.core o).trace.len 63) then
    if n ≤ 64 then owners.foldl (fun s o => traceOne s o a kind loc n) s
    else (List.range ((n + 63) / 64)).foldl (fun s i =>
      owners.foldl (fun s o => traceOne s o a kind (loc + i * 64) (min 64 (n - i * 64))) s) s
  else s

/-! ## Remote writes as the lantern counts them (15 R404) -/

/-- The core whose interface serves a write of the core `c`: another core's scratchpad, or square memory beside another
core. -/
def remoteOwner (c loc : Nat) : Option Nat :=
  match regionOf loc with
  | .scratch o _ => if o = c then none else some o
  | .square q =>
    let slice := loc / 256 % 4
    let o := squareCore q + slice % 2 + slice / 2 * 16
    if o = c then none else some o
  | _ => none

/-- The write leaves the core's interface. -/
def remoteSent (s : State) (c : Nat) (ps : List Piece) : State :=
  ps.foldl (fun s p => if (remoteOwner c p.loc).isSome then sentAt s c else s) s
/-- A write counted at issue is counted again where it performs (R404), or is not to come. -/
def remoteUnsent (s : State) (c : Nat) (ps : List Piece) : State :=
  ps.foldl (fun s p => if (remoteOwner c p.loc).isSome ∧ s.counts (squareOf c) then
    s.modCore c (fun k => { k with nodeCount := k.nodeCount - 1 }) else s) s
/-- The owners' ports serve it. -/
def remoteServed (s : State) (c : Nat) (ps : List Piece) : State :=
  ps.foldl (fun s p => match remoteOwner c p.loc with
    | some o => receivedAt s o
    | none => s) s

/-! ## Reads and writes at the home -/

/-- The other core of a LOCKSTEP pair, for an access made for its task to the primary's own scratchpad (R177).
(DEDUCED, unsafe; log 76.) -/
def mirrorCore (s : State) (a : Access) (o : Nat) : Option Nat :=
  if a.agent ≠ .host ∧ a.agent ≠ .walker ∧ o = a.core then checkerOf s a.core else none

/-- The piece of the checker's own scratchpad that a piece of its primary's stands for. -/
def mirrorPiece (s : State) (a : Access) (p : Piece) : Option Piece :=
  match regionOf p.loc with
  | .scratch o _ => (mirrorCore s a o).map (fun m => { p with loc := p.loc - scratchLoc o + scratchLoc m })
  | _ => none

/-- The checker reads its own scratchpad, and what stands there is compared with what its primary's task read (R177). -/
def checkerRead (s : State) (a : Access) (p : Piece) (v : Nat) : Res State :=
  match mirrorPiece s a p with
  | none => .ok s
  | some q => if a.agent ≠ .task then .ok s else do
    let s1 ← served s a .read q
    if s1.read q.loc q.len ≠ v then raise cLockstep
    pure s1

/-- A matched store is written to the checker's scratchpad as well (R177). -/
def checkerWrite (s : State) (a : Access) (p : Piece) (v : Nat) : Res State :=
  match mirrorPiece s a p with
  | none => .ok s
  | some q => do
    let s1 ← served s a .write q
    pure (spadWrite s1 (a.core + 1) q.loc q.len v)

/-- One piece read at its home. -/
def readPiece (s : State) (a : Access) (p : Piece) : Res (Nat × State) := do
  let s1 ← served s a .read p
  match regionOf p.loc with
  | .device => pure (readDevice s1 p.loc (p.len / 8), afterDeviceRead s1)
  | _ =>
    let v := s1.read p.loc p.len
    let s2 ← checkerRead s1 a p v
    pure (v, s2)

/-- The pieces read in address order and joined. -/
def readPieces (s : State) (a : Access) : List Piece → Res (Nat × State)
  | [] => .ok (0, s)
  | p :: ps => do
    let (v, s1) ← readPiece s a p
    let (w, s2) ← readPieces s1 a ps
    pure (v * 2 ^ (8 * p.off) + w, s2)

/-- Bytes put at a home after its checks. -/
def putBytes (s : State) (loc n v : Nat) : State :=
  match regionOf loc with
  | .scratch o _ => spadWrite s o loc n v
  | _ => s.write loc n v

/-- One piece written at its home. `kind` is the trace's: 0 store, 1 `red`, 2 `amo` or `cas`. -/
def writePiece (s : State) (a : Access) (kind : Nat) (p : Piece) (v : Nat) : Res State := do
  let s1 ← served s a .write p
  match regionOf p.loc with
  | .device => pure (writeDevice s1 p.loc v (p.len / 8))
  | .scratch o _ => checkerWrite (traced (spadWrite s1 o p.loc p.len v) a kind p.loc p.len) a p v
  | _ => pure (traced (s1.write p.loc p.len v) a kind p.loc p.len)

/-- The pieces of a value written in address order. -/
def writePieces (s : State) (a : Access) (kind : Nat) : List Piece → Nat → Res State
  | [], _ => .ok s
  | p :: ps, v => do
    let s1 ← writePiece s a kind p (bits v (8 * p.off) (8 * p.len))
    writePieces s1 a kind ps v

/-- A whole range read by an engine, the walker or the host, page by page; each stretch is checked on its own (R303).
(DEDUCED, unsafe; log 45.) -/
def readRange (s : State) (a : Access) : Nat → Nat → Nat → Res (Nat × State)
  | 0, _, _ => .ok (0, s)
  | fuel + 1, va, len =>
    if len = 0 then .ok (0, s)
    else do
      let n := min len (4096 - va % 4096)
      let acc := { a with va := va, len := n, kind := .read, align := 1 }
      let (_, t, s1) ← checkAccess s acc
      match t with
      | .tile _ _ => raise cWindowDenied va
      | .bytes ps =>
        let (v, s2) ← readPieces s1 acc ps
        let (w, s3) ← readRange s2 a fuel (va + n) (len - n)
        pure (v + w * 2 ^ (8 * n), s3)

/-- A whole range written by an engine or the host. -/
def writeRange (s : State) (a : Access) : Nat → Nat → Nat → Nat → Res State
  | 0, _, _, _ => .ok s
  | fuel + 1, va, len, v =>
    if len = 0 then .ok s
    else do
      let n := min len (4096 - va % 4096)
      let acc := { a with va := va, len := n, kind := .write, align := 1 }
      let (_, t, s1) ← checkAccess s acc
      match t with
      | .tile _ _ => raise cWindowDenied va
      | .bytes ps =>
        let s2 ← writePieces s1 acc 0 ps (v % 2 ^ (8 * n))
        writeRange s2 a fuel (va + n) (len - n) (v / 2 ^ (8 * n))

/-- An element of a gather or scatter that lies in paged space is counted at its slice (R107, R437).
(DESIGN CHOICE, unsafe; log 42.) -/
def gatherCounted (s : State) (a : Access) : State :=
  match checkAccess s a with
  | .ok (_, .bytes (p :: _), s1) =>
    if p.paged then sliceCount s1 (p.loc / 2 ^ 52) (l2Slice (p.loc % 2 ^ 52)) 0x84 1 else s1
  | _ => s

/-- The stretches of 4 KiB that a range of `len` bytes can touch. -/
def rangeFuel (len : Nat) : Nat := len / 4096 + 2

/-! ## The L1 data cache (R97 to R103) -/

/-- The way that a tree of bits points to, of the `n` ways from `lo` on; a node's children are numbered 2·node and 2·node + 1
(R97). The tree over a number of ways that is no power of two halves it, the smaller half first.
(DESIGN CHOICE, unsafe; log 15.) -/
def treeVictim (tree : Nat) : Nat → Nat → Nat → Nat → Nat
  | 0, _, lo, _ => lo
  | fuel + 1, node, lo, n =>
    if n ≤ 1 then lo
    else if bit tree node then treeVictim tree fuel (2 * node + 1) (lo + n / 2) (n - n / 2)
    else treeVictim tree fuel (2 * node) lo (n / 2)

/-- The tree after a use of a way: every node on its path points away from it (R97). -/
def treeUse (way : Nat) : Nat → Nat → Nat → Nat → Nat → Nat
  | 0, tree, _, _, _ => tree
  | fuel + 1, tree, node, lo, n =>
    if n ≤ 1 then tree
    else if way < lo + n / 2 then treeUse way fuel (setBit tree node true) (2 * node) lo (n / 2)
    else treeUse way fuel (setBit tree node false) (2 * node + 1) (lo + n / 2) (n - n / 2)

/-- The trees of a cache after a use of a way of an address's set. -/
def useWay (ways sets : Nat) (trees : Table Nat) (va way : Nat) : Table Nat :=
  let set := va / 256 % sets
  Table.set trees set (treeUse way 4 (Table.getD trees set 0) 1 0 ways)

/-- A sector installed: in its line's way if the line is there, else in a free way of its set, else in the way that the set's
tree points to, whose line goes (R97). (DESIGN CHOICE, unsafe; log 15.) -/
def installSector (ways sets : Nat) (l : List Sector) (trees : Table Nat) (e : Sector) : List Sector × Table Nat :=
  let inSet := fun (x : Sector) => x.va / 256 % sets == e.va / 256 % sets
  let rest := l.filter (fun x => ¬ (x.job = e.job ∧ x.va = e.va))
  let line := rest.find? (fun x => x.job == e.job && x.va / 256 == e.va / 256)
  let free := (List.range ways).find? (fun w => !rest.any (fun x => inSet x && x.way == w))
  let way := match line, free with
    | some x, _ => x.way
    | none, some w => w
    | none, none => treeVictim (Table.getD trees (e.va / 256 % sets) 0) 4 1 0 ways
  let keep := if line.isSome then rest else rest.filter (fun x => !(inSet x && x.way == way))
  ({ e with way := way } :: keep, useWay ways sets trees e.va way)

/-- The cached sector that holds an address for a job. -/
def sectorOf (l : List Sector) (job va : Nat) : Option Sector := l.find? (fun e => e.job == job && e.va == va / 64 * 64)

/-- A line without one of its sectors that a lookup found bad, and the report of it (R101): the lookup is a miss. -/
def dropBadLine (s : State) (c : Nat) (code : Bool) (e : Sector) : State :=
  let keep := fun (l : List Sector) => l.filter (fun x => ¬ (x.job = e.job ∧ x.va / 256 = e.va / 256))
  let s1 := s.modCore c (fun k => if code then { k with l1i := keep k.l1i } else { k with l1d := keep k.l1d })
  telemetry s1 (dieOf c) 2 c (s.core c).task.job (5 + e.va * 2 ^ 64)

/-- A lookup of the L1D or of the L1I (`code`): the sector, if it is there and sound (R97, R101, R102). A hit is a use of its
line's way. -/
def lookup (s : State) (c : Nat) (code : Bool) (job va : Nat) : Option Sector × State :=
  let k := s.core c
  match sectorOf (if code then k.l1i else k.l1d) job va with
  | none => (none, s)
  | some e =>
    if e.bad then (none, dropBadLine s c code e)
    else if code then (some e, s.modCore c (fun k => { k with l1iTree := useWay 4 64 k.l1iTree va e.way }))
    else (some e, s.modCore c (fun k => { k with l1dTree := useWay 12 256 k.l1dTree va e.way }))

/-- A write under an address discards the core's copies of its sectors, and the fills under way of them (R99). -/
def l1dInvalidate (s : State) (c job va len : Nat) : State :=
  let hit := fun (e : Sector) => decide (e.job = job ∧ va < e.va + 64 ∧ e.va < va + len)
  let k := s.core c
  if k.l1d.any hit || k.fills.any hit then
    s.modCore c (fun k => { k with l1d := k.l1d.filter (fun e => !hit e), fills := k.fills.filter (fun e => !hit e) })
  else s

/-- The same for every paged piece of a write, in the cycle it performs: a fill asked for since the write issued held the bytes
from before it, and a task sees its own writes (R99, R120, R123). (DESIGN CHOICE, unsafe; log 16.) -/
def l1dPerformed (s : State) (c job : Nat) (ps : List Piece) : State :=
  ps.foldl (fun s p => if p.paged then l1dInvalidate s c job p.va p.len else s) s

/-- A sector of a piece that the L1D lacks is requested (R97, R98). (DESIGN CHOICE, unsafe; log 16.) -/
def requestFill1 (s : State) (c job : Nat) (p : Piece) : State :=
  let va := p.va / 64 * 64
  let k := s.core c
  if (sectorOf k.l1d job va).isSome || (sectorOf k.fills job va).isSome then s
  else
    let e : Sector :=
      { job := job, va := va, data := BitVec.ofNat 512 (s.read (p.loc + va - p.va) 64), way := 0, bad := false }
    (s.modCore c (fun k => { k with fills := k.fills ++ [e] })).due (.l1dFill (coreId c))

/-- A piece of a plain load under its effective policy (R103): from the L1D where the policy looks it up and it has the sector,
else from the home. `keep` is false for an access that never allocates in the L1D (R331). -/
def loadPiece (s : State) (a : Access) (keep : Bool) (p : Piece) : Res (Nat × State) := do
  let pol := policy a.core p a.cp
  if p.paged ∧ 2 ≤ pol ∧ p.va % 64 + p.len ≤ 64 then
    match lookup s a.core false a.job p.va with
    | (some e, s1) => pure (bits e.data.toNat (p.va % 64 * 8) (8 * p.len), s1.evCount a.core 0x05 1)
    | (none, s1) => do
      let (v, s2) ← readPiece s1 a p
      let s3 := s2.evCount a.core 0x06 1
      pure (v, if pol = 2 ∧ keep then requestFill1 s3 a.core a.job p else s3)
  else readPiece s a p

/-- The pieces of a plain load in address order and joined. -/
def loadPieces (s : State) (a : Access) (keep : Bool) : List Piece → Res (Nat × State)
  | [] => .ok (0, s)
  | p :: ps => do
    let (v, s1) ← loadPiece s a keep p
    let (w, s2) ← loadPieces s1 a keep ps
    pure (v * 2 ^ (8 * p.off) + w, s2)

/-! ## The store buffer (R119, R120, R283) -/

/-- Two lists of pieces touch a common byte. -/
def overlaps (ps qs : List Piece) : Bool :=
  ps.any (fun p => qs.any (fun q => decide (p.loc < q.loc + q.len ∧ q.loc < p.loc + p.len)))

/-- The access of a buffered store. -/
def storeAccess (s : State) (c : Nat) (b : BufStore) : Access :=
  { core := c, job := (s.core c).task.job, sys := true, agent := b.part, kind := .write,
    va := (b.pieces.head?.map (·.va)).getD 0, len := b.len, align := 1, struct := false }

/-- The next part of a buffered store performs at its home; the store leaves the buffer with its last part (R280, R283). -/
def performPart (s : State) (c : Nat) (b : BufStore) : Res State := do
  let ps := b.pieces.take 1
  let rest := b.pieces.drop 1
  let s1 := s.modCore c (fun k => { k with sbuf := if rest = [] then k.sbuf.filter (fun e => e.seq ≠ b.seq)
                                                   else k.sbuf.map (fun e => if e.seq = b.seq then { e with pieces := rest } else e) })
  let s2 ← writePieces s1 (storeAccess s c b) 0 ps b.data
  pure (remoteServed (l1dPerformed s2 c (s.core c).task.job ps) c ps)

def performParts (s : State) (c : Nat) (b : BufStore) : List Piece → Res State
  | [] => .ok s
  | p :: ps => do
    let s1 ← performPart s c { b with pieces := p :: ps }
    performParts s1 c b ps

/-- A buffered store performs, every part of it. -/
def performStore (s : State) (c : Nat) (b : BufStore) : Res State := performParts s c b b.pieces

/-- The stores up to and including the last that satisfies `p` perform, in their order. -/
def drainUpTo (s : State) (c : Nat) (p : BufStore → Bool) : List BufStore → Res State
  | [] => .ok s
  | b :: bs =>
    if p b ∨ bs.any p then do
      let s1 ← performStore s c b
      drainUpTo s1 c p bs
    else .ok s

def drainStores (s : State) (c : Nat) (p : BufStore → Bool) : Res State := drainUpTo s c p (s.core c).sbuf
/-- Every buffered store performs. -/
def drainAll (s : State) (c : Nat) : Res State := drainStores s c (fun _ => true)

/-- A buffered store may perform before the ones ahead of it: it overlaps none, is no release, and is SO behind no SO
store (R119). -/
def mayPerform (before : List BufStore) (b : BufStore) : Bool :=
  !before.any (fun e => overlaps e.pieces b.pieces || b.release ||
    (e.pieces.any (·.order == .so) && b.pieces.any (·.order == .so)))

/-- An access of the task to these pieces waits for every SC operation and acquire of the task (R119 rows c and g), and for
NEAR atomics that touch its blocks. -/
def orderWait (s : State) (c : Nat) (ps : List Piece) : Res Unit :=
  let so := ps.any (·.order == .so)
  let k := s.core c
  if s.scOps.any (fun o => o.core.val = c) then stall
  else if k.near.any (fun n => so || n.acquire ||
      ps.any (fun p => n.loc / 64 * 64 < p.loc + p.len ∧ p.loc < n.loc / 64 * 64 + 64)) then stall
  else .ok ()

/-- A read or an atomic of the task waits as well for its earlier writes of the same bytes and, where it is SO, for its
earlier SO writes (R119 rows a and b, R120). -/
def orderBefore (s : State) (c : Nat) (ps : List Piece) : Res State := do
  orderWait s c ps
  let so := ps.any (·.order == .so)
  if (s.core c).sbuf = [] then pure s
  else drainStores s c (fun b => overlaps b.pieces ps || (so && b.pieces.any (·.order == .so)))

/-- A store of the task enters the buffer of 16; a full buffer performs its oldest first. (DESIGN CHOICE, unsafe; log 10.) -/
def bufferStore (s : State) (c : Nat) (ps : List Piece) (len data : Nat) (release : Bool) (agent : AgentKind) : Res State := do
  let s1 ← match (s.core c).sbuf with
    | b :: rest => if 15 ≤ rest.length then performStore s c b else pure s
    | [] => pure s
  let b : BufStore := { seq := s1.seq, pieces := ps, data := data, len := len, release := release, part := agent }
  let s2 := (remoteSent s1 c ps).modCore c (fun k => { k with sbuf := k.sbuf ++ [b] })
  pure ({ s2 with seq := s2.seq + 1 }.due (.storePerform (coreId c)))

end Sys2Proof.Machine
end

