-- ==== Sys2Proof/Machine/Fp.lean ====
section
/-! DEFINITION. Floating-point formats, exact values and rounding (10 R262 to R265, R273, R276, 12 R308 to R310, 06 R143). -/
namespace Sys2Proof.Machine

/-- An exact value: NaN, an infinity, a zero with its sign, or ±m·2^e with m above 0. -/
inductive Fp where
  | nan
  | inf (neg : Bool)
  | zero (neg : Bool)
  | num (neg : Bool) (m : Nat) (e : Int)
  deriving DecidableEq, Repr

/-- A format of R262 and R308: widths of the exponent and the fraction, bias, least normal exponent, the greatest finite
value as maxM·2^maxE, the canonical NaN, and whether it has infinities. -/
structure Format where
  expBits : Nat
  fracBits : Nat
  bias : Int
  emin : Int
  maxM : Nat
  maxE : Int
  canonical : Nat
  hasInf : Bool
  deriving DecidableEq, Repr

def fp32 : Format :=
  { expBits := 8, fracBits := 23, bias := 127, emin := -126, maxM := 0xFFFFFF, maxE := 104, canonical := 0x7FC00000,
    hasInf := true }
def fp16 : Format :=
  { expBits := 5, fracBits := 10, bias := 15, emin := -14, maxM := 2047, maxE := 5, canonical := 0x7E00, hasInf := true }
def bf16 : Format :=
  { expBits := 8, fracBits := 7, bias := 127, emin := -126, maxM := 255, maxE := 120, canonical := 0x7FC0, hasInf := true }
def e4m3 : Format :=
  { expBits := 4, fracBits := 3, bias := 7, emin := -6, maxM := 7, maxE := 6, canonical := 0x7F, hasInf := false }
def e5m2 : Format :=
  { expBits := 5, fracBits := 2, bias := 15, emin := -14, maxM := 7, maxE := 13, canonical := 0x7E, hasInf := true }

/-- The width of a format's pattern. -/
def Format.width (f : Format) : Nat := 1 + f.expBits + f.fracBits

/-- The value of a pattern (R308). -/
def Format.unpack (f : Format) (v : Nat) : Fp :=
  let neg := bit v (f.expBits + f.fracBits)
  let ex := bits v f.fracBits f.expBits
  let fr := v % 2 ^ f.fracBits
  let top := 2 ^ f.expBits - 1
  if ex = top ∧ f.hasInf then (if fr = 0 then .inf neg else .nan)
  else if ex = top ∧ fr = 2 ^ f.fracBits - 1 then .nan
  else if ex = 0 then
    (if fr = 0 then .zero neg else .num neg fr (f.emin - f.fracBits))
  else .num neg (2 ^ f.fracBits + fr) ((ex : Int) - f.bias - f.fracBits)

/-- `m` times `2 ^ d`, bits below the unit dropped for a negative `d`. -/
def shiftInt (m : Nat) (d : Int) : Nat := if 0 ≤ d then m * 2 ^ d.toNat else m / 2 ^ (-d).toNat

/-- The pattern of a value that the format can hold. -/
def Format.pack (f : Format) (x : Fp) : Nat :=
  let sign := fun (neg : Bool) => if neg then 2 ^ (f.expBits + f.fracBits) else 0
  match x with
  | .nan => f.canonical
  | .inf neg => sign neg + (2 ^ f.expBits - 1) * 2 ^ f.fracBits
  | .zero neg => sign neg
  | .num neg m e =>
    let top : Int := e + Nat.log2 m
    if f.emin ≤ top then
      sign neg + (top + f.bias).toNat * 2 ^ f.fracBits + (shiftInt m (e - top + f.fracBits) - 2 ^ f.fracBits)
    else sign neg + shiftInt m (e - (f.emin - f.fracBits))

/-- The rounding modes of R262. -/
inductive Rm where
  | rne | rz | dn | up
  deriving DecidableEq, Repr

/-- The mode of a two-bit code (R271). -/
def rmOf : Nat → Rm
  | 0 => .rne
  | 1 => .rz
  | 2 => .dn
  | _ => .up

/-- A quotient and its remainder, rounded to a whole number of a value of the sign. -/
def roundWhole (rm : Rm) (neg : Bool) (q r unit : Nat) : Nat :=
  match rm with
  | .rne => if unit < 2 * r ∨ (2 * r = unit ∧ q % 2 = 1) then q + 1 else q
  | .rz => q
  | .dn => if neg && r != 0 then q + 1 else q
  | .up => if !neg && r != 0 then q + 1 else q

/-- ROUND of R262 as a value, for a precision of `p` bits, least exponent `emin` and greatest finite `maxM·2^maxE`. -/
def roundFp (p : Nat) (f : Format) (maxM : Nat) (maxE : Int) (rm : Rm) (satm : Bool) (x : Fp) : Fp :=
  match x with
  | .nan => .nan
  | .inf neg => if f.hasInf then .inf neg else if satm then .num neg maxM maxE else .nan
  | .zero neg => .zero neg
  | .num neg m e =>
    let top : Int := e + Nat.log2 m
    let unit : Int := if top - p + 1 < f.emin - p + 1 then f.emin - p + 1 else top - p + 1
    let d := (unit - e).toNat
    let (q, ue) := if unit ≤ e then (m, e) else (roundWhole rm neg (m / 2 ^ d) (m % 2 ^ d) (2 ^ d), unit)
    let above := if maxE ≤ ue then decide (maxM < q * 2 ^ (ue - maxE).toNat) else decide (maxM * 2 ^ (maxE - ue).toNat < q)
    if q = 0 then .zero neg
    else if above then
      if satm then .num neg maxM maxE
      else if rm = .rne ∨ (rm = .up ∧ neg = false) ∨ (rm = .dn ∧ neg = true) then
        (if f.hasInf then .inf neg else .nan)
      else .num neg maxM maxE
    else .num neg q ue

/-- ROUND(x, F, rm) as a pattern. -/
def Format.round (f : Format) (rm : Rm) (satm : Bool) (x : Fp) : Nat :=
  f.pack (roundFp (f.fracBits + 1) f f.maxM f.maxE rm satm x)

/-- RNE to FP32. -/
def rne32 (x : Fp) : Nat := fp32.round .rne false x

def Fp.neg : Fp → Fp
  | .nan => .nan
  | .inf s => .inf (!s)
  | .zero s => .zero (!s)
  | .num s m e => .num (!s) m e

/-- A whole number times a power of two as a value; zero takes the sign given. -/
def Fp.ofInt (x : Int) (e : Int) (zeroNeg : Bool) : Fp :=
  if x = 0 then .zero zeroNeg else .num (decide (x < 0)) x.natAbs e

/-- The signed whole number that ±m·2^e is in units of 2^u, for u no greater than e. -/
def scaled (neg : Bool) (m : Nat) (e u : Int) : Int :=
  let n : Int := ((m * 2 ^ (e - u).toNat : Nat) : Int)
  if neg then -n else n

/-- The exact sum; an exact zero is +0, or −0 under DN, but equal signs of two zeros stay (R263). -/
def Fp.add (rm : Rm) (x y : Fp) : Fp :=
  match x, y with
  | .nan, _ => .nan
  | _, .nan => .nan
  | .inf a, .inf b => if a = b then .inf a else .nan
  | .inf a, _ => .inf a
  | _, .inf b => .inf b
  | .zero a, .zero b => if a = b then .zero a else .zero (rm == .dn)
  | .zero _, y => y
  | x, .zero _ => x
  | .num a m e, .num b n f =>
    let u := if e < f then e else f
    Fp.ofInt (scaled a m e u + scaled b n f u) u (rm == .dn)

/-- The exact product (R263). -/
def Fp.mul (x y : Fp) : Fp :=
  match x, y with
  | .nan, _ => .nan
  | _, .nan => .nan
  | .inf _, .zero _ => .nan
  | .zero _, .inf _ => .nan
  | .inf a, .inf b => .inf (a != b)
  | .inf a, .num b _ _ => .inf (a != b)
  | .num a _ _, .inf b => .inf (a != b)
  | .zero a, .zero b => .zero (a != b)
  | .zero a, .num b _ _ => .zero (a != b)
  | .num a _ _, .zero b => .zero (a != b)
  | .num a m e, .num b n f => .num (a != b) (m * n) (e + f)

/-- A quotient with 64 bits or more, whose last bit is 1 where bits are lost; so rounding it rounds the exact quotient. -/
def oddQuotient (m n : Nat) (e : Int) (neg : Bool) : Fp :=
  let k := 66 + Nat.log2 n
  .num neg (2 * (m * 2 ^ k / n) + (if m * 2 ^ k % n = 0 then 0 else 1)) (e - k - 1)

/-- The quotient (R263, R264). -/
def Fp.div (x y : Fp) : Fp :=
  match x, y with
  | .nan, _ => .nan
  | _, .nan => .nan
  | .inf _, .inf _ => .nan
  | .zero _, .zero _ => .nan
  | .inf a, .zero b => .inf (a != b)
  | .inf a, .num b _ _ => .inf (a != b)
  | .num a _ _, .inf b => .zero (a != b)
  | .zero a, .inf b => .zero (a != b)
  | .zero a, .num b _ _ => .zero (a != b)
  | .num a _ _, .zero b => .inf (a != b)
  | .num a m e, .num b n f => oddQuotient m n (e - f) (a != b)

/-- The whole square root, found bit by bit from bit `i` down. -/
def isqrtFrom (n : Nat) : Nat → Nat → Nat
  | 0, r => r
  | i + 1, r =>
    let t := r + 2 ^ i
    isqrtFrom n i (if t * t ≤ n then t else r)

def isqrt (n : Nat) : Nat := isqrtFrom n (Nat.log2 n / 2 + 1) 0

/-- The square root (R264). -/
def Fp.sqrt (x : Fp) : Fp :=
  match x with
  | .nan => .nan
  | .zero s => .zero s
  | .inf s => if s then .nan else .inf false
  | .num s m e =>
    if s then .nan
    else
      let odd := e % 2 = 1
      let n := (if odd then 2 * m else m) * 2 ^ 128
      let r := isqrt n
      .num false (2 * r + (if r * r = n then 0 else 1)) ((if odd then e - 1 else e) / 2 - 65)

/-- 1/√x (R264). -/
def Fp.rsqrt (x : Fp) : Fp :=
  match x with
  | .nan => .nan
  | .zero s => .inf s
  | .inf s => if s then .nan else .zero false
  | .num s m e =>
    if s then .nan
    else
      let odd := e % 2 = 1
      let n := if odd then 2 * m else m
      let k := 2 * (64 + Nat.log2 n)
      let r := isqrt (2 ^ k / n)
      .num false (2 * r + (if r * r * n = 2 ^ k then 0 else 1)) (-((if odd then e - 1 else e) / 2) - (k / 2 : Nat) - 1)

/-- Numbers compared: less. False where either is NaN. -/
def Fp.lt (x y : Fp) : Bool :=
  match x, y with
  | .nan, _ => false
  | _, .nan => false
  | .inf a, .inf b => a && !b
  | .inf a, _ => a
  | _, .inf b => !b
  | .zero _, .zero _ => false
  | .zero _, .num b _ _ => !b
  | .num a _ _, .zero _ => a
  | .num a m e, .num b n f =>
    let u := if e < f then e else f
    decide (scaled a m e u < scaled b n f u)

def Fp.isNan : Fp → Bool
  | .nan => true
  | _ => false

/-- Equal as numbers: +0 = −0, and no NaN equals anything (R269). -/
def Fp.eq (x y : Fp) : Bool := !x.isNan && !y.isNan && !Fp.lt x y && !Fp.lt y x

/-- The sign of a value that is not NaN. -/
def Fp.signBit : Fp → Bool
  | .nan => false
  | .inf s => s
  | .zero s => s
  | .num s _ _ => s

/-- The order of `vmin` and `vmax`, in which −0 lies below +0 (R264). -/
def Fp.below (x y : Fp) : Bool := Fp.lt x y || (Fp.eq x y && x.signBit && !y.signBit)

/-- FADD32 (R143): a single rounded addition. -/
def fadd32 (x y : Nat) : Nat := rne32 (Fp.add .rne (fp32.unpack x) (fp32.unpack y))

/-- A finite value rounded to a whole number; an infinity beyond every bound (R273). -/
def Fp.toIntSat (rm : Rm) (x : Fp) (lo hi : Int) : Int :=
  match x with
  | .nan => 0
  | .zero _ => 0
  | .inf s => if s then lo else hi
  | .num s m e =>
    let q := if 0 ≤ e then m * 2 ^ e.toNat else
      roundWhole rm s (m / 2 ^ (-e).toNat) (m % 2 ^ (-e).toNat) (2 ^ (-e).toNat)
    sat (if s then -(q : Int) else q) lo hi

/-- The format of an FMT code that is a floating-point one (R69): 0 E4M3, 1 E5M2, 2 FP16, 3 BF16, 4 FP32. -/
def fmtFormat : Nat → Format
  | 0 => e4m3
  | 1 => e5m2
  | 2 => fp16
  | 3 => bf16
  | _ => fp32

/-- A pattern of the format as FP32; exact for every narrower format (R310). -/
def toFp32 (fmt v : Nat) : Nat := rne32 ((fmtFormat fmt).unpack v)

end Sys2Proof.Machine
end

