-- ==== Sys2Proof/Machine/Flags.lean ====
section
/-! DEFINITION. Conditions and combining operations. The part has no status flags (10 R261); what compares and what an atomic
or a log entry combines stands here (09 R228, R230, 06 R142, 03 R85, R86). -/
namespace Sys2Proof.Machine

/-- The relation of two numbers of `n` bits under a condition code of R230: 0 eq, 1 ne, 2 lt, 3 ge, 4 lo, 5 hs. -/
def condHolds (n code x y : Nat) : Bool :=
  match code with
  | 0 => x % 2 ^ n == y % 2 ^ n
  | 1 => x % 2 ^ n != y % 2 ^ n
  | 2 => decide (sint x n < sint y n)
  | 3 => decide (sint y n ≤ sint x n)
  | 4 => decide (x % 2 ^ n < y % 2 ^ n)
  | _ => decide (y % 2 ^ n ≤ x % 2 ^ n)

/-- The new value of an atomic of `n` bits (R142), by the sub-operation codes of `amo` (R197): 0 add, 1 and, 2 or, 3 xor,
4 min, 5 max, 6 minz, 7 maxz, 8 swap, 9 fadd, 10 incw. -/
def atomicNew (n op old v : Nat) : Nat :=
  match op with
  | 0 => (old + v) % 2 ^ n
  | 1 => old &&& v
  | 2 => old ||| v
  | 3 => old ^^^ v
  | 4 => if sint v n < sint old n then v else old
  | 5 => if sint old n < sint v n then v else old
  | 6 => if v < old then v else old
  | 7 => if old < v then v else old
  | 8 => v
  | 9 => fadd32 old v
  | _ => if v ≤ old then 0 else (old + 1) % 2 ^ n

/-- The value a `cas` writes (R142). -/
def casNew (expected desired old : Nat) : Nat := if old = expected then desired else old

/-- The `amo` code of a log entry's OP (R84): 0 ST is a swap, 1 to 8 follow the codes of `amo`, 9 is FADD. -/
def logOpCode (op : Nat) : Nat :=
  match op with
  | 0 => 8
  | 9 => 9
  | n => n - 1

/-- A new operation on a log's last entry, which has the same place and width, merged into it (R85): the entry's new OP and
operand, if they merge. -/
def logMerge (n oldOp oldV op v : Nat) : Option (Nat × Nat) :=
  if op = 0 then some (0, v)
  else if op = 9 ∨ op ≠ oldOp then none
  else some (op, atomicNew n (logOpCode op) oldV v)

end Sys2Proof.Machine
end

