-- ==== Sys2Proof/Machine/Tile.lean ====
section
/-! DEFINITION. The footprint unit (05 R135, R136), the tile table, the pending-operation logs and the paging engine
(03 R68 to R96). -/
namespace Sys2Proof.Machine

/-! ## The footprint unit (R135, R136) -/

/-- The 64-byte granules of a byte range, as an interval. -/
def granules (lo n : Nat) : List (Nat × Nat) := if n = 0 then [] else [(lo / 64, (lo + n + 63) / 64)]

/-- Two lists of intervals meet. -/
def meets (xs ys : List (Nat × Nat)) : Bool := xs.any (fun x => ys.any (fun y => decide (x.1 < y.2 ∧ y.1 < x.2)))

/-- A new job has an edge to an earlier one: RAW, WAR or WAW (R136). -/
def hasEdge (j : Job) (reads writes : List (Nat × Nat)) : Bool :=
  meets reads j.writes || meets writes j.reads || meets writes j.writes

/-- A job submitted to a core's footprint unit, with its number; none while the unit holds 32. -/
def submitJob (s : State) (c engine : Nat) (reads writes : List (Nat × Nat)) (card : BitVec 512) (job : Nat) (sys : Bool) :
    Option (Nat × State) :=
  let k := s.core c
  if 32 ≤ k.jobs.length then none
  else
    let id := k.jobSeq + 1
    let j : Job :=
      { id := id, engine := engine, reads := reads, writes := writes,
        after := (k.jobs.filter (fun e => hasEdge e reads writes)).map (·.id), card := card, job := job, nrg := tyNrg k.task.entry, sys := sys,
        started := false, pos := 0, acked := false, held := none }
    some (id, s.modCore c (fun k => { k with jobs := k.jobs ++ [j], jobSeq := id }))

/-- A job leaves the unit: the jobs that have edges to it lose them. -/
def completeJob (s : State) (c id : Nat) : State :=
  s.modCore c (fun k =>
    let rest := k.jobs.filter (fun j => j.id ≠ id)
    { k with jobs := rest.map (fun j => { j with after := j.after.filter (· ≠ id) }) })

def findJob (s : State) (c id : Nat) : Option Job := (s.core c).jobs.find? (fun j => j.id = id)

/-- The task's remote-write cards that their targets have still to acknowledge (R118). -/
def remoteCards (s : State) (c : Nat) : Bool :=
  let k := s.core c
  k.jobs.any (fun j => j.engine == 5 && decide (k.task.jobsFrom < j.id)) ||
    k.task.elsewhere.any (fun e => ((findJob s e.1 e.2).map (fun j => j.engine == 5)).getD false)

/-- Everything earlier of the task has performed, as far as the model lets anything be late: its buffered stores, its NEAR
atomics and SC operations, and at `.sys` its remote-write cards (R118, R119, R125, R137). A smaller scope orders no less: the model
orders for every observer. (DESIGN CHOICE, unsafe; log 87.) -/
def settleTask (s : State) (c scope : Nat) : Res State := do
  if s.scOps.any (fun o => o.core.val == c) || (s.core c).near != [] then stall
  if scope = 4 ∧ remoteCards s c then stall
  drainAll s c

/-- The job may start: no edge holds it and no job ahead of it in its engine's queue has still to start (R136). -/
def mayStart (s : State) (c : Nat) (j : Job) : Bool :=
  j.after.isEmpty && !(s.core c).jobs.any (fun e => e.engine == j.engine && decide (e.id < j.id) && !e.started)

/-! ## Tile entries (R69 to R73) -/

def Core.tile (k : Core) (n : Nat) : Tile := Table.getD k.tiles n Tile.reset
def State.tile (s : State) (c n : Nat) : Tile := (s.core c).tile n
def State.modTile (s : State) (c n : Nat) (f : Tile → Tile) : State :=
  s.modCore c (fun k => { k with tiles := Table.set k.tiles n (f (k.tile n)) })

def Tile.rows (t : Tile) : Nat := field t.cfg 0 7 + 1
def Tile.cols (t : Tile) : Nat := field t.cfg 8 8 + 1
def Tile.fmt (t : Tile) : Nat := field t.cfg 16 4
def Tile.home (t : Tile) : Nat := field t.cfg 20 1
def Tile.place (t : Tile) : Nat := field t.cfg 24 16 * 256
def Tile.paged (t : Tile) : Bool := flag t.cfg 40
def Tile.logCap (t : Tile) : Nat := field t.cfg 41 7

/-- The element size of a format code (R70). -/
def elemSize (fmt : Nat) : Nat :=
  match fmt with
  | 0 | 1 | 5 | 6 => 1
  | 2 | 3 => 2
  | _ => 4

/-- The tile's size B (R70). -/
def Tile.size (t : Tile) : Nat := t.rows * t.cols * elemSize t.fmt

/-- Where the tile's home begins. -/
def tileLoc (c : Nat) (t : Tile) : Nat :=
  (if t.home = 0 then scratchLoc c else squareLoc (squareOf c)) + t.place

/-- Two entries of one core overlap (R73). -/
def Tile.overlaps (t u : Tile) : Bool :=
  t.home == u.home && decide (t.place < u.place + u.size ∧ u.place < t.place + t.size)

/-- TSTAT.n (R72). -/
def Tile.stat (t : Tile) : Word :=
  BitVec.ofNat 64 (joinFields [(t.refs, 6), (0, 1), (t.logCnt, 7), (b2n t.ferr, 1), (b2n t.keep, 1), (b2n t.conf, 1),
    (b2n t.pinned, 1), (b2n t.dirty, 1), (b2n (decide (0 < t.refs)), 1), (t.state, 2)])

/-- The states of TSTAT.STATE. -/
def stEmpty : Nat := 0
def stFilling : Nat := 1
def stReady : Nat := 2
def stDraining : Nat := 3

/-- The configured paged entries of the core other than `n` whose homes overlap that of `t` (R79). -/
def rivals (k : Core) (n : Nat) (t : Tile) : List (Nat × Tile) :=
  k.tiles.filter (fun e => e.1 ≠ n && e.2.conf && e.2.paged && Tile.overlaps t e.2)

/-! ## Transfers (R78 to R81) -/

/-- Why a transfer was asked for: no instruction, an instruction, a log that is full (R81). -/
def byNone : Nat := 0
def byInstr : Nat := 1
def byOverflow : Nat := 2

/-- The access of the paging engine to a tile's backing copy (R81). -/
def pagingAccess (s : State) (c va len : Nat) (kind : AccessKind) : Access :=
  { core := c, job := (s.core c).task.job, sys := (s.core c).task.sys, agent := .paging, kind := kind, va := va, len := len,
    align := 1, struct := false }

/-- A fault of an earlier transfer of the tile with no instruction still stands in the fault buffer: a drain that no instruction
demands (a victim's) is not tried again before its flush. -/
def transferHeld (s : State) (c : Nat) (t : Tile) : Bool :=
  let d := s.die (t.back.toNat / 2 ^ 52)
  let mine := fun (core : Nat) (agent : AgentKind) (va : Word) =>
    core == c && agent == .paging && decide (t.back.toNat ≤ va.toNat ∧ va.toNat < t.back.toNat + t.size)
  t.ferr && (d.fb.any (fun e => mine e.core e.agent e.va) || d.fbWait.any (fun h => mine h.core h.trap.agent h.va))

/-- A transfer is set under way as a job of the footprint unit (R80). -/
def beginMove (s : State) (c n : Nat) (fill : Bool) (cause : Nat) : State :=
  let t := s.tile c n
  let home := granules (tileLoc c t) t.size
  let back := granules t.back.toNat t.size
  match submitJob s c 0 (if fill then back else home) (if fill then home else back) 0 (s.core c).task.job
      (s.core c).task.sys with
  | none => s
  | some (id, s1) =>
    let s2 := (s1.evCount c (if fill then 0x0C else 0x0D) 1).modTile c n (fun t => { t with
      state := if fill then stFilling else stDraining
      wanted := false
      moving := some { fill := fill, cause := cause, job := id, pos := 0, landed := false } })
    (sentAt s2 c).due (if fill then .tileFill (coreId c) (tileId n) else .tileDrain (coreId c) (tileId n))

/-- An eviction asked for (R76, R78): a dirty tile drains, a clean one is empty at once. -/
def requestEvict (s : State) (c n cause : Nat) : State :=
  let t := s.tile c n
  if t.state = stReady ∧ t.paged ∧ t.refs = 0 then
    if t.dirty then beginMove s c n false cause
    else s.modTile c n (fun t => { t with state := stEmpty })
  else s

/-- A fill asked for (R78, R79): victims are evicted first, and the fill begins once each is empty. Until then STATE stays EMPTY.
(DESIGN CHOICE, unsafe; log 55.) -/
def requestFill (s : State) (c n cause : Nat) : State :=
  let t := s.tile c n
  if t.state = stEmpty ∧ t.conf ∧ t.paged then
    let rs := rivals (s.core c) n t
    if rs.any (fun e => e.2.refs ≠ 0 || e.2.state == stFilling || e.2.state == stDraining ||
        (e.2.state == stReady && e.2.pinned)) then s
    else
      let s1 := rs.foldl (fun s e => if e.2.dirty && transferHeld s c e.2 then s else requestEvict s c e.1 byNone) s
      if (rivals (s1.core c) n t).all (fun e => e.2.state == stEmpty) then beginMove s1 c n true cause else s1
  else s

/-- KEEP set on a draining tile (R76, R89), until the last beat of its drain has cleared it. -/
def requestKeep (s : State) (c n : Nat) : State :=
  let t := s.tile c n
  if t.state = stDraining ∧ (t.moving.map (fun m => !m.landed)).getD false then s.modTile c n (fun t => { t with keep := true }) else s

/-- The pinned entry that refuses a fill, if there is one (R79). An overlapping entry that is EMPTY is left alone, pinned or not.
(DESIGN CHOICE, unsafe; log 83.) -/
def pinnedRival (k : Core) (n : Nat) (t : Tile) : Option Nat :=
  (rivals k n t).findSome? (fun e => if e.2.pinned ∧ e.2.state ≠ stEmpty then some e.1 else none)

/-- TRAP.INFO with an entry in ENTRY, and PINV (R411). -/
def entryInfo (n : Nat) (pinv : Bool) : Word := BitVec.ofNat 64 (n % 64 * 2 ^ 16 + b2n pinv * 2 ^ 22)

/-- What an instruction that needs an EMPTY tile meets: the fault of the fill it asked for, a refusal, or a wait. -/
def tileDemand {α : Type} (s : State) (c n cause : Nat) : Res α :=
  let t := s.tile c n
  match t.fault with
  | some f => .error (.trap f)
  | none =>
    match pinnedRival (s.core c) n t with
    | some m => raise cTileShape 0 (entryInfo m true)
    | none => stall [.fill c n cause]

/-- A tile that an instruction names is READY with CFG = 1, or the instruction faults or waits (R75). -/
def needTile (s : State) (c n : Nat) : Res Unit :=
  let t := s.tile c n
  if t.conf = false then raise cTileUncfg 0 (entryInfo n false)
  else if t.state = stReady then .ok ()
  else if t.state = stEmpty then tileDemand s c n byInstr
  else if t.state = stDraining then
    match t.fault with
    | some f => .error (.trap f)
    | none => stall [.keep c n]
  else stall

/-- Two named paged tiles overlap (R75). -/
def noOverlap (s : State) (c n m : Nat) : Res Unit :=
  let t := s.tile c n
  let u := s.tile c m
  if n ≠ m ∧ t.paged ∧ u.paged ∧ t.overlaps u then raise cTileShape else .ok ()

/-! ## The log pool (R82 to R88) -/

/-- LOG.BASE's fields. -/
def LogPool.size (p : LogPool) : Nat := field p.base 16 13
def LogPool.start (p : LogPool) : Nat := field p.base 0 12 * 64

/-- LOG.STAT (R83). -/
def LogPool.stat (p : LogPool) : Word :=
  BitVec.ofNat 64 (joinFields [(p.ovf, 32), (0, 3), (p.peak, 13), (0, 3), (p.used.length, 13)])

/-- LOG.BASE at task start (R83). -/
def startPool (demand : Nat) : LogPool :=
  let base := if 4 ≤ demand then BitVec.ofNat 64 (1024 * 2 ^ 16 + (demand * 4096 - 16384) / 64) else 0
  { base := base, ovf := 0, peak := 0, used := [] }

/-- Where pool entry `i` stands (R84). -/
def poolLoc (k : Core) (c i : Nat) : Nat := scratchLoc c + (k.pool.start + i * 16) % 0x40000

/-- A log entry's control word (R84). -/
def logWord (last : Bool) (next tile w op off : Nat) : Nat :=
  joinFields [(b2n last, 1), (next, 12), (tile, 6), (0, 4), (w, 2), (op, 4), (0, 2), (off, 14)]

/-- The pool entry `i` found whole at its port, for an access at `va` (R52 to R56). -/
def poolCheck (s : State) (c i va : Nat) (write : Bool) : Res State := portCheck s c (poolLoc (s.core c) c i) 16 va write

/-- Bytes of a pool entry written. -/
def poolPut (s : State) (c loc n v : Nat) : State := paired (spadWrite s c loc n v) c loc n v

/-- A loggable operation at `va` merged into the tile's log or appended to it (R85); none where the cap or the pool is full (R88).
(DESIGN CHOICE, unsafe; log 14.) -/
def logAppend (s0 : State) (c n op w off v va : Nat) : Res (Option State) := do
  let t := s0.tile c n
  let s ← if t.logCnt = 0 then pure s0 else poolCheck s0 c t.logTail va false
  let k := s.core c
  let tailLoc := poolLoc k c t.logTail
  let ctl := s.read tailLoc 8
  let same := t.logCnt ≠ 0 ∧ bits ctl 0 14 = off ∧ bits ctl 20 2 = w
  match (if same then logMerge (8 * 2 ^ w) (bits ctl 16 4) (s.read (tailLoc + 8) 8 % 2 ^ (8 * 2 ^ w)) op v else none) with
  | some (op', v') => pure (some ((poolPut s c tailLoc 16 (logWord true 0 n w op' off + v' * 2 ^ 64)).evCount c 0x0B 1))
  | none =>
    if t.logCap ≤ t.logCnt then pure none
    else match freeIndex k.pool.used 0 k.pool.size with
      | none => pure none
      | some i => do
        let s1 ← poolCheck s c i va true
        let s2 := poolPut s1 c (poolLoc k c i) 16 (logWord true 0 n w op off + v * 2 ^ 64)
        let s3 := if t.logCnt = 0 then s2
          else poolPut s2 c tailLoc 8 (setBit (ctl - bits ctl 32 12 * 2 ^ 32 + i * 2 ^ 32) 44 false)
        pure (some ((s3.evCount c 0x0A 1).modCore c (fun k => { k with
          pool := { k.pool with used := i :: k.pool.used, peak := max k.pool.peak (k.pool.used.length + 1) }
          tiles := Table.set k.tiles n { k.tile n with
            logCnt := t.logCnt + 1, logHead := if t.logCnt = 0 then i else t.logHead, logTail := i } })))

/-- A log's first entry applied to the home, or skipped (R86, R87). The log has LOGCNT entries along their NEXT fields: LAST is
not read. An uncorrectable row of the entry or of the home faults ECC_UNCORR. (DESIGN CHOICE, unsafe; log 84.) -/
def logApplyOne (s0 : State) (c n : Nat) : Res State := do
  let i := (s0.tile c n).logHead
  let loc := poolLoc (s0.core c) c i
  let s ← poolCheck s0 c i loc false
  let k := s.core c
  let t := k.tile n
  let ctl := s.read loc 8
  let op := bits ctl 16 4
  let w := bits ctl 20 2
  let off := bits ctl 0 14
  let len := 2 ^ w
  let skip := 10 ≤ op ∨ (op = 9 ∧ w ≠ 2) ∨ t.size < off + len ∨ off % len ≠ 0
  let at_ := tileLoc c t + off
  let s1 ←
    if skip then pure (telemetry s (dieOf c) 8 c k.task.job (n + i * 2 ^ 16))
    else do
      let s1 ← portCheck s c at_ len at_ false
      let s2 ← portCheck s1 c at_ len at_ true
      let v := atomicNew (8 * len) (logOpCode op) (s2.read at_ len) (s2.read (loc + 8) 8 % 2 ^ (8 * len))
      pure (paired (putBytes s2 at_ len v) c at_ len v)
  pure (s1.modCore c (fun k => { k with
    pool := { k.pool with used := k.pool.used.erase i }
    tiles := Table.set k.tiles n { k.tile n with
      logCnt := t.logCnt - 1, logHead := bits ctl 32 12, dirty := (k.tile n).dirty || !decide skip } }))

/-- A tile's log has been applied: it is READY (R76). -/
def tileDone (s : State) (c n : Nat) : State :=
  s.modTile c n (fun t => { t with state := stReady, moving := none })

/-- Log application starts, or there is nothing to apply and the tile is READY (R76, R86). -/
def beginApply (s : State) (c n : Nat) : State :=
  let t := s.tile c n
  if t.logCnt = 0 then tileDone s c n
  else (s.modTile c n (fun t => { t with
    moving := some { fill := true, cause := byNone, job := 0, pos := t.size, landed := true } })).due (.logApply (coreId c) (tileId n))

/-! ## The end of a transfer -/

/-- The home's bytes written by a transfer, at their port. -/
def homeWrite (s : State) (a : Access) (loc n v : Nat) : Res State := do
  let s1 ← portCheck (revoked s none loc n) a.core loc n a.va true
  pure (traced (paired (putBytes s1 loc n v) a.core loc n v) a 0 loc n)

/-- A transfer faults (R76, R81); one that no instruction demanded waits for an entry of the fault buffer like any other (R416).
(DEDUCED, unsafe; log 38.) -/
def transferFault (s : State) (c n : Nat) (m : TileMove) (t0 : TrapInfo) : State :=
  let t := { t0 with met := [] }
  let s1 := receivedAt (completeJob (s.meets none t0) c m.job) c
  let back := if m.fill then stEmpty else stReady
  let buffer := t.cause = cPageAbsent ∨ t.cause = cPagePerm
  let s2 := s1.modTile c n (fun e => { e with state := back, moving := none })
  if m.cause = byNone then
    let s3 := s2.modTile c n (fun e => { e with ferr := true })
    if buffer then (fbHeld s3 c (s.core c).task.job t).2 else s3
  else if m.cause = byOverflow ∧ buffer then
    let info := BitVec.ofNat 64 (t.kind * 2 ^ 8 + t.flag * 2 ^ 4)
    s2.modTile c n (fun e => { e with fault := some { t with cause := cLogFault, info := info } })
  else s2.modTile c n (fun e => { e with fault := some t })

/-- The bytes of a transfer's beat from `pos` on: 64, or what is left (R80). -/
def beatLen (t : Tile) (pos : Nat) : Nat := min 64 (t.size - pos)

/-- A fill's beat: the backing copy read and the home written (R80). (DESIGN CHOICE, unsafe; log 30.) -/
def fillBeat (s : State) (c : Nat) (t : Tile) (pos : Nat) : Res State := do
  let n := beatLen t pos
  let a := pagingAccess s c (t.back.toNat + pos) n .read
  let (v, s1) ← readRange s a 2 (t.back.toNat + pos) n
  homeWrite s1 a (tileLoc c t + pos) n v

/-- A drain's beat: the home read and the backing copy written (R80). -/
def drainBeat (s : State) (c : Nat) (t : Tile) (pos : Nat) : Res State := do
  let n := beatLen t pos
  let a := pagingAccess s c (t.back.toNat + pos) n .write
  let home := tileLoc c t + pos
  let s1 ← portCheck (revoked s none home n) c home n (t.back.toNat + pos) false
  writeRange s1 a 2 (t.back.toNat + pos) n (s1.read home n)

/-- The last beat has landed: a fill's log is applied; a drained tile is EMPTY, or its log is applied and it is READY again
(R76, R86, R89). -/
def lastBeat (s : State) (c n : Nat) (m : TileMove) : State :=
  let t := s.tile c n
  let s1 := (receivedAt (completeJob s c m.job) c).modTile c n (fun e => { e with dirty := false, ferr := false })
  if m.fill then beginApply s1 c n
  else
    let s2 := s1.modTile c n (fun e => { e with keep := false })
    if t.keep ∨ t.logCnt ≠ 0 then beginApply s2 c n
    else s2.modTile c n (fun e => { e with state := stEmpty, moving := none })

/-- A piece in the granules by which the footprint unit knows its bytes. -/
def pieceGranules (p : Piece) : List (Nat × Nat) := granules (if p.paged then p.va else p.loc) p.len

/-- A store, a NEAR atomic or an SC operation of the task that has not performed touches a footprint (R80, R136, R137). -/
def footprintBusy (s : State) (c : Nat) (foot : List (Nat × Nat)) : Bool :=
  let k := s.core c
  k.sbuf.any (fun b => b.pieces.any (fun p => meets (pieceGranules p) foot)) ||
    k.near.any (fun q => meets (granules q.va q.width) foot) ||
    s.scOps.any (fun o => o.core.val == c && o.pieces.any (fun p => meets (pieceGranules p) foot))

/-- The transfer's job may be in flight: it is, or its edges have cleared, its turn has come, fewer than 4 are, and what the task
has written to its footprint has performed (R80). -/
def mayMove (s : State) (c : Nat) (j : Job) : Bool :=
  j.started || (mayStart s c j && decide (((s.core c).jobs.filter (fun e => e.engine == 0 && e.started)).length < 4) &&
    !footprintBusy s c (j.reads ++ j.writes))

/-- One beat of a tile's transfer; a wait of its accesses leaves it where it is (R76, R80, R81). -/
def moveBeat (s : State) (c n : Nat) (m : TileMove) (j : Job) : State :=
  let t := s.tile c n
  let s0 := s.modCore c (fun k => { k with jobs := k.jobs.map (fun e => if e.id = j.id then { e with started := true } else e) })
  match (if m.fill then fillBeat s0 c t m.pos else drainBeat s0 c t m.pos) with
  | .ok s1 =>
    if t.size ≤ m.pos + 64 then lastBeat s1 c n m
    else s1.modTile c n (fun e => { e with moving := some { m with pos := m.pos + 64 } })
  | .error (.trap f) => transferFault s c n m f
  | .error (.stall _) => s0

/-- A transfer goes one beat on, if its job may be in flight. -/
def moveStep (s : State) (c n : Nat) : State :=
  match (s.tile c n).moving with
  | some m =>
    match findJob s c m.job with
    | some j => if m.landed = false ∧ mayMove s c j then moveBeat s c n m j else s
    | none => s
  | none => s

/-- A transfer to its end, as far as it goes. -/
def moveAll (c n : Nat) : Nat → State → State
  | 0, s => s
  | fuel + 1, s => moveAll c n fuel (moveStep s c n)

/-- The beats of a transfer still under way. -/
def beatsLeft (t : Tile) : Nat := t.size / 64 + 1

/-- The transfer of a tile goes on with its next beat, and comes again until its last (R76, R80). -/
def runMove (s : State) (c n : Nat) : State :=
  let s1 := moveStep s c n
  match (s1.tile c n).moving with
  | some m =>
    if m.landed then s1 else s1.due (if m.fill then .tileFill (coreId c) (tileId n) else .tileDrain (coreId c) (tileId n))
  | none => s1

/-- A victim of tile `n` whose drain has faulted and waits for the fault's flush (R79, R81). (DESIGN CHOICE, unsafe; log 55.) -/
def victimHeld (s : State) (c n : Nat) : Bool :=
  (rivals (s.core c) n (s.tile c n)).any (fun e => e.2.dirty && transferHeld s c e.2)

/-- A fill that `tfetch` has asked for (R78, R79, R81): it begins, waits for its victims, or is refused, which sets FERR.
(DESIGN CHOICE, unsafe; log 55.) -/
def tryWanted (s : State) (c n : Nat) : State :=
  let t := s.tile c n
  if t.wanted = false ∨ t.state ≠ stEmpty then s
  else if (pinnedRival (s.core c) n t).isSome ∨ victimHeld s c n then
    s.modTile c n (fun t => { t with ferr := true, wanted := false })
  else
    let s1 := requestFill s c n byNone
    if (s1.tile c n).state = stEmpty then s1.dueOnce (.tileFill (coreId c) (tileId n)) else s1

/-- A tile's fill goes on: its next beat, or its beginning if it is still wanted. -/
def runFill (s : State) (c n : Nat) : State :=
  match (s.tile c n).moving with
  | some m => if m.fill then runMove s c n else s
  | none => tryWanted s c n

/-- A tile's drain goes on. -/
def runDrain (s : State) (c n : Nat) : State :=
  match (s.tile c n).moving with
  | some m => if m.fill then s else runMove s c n
  | none => s

/-- One log entry applied; after the last the tile is READY (R86). -/
def runApply (s : State) (c n : Nat) : Res State :=
  match (s.tile c n).moving with
  | some m =>
    if m.landed = false then .ok s
    else do
      let s1 ← logApplyOne s c n
      pure (if (s1.tile c n).logCnt = 0 then tileDone s1 c n else s1.due (.logApply (coreId c) (tileId n)))
  | none => .ok s

/-! ## Accesses through the tile window (R74, R75, R82, R89) -/

/-- The entry's checks of an access through its slot (R74). -/
def slotCheck (s : State) (a : Access) (n off : Nat) : Res Tile :=
  let t := s.tile a.core n
  if t.conf = false then raise cTileUncfg a.va (entryInfo n false)
  else if t.size < off + a.len then raise cTileShape a.va
  else if 0x4000 < off + a.len then raise cStraddle a.va
  else .ok t

/-- The piece of a READY tile's home. -/
def slotPiece (c : Nat) (t : Tile) (va off len : Nat) : Piece :=
  { loc := tileLoc c t + off, len := len, off := 0, va := va, paged := false, order := .rc, cache := 2, amo := 0,
    hostb := false, size := 0, alloc := false }

/-- A load or a returning atomic of the task that waits for a tile says so (R90). -/
def waitsFor (a : Access) (n : Nat) : Res Unit → Res Unit
  | .error (.stall reqs) => .error (.stall (if a.agent = .task ∧ a.kind ≠ .write then .tileWait a.core n :: reqs else reqs))
  | r => r

/-- The home of a slot's bytes once the tile is READY; till then the access waits (R89). -/
def slotReady (s : State) (a : Access) (n off : Nat) : Res Piece := do
  let t ← slotCheck s a n off
  waitsFor a n (needTile s a.core n)
  pure (slotPiece a.core t a.va off a.len)

/-- A write to a READY paged tile sets DIRTY (R74). -/
def markDirty (s : State) (c n : Nat) : State :=
  if (s.tile c n).paged then s.modTile c n (fun t => { t with dirty := true }) else s

/-- A load of the task waits for the tile: a stream's, or the next of a repetition's body (R90). What the integer pipeline holds at
issue nothing later passes. -/
def tileAwaited (s : State) (c n : Nat) : Bool := (s.tile c n).waiters != [] || (s.core c).pipe.bodyWait == some n

/-- What a loggable operation at `va` meets on a tile that is not READY: it is logged, or, once it has found a log or the pool
full, it waits until it can perform directly (R82, R86, R88). -/
def logOrWait (s : State) (c n op w off v va : Nat) : Res State := do
  let t := s.tile c n
  if (t.moving.map (·.landed)).getD false ∨ tileAwaited s c n then stall
  let logged ← if (s.core c).pipe.full then pure none else logAppend s c n op w off v va
  match logged with
  | some s1 => pure (s1.modCore c (fun k => { k with task := { k.task with commit := true } }))
  | none =>
    match t.fault with
    | some f => .error (.trap f)
    | none =>
      if t.state = stEmpty then
        match pinnedRival (s.core c) n t with
        | some m => raise cTileShape 0 (entryInfo m true)
        | none => stall [.overflow c, .fill c n byOverflow]
      else if t.state = stDraining then stall [.overflow c, .keep c n]
      else stall [.overflow c]

end Sys2Proof.Machine
end

