-- ==== Sys2Proof/Machine/Load.lean ====
section
/-! DEFINITION. Loads and atomics of tasks and helpers, and atomics of the hardware (05 R119 to R123, 06 R142 to R157,
11 R281 to R291). -/
namespace Sys2Proof.Machine

/-- An access of the task on a core. -/
def taskAccess (s : State) (c : Nat) (kind : AccessKind) (va len align : Nat) : Access :=
  { core := c, job := (s.core c).task.job, sys := (s.core c).task.sys, agent := .task, kind := kind, va := va, len := len,
    align := align, struct := false }

/-- A load's value: a plain load uses its cache request, an ordered one reads at the home (R98). `keep` is as in `loadPiece`.
(DESIGN CHOICE, unsafe; log 10.) -/
def loadData (s : State) (a0 : Access) (cp : Option Nat) (keep : Bool := true) : Res (Nat × State) := do
  let a := { a0 with cp := cp.getD 0 }
  let (_, t, s1) ← checkAccess s a
  match t with
  | .bytes ps =>
    let s2 ← orderBefore s1 a.core ps
    match cp with
    | some _ => loadPieces s2 a keep ps
    | none => readPieces s2 a ps
  | .tile n off =>
    let p ← slotReady s1 a n off
    let s2 ← orderBefore s1 a.core [p]
    readPiece s2 a p

/-- A read of a structure (R475): a plain load that no slot or queue window serves. -/
def loadStruct (s : State) (c va len align : Nat) : Res (Nat × State) :=
  loadData s { taskAccess s c .read va len align with struct := true } (some 0)

/-- The task has passed its commit point (R179). -/
def commit (s : State) (c : Nat) : State := s.modCore c (fun k => { k with task := { k.task with commit := true } })

/-! ## Where an atomic performs (R145 to R150) -/

/-- The new value of an atomic: an `amo` or `red` code, or a `cas` with what it expects. -/
structure AtomicOp where
  op : Nat
  operand : Nat
  expected : Option Nat
  deriving DecidableEq, Repr

/-- What the atomic writes for an old value of `n` bits. -/
def AtomicOp.new (o : AtomicOp) (n old : Nat) : Nat :=
  match o.expected with
  | some e => casNew e o.operand old
  | none => atomicNew n o.op old o.operand

/-- The predictor's choice and its new entry (R150): true for HOME. -/
def predict (k : Core) (job block : Nat) : Bool × Core :=
  let found := k.preds.find? (fun p => p.job = job ∧ p.block = block)
  let h := (found.map (·.history)).getD 0
  let e : PredEntry := { job := job, block := block, history := h * 2 % 2 ^ 16 }
  (decide (2 ≤ popcount 16 h),
   { k with preds := (e :: k.preds.filter (fun p => ¬ (p.job = job ∧ p.block = block))).take 64 })

/-- The entry of the atomic buffer that holds a block under an address. -/
def atomHeld (k : Core) (job va : Nat) : Bool := k.atoms.any (fun e => e.job = job ∧ e.va = va / 64 * 64)

/-- An atomic performed where its bytes stand: at the home, after it is revoked from its owner, or in the buffer of the
owner. `kind` is the trace's. (DEDUCED, safe; log 23.) -/
def atomicAt (s : State) (a : Access) (kind : Nat) (near : Bool) (p : Piece) (o : AtomicOp) : Res (Nat × State) := do
  let s2 ← if near then portCheck s a.core p.loc p.len p.va false else served s a .atomic p
  let old := s2.read p.loc p.len
  let new := o.new (8 * p.len) old
  let s3 ← checkerRead s2 a p old
  let s4 ← checkerWrite (putBytes s3 p.loc p.len new) a p new
  let s5 := if ownAgent a = none then s4 else remoteServed (remoteSent (s4.evCount a.core (if near then 0x10 else 0x11) 1) a.core [p]) a.core [p]
  pure (old, traced s5 a kind p.loc p.len)

/-- The entry used becomes the most recent. -/
def touchAtom (s : State) (c job va : Nat) : State :=
  s.modCore c (fun k =>
    let hit := fun (e : AtomEntry) => decide (e.job = job ∧ e.va = va / 64 * 64)
    { k with atoms := k.atoms.filter hit ++ k.atoms.filter (fun e => !hit e) })

/-- What an atomic of a task comes to: its old value, or a NEAR request that waits for its block (R147). -/
inductive AtomicOut where
  | done (old : Nat) (s : State)
  | asked (s : State)

/-- An atomic of a task (R145, R155, R179). `log` is the log code of a loggable `red`; `acquire` says that later accesses wait
for it. The request's destination is filled in by the caller. -/
def atomicData (s : State) (a : Access) (o : AtomicOp) (kind : Nat) (sc acquire : Bool) (log : Option Nat) :
    Res AtomicOut := do
  let (r, t, s1) ← checkAccess s a
  match t with
  | .tile n off =>
    let e ← slotCheck s1 a n off
    if tileAwaited s1 a.core n ∧ log.isSome then stall
    if e.state = stReady ∨ log = none then
      let p ← slotReady s1 a n off
      let s2 ← orderBefore s1 a.core [p]
      let (old, s3) ← atomicAt s2 a kind false p o
      pure (.done old (commit (markDirty s3 a.core n) a.core))
    else
      orderWait s1 a.core []
      let s2 ← logOrWait s1 a.core n (log.getD 0) (Nat.log2 a.len) off o.operand a.va
      pure (.done 0 s2)
  | .bytes ps =>
    let s2 ← orderBefore s1 a.core ps
    match ps with
    | p :: _ =>
      let s3 := commit (l1dInvalidate s2 a.core a.job a.va a.len) a.core
      let own := decide (a.va / 2 ^ 52 = dieOf a.core)
      if ¬ p.paged ∨ sc ∨ own = false ∨ 2 ≤ p.amo then
        let (old, s4) ← atomicAt s3 a kind false p o
        pure (.done old s4)
      else if atomHeld (s3.core a.core) a.job a.va then
        let (old, s4) ← atomicAt (touchAtom s3 a.core a.job a.va) a kind true p o
        pure (.done old s4)
      else
        let (home, k) := if p.amo = 0 then predict (s3.core a.core) a.job (a.va / 64) else (false, s3.core a.core)
        let s4 := s3.setCore a.core k
        if home then
          let (old, s5) ← atomicAt s4 a kind false p o
          pure (.done old s5)
        else
          let q : NearReq :=
            { va := a.va, loc := p.loc, op := o.op, width := a.len, operand := BitVec.ofNat 64 o.operand,
              expected := BitVec.ofNat 64 (o.expected.getD 0), acquire := acquire, dest := none }
          pure (.asked ((s4.modCore a.core (fun k => { k with near := k.near ++ [q] })).due (.grant (coreId a.core))))
    | [] => raise cWindowDenied r.base

/-- Ownership of the oldest request's block is granted: it takes the place of the entry used longest ago, whose block comes home,
and the request's atomic performs in it (R147). -/
def grantOwnership (s : State) (c : Nat) : Res State :=
  let k := s.core c
  match k.near with
  | [] => .ok s
  | q :: rest =>
    let block := q.va / 64 * 64
    let s1 := revoked s (some c) (q.loc / 64 * 64) 64
    let e : AtomEntry := { job := k.task.job, va := block, loc := q.loc / 64 * 64 }
    let others := (s1.core c).atoms.filter (fun x => ¬ (x.job = e.job ∧ x.va = e.va))
    let s1a := (others.drop 7).foldl (fun s x => l2Return 0 s x.loc) s1
    let s2 := (l2Access s1a (q.loc / 64 * 64) 64 true false).modCore c (fun k =>
      { k with near := rest, atoms := e :: others.take 7 })
    let a := taskAccess s2 c .atomic q.va q.width 1
    let o : AtomicOp :=
      { op := q.op, operand := q.operand.toNat, expected := if q.op = 99 then some q.expected.toNat else none }
    let p : Piece := { loc := q.loc, len := q.width, off := 0, va := q.va, paged := true, order := .rc, cache := 0, amo := 1,
                       hostb := false, size := 0, alloc := true }
    do
      let (old, s2) ← atomicAt s2 a 2 true p o
      let s3 := l1dInvalidate s2 c e.job q.va q.width
      match q.dest with
      | some seq =>
        pure ((s3.modCore c (fun k => k.deliver seq (BitVec.ofNat 512 old))).due (.resultWriteback (coreId c)))
      | none => pure s3

/-! ## Atomics of the hardware -/

/-- A HOME atomic of an agent other than a task (R145): the old value. `kind` is the trace's (R134): 1 for a reduction. -/
def homeAtomic (s : State) (a : Access) (kind : Nat) (o : AtomicOp) : Res (Nat × State) := do
  let (_, t, s1) ← checkAccess s a
  match t with
  | .bytes (p :: _) => atomicAt s1 a kind false p o
  | _ => raise cWindowDenied a.va

end Sys2Proof.Machine
end

