-- ==== Sys2Proof/Machine/Level.lean ====
section
/-! DEFINITION. Levels and their counts (07 R169 to R172), records, and where a placed record goes (15 R384 to R388). -/
namespace Sys2Proof.Machine

/-! ## Memory that the hardware reads and writes for a job -/

/-- `n` bytes at an address as a waiting write of the same job leaves them. -/
def overlaid (job va n : Nat) (v : Nat) (o : HwOp) : Nat :=
  match o.kind with
  | .write len w =>
    if o.job = job then (List.range n).foldl (fun x i =>
      if o.va ≤ va + i ∧ va + i < o.va + len then x - bits x (8 * i) 8 * 2 ^ (8 * i) + bits w (8 * (va + i - o.va)) 8 * 2 ^ (8 * i)
      else x) v
    else v
  | _ => v

/-- A read of the hardware for a job, which sees the writes that wait; none where it faults. -/
def hwRead (s : State) (job va n : Nat) : Option (Nat × State) :=
  match readRange s (hwAccess 0 job va n .read) (rangeFuel n) va n with
  | .ok (v, s1) => some (s.hwHeld.foldl (overlaid job va n) v, s1)
  | .error _ => none

/-- An access of the hardware for a job that ends short: it waits for space in the host-write ring (R112), or it is dropped, an
uncorrectable error with a machine check (R419). (DEDUCED, unsafe; log 89.) -/
def hwStopped (s : State) (o : HwOp) : Stop → State
  | .stall _ => { s with hwHeld := s.hwHeld ++ [o] }
  | .trap t =>
    let s1 := s.meets none t
    if t.cause = cEcc then machineCheck s1 o.core cEcc 0 else s1

/-- A write of the hardware for a job, behind those of the job that wait. -/
def hwWrite (s : State) (job va n v : Nat) : State :=
  let o : HwOp := { core := 0, job := job, va := va, kind := .write n v }
  if s.hwHeld.any (fun x => x.job = job) then { s with hwHeld := s.hwHeld ++ [o] }
  else match writeRange s (hwAccess 0 job va n .write) (rangeFuel n) va n v with
    | .ok s1 => s1
    | .error e => hwStopped s o e

/-! ## Level blocks (R169) -/

def levelVa (s : State) (job i : Nat) : Nat := (s.job job).lvb.toNat + 32 * i

/-- A level block's fields. -/
structure LevelBlock where
  cnt : Nat
  act : Nat
  fail : Bool
  canh : Bool
  can : Bool
  status : Nat
  kind : Nat
  parent : Nat
  nva : Nat
  mode : Nat
  deriving DecidableEq, Repr

def levelOpen : Nat := 0
def levelDone : Nat := 1
def levelCancelled : Nat := 2
def levelFailed : Nat := 3

def levelOf (v : Nat) : LevelBlock :=
  { cnt := bits v 0 64, act := bits v 64 64, fail := bit v 146, canh := bit v 145, can := bit v 144, status := bits v 142 2,
    kind := bits v 140 2, parent := bits v 128 12, nva := bits v 195 50 * 8, mode := bits v 192 2 }

/-- Block `i` of a job; a table that cannot be read gives a block that is not open. -/
def readLevel (s : State) (job i : Nat) : LevelBlock :=
  match hwRead s job (levelVa s job i) 32 with
  | some (v, _) => levelOf v
  | none => { levelOf 0 with status := levelDone }

/-- What the read of a block leaves: its owner revoked, its sector served (R148, R105). -/
def levelSeen (s : State) (job i : Nat) : State :=
  match hwRead s job (levelVa s job i) 32 with
  | some (_, s1) => s1
  | none => s

def setCnt (s : State) (job i v : Nat) : State := hwWrite s job (levelVa s job i) 8 (v % 2 ^ 64)
def setAct (s : State) (job i v : Nat) : State := hwWrite s job (levelVa s job i + 8) 8 (v % 2 ^ 64)

/-- The word with STATUS, KIND, PARENT and the flags. -/
def setCtl (s : State) (job i : Nat) (b : LevelBlock) : State :=
  hwWrite s job (levelVa s job i + 16) 8 (joinFields [(b2n b.fail, 1), (b2n b.canh, 1), (b2n b.can, 1), (b.status, 2),
    (b.kind, 2), (b.parent, 12)])

/-- A level and its ancestors up to block 0; `fuel` bounds a chain that software has tied in a knot. -/
def levelChain (s : State) (job : Nat) : Nat → Nat → List Nat
  | 0, _ => []
  | fuel + 1, i => if i = 0 then [0] else i :: levelChain s job fuel (readLevel s job i).parent

def chainOf (s : State) (job i : Nat) : List Nat := levelChain s job 4096 i

/-- What the reads of a chain leave. -/
def chainSeen (s : State) (job i : Nat) : State := (chainOf s job i).foldl (fun s j => levelSeen s job j) s

/-- The level or an ancestor has CAN, or CANH, set (R172). -/
def levelCancelling (s : State) (job i : Nat) : Bool := (chainOf s job i).any (fun j => (readLevel s job j).can)
def levelHardCancelling (s : State) (job i : Nat) : Bool := (chainOf s job i).any (fun j => (readLevel s job j).canh)

/-! ## Placement (R384 to R388) -/

/-- A record as it enters a queue. -/
def readyOf (s : State) (record : BitVec 128) (rva job lane : Nat) (ext : Option (Nat × Nat × Nat)) : Ready :=
  { record := record, rva := BitVec.ofNat 64 rva, job := job, ext := ext, unit := 0, lane := lane, placedAt := s.cyc,
    prio := recPrio record, stolen := false, rq := 0, hold := none, fault := none, ctx := none, slot := none, seq := s.seq }

/-- The record of an entry's next unit (R170, R385). -/
def Ready.nextUnit (r : Ready) : BitVec 128 :=
  match r.ext with
  | some (x, y, _) =>
    let u := r.unit
    setField (setField (setField r.record 16 16 (u % x)) 32 16 (u / x % y)) 48 16 (u / x / y)
  | none => r.record

/-- A record stored in a spill ring, and read back from it; where the ring cannot be read, the record as it was stored.
(DESIGN CHOICE, unsafe; log 28.) -/
def ringStore (s : State) (va : Nat) (r : Ready) : State := hwWrite s r.job va 16 r.record.toNat
def ringLoad (s : State) (va : Nat) (r : Ready) : State × Ready :=
  match hwRead s r.job va 16 with
  | some (v, s1) => (s1, { r with record := BitVec.ofNat 128 v, slot := none })
  | none => (s, { r with slot := none })

/-- DIS.RQS and DIS.DQS of a job on a die (R408). -/
def State.rqs (s : State) (job die : Nat) : Word := if die = 0 then (s.job job).rqs0 else (s.job job).rqs1
def State.dqs (s : State) (job die : Nat) : Word := if die = 0 then (s.job job).dqs0 else (s.job job).dqs1

/-- Where place `n` of a job's ready spill ring stands, and how many records the ring holds (R387, R408). -/
def readyRingSize (s : State) (job die : Nat) : Nat := field (s.rqs job die) 0 8 * 4096
def readyRingVa (s : State) (job die n : Nat) : Nat :=
  field (s.rqs job die) 16 37 * 2 ^ 16 + n % max 1 (readyRingSize s job die) * 16

/-- Where place `n` of a core's spill ring stands (R388). -/
def dequeRingVa (s : State) (job c n : Nat) : Nat :=
  field (s.dqs job (dieOf c)) 21 32 * 2 ^ 21 + c % 128 * 2 ^ 14 + n % 1024 * 16

/-- The place behind the newest of a list of spilled records. -/
def nextSlot (l : List Ready) : Nat := l.foldl (fun m r => max m ((r.slot.map (· + 1)).getD 0)) 0

/-- The job's ring on a die has room for a further record, and no earlier record of the job waits for it. -/
def ringRoom (s : State) (die job : Nat) (l : List Ready) : Bool :=
  let mine := l.filter (fun e => e.job = job)
  decide (mine.length < readyRingSize s job die) && mine.all (fun e => e.slot.isSome)

/-- A record behind those that have spilled: in its job's ring, or waiting at the distributor while that is full or absent
(R387). -/
def spillReady (s : State) (die : Nat) (r : Ready) : State :=
  let l := (s.die die).spill
  let mine := l.filter (fun e => e.job = r.job)
  if ringRoom s die r.job l then
    let n := nextSlot mine
    (ringStore s (readyRingVa s r.job die n) r).modDie die (fun d => { d with spill := d.spill ++ [{ r with slot := some n }] })
  else s.modDie die (fun d => { d with spill := d.spill ++ [{ r with slot := none }] })

/-- An entry enters the ready queue of a die at the tail, or at the head of its priority. Records of a job that spill keep
their order: while any is spilled, every new one spills (R387). -/
def placeReady (s : State) (die : Nat) (front : Bool) (r : Ready) : State :=
  let d := s.die die
  let spills := 2048 ≤ d.ready.length ∨ d.spill.any (fun e => e.job = r.job)
  let r1 := { r with seq := s.seq, slot := none }
  let s1 := { s with seq := s.seq + 1 }.dueOnce (.selection (dieId die))
  if spills then spillReady s1 die r1
  else s1.modDie die (fun d => { d with ready := if front then r1 :: d.ready else d.ready ++ [r1] })

/-- Spilled records return in their order as entries free, and records that wait at the distributor follow into the ring (R387). -/
def unspill (s : State) (die : Nat) : State :=
  let d := s.die die
  if d.spill = [] then s
  else
    let n := 2048 - d.ready.length
    let back := (d.spill.take n).foldl (fun s r =>
      let (s1, r1) := match r.slot with
        | some i => ringLoad s (readyRingVa s r.job die i) r
        | none => (s, r)
      s1.modDie die (fun d => { d with ready := d.ready ++ [r1] })) (s.modDie die (fun d => { d with spill := [] }))
    (d.spill.drop n).foldl (fun s r =>
      if r.slot.isSome then s.modDie die (fun d => { d with spill := d.spill ++ [r] }) else spillReady s die r) back

/-- The records that a core's spill ring has room for: none without a deque spill area (R388, R408). -/
def dequeRoom (s : State) (c job : Nat) : Nat :=
  if flag (s.dqs job (dieOf c)) 0 then 1024 - (s.core c).spilled.length else 0

/-- The oldest of a core's hardware entries, as many as one batch takes, written behind its spilled records, the oldest first
(R388). (DESIGN CHOICE, unsafe; log 28.) -/
def spillDeque (s : State) (c n : Nat) : State :=
  let batch := (s.core c).deque.drop (64 - n)
  batch.reverse.foldl (fun s r =>
    let i := nextSlot (s.core c).spilled
    (ringStore s (dequeRingVa s r.job c i) r).modCore c (fun k => { k with spilled := { r with slot := some i } :: k.spilled }))
    (s.modCore c (fun k => { k with deque := k.deque.take (64 - n) }))

/-- An entry pushed at the bottom of a core's deque; the head of the list is the bottom (R388). -/
def pushDeque (s : State) (c : Nat) (r : Ready) : State :=
  let k := s.core c
  let r1 := { r with seq := s.seq, slot := none }
  let s1 := { s with seq := s.seq + 1 }.dueOnce (.selection (dieId (dieOf c)))
  let room := dequeRoom s c r.job
  if k.deque.length < 64 then s1.modCore c (fun k => { k with deque := r1 :: k.deque })
  else if 0 < room then (spillDeque s1 c (min 32 room)).modCore c (fun k => { k with deque := r1 :: k.deque })
  else placeReady s (dieOf c) false { r with lane := squareOf c }

/-- The 32 newest spilled records return when the hardware part is empty (R388). -/
def refillDeque (s : State) (c : Nat) : State :=
  let k := s.core c
  if k.deque ≠ [] ∨ k.spilled = [] then s
  else (k.spilled.take 32).foldl (fun s r =>
    let (s1, r1) := ringLoad s (dequeRingVa s r.job c (r.slot.getD 0)) r
    s1.modCore c (fun k => { k with deque := k.deque ++ [r1] })) (s.modCore c (fun k => { k with spilled := k.spilled.drop 32 }))

/-! ## Counts (R171) -/

/-- ACT raised in a level and every ancestor. -/
def raiseAct (s : State) (job i n : Nat) : State :=
  (chainOf s job i).foldl (fun s j => setAct (levelSeen s job j) job j ((readLevel s job j).act + n)) s

/-- A record or descriptor read from memory is placed on a ready queue or a deque (R160, R170). -/
def placeFrom (s : State) (c job va : Nat) (toDeque : Bool) : State :=
  let desc := va % 2 = 1
  let base := va - va % 2
  match hwRead s job base (if desc then 64 else 16) with
  | none => s
  | some (v, s0) =>
    let record := BitVec.ofNat 128 v
    let ext := if desc then some (bits v 128 16 + 1, bits v 144 16 + 1, bits v 160 16 + 1) else none
    let r := readyOf s0 record va job (squareOf c) ext
    let launch := recLaunch record
    let s1 := if desc then setCnt s0 job launch ((readLevel s0 job launch).cnt + r.units) else s0
    let s2 := raiseAct s1 job launch r.units
    if toDeque then pushDeque s2 c r else placeReady s2 (dieOf c) false r

/-- A `dec` at the record's home, as a HOME atomic (R145, R160): DEP falls by one unless it is 0, and the decrement from 1 to 0
places the record. -/
def decRecord (s : State) (c job va : Nat) : Res State := do
  let a := { hwAccess c job (va - va % 2 + 8) 8 .atomic with align := 8 }
  let (_, t, s1) ← checkAccess s a
  match t with
  | .bytes (p :: _) =>
    let dep := bits (s1.read p.loc 8) 12 12
    let (_, s2) ← atomicAt s1 a 1 false p { op := 0, operand := if dep = 0 then 0 else 2 ^ 64 - 2 ^ 12, expected := none }
    pure (if dep = 1 then placeFrom s2 c job va false else s2)
  | _ => raise cWindowDenied a.va

/-- A notification's `red.add` of 1 or `dec` (R169). -/
def notifyOne (s : State) (o : HwOp) : Res State :=
  match o.kind with
  | .add => do
    let (_, s1) ← homeAtomic s { hwAccess o.core o.job o.va 8 .atomic with align := 8 } 1 { op := 0, operand := 1, expected := none }
    pure s1
  | .dec => decRecord s o.core o.job o.va
  | .write n v => writeRange s (hwAccess 0 o.job o.va n .write) (rangeFuel n) o.va n v

/-- An access of the hardware made now, or left to wait. -/
def hwDo (s : State) (o : HwOp) : State :=
  match notifyOne s o with
  | .ok s1 => s1
  | .error e => hwStopped s o e

/-- The accesses that wait are tried again in their order (R112). -/
def hwAgain (s : State) : State :=
  if s.hwHeld = [] then s
  else s.hwHeld.foldl (fun s o =>
    if s.hwHeld.any (fun x => x.job = o.job) then { s with hwHeld := s.hwHeld ++ [o] } else hwDo s o) { s with hwHeld := [] }

/-- The notification of a completed level (R169). -/
def notifyLevel (s : State) (c job : Nat) (b : LevelBlock) : State :=
  match b.mode with
  | 1 => hwDo s { core := c, job := job, va := b.nva, kind := .add }
  | 2 =>
    match hwRead s job b.nva 8 with
    | none => s
    | some (n, s1) =>
      (List.range (min n 64)).foldl (fun s i =>
        match hwRead s job (b.nva + 8 + 8 * i) 8 with
        | some (va, s2) => hwDo s2 { core := c, job := job, va := va, kind := .dec }
        | none => s) s1
  | _ => s

/-- The key of a level in `State.zeroed`. -/
def zeroKey (job i : Nat) : Nat := job * 4096 + i

/-- CNT of a level falls by one, and the levels that this completes complete (R171): a phase waits for the lantern. `c` is
the core whose `done` it is. -/
def lowerCnt (c job : Nat) : Nat → State → Nat → State
  | 0, s, _ => s
  | fuel + 1, s, i =>
    let b := readLevel s job i
    let s1 := setCnt (levelSeen s job i) job i (b.cnt + 2 ^ 64 - 1)
    if b.cnt = 1 ∧ b.status = levelOpen ∧ b.can = false then
      if b.kind = 2 then { s1 with zeroed := Table.set s1.zeroed (zeroKey job i) c }.dueOnce .lantern
      else
        let s2 := setCtl s1 job i { b with status := if b.fail then levelFailed else levelDone }
        let s3 := notifyLevel s2 c job b
        if i = 0 then s3 else lowerCnt c job fuel s3 b.parent
    else s1

/-- A phase completes at the lantern's report (R171, R406); the records that its notification places go to the square of the core
whose unit brought CNT to 0 (R384), or of `c0` where no unit did. -/
def completePhase (s0 : State) (c0 job i : Nat) : State :=
  let b := readLevel s0 job i
  let c := Table.getD s0.zeroed (zeroKey job i) c0
  let s : State := { levelSeen s0 job i with zeroed := s0.zeroed.filter (fun e => e.1 ≠ zeroKey job i) }
  if b.kind = 2 ∧ b.cnt = 0 ∧ b.status = levelOpen ∧ b.can = false then
    let s2 := setCtl s job i { b with status := if b.fail then levelFailed else levelDone }
    let s3 := notifyLevel s2 c job b
    if i = 0 then s3 else lowerCnt c job 4096 s3 b.parent
  else s

/-- A cancelled level whose ACT is 0 completes CANCELLED, with every open level below it (R172). -/
def completeCancelled (s : State) (c job i : Nat) : State :=
  let b := readLevel s job i
  if b.can ∧ b.status = levelOpen ∧ b.act = 0 then
    let below := (List.range 4096).filter (fun j =>
      j ≠ i ∧ (readLevel s job j).status = levelOpen ∧ i ∈ chainOf s job j)
    let s0 := (List.range 4096).foldl (fun s j => levelSeen s job j) s
    let s1 := below.foldl (fun s j => setCtl s job j { readLevel s job j with status := levelCancelled }) s0
    let s2 := setCtl s1 job i { b with status := levelCancelled }
    if i = 0 then s2 else lowerCnt c job 4096 s2 b.parent
  else s

/-- ACT falls by one in a level and every ancestor; cancelled levels that reach 0 complete (R171, R172). -/
def lowerAct (s : State) (c job i : Nat) : State :=
  (chainOf s job i).foldl (fun s j =>
    completeCancelled (setAct (levelSeen s job j) job j ((readLevel s job j).act + 2 ^ 64 - 1)) c job j) s

/-- FAIL set in a level and every ancestor (R163, R414). -/
def setFail (s : State) (job i : Nat) : State :=
  (chainOf s job i).foldl (fun s j => setCtl (levelSeen s job j) job j { readLevel s job j with fail := true }) s

/-- A unit counts as finished in its launch, or in its job for LAUNCH = 0 (R171). -/
def unitFinished (s : State) (c job launch : Nat) (fail : Bool) : State :=
  let s1 := if fail then setFail s job launch else s
  lowerAct (lowerCnt c job 4096 s1 launch) c job launch

end Sys2Proof.Machine
end

