-- ==== Sys2Proof/Machine/Engine.lean ====
section
/-! DEFINITION. Engine job cards: their checks, their submission and their run (05 R135 to R138, 11 R303 to R307), and the
connection table that remote writes name (18 R444, R448). -/
namespace Sys2Proof.Machine

/-! ## The lantern's counts (15 R404, R405) -/

/-- A card of an engine is submitted: engines 1 and 4 count at the square's copy engine, the others at the core. -/
def cardSent (s : State) (c engine : Nat) : State :=
  if engine = 1 ∨ engine = 4 then s.modSquare (squareOf c) (fun q => { q with copyCount := q.copyCount + 1 }) else sentAt s c
def cardReceived (s : State) (c engine : Nat) : State :=
  if engine = 1 ∨ engine = 4 then
    s.modSquare (squareOf c) (fun q => { q with copyCount := q.copyCount - 1, copyBlack := true })
  else receivedAt s c

/-! ## Connections (R444, R448) -/

/-- An entry of the connection table (R444). `valid` is that it acts as valid. -/
structure Conn where
  valid : Bool
  qpn : Nat
  peer : Peer
  rights : Nat
  rkey : Nat
  okey : Nat
  job : Nat
  deriving DecidableEq, Repr

/-- The fields of an entry's 64 bytes (R444). -/
def connOf (v : Nat) : Conn :=
  let rights := bits v 248 8
  let job := bits v 320 8
  { valid := bit v 31 && decide (rights < 32) && !(bit rights 4 && job != 0)
    qpn := bits v 0 24
    peer := { rqpn := bits v 32 24, rip := bits v 64 128, rmac := bits v 192 48, port := bits v 240 1 }
    rights := rights, rkey := bits v 256 32, okey := bits v 288 32, job := job }

/-- The connection entries that RC.BASE provides (R448). -/
def connCount (s : State) : Nat := field s.eth.rcBase 4 8 * 64

/-- The hardware reads entry `i` in the memory of D0, at its L2 home (R105, R148): its bytes and what the read leaves. An entry whose
read meets an error that cannot be corrected acts as none. (DESIGN CHOICE, unsafe; log 71.) -/
def connRead (s : State) (i : Nat) : Option (Nat × State) :=
  if connCount s ≤ i then none
  else
    let pa := field s.eth.rcBase 12 40 * 4096 + i * 64
    match l2Read s (hwAccess 0 0 pa 64 .read) (pagedLoc 0 pa) 64 pa true with
    | .ok r => some r
    | .error _ => none

/-- Entry `i`: none at or beyond the table's end. -/
def connAt (s : State) (i : Nat) : Option Conn := (connRead s i).map (fun r => connOf r.1)

/-- What the read of entry `i` leaves. -/
def connSeen (s : State) (i : Nat) : State :=
  match connRead s i with
  | some r => r.2
  | none => s

/-- The entry is there and valid. -/
def connValid (s : State) (i : Nat) : Bool := ((connAt s i).map (·.valid)).getD false

/-! ## Frames that leave (R440) -/

/-- The traffic class of a frame. (DESIGN CHOICE, safe; log 102.) -/
def frameClass : HostOut → Nat
  | .ack _ => Config.trafficClass 0 % 8
  | .data _ _ => Config.trafficClass 1 % 8
  | .value _ _ => Config.trafficClass 2 % 8
  | .refuse _ => Config.trafficClass 3 % 8
  | .write _ _ _ _ _ => Config.trafficClass 4 % 8

/-- The gate of a class a time into a control list. -/
def gateIn (cls : Nat) : Nat → List (BitVec 8 × Nat) → Bool
  | _, [] => true
  | t, e :: es => if t < e.2 then flag e.1 cls else gateIn cls (t - e.2) es

/-- The gate of a class of a port is open at this time: its control list is passed through again and again from device time 0; a
port without a list has every gate open. (DESIGN CHOICE, unsafe; log 102.) -/
def gateOpen (s : State) (port cls : Nat) : Bool :=
  let l := Table.getD s.eth.gates port []
  let total := l.foldl (fun a e => a + e.2) 0
  if total = 0 then true else gateIn cls (s.time % total) l

/-- A frame leaves by a port, in the order of its class, once its gate is open, unless HALT has stopped transmission (R440, R454). -/
def transmitAt (s : State) (port : Nat) (o : HostOut) : State :=
  let cls := frameClass o
  if s.eth.stopped then s
  else if s.eth.gates = [] ∨ (gateOpen s port cls ∧ s.eth.queued.all (fun e => e.1 ≠ port ∨ e.2.1 ≠ cls)) then
    { s with eth := { s.eth with out := s.eth.out ++ [o] } }
  else { s with eth := { s.eth with queued := s.eth.queued ++ [(port, cls, o)] } }

/-- The frames whose gates have opened leave, in their order. -/
def releaseFrames (s : State) : State :=
  if s.eth.queued = [] ∨ s.eth.stopped then s
  else
    let goes := fun (e : Nat × Nat × HostOut) => gateOpen s e.1 e.2.1
    { s with eth := { s.eth with
      out := s.eth.out ++ (s.eth.queued.filter goes).map (fun e => e.2.2)
      queued := s.eth.queued.filter (fun e => !goes e) } }

/-! ## Cards (R303) -/

/-- A job card's fields. -/
structure Card where
  engine : Nat
  op : Nat
  tag : Nat
  flags : Nat
  src : Nat
  dst : Nat
  rows : Nat
  rowBytes : Nat
  sstride : Nat
  dstride : Nat
  cnt : Nat
  rbase : Nat
  rlen : Nat
  deriving DecidableEq, Repr

def cardOf (v : Nat) : Card :=
  { engine := bits v 0 8, op := bits v 8 8, tag := bits v 16 16, flags := bits v 32 32, src := bits v 64 64,
    dst := bits v 128 64, rows := bits v 192 32, rowBytes := bits v 224 32, sstride := bits v 256 32,
    dstride := bits v 288 32, cnt := bits v 320 64, rbase := bits v 384 64, rlen := bits v 448 64 }

/-- The 64 bytes of a card. -/
def cardBytes (k : Card) : BitVec 512 :=
  BitVec.ofNat 512 (joinFields [(k.rlen, 64), (k.rbase, 64), (k.cnt, 64), (k.dstride, 32), (k.sstride, 32), (k.rowBytes, 32),
    (k.rows, 32), (k.dst, 64), (k.src, 64), (k.flags, 32), (k.tag, 16), (k.op, 8), (k.engine, 8)])

/-- Bytes of an index or element of a width code (R304). -/
def wideBytes (code : Nat) : Nat :=
  match code with
  | 0 => 2
  | 1 => 4
  | _ => 8

/-- The extents of a card: SRC, DST, CNT and RBASE, each an address and a length; a length of 0 is no extent (R304). -/
def Card.extents (k : Card) : List (Nat × Nat) :=
  let rows := fun (stride : Nat) => if k.rows = 0 then 0 else (k.rows - 1) * stride + k.rowBytes
  let elems := fun (code : Nat) => k.rows * wideBytes code
  let src := match k.engine with
    | 1 | 5 => rows k.sstride
    | 3 => elems (bits k.op 0 2)
    | _ => 0
  let dst := match k.engine with
    | 1 | 4 => rows k.dstride
    | 3 => elems (bits k.op 2 2)
    | _ => 0
  [(k.src, src), (k.dst, dst), (k.cnt, if k.cnt = 0 then 0 else 8), (k.rbase, if k.engine = 3 then k.rlen else 0)]

/-- A local-window address as its global one, for rows that have one (R21). -/
def globalVa (c va : Nat) : Nat :=
  match rowOf va with
  | some r => match r.space with
    | .ownScratch => scratchLoc c + (va - r.base)
    | .ownSquare => squareLoc (squareOf c) + (va - r.base)
    | _ => va
  | none => va

/-- The extent touches a part of the local window that no engine reaches (R21, R475). -/
def touchesRefused (va len : Nat) : Bool :=
  let hit := fun (b n : Nat) => decide (va < localLoc + b + n ∧ localLoc + b < va + len)
  hit 0x40000 0x40800 || hit 0x200000 0x1000 || touchesSlots va len

/-- The values of the fields are ones that the card's engine allows (R303, R304). -/
def Card.legal (s : State) (c : Nat) (k : Card) : Bool :=
  let body := 1 ≤ k.rowBytes ∧ k.rowBytes ≤ 2 ^ 24
  let plain := k.rbase = 0 ∧ k.rlen = 0
  let meet := match k.extents with
    | (a, n) :: (b, m) :: _ =>
      decide (globalVa c a < globalVa c b + m ∧ globalVa c b < globalVa c a + n ∧ n ≠ 0 ∧ m ≠ 0)
    | _ => false
  let own := match k.engine with
    | 1 => decide (k.op = 0 ∧ body ∧ plain) && !meet
    | 3 => decide (k.op < 16 ∧ bits k.op 0 2 < 3 ∧ bits k.op 2 2 < 3 ∧ k.rowBytes = 0 ∧ k.sstride = 0 ∧ k.dstride = 0)
    | 4 => decide (k.op < 4 ∧ body ∧ plain ∧ k.rowBytes % 2 ^ k.op = 0)
    | 5 => decide (k.op = 0 ∧ body ∧ k.rbase < 2 ^ 16 ∧ k.rlen = 0) && connValid s k.rbase
    | _ => false
  own && decide (bits k.flags 0 3 < 5 ∧ k.flags < 128)

/-- A range from `lo` up to `hi` has an address that is not canonical: the rows it runs through are followed, at most `n` of
them. -/
def reachesHole (hi : Nat) : Nat → Nat → Bool
  | 0, _ => true
  | n + 1, lo =>
    match rowOf lo with
    | none => true
    | some r => decide (r.base + r.size < hi) && reachesHole hi n (r.base + r.size)

/-- The extent begins at or reaches an address that is not canonical (R41, R42, R305). No 100 rows of the layout stand side by
side. -/
def extentNonCanon (e : Nat × Nat) : Bool := e.2 != 0 && reachesHole (e.1 + e.2) 100 e.1

/-- The extent leaves one die's paged space or one window row. -/
def extentStraddles (e : Nat × Nat) : Bool :=
  e.2 != 0 && match rowOf e.1 with
    | none => false
    | some r => decide (r.base + r.size < e.1 + e.2)

/-- The checks of a card in their order (R305): the first that fails as its cause and address. -/
def cardCheck (s : State) (c : Nat) (k : Card) : Option (Nat × Nat) :=
  if k.legal s c = false then some (cIllegalOp, 0)
  else match k.extents.find? extentNonCanon with
  | some e => some (cNonCanon, e.1)
  | none =>
    if k.cnt % 8 ≠ 0 then some (cMisalign, k.cnt)
    else match k.extents.find? (fun e => e.2 != 0 && touchesRefused e.1 e.2) with
    | some e => some (cWindowDenied, e.1)
    | none =>
      match k.extents.find? extentStraddles with
      | some e => some (cStraddle, e.1)
      | none => none

/-- The card with its local addresses resolved (R21). -/
def Card.resolved (c : Nat) (k : Card) : Card :=
  { k with
    src := if k.engine = 4 then k.src else globalVa c k.src
    dst := if k.engine = 5 then k.dst else globalVa c k.dst
    cnt := globalVa c k.cnt
    rbase := if k.engine = 3 then globalVa c k.rbase else k.rbase }

/-- A card that has passed its checks is submitted; none while the engine's queue of 16 or the footprint unit is full. -/
def submitCard (s : State) (c : Nat) (k0 : Card) : Option State :=
  let k := k0.resolved c
  if 16 ≤ ((s.core c).jobs.filter (fun j => j.engine = k.engine ∧ j.started = false)).length then none
  else
    match k.extents with
    | [src, dst, _, region] =>
      let t := (s.core c).task
      match submitJob s c k.engine (granules src.1 src.2 ++ granules region.1 region.2) (granules dst.1 dst.2) (cardBytes k)
          t.job t.sys with
      | none => none
      | some (id, s1) =>
        let s1 := if k.engine = 5 then connSeen s1 k.rbase else s1
        some ((cardSent s1 c k.engine).due (.jobStart (coreId c) id))
    | _ => none

/-! ## The run of a job (R307) -/

/-- An access of an engine for a job, under the card's cache request for reads or writes (R303). -/
def engineAccess (c : Nat) (j : Job) (va len : Nat) (kind : AccessKind) : Access :=
  let flags := (cardOf j.card.toNat).flags
  { core := c, job := j.job, sys := j.sys, agent := .engine, kind := kind, va := va, len := len, align := 1, struct := false,
    cp := match kind with
      | .read => bits flags 3 2
      | .write => bits flags 5 2
      | _ => 0 }

/-- A pattern of `n` bytes repeated. -/
def repeated (v n : Nat) : Nat → Nat
  | 0 => 0
  | k + 1 => v % 2 ^ (8 * n) + 2 ^ (8 * n) * repeated v n k

/-- Row or element `r` of a job: its accesses. A remote write whose connection has become invalid reports RBASE.
(DESIGN CHOICE, unsafe; log 88.) -/
def jobUnit (s : State) (c : Nat) (j : Job) (k : Card) (r : Nat) : Res State :=
  let acc := fun va len kind => engineAccess c j va len kind
  match k.engine with
  | 1 => do
    let src := (k.src + r * k.sstride) % 2 ^ 64
    let dst := (k.dst + r * k.dstride) % 2 ^ 64
    let (v, s1) ← readRange s (acc src k.rowBytes .read) (rangeFuel k.rowBytes) src k.rowBytes
    writeRange s1 (acc dst k.rowBytes .write) (rangeFuel k.rowBytes) dst k.rowBytes v
  | 3 => do
    let iw := wideBytes (bits k.op 0 2)
    let ew := wideBytes (bits k.op 2 2)
    let at_ := k.src + r * iw
    let (x, s1) ← readRange s (acc at_ iw .read) 2 at_ iw
    let va := k.rbase + x * ew
    if x = 2 ^ (8 * iw) - 1 ∨ k.rbase + k.rlen < va + ew then
      writeRange s1 (acc (k.dst + r * ew) ew .write) 2 (k.dst + r * ew) ew 0
    else
      let (v, s2) ← readRange (gatherCounted s1 (acc va ew .read)) (acc va ew .read) 2 va ew
      writeRange s2 (acc (k.dst + r * ew) ew .write) 2 (k.dst + r * ew) ew v
  | 4 =>
    let dst := (k.dst + r * k.dstride) % 2 ^ 64
    let w := 2 ^ k.op
    writeRange s (acc dst k.rowBytes .write) (rangeFuel k.rowBytes) dst k.rowBytes (repeated k.src w (k.rowBytes / w))
  | _ => do
    let src := (k.src + r * k.sstride) % 2 ^ 64
    if connValid s k.rbase = false then raise cWindowDenied k.rbase
    let n := (connAt s k.rbase).getD (connOf 0)
    let (v, s1) ← readRange (connSeen s k.rbase) (acc src k.rowBytes .read) (rangeFuel k.rowBytes) src k.rowBytes
    pure (transmitAt s1 n.peer.port
      (.write n.qpn n.peer n.okey (BitVec.ofNat 64 (k.dst + r * k.dstride)) (toBytes k.rowBytes v)))

/-- The bytes that a row or an element of a job moves (R434). -/
def unitBytes (k : Card) : Nat :=
  match k.engine with
  | 1 => 2 * k.rowBytes
  | 3 => wideBytes (bits k.op 0 2) + 2 * wideBytes (bits k.op 2 2)
  | _ => k.rowBytes

/-- The rows or elements from `r` on, as far as they go: how many are done, and what ended them. -/
def jobUnits (c : Nat) (j : Job) (k : Card) : Nat → State → Nat → State × Nat × Option Stop
  | 0, s, r => (s, r, none)
  | n + 1, s, r =>
    match jobUnit s c j k r with
    | .ok s1 => jobUnits c j k n (s1.modCore c (fun x =>
        (x.charge j.job j.nrg 9 1).charge j.job j.nrg 8 (unitBytes k))) (r + 1)
    | .error e => (s, r, some e)

def setJob (s : State) (c id : Nat) (f : Job → Job) : State :=
  s.modCore c (fun k => { k with jobs := k.jobs.map (fun j => if j.id = id then f j else j) })

/-- The completion counter is incremented and the job is over (R138). A card's SCOPE does not have the increment wait for other jobs'
acknowledgements. (DESIGN CHOICE, unsafe; log 88.) -/
def finishJob (s : State) (c : Nat) (j : Job) (k : Card) : Except Stop State := do
  if k.cnt = 0 then pure (cardReceived (completeJob s c j.id) c k.engine)
  else
    let (_, s1) ← homeAtomic s { engineAccess c j k.cnt 8 .atomic with align := 8 } 1
      { op := 0, operand := 1, expected := none }
    pure (cardReceived (completeJob s1 c j.id) c k.engine)

/-- The trap-queue record of a job that a fault ends (R307, R415). -/
def jobRecord (s : State) (c : Nat) (j : Job) (k : Card) (t : TrapInfo) : State :=
  let s1 := trapRecord s (dieOf c)
    { job := j.job, data := (trapData s t.cause 3 c 0 0 0 t.addr t.info 0 k.tag) }
  if t.cause = cEcc then machineCheck s1 c cEcc 0 else s1

/-- A paging fault holds a job at the access that met it until the retry (R307). -/
def holdJob (s : State) (c : Nat) (j : Job) (t : TrapInfo) : State :=
  let (h, s1) := fbEnter s c j.job { t with tag := (cardOf j.card.toNat).tag }
  let s2 := if h.index = none then s1.modDie t.die (fun d => { d with fbWait := d.fbWait ++ [h] }) else s1
  setJob s2 c j.id (fun j => { j with held := some h })

/-- A fault ends a job: its record, and its counter is still incremented (R307). The increment waits, or is held at a paging
fault, as any access of the job; where the access to the counter itself is the one that fails for good, nothing is left to do.
(DEDUCED, unsafe; log 88.) -/
def endJob (s : State) (c : Nat) (j : Job) (t : TrapInfo) : State :=
  let k := cardOf j.card.toNat
  let s1 := jobRecord s c j k t
  let gone := fun (s : State) => cardReceived (completeJob s c j.id) c k.engine
  if k.rows ≤ j.pos then gone s1
  else
    let s2 := setJob s1 c j.id (fun j => { j with pos := k.rows, acked := true, held := none })
    match finishJob s2 c j k with
    | .ok s3 => s3
    | .error (.stall _) => s2.due (.jobComplete (coreId c) j.id)
    | .error (.trap u) =>
      if u.cause = cPageAbsent ∨ u.cause = cPagePerm then holdJob s2 c { j with pos := k.rows } u else gone (jobRecord s2 c j k u)

/-- What is left of a job once its rows are done: its target's acknowledgement (R118, R138), and its counter. -/
def closeJob (s : State) (c : Nat) (j : Job) (k : Card) : Except Stop (Option State) :=
  if k.engine = 5 ∧ j.acked = false ∧ k.rows ≠ 0 then pure none
  else do
    let s1 ← finishJob s c j k
    pure (some s1)

/-- A job that has started runs on (R307): to its end, to a fault at which it holds, or to one that ends it. -/
def runJob (s : State) (c id : Nat) : State :=
  match findJob s c id with
  | none => s
  | some j =>
    if j.started = false ∨ j.held.isSome then s
    else
      let k := cardOf j.card.toNat
      let (s1, r, e) := jobUnits c j k (k.rows - j.pos) s j.pos
      let s2 := setJob s1 c id (fun j => { j with pos := r })
      let j2 : Job := { j with pos := r }
      let stop := fun (x : Stop) => match x with
        | .stall _ => s2.due (.jobComplete (coreId c) id)
        | .trap t => if t.cause = cPageAbsent ∨ t.cause = cPagePerm then holdJob s2 c j2 t else endJob s2 c j2 t
      match e with
      | some x => stop x
      | none =>
        match closeJob s2 c j2 k with
        | .ok (some s3) => s3
        | .ok none => s2
        | .error x => stop x

/-- The target of a remote-write job acknowledges its packets (R118). -/
def acknowledge (s : State) (c id : Nat) : State :=
  match findJob s c id with
  | none => s
  | some j =>
    if j.engine = 5 ∧ j.started ∧ (cardOf j.card.toNat).rows ≤ j.pos then
      (setJob s c id (fun j => { j with acked := true })).due (.jobComplete (coreId c) id)
    else s

/-- A job whose edges have cleared starts (R136). -/
def startJob (s : State) (c id : Nat) : State :=
  match findJob s c id with
  | none => s
  | some j =>
    if j.started then s
    else if mayStart s c j then (setJob s c id (fun j => { j with started := true })).due (.jobComplete (coreId c) id)
    else s.due (.jobStart (coreId c) id)

end Sys2Proof.Machine
end

