-- ==== Sys2Proof/Machine/Mxe.lean ====
section
/-! DEFINITION. The matrix engine (12 R311 to R329): the checks of its commands, its queues, what each command computes, the
sequencer, and the current-slew limiter (17 R430 to R433). -/
namespace Sys2Proof.Machine

def State.modMx (s : State) (c : Nat) (f : MxCore → MxCore) : State := s.modCore c (fun k => { k with mx := f k.mx })
def State.modMxe (s : State) (q : Nat) (f : Mxe → Mxe) : State := s.modSquare q (fun k => { k with mxe := f k.mxe })

/-! ## Checks (R315 to R321) -/

/-- A command as an instruction or a store gives it (R316). -/
structure MxReq where
  sub : Nat
  td : Nat
  ta : Nat
  tb : Nat
  flags : Nat
  arg : Word
  deriving DecidableEq, Repr

/-- The activation formats that a latched format accepts (R317). -/
def accepts (latched fmt : Nat) : Bool :=
  match latched with
  | 3 => fmt == 3
  | 2 => fmt == 2
  | 0 | 1 => fmt == 0 || fmt == 1
  | 5 | 6 => fmt == 5 || fmt == 6
  | _ => false

/-- The logical K of a latch (R317). -/
def Latch.logicalK (l : Latch) : Nat := if l.sparse then 2 * l.k else l.k

/-- A tile entry that an instruction names lies within the task's demand (R165). -/
def tileGate (s : State) (c n : Nat) : Res Unit :=
  if tyTiles (s.core c).task.entry ≤ n then raise cRegGated 0 (entryInfo n false) else .ok ()

/-- The staged code of a column and group. -/
def stagedCode (m : MxCore) (col g : Nat) : Nat := Table.getD m.staging (col * 64 + g) 0

/-- A code is legal: i0 is below i1 (R318). -/
def codeLegal (code : Nat) : Bool := decide (code % 4 < code / 4 % 4)

/-- The codes that `mwld.sp` uses, column by column (R319). -/
def usedCodes (m : MxCore) (cols groups : Nat) : List (Nat × Nat × Nat) :=
  (List.range cols).flatMap (fun n => (List.range groups).map (fun g => (n, g, stagedCode m n g)))

/-- The first illegal code faults MX_META with its column, group and value (R319, R411). -/
def codesChecked (codes : List (Nat × Nat × Nat)) : Res Unit :=
  match codes.find? (fun e => !codeLegal e.2.2) with
  | some (n, g, v) => raise cMxMeta 0 (BitVec.ofNat 64 (v * 2 ^ 32 + g * 2 ^ 24 + n * 2 ^ 16))
  | none => .ok ()

/-- The checks of weights that are to be latched (R317, R319). -/
def latchChecks (s : State) (c : Nat) (sparse : Bool) (tb : Nat) : Res (List Nat) := do
  tileGate s c tb
  needTile s c tb
  let t := s.tile c tb
  if t.fmt = 4 ∨ t.fmt = 7 ∨ t.fmt = 8 ∨ 64 < t.rows ∨ (if t.fmt = 2 ∨ t.fmt = 3 then 64 else 128) < t.cols then
    raise cTileShape
  if sparse then
    if (t.fmt ≠ 0 ∧ t.fmt ≠ 1) ∨ t.cols % 2 = 1 then raise cTileShape
    let codes := usedCodes (s.core c).mx t.rows (t.cols / 2)
    codesChecked codes
    pure (codes.map (fun e => e.2.2))
  else pure []

/-- The checks of a multiplication (R320). On an empty latch no tile is at fault, and ENTRY of TRAP.INFO is 0.
(DESIGN CHOICE, unsafe; log 59.) -/
def mulChecks (s : State) (c ta : Nat) : Res Unit := do
  let t := s.tile c ta
  let l := (s.core c).mx.issued
  if l.fmt = 0xF then raise cTileUncfg
  if accepts l.fmt t.fmt = false ∨ 64 < t.rows then raise cTileShape
  if l.logicalK < t.cols then raise cTileShape

/-- The checks of a scaled multiplication (R321). -/
def scaleChecks (s : State) (c ta tb col : Nat) : Res Unit := do
  let t := s.tile c ta
  let u := s.tile c tb
  let l := (s.core c).mx.issued
  if l.fmt ≠ 0 ∧ l.fmt ≠ 1 then raise cTileShape
  if u.fmt ≠ 4 ∨ u.rows < t.rows then raise cTileShape
  let b := (t.cols + 127) / 128
  if u.cols ≤ col ∨ u.cols - col < b then raise cScaleCount

/-- The tile of a store or load of the accumulator (R324, R325). -/
def accChecks (s : State) (c n : Nat) : Res Unit := do
  tileGate s c n
  needTile s c n
  if 64 < (s.tile c n).rows ∨ 64 < (s.tile c n).cols then raise cTileShape

/-- The checks of a command at issue (R315): the codes it latches, if any. -/
def mxChecks (s : State) (c : Nat) (r : MxReq) : Res (List Nat) :=
  match r.sub with
  | 0 => latchChecks s c false r.tb
  | 1 => latchChecks s c true r.tb
  | 3 => do
    tileGate s c r.ta
    needTile s c r.ta
    mulChecks s c r.ta
    pure []
  | 4 => do
    tileGate s c r.ta
    tileGate s c r.tb
    noOverlap s c r.ta r.tb
    needTile s c r.ta
    needTile s c r.tb
    mulChecks s c r.ta
    scaleChecks s c r.ta r.tb r.arg.toNat
    pure []
  | 5 => pure []
  | 6 => do
    accChecks s c r.td
    pure []
  | _ => do
    accChecks s c r.ta
    pure []

/-! ## Entry into a queue -/

/-- The tiles that a command reads and writes. -/
def mxTiles (r : MxReq) : List Nat × List Nat :=
  match r.sub with
  | 0 | 1 => ([r.tb], [])
  | 3 => ([r.ta], [])
  | 4 => ([r.ta, r.tb], [])
  | 6 => ([], [r.td])
  | 7 => ([r.ta], [])
  | _ => ([], [])

/-- The latch that a command will leave. -/
def latchAfter (s : State) (c : Nat) (r : MxReq) (codes : List Nat) (l : Latch) : Latch :=
  if r.sub ≤ 1 then
    let t := s.tile c r.tb
    { fmt := t.fmt, n := t.rows, k := t.cols, sparse := decide (r.sub = 1), weights := 0, codes := codes }
  else l

/-- A command that passed its checks enters its core's queue (R315, R316), or waits for a place in it or in the footprint
unit. (DEDUCED, unsafe; log 64.) -/
def mxEnter (s : State) (c : Nat) (r : MxReq) (codes : List Nat) : Res State := do
  let k := s.core c
  if 16 ≤ k.mx.queue.length then stall
  let (reads, writes) := mxTiles r
  let home := fun (n : Nat) => granules (tileLoc c (k.tile n)) (k.tile n).size
  match submitJob s c 9 (reads.flatMap home) (writes.flatMap home) 0 k.task.job k.task.sys with
  | none => stall
  | some (id, s1) =>
    let s2 := (reads ++ writes).foldl (fun s n => s.modTile c n (fun t => { t with refs := t.refs + 1 })) s1
    let cmd : MxCmd :=
      { sub := r.sub, td := r.td, ta := r.ta, tb := r.tb, flags := r.flags, arg := r.arg, mode := k.mx.mode,
        sample := k.mx.sample, codes := codes, entered := s.cyc, job := id }
    let s3 := (s2.evCount c 0x14 1).modMx c (fun m => { m with queue := m.queue ++ [cmd], issued := latchAfter s c r codes m.issued })
    let s4 := s3.modSquare (squareOf c) (fun q => { q with mxCount := q.mxCount + 1 })
    pure (s4.dueOnce (.mxStart (squareId (squareOf c))))

/-- A command checked and entered, as a release of the task (R137, R139). (DEDUCED, unsafe; log 64.) -/
def mxSubmit (s : State) (c : Nat) (r : MxReq) : Res State := do
  let codes ← mxChecks s c r
  let s1 ← settleTask s c 0
  mxEnter s1 c r codes

/-- The 128 codes of `mmeta` written to the staging buffer (R318). -/
def stageCodes (m : MxCore) (sel v : Nat) : MxCore :=
  { m with staging := (List.range 128).foldl (fun t i =>
      Table.set t ((2 * sel + i / 64) * 64 + i % 64) (bits v (4 * i) 4)) m.staging }

/-- An `mwld.sp` of the core stands in its queue and has not started (R318). -/
def sparsePending (s : State) (c : Nat) : Bool :=
  let q := (s.core c).mx.queue
  let e := (s.square (squareOf c)).mxe
  let waiting := if e.running = some (coreId c) ∧ e.loading = false then q.drop 1 else q
  waiting.any (fun e => e.sub == 1)

/-! ## What commands compute -/

/-- Element (row, col) of a tile's bytes. -/
def tileElem (t : Tile) (v row col : Nat) : Nat :=
  let e := elemSize t.fmt
  bits v ((row * t.cols + col) * e * 8) (e * 8)

/-- The stored weight (column n, stored position k) of a latch. -/
def Latch.weight (l : Latch) (n k : Nat) : Nat :=
  let e := elemSize l.fmt
  bits l.weights ((n * l.k + k) * e * 8) (e * 8)

def Latch.code (l : Latch) (n g : Nat) : Nat := l.codes[n * (l.k / 2) + g]?.getD 0

/-- A product of an activation and a weight, exact. -/
def mxProd (fa fw a w : Nat) : Fp := Fp.mul ((fmtFormat fa).unpack a) ((fmtFormat fw).unpack w)

/-- The product at logical position `k`, which counts only below `kTop` (R320). -/
def prodAt (t : Tile) (v m : Nat) (l : Latch) (n k stored kTop : Nat) : Fp :=
  if k < kTop then mxProd t.fmt l.fmt (tileElem t v m k) (l.weight n stored) else .zero false

/-- The present positions of column `n`, as logical position and stored column, below `kTop` (R318, R320). -/
def positions (l : Latch) (n kTop : Nat) : List (Nat × Nat) :=
  if l.sparse then
    (List.range ((kTop + 3) / 4)).flatMap (fun g =>
      let code := l.code n g
      [(4 * g + code % 4, 2 * g), (4 * g + code / 4 % 4, 2 * g + 1)].filter (fun e => e.1 < kTop))
  else (List.range kTop).map (fun k => (k, k))

/-- FP accumulation of one element: one product at a time for BF16 and FP16, pairs for FP8 (R320). -/
def accFloat (t : Tile) (v m : Nat) (l : Latch) (n : Nat) (c0 : Nat) : Nat :=
  let kTop := t.cols
  let add := fun (c : Nat) (x : Fp) => rne32 (Fp.add .rne (fp32.unpack c) x)
  if l.fmt = 2 ∨ l.fmt = 3 then
    (List.range kTop).foldl (fun c k => add c (prodAt t v m l n k k kTop)) c0
  else if l.sparse then
    (List.range ((kTop + 3) / 4)).foldl (fun c g =>
      let code := l.code n g
      add c (Fp.add .rne (prodAt t v m l n (4 * g + code % 4) (2 * g) kTop)
        (prodAt t v m l n (4 * g + code / 4 % 4) (2 * g + 1) kTop))) c0
  else
    (List.range ((kTop + 1) / 2)).foldl (fun c j =>
      add c (Fp.add .rne (prodAt t v m l n (2 * j) (2 * j) kTop) (prodAt t v m l n (2 * j + 1) (2 * j + 1) kTop))) c0

/-- An 8-bit element of FMT 5 or 6 as a number. -/
def intElem (fmt v : Nat) : Int := if fmt = 5 then sint v 8 else (v : Int)

/-- INT8 accumulation of one element: its new value and whether it saturated (R320). -/
def accInt (t : Tile) (v m : Nat) (l : Latch) (n c0 : Nat) (satMode : Bool) : Nat × Bool :=
  let p := (List.range t.cols).foldl (fun (a : Int) k =>
    a + intElem t.fmt (tileElem t v m k) * intElem l.fmt (l.weight n k)) 0
  let x := sint c0 32 + p
  if satMode then (wrap (sat x (-(2 ^ 31)) (2 ^ 31 - 1)) 32, decide (x < -(2 ^ 31) ∨ 2 ^ 31 - 1 < x))
  else (wrap x 32, false)

/-- −0 becomes +0 (R320). -/
def noNegZero (c : Nat) : Nat := if c = 0x80000000 then 0 else c

/-- The exact sum of a list of values. -/
def exactSum (l : List Fp) : Fp := l.foldl (fun a x => Fp.add .rne a x) (.zero false)

/-- The present products of block `j` of 128 logical positions (R321). -/
def blockProds (t : Tile) (v m : Nat) (l : Latch) (n j : Nat) : List Fp :=
  ((positions l n t.cols).filter (fun e => 128 * j ≤ e.1 ∧ e.1 < 128 * j + 128)).map
    (fun e => prodAt t v m l n e.1 e.2 t.cols)

/-- The scale of block `j` of row `m` (R321): SA times SB, rounded. -/
def blockScale (u : Tile) (w m col j : Nat) (sb0 sb1 : BitVec 32) : Nat :=
  rne32 (Fp.mul (fp32.unpack (tileElem u w m (col + j))) (fp32.unpack (if j = 0 then sb0.toNat else sb1.toNat)))

/-- The scaled multiplication of one element (R321). -/
def accScaled (t : Tile) (v m : Nat) (l : Latch) (n c0 : Nat) (u : Tile) (w col : Nat) (sb0 sb1 : BitVec 32) : Nat :=
  (List.range ((t.cols + 127) / 128)).foldl (fun c j =>
    let p := rne32 (exactSum (blockProds t v m l n j))
    let s := blockScale u w m col j sb0 sb1
    rne32 (Fp.add .rne (fp32.unpack c) (fp32.unpack (rne32 (Fp.mul (fp32.unpack p) (fp32.unpack s)))))) c0

def accAt (x : MxCore) (m n : Nat) : Nat := (Table.getD x.acc (m * 64 + n) 0).toNat
def accPut (acc : Table (BitVec 32)) (m n v : Nat) : Table (BitVec 32) :=
  if v = 0 then Table.erase acc (m * 64 + n) else Table.set acc (m * 64 + n) (BitVec.ofNat 32 v)

/-- The elements (m, n) of a command, row by row. -/
def grid (rows cols : Nat) : List (Nat × Nat) := (List.range rows).flatMap (fun m => (List.range cols).map (fun n => (m, n)))

/-- The reference value of a sampled element (R329): the exact sum of the start and every product, scales included. -/
def sampleRef (cmd : MxCmd) (t : Tile) (v m : Nat) (l : Latch) (n c0 : Nat) (u : Tile) (w : Nat) (sb0 sb1 : BitVec 32) : Nat :=
  let pos := positions l n t.cols
  let prods := pos.map (fun e =>
    let p := prodAt t v m l n e.1 e.2 t.cols
    if cmd.sub = 4 then
      Fp.mul (Fp.mul p (fp32.unpack (tileElem u w m (field cmd.arg 0 32 + e.1 / 128))))
        (fp32.unpack (if e.1 < 128 then sb0.toNat else sb1.toNat))
    else p)
  rne32 (exactSum (fp32.unpack c0 :: prods))

/-- A deviation ranks above another: NaN above every number (R329). -/
def devAbove (x y : Nat) : Bool :=
  let a := fp32.unpack x
  let b := fp32.unpack y
  (a.isNan && !b.isNan) || Fp.lt b a

/-- The bytes of a tile's home read at their port by a matrix command (R52, R64). -/
def tileBytes (s : State) (c n : Nat) : Res (Nat × State) := do
  let t := s.tile c n
  let loc := tileLoc c t
  let s1 ← portCheck s c loc t.size loc false
  pure (s1.read loc t.size, s1.modCore c (fun k => k.charge k.task.job (tyNrg k.task.entry) 8 t.size))

/-- A multiplication's effect on the accumulator (R320, R321, R329), its tiles' bytes being `v` and `w`. -/
def mulEffect (s : State) (c : Nat) (cmd : MxCmd) (v w : Nat) : State :=
  let k := s.core c
  let x := k.mx
  let l := x.latch
  let t := k.tile cmd.ta
  let u := k.tile cmd.tb
  let start := fun (m n : Nat) => if cmd.flags % 2 = 1 then 0 else accAt x m n
  let isInt := l.fmt = 5 ∨ l.fmt = 6
  let cells := (grid t.rows l.n).map (fun (m, n) =>
    let c0 := start m n
    let r : Nat × Bool :=
      if isInt then accInt t v m l n c0 (cmd.mode % 2 = 1)
      else if cmd.sub = 4 then (noNegZero (accScaled t v m l n c0 u w (field cmd.arg 0 32) x.sb0 x.sb1), false)
      else (noNegZero (accFloat t v m l n c0), false)
    (m, n, r.1, r.2))
  let count := if isInt then x.count else x.count + 1
  let s1 := s.modMx c (fun y => { y with
    acc := cells.foldl (fun a e => accPut a e.1 e.2.1 e.2.2.1) y.acc
    satStat := y.satStat || cells.any (fun e => e.2.2.2)
    count := count })
  if ¬ isInt ∧ cmd.sample ≠ 0 ∧ count % 2 ^ cmd.sample = 0 then
    let devs := cells.map (fun e =>
      let r := sampleRef cmd t v e.1 l e.2.1 (start e.1 e.2.1) u w x.sb0 x.sb1
      let d := rne32 (Fp.add .rne (fp32.unpack e.2.2.1) (Fp.neg (fp32.unpack r)))
      (e.1, e.2.1, if (fp32.unpack d).isNan then d else d % 2 ^ 31, r))
    match devs with
    | [] => s1
    | d0 :: ds =>
      let top := ds.foldl (fun a e => if devAbove e.2.2.1 a.2.2.1 then e else a) d0
      telemetry s1 (dieOf c) 1 c k.task.job
        (top.2.2.1 + top.2.2.2 * 2 ^ 32 + top.1 * 2 ^ 64 + top.2.1 * 2 ^ 72 + count % 2 ^ 32 * 2 ^ 96)
  else s1

/-- An operand of a format is ±0; it is finite. -/
def opZero (fmt v : Nat) : Bool :=
  if fmt = 5 ∨ fmt = 6 then v == 0
  else match (fmtFormat fmt).unpack v with
    | .zero _ => true
    | _ => false

def opFinite (fmt v : Nat) : Bool :=
  if fmt = 5 ∨ fmt = 6 then true
  else match (fmtFormat fmt).unpack v with
    | .nan => false
    | .inf _ => false
    | _ => true

/-- A product may be skipped: one factor is ±0 and the other finite (R322). -/
def skippable (f g x y : Nat) : Bool := (opZero f x && opFinite g y) || (opZero g y && opFinite f x)

/-- The chunks of 8 positions of a multiplication in which every product may be skipped (R322). -/
def chunksSkipped (t : Tile) (v : Nat) (l : Latch) : Nat :=
  (grid t.rows l.n).foldl (fun a (m, n) =>
    let ps := positions l n t.cols
    a + ((List.range ((t.cols + 7) / 8)).filter (fun j => (ps.filter (fun e => e.1 / 8 = j)).all (fun e =>
      skippable t.fmt l.fmt (tileElem t v m e.1) (l.weight n e.2)))).length) 0

/-- The bits of the rows of `ta` that differ from the row before (R434). -/
def rowToggles (t : Tile) (v : Nat) : Nat :=
  let w := t.cols * elemSize t.fmt * 8
  (List.range (t.rows - 1)).foldl (fun a m => a + popcount w (bits v (m * w) w ^^^ bits v ((m + 1) * w) w)) 0

/-- The elements of `ta` that are ±0 (R434). -/
def zeroOperands (t : Tile) (v : Nat) : Nat :=
  ((grid t.rows t.cols).filter (fun e => opZero t.fmt (tileElem t v e.1 e.2))).length

/-- What a multiplication counts at its MXE (R437), and charges to its task (R434). (DESIGN CHOICE, unsafe; log 42.) -/
def mulCounted (s : State) (c : Nat) (cmd : MxCmd) (v : Nat) : State :=
  let q := squareOf c
  let t := s.tile c cmd.ta
  let l := (s.core c).mx.latch
  let s1 := ((s.mxeCount q 0x42 (chunksSkipped t v l)).mxeCount q 0x43 (rowToggles t v)).mxeCount q 0x44 (zeroOperands t v)
  s1.modCore c (fun k =>
    let charge := fun (k : Core) (cls n : Nat) => k.charge k.task.job (tyNrg k.task.entry) cls n
    charge (charge (charge k 10 t.rows) 11 (rowToggles t v)) 12 (zeroOperands t v))

/-- A multiplication runs. -/
def runMul (s : State) (c : Nat) (cmd : MxCmd) : Res State := do
  let (v, s1) ← tileBytes s c cmd.ta
  let (w, s2) ← if cmd.sub = 4 then tileBytes s1 c cmd.tb else pure (0, s1)
  pure (mulCounted (mulEffect s2 c cmd v w) c cmd v)

/-- An element of the accumulator as a tile format stores it (R324). -/
def mstElem (fmt mode c : Nat) : Nat :=
  match fmt with
  | 0 | 1 => (fmtFormat fmt).round .rne (bit mode 1 && !(fmt == 1 && (match fp32.unpack c with
      | .inf _ => true
      | _ => false))) (fp32.unpack c)
  | 2 | 3 => (fmtFormat fmt).round .rne false (fp32.unpack c)
  | 5 => wrap (sat (sint c 32) (-128) 127) 8
  | 6 => wrap (sat (sint c 32) 0 255) 8
  | _ => c

/-- An element of a tile as the accumulator holds it (R325). -/
def mldElem (fmt v : Nat) : Nat :=
  match fmt with
  | 5 => wrap (sint v 8) 32
  | 6 => v
  | 7 | 8 => v
  | f => noNegZero (toFp32 f v)

/-- The store of the accumulator into a tile (R324). -/
def runMst (s : State) (c : Nat) (cmd : MxCmd) : Res State := do
  let k := s.core c
  let t := k.tile cmd.td
  let e := elemSize t.fmt
  let v := (grid t.rows t.cols).foldl (fun a (m, n) =>
    a + mstElem t.fmt cmd.mode (accAt k.mx m n) * 2 ^ ((m * t.cols + n) * e * 8)) 0
  let loc := tileLoc c t
  let s1 ← portCheck s c loc t.size loc true
  let s2 := s1.modCore c (fun k => k.charge k.task.job (tyNrg k.task.entry) 8 t.size)
  pure (markDirty (paired (putBytes s2 loc t.size v) c loc t.size v) c cmd.td)

/-- The load of the accumulator from a tile (R325). -/
def runMld (s : State) (c : Nat) (cmd : MxCmd) : Res State := do
  let t := s.tile c cmd.ta
  let (v, s1) ← tileBytes s c cmd.ta
  pure (s1.modMx c (fun y => { y with
    acc := (grid t.rows t.cols).foldl (fun a (m, n) => accPut a m n (mldElem t.fmt (tileElem t v m n))) y.acc }))

/-- A latch load runs (R317, R319). -/
def runMwld (s : State) (c : Nat) (cmd : MxCmd) : Res State := do
  let t := s.tile c cmd.tb
  let (v, s1) ← tileBytes s c cmd.tb
  let l : Latch := { fmt := t.fmt, n := t.rows, k := t.cols, sparse := decide (cmd.sub = 1), weights := v, codes := cmd.codes }
  pure ((s1.modMx c (fun y => { y with latch := l })).modMxe (squareOf c) (fun e => { e with owner := some (coreId c) }))

/-- A command's effect when it runs to its end; an uncorrectable error of a tile stops it (R52, R64).
(DESIGN CHOICE, unsafe; log 29.) -/
def runCmd (s : State) (c : Nat) (cmd : MxCmd) : Res State :=
  match cmd.sub with
  | 0 | 1 => runMwld s c cmd
  | 3 | 4 => runMul s c cmd
  | 5 => .ok (s.modMx c (fun y => { y with
      sb0 := BitVec.ofNat 32 (field cmd.arg 0 32)
      sb1 := BitVec.ofNat 32 (field cmd.arg 32 32) }))
  | 6 => runMst s c cmd
  | _ => runMld s c cmd

/-! ## The sequencer (R312) -/

/-- The rank of a core's head command: priority first, then the cycle it entered, then the core id. -/
def headRank (s : State) (c : Nat) (cmd : MxCmd) : Nat × Nat × Nat :=
  let t := (s.core c).task
  let boost := if s.boosts.any (fun b => b.1 = t.job ∧ b.2.1 = recLaunch t.record) then 2 else 0
  (7 - min 7 (t.prio + boost), cmd.entered, c)

def rankBelow (x y : Nat × Nat × Nat) : Bool :=
  decide (x.1 < y.1 ∨ (x.1 = y.1 ∧ (x.2.1 < y.2.1 ∨ (x.2.1 = y.2.1 ∧ x.2.2 < y.2.2))))

/-- The core whose head command the sequencer chooses. -/
def chooseHead (s : State) (q : Nat) : Option (Nat × MxCmd) :=
  ((squareCores q).filterMap (fun c =>
    match (s.core c).mx.queue with
    | cmd :: _ => if ((findJob s c cmd.job).map (fun j => j.after.isEmpty)).getD true then some (c, cmd) else none
    | [] => none)).foldl (fun best e =>
      match best with
      | none => some e
      | some b => if rankBelow (headRank s e.1 e.2) (headRank s b.1 b.2) then some e else some b) none

def isMul (cmd : MxCmd) : Bool := cmd.sub == 3 || cmd.sub == 4

/-- The next slew step at or after now (R430, R431). -/
def stepFrom (cyc : Nat) : Nat := (cyc + 3) / 4

/-- The time of a command without rows (R313). -/
def commandTime (s : State) (c : Nat) (cmd : MxCmd) : Nat :=
  match cmd.sub with
  | 0 | 1 => 64
  | 6 => 64 + (s.tile c cmd.td).rows
  | 7 => 64 + (s.tile c cmd.ta).rows
  | _ => 1

/-- A start is asked for in this cycle (R431). -/
def askStart (s : State) (q cyc : Nat) : State :=
  s.modMxe q (fun e => { e with phase := 1, reqStep := stepFrom cyc, reqAt := cyc / 4, granted := none })

/-- A started command goes on: a multiplication asks for a start, or goes on at the cadence in force; another command has no rows
(R313, R431). -/
def beginRows (s : State) (q : Nat) (c : Nat) (cmd : MxCmd) : State :=
  let e := (s.square q).mxe
  let rows := if isMul cmd then ((s.core c).tile cmd.ta).rows else 0
  let s1 := s.modMxe q (fun e => { e with rows := 0, rowsTotal := rows, loading := false })
  if rows = 0 then (s1.modMxe q (fun e => { e with doneAt := s.cyc + commandTime s c cmd })).due (.mxDone (squareId q))
  else if e.phase = 0 then askStart s1 q s.cyc
  else s1

/-- The array starts the chosen head command when it is free (R312); another core's latch is loaded first. -/
def startCommand (s : State) (q : Nat) : State :=
  let e := (s.square q).mxe
  if e.running.isSome then s
  else match chooseHead s q with
  | none =>
    if (squareCores q).any (fun c => (s.core c).mx.queue ≠ []) then s.due (.mxStart (squareId q)) else s
  | some (c, cmd) =>
    let s0 := setJob s c cmd.job (fun j => { j with started := true })
    let s1 := (s0.mxeCount q 0x40 1).modMxe q (fun e => { e with running := some (coreId c) })
    if e.owner.isSome ∧ e.owner ≠ some (coreId c) then
      (s1.modMxe q (fun e => { e with loading := true, doneAt := s.cyc + 64 })).due (.latchDone (squareId q))
    else beginRows (s1.modMxe q (fun e => { e with owner := some (coreId c) })) q c cmd

/-- The head command that runs in a square. -/
def runningCmd (s : State) (q : Nat) : Option (Nat × MxCmd) :=
  match (s.square q).mxe.running with
  | none => none
  | some c => match (s.core c.val).mx.queue with
    | cmd :: _ => some (c.val, cmd)
    | [] => none

/-- The PEs hold the chosen core's latch, 64 cycles after the load began (R312). -/
def latchLoaded (s : State) (q : Nat) : State :=
  let e := (s.square q).mxe
  if e.loading = false then s
  else if s.cyc < e.doneAt then s.due (.latchDone (squareId q))
  else match runningCmd s q with
    | some (c, cmd) => beginRows ((s.mxeCount q 0x47 1).modMxe q (fun e => { e with owner := some (coreId c) })) q c cmd
    | none => s

/-- A further multiplication stands behind the running command (R432). -/
def mulBehind (s : State) (q : Nat) : Bool :=
  (squareCores q).any (fun c =>
    let l := (s.core c).mx.queue
    (if (s.square q).mxe.running = some (coreId c) then l.drop 1 else l).any isMul)

/-- The running command has a row to inject. -/
def rowsToCome (s : State) (q : Nat) : Bool :=
  let e := (s.square q).mxe
  match runningCmd s q with
  | some (_, cmd) => isMul cmd && !e.loading && decide (e.rows < e.rowsTotal)
  | none => false

/-- A cycle of an array that draws: the row or filler row whose cycle it is is injected, and the next follows after the cadence in force
(R313, R430, R432). After the last row the ramp-down is to begin, unless a multiplication stands behind, and the command ends 128 cycles
after the row's cadence. -/
def injectRow (s : State) (q cyc : Nat) : State :=
  let e := (s.square q).mxe
  if e.phase < 2 ∨ cyc < e.nextRow then s
  else if e.phase = 4 ∨ e.phase = 5 then (s.mxeCount q 0x46 1).modMxe q (fun e => { e with nextRow := cyc + e.cur })
  else if rowsToCome s q = false then s
  else
    let s1 := (s.mxeCount q 0x41 1).modMxe q (fun e => { e with rows := e.rows + 1, nextRow := cyc + e.cur })
    if e.rows + 1 < e.rowsTotal then s1
    else
      let last := !mulBehind s q
      (s1.modMxe q (fun e => { e with doneAt := cyc + e.cur + 128, down := last })).due (.mxDone (squareId q))

/-- The running command leaves the array and its queue, and releases its tiles (R313, R77). -/
def commandGone (s : State) (q c : Nat) (cmd : MxCmd) : State :=
  let (reads, writes) := mxTiles { sub := cmd.sub, td := cmd.td, ta := cmd.ta, tb := cmd.tb, flags := 0, arg := 0 }
  let s2 := (reads ++ writes).foldl (fun s n => s.modTile c n (fun t => { t with refs := t.refs - 1 })) s
  let s3 := (completeJob s2 c cmd.job).modMx c (fun y => { y with queue := y.queue.drop 1 })
  let s4 := s3.modSquare q (fun k => { k with mxCount := k.mxCount - 1, mxBlack := true })
  (s4.modMxe q (fun e => { e with running := none, rows := 0, rowsTotal := 0 })).dueOnce (.mxStart (squareId q))

/-- The cycles of a command without rows, charged to its task (R434). -/
def commandCharged (s : State) (c : Nat) (cmd : MxCmd) : State :=
  if isMul cmd then s
  else s.modCore c (fun k => k.charge k.task.job (tyNrg k.task.entry) 13 (commandTime s c cmd))

/-- The running command completes (R313): with the error that it met, and the core whose command it is.
(DESIGN CHOICE, unsafe; log 29.) -/
def commandDone (s : State) (q : Nat) : State × Option (Nat × TrapInfo) :=
  let e := (s.square q).mxe
  match runningCmd s q with
  | none => (s, none)
  | some (c, cmd) =>
    if e.loading ∨ e.rows < e.rowsTotal then (s, none)
    else if s.cyc < e.doneAt then (s.due (.mxDone (squareId q)), none)
    else match runCmd s c cmd with
      | .ok s1 => (commandGone (commandCharged s1 c cmd) q c cmd, none)
      | .error (.trap t) => (commandGone s q c cmd, some (c, t))
      | .error (.stall _) => (s.due (.mxDone (squareId q)), none)

/-! ## The slew limiter (R430 to R433) -/

/-- The draw at a cadence (R430). -/
def suOf (cad : Nat) : Nat := if cad = 0 then 0 else 64 / cad

/-- The levels 8, 4, 2, 1 raised to MIN, repeats dropped (R431). -/
def rampLevels (minCad : Nat) : List Nat := ([8, 4, 2, 1].map (fun l => max l minCad)).eraseDups

/-- The rises of a ramp that begins in step `st` (R431). -/
def rampRises (minCad st : Nat) : List (Nat × Nat) :=
  let l := rampLevels minCad
  (List.range l.length).map (fun i =>
    (st + i, suOf (l[i]?.getD 1) - (if i = 0 then 0 else suOf (l[i - 1]?.getD 1))))

/-- The levels of a ramp-down from a level, raised to MIN, repeats dropped; behind the last the draw is 0 (R432). -/
def fallLevels (minCad level : Nat) : List Nat :=
  (level :: ([2, 4, 8].filter (fun x => level < x)).map (fun x => max x minCad)).eraseDups

/-- The falls of a ramp-down from a level, the first in step `st` (R432). -/
def rampFalls (minCad level st : Nat) : List (Nat × Nat) :=
  let l := fallLevels minCad level
  (List.range l.length).map (fun i => (st + i, suOf (l[i]?.getD 8) - suOf (l[i + 1]?.getD 0)))

/-- The planned total of a step. -/
def plannedAt (plans : List SlewPlan) (rise : Bool) (st : Nat) : Nat :=
  ((plans.filter (fun p => p.rise = rise)).flatMap (fun p => p.steps)).foldl (fun a e => if e.1 = st then a + e.2 else a) 0

/-- A sequence fits the budget of 32 SU a step. -/
def fits (plans : List SlewPlan) (rise : Bool) (l : List (Nat × Nat)) : Bool :=
  l.all (fun e => plannedAt plans rise e.1 + e.2 ≤ 32)

/-- The earliest step at or after `st` at which a sequence fits. -/
def earliest (plans : List SlewPlan) (rise : Bool) (seqFrom : Nat → List (Nat × Nat)) : Nat → Nat → Nat
  | 0, st => st
  | fuel + 1, st => if fits plans rise (seqFrom st) then st else earliest plans rise seqFrom fuel (st + 1)

/-- The squares of a district in order of their ids. -/
def districtSquares (d : Nat) : List Nat := (List.range 64).filter (fun q => districtOf q = d)

/-- The start of one MXE granted. -/
def grantStart (s : State) (d q : Nat) : State :=
  let e := (s.square q).mxe
  let plans := (s.district d).plans
  let st := earliest plans true (rampRises e.minCad) 1024 e.reqStep
  let s1 := s.modDistrict d (fun k => { k with plans := k.plans ++ [{ square := q, rise := true, steps := rampRises e.minCad st }] })
  let wait := st - e.reqAt
  let su := (rampRises e.minCad st).foldl (fun a x => a + x.2) 0
  let s2 := ((s1.mxeCount q 0x45 wait).districtCount d 0xC1 su).modMxe q (fun e => { e with granted := some st })
  let s3 := match e.running with
    | some c => s2.modMx c.val (fun y => { y with gwait := satAdd y.gwait wait (2 ^ 32 - 1) })
    | none => s2
  if 64 ≤ wait then
    telemetry s3 (squareDie q) 5 (squareCore q) (s3.core (squareCore q)).task.job (d + wait % 2 ^ 32 * 2 ^ 16)
  else s3

/-- Every request whose step has come is granted, in order of the steps and then of the squares (R431). -/
def grantStarts (s : State) (d step : Nat) : State :=
  let waiting := (districtSquares d).filter (fun q =>
    let e := (s.square q).mxe
    decide (e.phase = 1 ∧ e.granted = none ∧ e.reqStep ≤ step))
  (sortBy (fun q => (s.square q).mxe.reqStep) waiting).foldl (fun s q => grantStart s d q) s

/-- The cadence of a ramp that began in step `st`, in step `now`. -/
def rampAt (minCad st now : Nat) : Nat :=
  let l := rampLevels minCad
  l[min (now - st) (l.length - 1)]?.getD 1

/-- One MXE's start in a step: it begins with row 0 in the step's first cycle, or its ramp goes on (R431). -/
def rampUp (s : State) (step q : Nat) : State :=
  let e := (s.square q).mxe
  match e.phase, e.granted with
  | 1, some st =>
    if st ≤ step then s.modMxe q (fun e => { e with
      phase := if (rampLevels e.minCad).length ≤ step - st + 1 then 3 else 2, cur := rampAt e.minCad st step, nextRow := 4 * step })
    else s
  | 2, some st => s.modMxe q (fun e => { e with
      cur := rampAt e.minCad st step, phase := if (rampLevels e.minCad).length ≤ step - st + 1 then 3 else 2 })
  | _, _ => s

/-- One MXE's ramp-down in a step (R432). It begins at the boundary after the last row, or when the multiplication that stood behind is
gone: the rises not yet taken leave the plan, the falls are planned from the next step on, and until they come the level is held. -/
def rampDown (s : State) (d step q : Nat) : State :=
  let e := (s.square q).mxe
  if e.phase = 2 ∨ e.phase = 3 then
    if e.down ∨ (rowsToCome s q = false ∧ mulBehind s q = false) then
      let plans := (s.district d).plans.map (fun p =>
        if p.square = q then { p with steps := p.steps.filter (fun x => x.1 < step) } else p)
      let st := earliest plans false (rampFalls e.minCad e.cur) 1024 (step + 1)
      (s.modDistrict d (fun k => { k with
        plans := plans ++ [{ square := q, rise := false, steps := rampFalls e.minCad e.cur st }] })).modMxe q
        (fun e => { e with phase := 4, granted := some st, fallFrom := e.cur, down := false, minStep := none })
    else s
  else if e.phase = 4 ∨ e.phase = 5 then
    match e.granted with
    | some st =>
      if step < st then s
      else match (fallLevels e.minCad e.fallFrom)[step - st + 1]? with
        | some x => s.modMxe q (fun e => { e with phase := 5, cur := x })
        | none => s.modMxe q (fun e => { e with phase := 0, granted := none, cur := max 8 e.minCad })
    | none => s
  else s

/-- The level next to MIN on the way to a new one. -/
def nextLevel (e : Mxe) (m : Nat) : Nat := if e.minCad < m then min m (2 * e.minCad) else max m (e.minCad / 2)

/-- A change of MIN (R433). While the array draws nothing it takes effect at the step boundary; at a steady level it goes level by
level, each planned as a rise or a fall under the budgets, behind what is planned already; a ramp under way ends first.
(DEDUCED, unsafe; log 100.) -/
def newMin (s : State) (d step q : Nat) : State :=
  let e := (s.square q).mxe
  let settle := fun (s : State) (lv m : Nat) => s.modMxe q (fun e => { e with
    minCad := lv, cur := lv, minStep := none, pendMin := if lv = m then none else some m })
  match e.pendMin with
  | none => s
  | some m =>
    if e.phase = 0 ∨ (e.phase = 1 ∧ e.granted = none) then
      s.modMxe q (fun e => { e with minCad := m, cur := max 8 m, pendMin := none, minStep := none })
    else if e.phase ≠ 3 then s
    else match e.minStep with
      | some (st, lv) => if st ≤ step then settle s lv m else s
      | none =>
        let lv := nextLevel e m
        if lv = e.minCad then s.modMxe q (fun e => { e with pendMin := none })
        else
          let rise := decide (lv < e.minCad)
          let by_ := if rise then suOf lv - suOf e.minCad else suOf e.minCad - suOf lv
          let st := earliest (s.district d).plans rise (fun st => [(st, by_)]) 1024 step
          let s1 := s.modDistrict d (fun k => { k with plans := k.plans ++ [{ square := q, rise := rise, steps := [(st, by_)] }] })
          if st = step then settle s1 lv m else s1.modMxe q (fun e => { e with minStep := some (st, lv) })

/-- A multiplication that became ready during the ramp-down asks for a new start once the draw is 0 (R432). -/
def reask (s : State) (step q : Nat) : State :=
  if (s.square q).mxe.phase = 0 ∧ rowsToCome s q then askStart s q (4 * step) else s

/-- The boundary of a step in a district's limiter (R430 to R433): changes of MIN, ramp-downs, requests, grants, ramps. -/
def slewStep (s : State) (d step : Nat) : State :=
  let qs := districtSquares d
  let s1 := qs.foldl (fun s q => reask (rampDown (newMin s d step q) d step q) step q) s
  let s2 := qs.foldl (fun s q => rampUp s step q) (grantStarts s1 d step)
  let waits := qs.any (fun q => decide ((s2.square q).mxe.phase = 1))
  (s2.districtCount d 0xC0 (b2n waits)).modDistrict d (fun k => { k with
    plans := k.plans.filter (fun p => p.steps.any (fun e => step ≤ e.1)) })

/-- The MXE draws, waits for a start, or is to take a new MIN. -/
def Mxe.active (e : Mxe) : Bool := e.phase != 0 || e.pendMin.isSome

/-- A beacon cycle of the limiters and of the arrays that they feed: at the first cycle of a step its boundary, and in each cycle the rows
whose cycle it is. -/
def beaconCycle (s : State) (cyc : Nat) : State :=
  let busy := (s.squares.filter (fun e => e.2.mxe.active)).map (·.1)
  if busy = [] then s
  else
    let ds := (List.range 8).filter (fun d => busy.any (fun q => districtOf q == d))
    let s1 := if cyc % 4 = 0 then ds.foldl (fun s d => slewStep s d (cyc / 4)) s else s
    busy.foldl (fun s q => injectRow s q cyc) s1

/-! ## MX registers (R328, R433) -/

def mxStat (x : MxCore) : Word :=
  BitVec.ofNat 64 (joinFields [(x.queue.length, 5), (x.latch.fmt, 4), (b2n x.latch.sparse, 1), (0, 8), (b2n x.drop, 1), (0, 1),
    (b2n x.satStat, 1)])

def mxCad (s : State) (c : Nat) : Word :=
  let e := (s.square (squareOf c)).mxe
  BitVec.ofNat 64 (joinFields [((s.core c).mx.gwait, 32), (0, 21), (e.phase, 3), (0, 3), (e.cur, 5)])

/-! ## Commands from stores and from the coalescer (R316) -/

/-- A pushed command's fields; none where one of them is invalid. -/
def parseCommand (v : Nat) : Option (MxReq × Nat × Nat) :=
  let sub := bits v 0 4
  let zero := decide (bits v 4 4 = 0 ∧ bits v 29 3 = 0 ∧ bits v 128 384 = 0 ∧ bits v 21 3 = 0)
  let r : MxReq :=
    { sub := sub, td := bits v 8 4, ta := bits v 12 4, tb := bits v 16 4, flags := bits v 20 4,
      arg := BitVec.ofNat 64 (if sub = 5 then bits v 32 32 + bits v 64 32 * 2 ^ 32 else bits v 32 32) }
  let unused := match sub with
    | 0 | 1 => decide (r.td = 0 ∧ r.ta = 0 ∧ r.flags = 0 ∧ bits v 24 5 = 0 ∧ bits v 32 96 = 0)
    | 2 => decide (r.td = 0 ∧ r.ta = 0 ∧ r.tb = 0 ∧ r.flags = 0 ∧ bits v 32 32 = 0 ∧ bits v 64 64 % 64 = 0)
    | 3 => decide (r.td = 0 ∧ r.tb = 0 ∧ bits v 24 5 = 0 ∧ bits v 32 96 = 0)
    | 4 => decide (r.td = 0 ∧ bits v 24 5 = 0 ∧ bits v 64 64 = 0)
    | 5 => decide (r.td = 0 ∧ r.ta = 0 ∧ r.tb = 0 ∧ r.flags = 0 ∧ bits v 24 5 = 0 ∧ bits v 96 32 = 0)
    | 6 => decide (r.ta = 0 ∧ r.tb = 0 ∧ r.flags = 0 ∧ bits v 24 5 = 0 ∧ bits v 32 96 = 0)
    | 7 => decide (r.td = 0 ∧ r.tb = 0 ∧ r.flags = 0 ∧ bits v 24 5 = 0 ∧ bits v 32 96 = 0)
    | _ => false
  if zero && unused then some (r, bits v 24 5, bits v 64 64) else none

/-- A command pushed into a core's queue: checked as the instruction would be. -/
def pushCommand (s : State) (c v : Nat) : Res State :=
  match parseCommand v with
  | none => raise cIllegalOp
  | some (r, sel, va) =>
    if r.sub = 2 then do
      if sparsePending s c then stall
      let (x, s1) ← loadStruct s c va 64 64
      pure (s1.modMx c (fun m => stageCodes m sel x))
    else mxSubmit s c r

/-- A pushed command that fails is discarded (R316): MX.STAT.DROP is set and a record goes to the job's trap queue. The fault of
a fill that it asked for goes with it. -/
def discardCommand (s : State) (c : Nat) (t : TrapInfo) : State :=
  let s1 := s.modCore c (fun k => { k with
    mx := { k.mx with drop := true }
    tiles := k.tiles.map (fun e => (e.1, if e.2.fault = some t then { e.2 with fault := none } else e.2)) })
  taskTrapRecord s1 c t.cause 5 0 t.addr t.info

end Sys2Proof.Machine
end

