-- ==== Sys2Proof/Machine/Coalescer.lean ====
section
/-! DEFINITION. The coalescers (12 R332 to R337) and the commands that wait at a window of an MXE queue (R316). -/
namespace Sys2Proof.Machine

/-! ## Slots -/

def State.slot (s : State) (q i : Nat) : CoSlot := ((s.square q).slots[i]?).getD CoSlot.reset
def State.modSlot (s : State) (q i : Nat) (f : CoSlot → CoSlot) : State :=
  s.modSquare q (fun k => { k with slots := k.slots.setIfInBounds i (f ((k.slots[i]?).getD CoSlot.reset)) })

/-- A slot of the core's task is disarmed: no later contribution enters, and the disarm takes its place in the queue (R334). -/
def disarm (s : State) (q i : Nat) : State :=
  ((s.modSlot q i (fun x => { x with armed := false })).modSquare q (fun k => { k with coq := k.coq ++ [.disarm i] })).dueOnce
    (.coApply (squareId q))

/-! ## What a waiting instruction or command asks for -/

/-- An operation finds a log or the pool full: LOG.STAT.OVF counts it once (R83, R88). -/
def countOverflow (s : State) (c : Nat) : State :=
  if (s.core c).pipe.full then s
  else s.modCore c (fun k => { k with
    pipe := { k.pipe with full := true }, pool := { k.pool with ovf := satAdd k.pool.ovf 1 (2 ^ 32 - 1) } })

def applyReq (s : State) : Req → State
  | .due d => s.dueOnce d
  | .fill c n cause => requestFill s c n cause
  | .evict c n => requestEvict s c n byInstr
  | .keep c n => requestKeep s c n
  | .overflow c => countOverflow s c
  | .disarm c i =>
    let x := s.slot (squareOf c) i
    if x.armed ∧ x.owner.val = c then disarm s (squareOf c) i else s
  | .tileWait c n =>
    if (s.core c).pipe.inBody then s.modCore c (fun k => { k with pipe := { k.pipe with bodyWait := some n } }) else s
  | .window c v => s.modMx c (fun m =>
    if m.window.contains (v, .task) then m else { m with window := m.window ++ [(v, .task)] })

def applyReqs (s : State) (l : List Req) : State := l.foldl applyReq s

/-! ## The windows of the MXE queues (R316) -/

/-- A command reaches a core's queue window from the storer or the coalescer: it enters, is discarded, or waits behind
the commands that wait there, asking for what it waits for (R75, R316). -/
def arriveAtWindow (s : State) (c : Nat) (v : BitVec 512) (by_ : MxAgent) : State :=
  let wait := (s.modMx c (fun m => { m with window := m.window ++ [(v, by_)] })).dueOnce (.mxStart (squareId (squareOf c)))
  if (s.core c).mx.window ≠ [] then wait
  else match pushCommand s c v.toNat with
    | .ok s1 => s1
    | .error (.trap t) => discardCommand s c t
    | .error (.stall reqs) => applyReqs wait reqs

/-- A task's store reaches the window of its core: it enters in its turn, and until then it keeps its place while the store waits at issue
(R316). -/
def taskAtWindow (s : State) (c : Nat) (v : BitVec 512) : Res State :=
  let w := (s.core c).mx.window
  if w = [] ∨ w.head? = some (v, .task) then
    let s0 := if w = [] then s
      else (s.modMx c (fun m => { m with window := m.window.drop 1 })).dueOnce (.mxStart (squareId (squareOf c)))
    match pushCommand s0 c v.toNat with
    | .error (.stall reqs) => .error (.stall (reqs ++ [.window c v]))
    | r => r
  else .error (.stall [.window c v])

/-- The commands at the head of a core's window are tried again, as far as a task's store, which tries itself. -/
def retryWindow (c : Nat) : Nat → State → State
  | 0, s => s
  | fuel + 1, s =>
    match (s.core c).mx.window with
    | [] => s
    | (_, .task) :: _ => s
    | (v, _) :: rest =>
      let s0 := s.modMx c (fun m => { m with window := rest })
      match pushCommand s0 c v.toNat with
      | .ok s1 => retryWindow c fuel s1
      | .error (.trap t) => retryWindow c fuel (discardCommand s0 c t)
      | .error (.stall reqs) => (applyReqs s reqs).dueOnce (.mxStart (squareId (squareOf c)))

/-! ## Gathering -/

/-- The fields of a slot descriptor (R332); none where a reserved bit is set. -/
def slotDesc (v : Nat) : Option CoSlot :=
  if bits v 6 2 ≠ 0 ∨ bits v 14 2 ≠ 0 ∨ bits v 18 14 ≠ 0 ∨ bits v 64 448 ≠ 0 then none
  else some { CoSlot.reset with
    ta := bits v 0 6, tb := bits v 8 6, overwrite := bit v 16, wbind := bit v 17, thresh := bits v 32 16,
    tmo := bits v 48 16 }

/-- The access of the coalescer to a twin. -/
def coAccess (s : State) (o : CoreId) (job : Nat) (len : Nat) (kind : AccessKind) : Access :=
  { core := o.val, job := job, sys := (s.core o.val).task.sys, agent := .engine, kind := kind, va := 0, len := len, align := 1,
    struct := false }

/-- The gathering tile is taken and zeroed once its BUSY is 0 (R334, R336, R76). -/
def takeTwin (s : State) (q i : Nat) : State :=
  let x := s.slot q i
  let o := x.owner.val
  let t := s.tile o x.gathering
  if x.waiting = false then s
  else if t.refs ≠ 0 ∨ t.state ≠ stReady then
    s.dueOnce (.coTwin (squareId q) ⟨i % 8, Nat.mod_lt _ (by decide)⟩)
  else
    let s1 := match homeWrite s (coAccess s x.owner x.job t.size .write) (tileLoc o t) t.size 0 with
      | .ok s1 => s1
      | .error _ => machineCheck s o cEcc 0
    let s2 := s1.modTile o x.gathering (fun t => { t with state := stFilling })
    (s2.modSlot q i (fun x => { x with waiting := false })).dueOnce (.coApply (squareId q))

/-- The entries of a tile's log applied, as far as their rows are sound. -/
def applyEntries (c n : Nat) : Nat → State → Res State
  | 0, s => .ok s
  | fuel + 1, s => do
    let s1 ← logApplyOne s c n
    applyEntries c n fuel s1

/-- The whole log of a gathering tile is applied and it is READY; an uncorrectable error abandons the log.
(DESIGN CHOICE, unsafe; log 35.) -/
def applyLog (s : State) (c n : Nat) : State :=
  match applyEntries c n (s.tile c n).logCnt s with
  | .ok s1 => tileDone s1 c n
  | .error _ => tileDone ((machineCheck s c cEcc 0).modTile c n (fun t => { t with logCnt := 0 })) c n

/-- The template with the closed tile in place of a twin it names (R336). -/
def substituted (x : CoSlot) (v : BitVec 512) : BitVec 512 :=
  let sub := field v 0 4
  let ta := field v 12 4
  if (sub = 3 ∨ sub = 4 ∨ sub = 7) ∧ (ta = x.ta ∨ ta = x.tb) then setField v 12 4 x.gathering else v

/-- A slot closes (R336). -/
def closeSlot (s : State) (q i : Nat) : State :=
  let x := s.slot q i
  let o := x.owner.val
  let s1 := applyLog s o x.gathering
  let s2 := match x.template with
    | some v => arriveAtWindow s1 o (substituted x v) .coalescer
    | none => s1
  let s3 := s2.modSlot q i (fun x => { x with
    gathering := if x.gathering = x.ta then x.tb else x.ta, count := 0, firstAt := none, waiting := true })
  takeTwin s3 q i

/-- A contribution is applied to its element of the gathering tile (R335). A `cflush` of the slot that arrived in the cycle of the
contribution that reaches THRESH is the same close (R339). (DESIGN CHOICE, unsafe; log 33.) (DESIGN CHOICE, unsafe; log 35.) -/
def contribute (s : State) (q i : Nat) (value : Word) (row col at_ : Nat) : State :=
  let x := s.slot q i
  let o := x.owner.val
  let t := s.tile o x.gathering
  let e := elemSize t.fmt
  let loc := tileLoc o t + (row * t.cols + col) * e
  let a := coAccess s x.owner x.job e .write
  let old := s.read loc e
  let v := value.toNat % 2 ^ (8 * e)
  let f := fmtFormat t.fmt
  let new :=
    if x.overwrite then v
    else if t.fmt = 7 then (old + v) % 2 ^ 32
    else f.round .rne false (Fp.add .rne (f.unpack old) (f.unpack v))
  let s1 := match homeWrite s a loc e new with
    | .ok s1 => s1
    | .error _ => machineCheck s o cEcc 0
  let s2 := s1.modSlot q i (fun x => { x with
    count := x.count + 1, firstAt := if x.count = 0 then some s.time else x.firstAt })
  let s3 := if x.count = 0 ∧ x.tmo ≠ 0 then
    s2.dueOnce (.coTimeout (squareId q) ⟨i % 8, Nat.mod_lt _ (by decide)⟩) else s2
  if x.thresh ≠ 0 ∧ x.count + 1 = x.thresh then
    closeSlot (s3.modSquare q (fun k => { k with coq := k.coq.filter (fun e => e ≠ .flush i at_) })) q i
  else s3

/-- A disarm is applied: the gathering tile is READY, no template is pushed (R334, R337). -/
def disarmed (s : State) (q i : Nat) : State :=
  let x := s.slot q i
  let s1 := if x.waiting then s else applyLog s x.owner.val x.gathering
  s1.modSlot q i (fun _ => CoSlot.reset)

/-- The slot that an entry names. -/
def CoEntry.slot : CoEntry → Nat
  | .push i _ _ _ _ _ => i
  | .flush i _ => i
  | .disarm i => i
  | .close i => i

/-- The entry names the slot. -/
def CoEntry.names (i : Nat) (e : CoEntry) : Bool := e.slot == i

/-- An entry applied that has left the queue (R335). -/
def applyEntry (s : State) (q : Nat) : CoEntry → State
  | .push i v row col _ at_ => contribute s q i v row col at_
  | .flush i _ => closeSlot s q i
  | .close i => closeSlot s q i
  | .disarm i => disarmed s q i

/-- An entry waits for its slot's twin; a disarm needs none. -/
def entryWaits (s : State) (q : Nat) (e : CoEntry) : Bool :=
  match e with
  | .disarm _ => false
  | _ => (s.slot q e.slot).waiting

/-- The input queue's head entry applied, or none while it waits for a twin (R335). -/
def applyHead (s : State) (q : Nat) : Option State :=
  match (s.square q).coq with
  | [] => none
  | e :: rest =>
    if entryWaits s q e then none else some (applyEntry (s.modSquare q (fun k => { k with coq := rest })) q e)

/-- One entry applied in a cycle (R335); the rest follow. (DESIGN CHOICE, unsafe; log 33.) -/
def coStep (s : State) (q : Nat) : State :=
  match applyHead s q with
  | none => s
  | some s1 => if (s1.square q).coq = [] then s1 else s1.dueOnce (.coApply (squareId q))

/-- CO.TMO ticks have passed since the first contribution (R336). -/
def coTimedOut (s : State) (q i : Nat) : State :=
  let x := s.slot q i
  match x.firstAt with
  | some t =>
    if x.armed = false ∨ x.tmo = 0 ∨ x.waiting then s
    else if t + 4 * x.tmo ≤ s.time then closeSlot s q i
    else s.dueOnce (.coTimeout (squareId q) ⟨i % 8, Nat.mod_lt _ (by decide)⟩)
  | none => s

/-- The place in a queue right behind the last contribution of a core. -/
def afterOwn (c : Nat) (e : CoEntry) : List CoEntry → List CoEntry
  | [] => [e]
  | x :: xs =>
    let own := fun (y : CoEntry) => match y with
      | .push _ _ _ _ w _ => w.val == c
      | _ => false
    if (x :: xs).any own then x :: afterOwn c e xs else e :: x :: xs

/-- The owner's `evpop` has delivered a close: its slots with WBIND close behind its earlier contributions (R336, R355). -/
def windowBound (s : State) (c : Nat) : State :=
  let q := squareOf c
  (List.range 8).foldl (fun s i =>
    let x := s.slot q i
    if x.armed ∧ x.wbind ∧ x.owner.val = c then
      (s.modSquare q (fun k => { k with coq := afterOwn c (.close i) k.coq })).dueOnce (.coApply (squareId q))
    else s) s

/-- The input queue holds an entry for a slot of the core. -/
def slotsQueued (s : State) (c : Nat) : Bool :=
  let q := squareOf c
  (s.square q).coq.any (fun e => (s.slot q e.slot).owner.val == c)

/-- The owner's slots are disarmed at `done`, abort, discard and pre-emption, each behind the entries that it has in the queue
(R337). -/
def disarmAll (s : State) (c : Nat) : State :=
  let q := squareOf c
  (List.range 8).foldl (fun s i => if (s.slot q i).armed ∧ (s.slot q i).owner.val = c then disarm s q i else s) s

/-- A twin of an armed slot of the core (R330). (DEDUCED, unsafe; log 53.) -/
def isTwin (s : State) (c n : Nat) : Bool :=
  (List.range 8).any (fun i =>
    let x := s.slot (squareOf c) i
    x.armed && decide (x.owner.val = c ∧ (x.ta = n ∨ x.tb = n)))

/-- The entries of the input queue that count against its 8 (R335). -/
def queuedEntries (l : List CoEntry) : Nat :=
  (l.filter (fun e => match e with
    | .push .. => true
    | .flush _ _ => true
    | _ => false)).length

end Sys2Proof.Machine
end

