-- ==== Sys2Proof/Machine/Event.lean ====
section
/-! DEFINITION. The event queues: arrival, the spill ring, windows and delivery (13 R340 to R360). -/
namespace Sys2Proof.Machine

def State.modEv (s : State) (c : Nat) (f : EvQueue → EvQueue) : State := s.modCore c (fun k => { k with ev := f k.ev })

/-! ## Headers (R340) -/

def hdrTs (h : Word) : Nat := field h 0 48
def hdrKind (h : Word) : Nat := field h 56 4
def hdrOf (kind src ts : Nat) : Word := BitVec.ofNat 64 (joinFields [(kind, 4), (src, 8), (ts, 48)])
def kEv : Nat := 0
def kBuoy : Nat := 1
def kWclose : Nat := 2
def kLate : Nat := 3
def kLayer : Nat := 4
def kStale : Nat := 5

/-! ## Windows (R346, R349) -/

/-- a is at or after b by half range (R346). -/
def tsge (a b : Nat) : Bool := decide ((a % 2 ^ 48 + 2 ^ 48 - b % 2 ^ 48) % 2 ^ 48 < 2 ^ 47)

/-- Where the open window begins, by its low 48 bits. -/
def EvQueue.start (q : EvQueue) : Nat := (q.org.toNat + q.wnum * q.win) % 2 ^ 48
/-- END(n) of the open window. -/
def EvQueue.stop (q : EvQueue) : Nat := (q.org.toNat + (q.wnum + 1) * q.win) % 2 ^ 48

/-- The number of the window that a timestamp belongs to (R349). -/
def EvQueue.windowOf (q : EvQueue) (ts : Nat) : Int :=
  let d := (ts % 2 ^ 48 + 2 ^ 48 - q.start) % 2 ^ 48
  if d < 2 ^ 47 then (q.wnum : Int) + (d / q.win : Nat) else (q.wnum : Int) - ((2 ^ 48 - d + q.win - 1) / q.win : Nat)

/-- The event itself is held (R349 rule 2): it belongs to a window after the open one, or the close of an earlier window is
still to be delivered. -/
def EvQueue.held (q : EvQueue) (e : Ev) : Bool :=
  if q.win = 0 ∨ e.late then false
  else
    let w := q.windowOf (hdrTs e.hdr)
    decide ((q.wnum : Int) < w) || q.closes.any (fun c => c.live && decide ((c.num : Int) < w))

/-- The first undelivered event of each slot, where it is not held (R349 rules 1 and 2). -/
def EvQueue.ready (q : EvQueue) : List Ev :=
  (List.range 8).filterMap (fun i =>
    match q.events.find? (fun e => e.slot = i) with
    | some e => if q.held e then none else some e
    | none => none)

/-- The closes that can be delivered (R349 rule 3, R353). -/
def EvQueue.readyCloses (q : EvQueue) : List EvClose :=
  q.closes.filter (fun c => !q.events.any (fun e => c.before.contains e.arr && (c.live || !q.held e)))

/-- The slot is enabled. -/
def EvQueue.enables (q : EvQueue) (slot : Nat) : Bool := bit q.enabled slot
def EvQueue.ltOf (q : EvQueue) (slot : Nat) : Nat := (q.lt[slot]?).getD 0

/-- The enabled slots that have not reached the end of the open window. -/
def EvQueue.missing (q : EvQueue) : Nat :=
  (List.range 8).foldl (fun m i => if q.enables i && !tsge (q.ltOf i) q.stop then m + 2 ^ i else m) 0

/-- The open window closes: its close ranks by now (R347 to R349). (DESIGN CHOICE, unsafe; log 34.) -/
def EvQueue.close (q : EvQueue) (kind src : Nat) : EvQueue :=
  let c : EvClose :=
    { hdr := hdrOf kind src q.stop, num := q.wnum, arr := q.arrivals, live := true,
      before := (q.events.filter (fun e => !e.late && decide (q.windowOf (hdrTs e.hdr) = (q.wnum : Int)))).map (·.arr) }
  { q with closes := q.closes ++ [c], wnum := q.wnum + 1, arrivals := q.arrivals + 1 }

/-- The device time at which the open window closes stale (R348), compared in full. (DESIGN CHOICE, unsafe; log 101.) -/
def EvQueue.staleAt (q : EvQueue) : Nat := q.org.toNat + (q.wnum + 1) * q.win + q.wtmo * 4

/-- The open window closes now: every enabled slot has reached its end (R347), or its time has run out (R348).
(DESIGN CHOICE, unsafe; log 101.) -/
def EvQueue.closing (q : EvQueue) (now : Nat) : Option EvQueue :=
  if q.win = 0 then none
  else if q.enabled ≠ 0 ∧ q.missing = 0 then some (q.close kWclose 0)
  else if q.wtmo ≠ 0 ∧ q.staleAt ≤ now then some (q.close kStale q.missing)
  else none

/-- A core's open window closes if it is to, at most one window in a cycle (R347, R348). -/
def closeOne (s : State) (c : Nat) : State :=
  let q := (s.core c).ev
  if q.closedAt = s.cyc + 1 then s
  else match q.closing s.time with
    | some q1 => s.modEv c (fun _ => { q1 with closedAt := s.cyc + 1 })
    | none => s

/-! ## Drops (R344, R345) -/

/-- One event dropped: DROPS, and the record of R345, of job 0 where the core holds no task. (DEDUCED, unsafe; log 65.) -/
def dropEvent (s : State) (c : Nat) : State :=
  let n := satAdd (s.core c).ev.drops 1 (2 ^ 32 - 1)
  let was := (s.core c).ev.drops
  let s1 := s.modEv c (fun q => { q with drops := n })
  if n ≠ was ∧ (n = 1 ∨ n % 1024 = 0) then taskTrapRecord s1 c cEvqOverflow 6 0 0 0 else s1

def dropLate (s : State) (c : Nat) : State :=
  s.modEv c (fun q => { q with ldrop := satAdd q.ldrop 1 (2 ^ 32 - 1) })

/-! ## The spill ring (R343) -/

def EvQueue.ringSize (q : EvQueue) : Nat := field q.spill 16 13
def EvQueue.ringUsed (q : EvQueue) : Nat := (q.events.filter (·.ring.isSome)).length

/-- The ring numbers of its occupied entries. -/
def EvQueue.ringNumbers (q : EvQueue) : List Nat := q.events.filterMap (·.ring)

/-- The entries of the ring that a spill finds taken: from the oldest occupied one to the newest, those between them as well, since
entries are taken back in their order (R343). (DESIGN CHOICE, unsafe; log 90.) -/
def EvQueue.ringSpan (q : EvQueue) : Nat := q.spilled - q.ringNumbers.foldl min q.spilled
def EvQueue.fifoUsed (q : EvQueue) (slot : Nat) : Nat :=
  (q.events.filter (fun e => e.slot = slot ∧ e.ring.isNone)).length

/-- Where the ring's j-th event stands. -/
def ringLoc (q : EvQueue) (c j : Nat) : Nat :=
  scratchLoc c + (field q.spill 0 12 * 64 + j % max 1 q.ringSize * 16) % 0x40000

/-- An event written to the ring. -/
def spillEvent (s : State) (c : Nat) (e : Ev) : State × Ev :=
  let q := (s.core c).ev
  let j := q.spilled
  let s1 := ringWrite s c (ringLoc q c j) 16 (e.hdr.toNat + e.pay.toNat * 2 ^ 64)
  (s1.modEv c (fun q => { q with spilled := j + 1 }), { e with ring := some j })

/-- The oldest entry of the ring. -/
def oldestSpilled : List Ev → Option Ev
  | [] => none
  | e :: es =>
    match e.ring, oldestSpilled es with
    | none, r => r
    | some _, none => some e
    | some i, some f => if i < f.ring.getD 0 then some e else some f

/-- Entries return from the ring in order while their FIFOs have room. -/
def unspillEvents (c : Nat) : Nat → State → State
  | 0, s => s
  | fuel + 1, s =>
    let q := (s.core c).ev
    match oldestSpilled q.events with
    | none => s
    | some e =>
      if 32 ≤ q.fifoUsed e.slot then s
      else
        let (v, s1) := ringRead s c (ringLoc q c (e.ring.getD 0)) 16
        let e' := { e with hdr := BitVec.ofNat 64 v, pay := BitVec.ofNat 64 (v / 2 ^ 64), ring := none }
        unspillEvents c fuel (s1.modEv c (fun q => { q with events := q.events.map (fun x => if x.arr = e.arr then e' else x) }))

/-! ## Arrival (R342 to R350) -/

/-- The event is late where it stands (R350): before the open window, or behind an event of a later window than its own. -/
def EvQueue.isLate (q : EvQueue) (slot ts : Nat) (ahead : List Ev) : Bool :=
  q.win != 0 && (!tsge ts q.start ||
    ahead.any (fun e => e.slot == slot && !e.late && decide (q.windowOf ts < q.windowOf (hdrTs e.hdr))))

/-- A task runs on the core. -/
def Core.holdsTask (k : Core) : Bool := k.mode == .run || k.mode == .wait || k.mode == .park

/-- The kinds that an origin may send (R342, R357). -/
def kindAccepted (origin : EventOrigin) (kind : Nat) : Bool :=
  match origin with
  | .external => kind == kEv || kind == kBuoy || kind == kLayer
  | .core _ => kind == kBuoy || kind == kLayer
  | .faultBuffer _ _ => kind == kEv

/-- Events that a saved task of the core would have taken are counted with it (R360). -/
def countMissed (s : State) (c slot : Nat) : State :=
  { s with saved := s.saved.map (fun e =>
      if e.2.fromCore.val = c ∧ bit e.2.core.ev.enabled slot then
        (e.1, { e.2 with core := { e.2.core with ev := { e.2.core.ev with missed := e.2.core.ev.missed + 1 } } })
      else e) }

/-- An accepted event takes its place, or is dropped: whether it stands in the queue. -/
def enqueueEvent (s : State) (c slot : Nat) (hdr pay : Word) (fb : Option (Nat × Nat × Nat)) : Bool × State :=
  let q := (s.core c).ev
  let ts := hdrTs hdr
  let order := !tsge ts (q.ltOf slot)
  let late := q.isLate slot ts q.events
  let lt := if tsge ts (q.ltOf slot) then ts else q.ltOf slot
  let s1 := s.modEv c (fun q => { q with lt := q.lt.setIfInBounds slot lt })
  if late ∧ q.lateDrop then (false, dropLate s1 c)
  else
    let e : Ev := { hdr := setField hdr 60 1 (b2n order), pay := pay, slot := slot, arr := q.arrivals, ring := none, fb := fb,
                    late := late }
    let s2 := s1.modEv c (fun q => { q with arrivals := q.arrivals + 1 })
    let spills := 32 ≤ q.fifoUsed slot ∨ q.events.any (fun x => x.slot = slot ∧ x.ring.isSome)
    if spills ∧ q.ringSize ≤ q.ringSpan then (false, dropEvent s2 c)
    else
      let (s3, e') := if spills then spillEvent s2 c e else (s2, e)
      (true, s3.modEv c (fun q => { q with events := q.events ++ [e'] }))

/-- An event reaches a core's queue: whether it was accepted (R342). -/
def arriveEvent (s : State) (c slot : Nat) (hdr pay : Word) (origin : EventOrigin) : Bool × State :=
  let k := s.core c
  let s0 := countMissed s c slot
  if ¬ k.holdsTask ∨ k.ev.enables slot = false ∨ kindAccepted origin (hdrKind hdr) = false then (false, dropEvent s0 c)
  else if hdrKind hdr = kBuoy then
    let ts := hdrTs hdr
    let s1 := s0.modEv c (fun q => { q with
      lt := q.lt.setIfInBounds slot (if tsge ts (q.ltOf slot) then ts else q.ltOf slot) })
    (true, closeOne s1 c)
  else
    let fb := match origin with
      | .faultBuffer d i => some (d.val, i, field pay 40 16)
      | _ => none
    let (ok, s1) := enqueueEvent s0 c slot hdr pay fb
    (ok, closeOne s1 c)

/-! ## Delivery (R349, R355) -/

/-- What `evpop` takes next: the deliverable event or close that ranks first. -/
def EvQueue.next (q : EvQueue) : Option (Sum Ev EvClose) :=
  let e := q.ready.foldl (fun (b : Option Ev) e => match b with
    | some x => if e.arr < x.arr then some e else b
    | none => some e) none
  let c := q.readyCloses.foldl (fun (b : Option EvClose) e => match b with
    | some x => if e.arr < x.arr then some e else b
    | none => some e) none
  match e, c with
  | none, none => none
  | some e, none => some (.inl e)
  | none, some c => some (.inr c)
  | some e, some c => if e.arr < c.arr then some (.inl e) else some (.inr c)

/-- The header as delivered: a late event has KIND LATE (R350). -/
def Ev.delivered (e : Ev) : Word := if e.late then setField e.hdr 56 4 kLate else e.hdr

/-- `evpop` performs: the header, or all ones (R355). An entry of a fault buffer whose event is taken has been delivered
(R417). -/
def popEvent (s0 : State) (c : Nat) : Word × State :=
  let s := if (s0.core c).ev.next.isSome then s0.evCount c 0x0E 1 else s0
  match (s.core c).ev.next with
  | none => (BitVec.allOnes 64, s)
  | some (.inl e) =>
    let h := e.delivered
    let s1 := s.modEv c (fun q => { q with
      events := q.events.filter (fun x => x.arr ≠ e.arr), evh := h.zeroExtend 128 ||| e.pay.zeroExtend 128 <<< 64 })
    let s2 := match e.fb with
      | some (d, i, g) => s1.modDie d (fun k => { k with
          fb := k.fb.map (fun x => if x.index = i ∧ x.gen = g then { x with delivered := true } else x) })
      | none => s1
    (h, unspillEvents c 8192 s2)
  | some (.inr w) =>
    let s1 := s.modEv c (fun q => { q with
      closes := q.closes.filter (fun x => x.arr ≠ w.arr)
      evh := w.hdr.zeroExtend 128 ||| (BitVec.ofNat 128 w.num) <<< 64 })
    (w.hdr, windowBound s1 c)

/-! ## Rebase and the window operations (R353, R358) -/

/-- Undelivered events classified again against the windows, in their order; with DROP = 1 the late ones go. -/
def reclassify (s : State) (c : Nat) : State :=
  let q := (s.core c).ev
  let fresh := q.events.foldl (fun (acc : List Ev) e => acc ++ [{ e with late := q.isLate e.slot (hdrTs e.hdr) acc }]) []
  let gone := if q.lateDrop then fresh.filter (·.late) else []
  let keep := if q.lateDrop then fresh.filter (fun e => !e.late) else fresh
  let s1 := s.modEv c (fun q => { q with events := keep })
  unspillEvents c 8192 (gone.foldl (fun s _ => dropLate s c) s1)

/-- A rebase (R353). -/
def rebase (s : State) (c : Nat) : State :=
  let s1 := s.modEv c (fun q => { q with
    wnum := 0
    lt := Vector.replicate 8 (q.org.toNat % 2 ^ 48)
    closes := q.closes.map (fun x => { x with live := false }) })
  closeOne (reclassify s1 c) c

/-- `evwin` CLOSE (R358). -/
def closeNow (s : State) (c : Nat) : State :=
  let q := (s.core c).ev
  if q.win = 0 then s
  else s.modEv c (fun q =>
    let q1 := if q.enabled ≠ 0 ∧ q.missing = 0 then q.close kWclose 0 else q.close kStale q.missing
    { q1 with closedAt := s.cyc + 1 })

/-- `evwin` SLOTS (R358). -/
def enableSlots (s : State) (c mask : Nat) : State :=
  let q := (s.core c).ev
  let lost := q.events.filter (fun e => !bit mask e.slot)
  let lt := Vector.ofFn (fun i : Fin 8 => if bit mask i.val && !q.enables i.val then q.start else q.ltOf i.val)
  let s1 := s.modEv c (fun q => { q with
    events := q.events.filter (fun e => bit mask e.slot), enabled := mask, lt := lt })
  closeOne (unspillEvents c 8192 (lost.foldl (fun s _ => dropEvent s c) s1)) c

/-- The queue's status (R359). -/
def EvQueue.stat (q : EvQueue) : Word :=
  let pend := q.ready.foldl (fun m e => m + 2 ^ e.slot) 0
  BitVec.ofNat 64 (joinFields [(q.wnum, 32), (q.ringUsed, 13), (b2n (decide (q.drops ≠ 0)), 1),
    (b2n (q.events.any q.held), 1), (b2n (decide (q.readyCloses ≠ [])), 1), (q.enabled, 8), (pend, 8)])

/-- EV.SPILL at task start (R344). -/
def startSpill (demand : Nat) : Word :=
  if 20 ≤ demand then BitVec.ofNat 64 (4096 * 2 ^ 16 + (demand * 4096 - 81920) / 64) else 0

/-- EV.SPILL as it reads (R344). -/
def EvQueue.spillReg (q : EvQueue) : Word := BitVec.ofNat 64 (q.drops * 2 ^ 32 + q.spill.toNat % 2 ^ 32)

/-- The queue at a task's start (R352, R360). -/
def startQueue (entry : BitVec 512) (now : Nat) : EvQueue :=
  { EvQueue.reset with
    lt := Vector.replicate 8 (now % 2 ^ 48), enabled := tySrcMask entry, win := tyWin entry, org := BitVec.ofNat 64 now,
    wtmo := tyWtmo entry, lateDrop := tyLate entry, spill := startSpill (tySpad entry) }

/-! ## Pre-emption (R360) -/

/-- The FIFO contents go to the ring as far as its free entries allow. -/
def spillAll (s : State) (c : Nat) : State :=
  (s.core c).ev.events.foldl (fun s e =>
    let q := (s.core c).ev
    if e.ring.isNone ∧ q.ringSpan < q.ringSize then
      let (s1, e') := spillEvent s c e
      s1.modEv c (fun q => { q with events := q.events.map (fun x => if x.arr = e.arr then e' else x) })
    else s) s

/-- A queue's events with what stands in the ring for those that are there. -/
def fromRing (s : State) (c : Nat) (q : EvQueue) : List Ev → List Ev × State
  | [] => ([], s)
  | e :: es =>
    match e.ring with
    | none =>
      let (l, s1) := fromRing s c q es
      (e :: l, s1)
    | some j =>
      let (v, s1) := ringRead s c (ringLoc q c j) 16
      let (l, s2) := fromRing s1 c q es
      ({ e with hdr := BitVec.ofNat 64 v, pay := BitVec.ofNat 64 (v / 2 ^ 64), ring := none } :: l, s2)

/-- On resume the events return to the FIFOs and the ring in their order, and the events missed meanwhile are counted. -/
def restoreEvents (s0 : State) (c : Nat) : State :=
  let q := (s0.core c).ev
  let (all, s) := fromRing s0 c q q.events
  let s1 := all.foldl (fun s e =>
    let q := (s.core c).ev
    if 32 ≤ q.fifoUsed e.slot ∧ q.ringSpan < q.ringSize then
      let (s1, e') := spillEvent s c e
      s1.modEv c (fun q => { q with events := q.events ++ [e'] })
    else s.modEv c (fun q => { q with events := q.events ++ [e] })) (s.modEv c (fun q => { q with events := [] }))
  let s2 := s1.modEv c (fun q => { q with missed := 0 })
  closeOne ((List.range q.missed).foldl (fun s _ => dropEvent s c) s2) c

end Sys2Proof.Machine
end

