-- ==== Sys2Proof/Machine/Ops.lean ====
section
/-! DEFINITION. The ends of units, taking a trap and returning from one, parking, aborting and the retry after a fault
(07 R158, R171, R172, R176, R177, R179; 09 R244, R253; 16 R410 to R418), and lending (02 R58 to R62). -/
namespace Sys2Proof.Machine

/-! ## Lending (R58 to R62, R178) -/

/-- The square's cores may take tasks of the job: JOB.PART names it, and no clear or departure is under way (R67, R168). -/
def inPartition (s : State) (job q : Nat) : Bool :=
  let k := s.square q
  flag (s.job job).part q && !k.joining.contains job && !k.clearing && k.leaving.isEmpty

/-- The neighbours that can lend to a core, each with its direction from it (R59). -/
def lendersOf (s : State) (c job : Nat) : List (Nat × Nat) :=
  (List.range 4).filterMap (fun d =>
    match neighbour c d with
    | some n => if inPartition s job (squareOf n) ∧ (s.core n).spad.wdrn = false then some (d, n) else none
    | none => none)

/-- The quarter of a neighbour in direction `d` that faces the core (R20, R58). -/
def facing (d : Nat) : Nat := (d + 2) % 4

/-- The neighbour is dark and its facing quarter is lent to the core. -/
def lendsTo (s : State) (c d n : Nat) : Bool :=
  (s.core n).mode == .dark && ((s.core n).lend.lentTo[facing d]?.getD none) == some (coreId c)

/-- A neighbour goes dark for a core, and the clear of its facing quarters begins (R60). -/
def darken (s : State) (c d n : Nat) : State :=
  if lendsTo s c d n ∨ ((s.core n).lend.clearing[facing d]?.getD false) then s
  else (s.modCore n (fun k => { k with
    mode := .dark
    l1d := [], l1i := [], fills := []
    lend := { k.lend with clearing := k.lend.clearing.setIfInBounds (facing d) true } })).dueOnce (.lendClear (coreId n))

/-- A scratchpad quarter and a register quarter cleared, with the parity of the cleared rows (R60). -/
def clearQuarter (s : State) (n q : Nat) : State :=
  let base := scratchLoc n + q * 0x10000
  let s1 := s.clearRange base (base + 0x10000)
  let s2 := s1.clearRange (lentRegLoc n + q * 0x200) (lentRegLoc n + q * 0x200 + 0x200)
  let s3 := (List.range 4).foldl (fun s g => s.clearRange (parityLoc n g (q * 256)) (parityLoc n g (q * 256 + 256))) s2
  s3.modCore n (fun k => { k with spad := { k.spad with
    parity := k.spad.parity.filter (fun e => e.row / 256 ≠ q) } })

/-- The clear before lending is over: lending begins (R60). -/
def lendingBegins (s : State) (n : Nat) : State :=
  (List.range 4).foldl (fun s q =>
    if ((s.core n).lend.clearing[q]?.getD false) then
      (clearQuarter s n q).modCore n (fun k => { k with lend := { k.lend with
        clearing := k.lend.clearing.setIfInBounds q false
        lentTo := k.lend.lentTo.setIfInBounds q ((neighbour n q).map coreId) } })
    else s) s

/-- Lending to a core ends: the lenders clear their quarters again (R60). -/
def lendingEnds (s : State) (c : Nat) : State :=
  (List.range 4).foldl (fun s d =>
    match neighbour c d with
    | none => s
    | some n =>
      let q := facing d
      let l := (s.core n).lend
      if (l.lentTo[q]?.getD none) = some (coreId c) ∨ (l.clearing[q]?.getD false) then
        (s.modCore n (fun k => { k with lend := { k.lend with
          lentTo := k.lend.lentTo.setIfInBounds q none
          clearing := k.lend.clearing.setIfInBounds q false
          returning := k.lend.returning.setIfInBounds q true } })).dueOnce (.lendEndClear (coreId n))
      else s) s

/-- A lender's clear at the end is over: a dark core that lends nothing more is IDLE (R60, R178). -/
def lendingOver (s : State) (n : Nat) : State :=
  let s1 := (List.range 4).foldl (fun s q =>
    if ((s.core n).lend.returning[q]?.getD false) then
      (clearQuarter s n q).modCore n (fun k => { k with lend := { k.lend with
        returning := k.lend.returning.setIfInBounds q false } })
    else s) s
  let k := s1.core n
  let busy := (List.range 4).any (fun q => ((k.lend.lentTo[q]?.getD none).isSome || (k.lend.clearing[q]?.getD false)))
  if k.mode = .dark ∧ busy = false then
    (tryLeave (s1.modCore n (fun k => { k with mode := .idle })) (squareOf n)).dueOnce (.selection (dieId (dieOf n)))
  else s1

/-! ## What an end discards -/

/-- NEAR atomics that have issued perform (R156). -/
def performNear (c : Nat) : Nat → State → Res State
  | 0, s => .ok s
  | fuel + 1, s =>
    if (s.core c).near = [] then .ok s
    else do
      let s1 ← grantOwnership s c
      performNear c fuel s1

/-- Every NEAR atomic of a core that has issued performs. -/
def settleNear (s : State) (c : Nat) : Res State := performNear c (s.core c).near.length s

/-- The same for a unit that is discarded: one that meets an error is left out. -/
def finishNear (c : Nat) : Nat → State → State
  | 0, s => s
  | fuel + 1, s =>
    if (s.core c).near = [] then s
    else match grantOwnership s c with
      | .ok s1 => finishNear c fuel s1
      | .error _ => finishNear c fuel (s.modCore c (fun k => { k with near := k.near.drop 1 }))

/-- The records of a core's trace buffer reach its ring (R134). -/
def flushTrace (s : State) (c : Nat) : State := (List.range 4).foldl (fun s _ => traceFlush s c) s

/-- A started matrix command of the core completes (R338); one whose latch is still loading has not started (R312). -/
def finishRunning (s : State) (c : Nat) : State :=
  let q := squareOf c
  let e := (s.square q).mxe
  if e.running ≠ some (coreId c) then s
  else if e.loading then (s.modMxe q (fun e => { e with running := none, loading := false })).dueOnce (.mxStart (squareId q))
  else
    let s1 := s.modMxe q (fun e => { e with
      rows := e.rowsTotal, doneAt := s.cyc, phase := if e.phase = 1 ∧ mulBehind s q = false then 0 else e.phase })
    (commandDone s1 q).1

/-- Queued matrix commands that have not started are discarded (R179). -/
def discardQueue (s : State) (c : Nat) : State :=
  let s1 := (s.core c).mx.queue.foldl (fun s cmd =>
    let (reads, writes) := mxTiles { sub := cmd.sub, td := cmd.td, ta := cmd.ta, tb := cmd.tb, flags := 0, arg := 0 }
    let s1 := (reads ++ writes).foldl (fun s n => s.modTile c n (fun t => { t with refs := t.refs - 1 })) s
    (completeJob s1 c cmd.job).modSquare (squareOf c) (fun k => { k with mxCount := k.mxCount - 1, mxBlack := true })) s
  s1.modMx c (fun m => { m with queue := [], window := [] })

/-- The entries of a core's slots applied at once, in their order, at an abort; `fuel` is the queue's length. Commands that they push
are discarded as they come, so that no twin stays referenced, and a twin that waits is taken (R179, R337). -/
def settleSlots (c q : Nat) : Nat → State → State
  | 0, s => s
  | fuel + 1, s =>
    match (s.square q).coq.find? (fun e => (s.slot q e.slot).owner.val = c) with
    | none => s
    | some e =>
      let s1 := if entryWaits s q e then takeTwin s q e.slot else s
      let s2 := s1.modSquare q (fun k => { k with coq := k.coq.erase e })
      settleSlots c q fuel (if entryWaits s1 q e then s2 else discardQueue (applyEntry s2 q e) c)

/-- Tile transfers in flight complete (R93). -/
def finishTransfers (s : State) (c : Nat) : State :=
  let moving := (s.core c).tiles.filterMap (fun e => e.2.moving.map (fun m => (e.1, m)))
  moving.foldl (fun s e =>
    let s1 := if e.2.landed then s else moveAll c e.1 (beatsLeft (s.tile c e.1)) s
    if (findJob s1 c e.2.job).isSome then receivedAt (completeJob s1 c e.2.job) c else s1) s

/-- Engine jobs that have not started are discarded (R179). -/
def discardJobs (s : State) (c : Nat) : State :=
  ((s.core c).jobs.filter (fun j => j.engine ≠ 0 ∧ j.engine ≠ 9 ∧ j.started = false)).foldl
    (fun s j => cardReceived (completeJob s c j.id) c j.engine) s

/-- A helper stopped, its image still in its store (R375, R382). -/
def Helper.stop (h : Helper) : Helper := { Helper.reset with image := h.image }

/-- Everything of a task that does not outlive it leaves the core; stores not yet performed are discarded (R172, R179,
R414). -/
def clearTask (s0 : State) (c : Nat) : State :=
  let s1 := flushTrace (finishNear c (s0.core c).near.length s0) c
  let s2 := remoteServed s1 c ((s1.core c).sbuf.flatMap (·.pieces))
  let s2a := disarmAll (discardQueue (finishRunning s2 c) c) c
  let s3 := settleSlots c (squareOf c) ((s2a.square (squareOf c)).coq.length) s2a
  let s4 := finishTransfers (releaseBlocks (s3.modCore c (fun k => { k with sbuf := [] })) c (fun _ => true)) c
  let s5 := s4.modSquare (squareOf c) (fun q => { q with copyWin := q.copyWin.filter (fun e => e.2.1.val ≠ c) })
  let s6 : State := { s5 with scOps := s5.scOps.map (fun o => if o.core.val = c then { o with dest := none } else o) }
  s6.modCore c (fun k =>
    let clean := Core.reset c
    { k with
      pipe := { clean.pipe with lastIssue := k.pipe.lastIssue }
      nest := clean.nest, waitSt := none, barSt := none, fault := none, preempt := none, check := none, mismatch := false
      near := [], streams := clean.streams, tiles := [], pool := clean.pool
      ev := clean.ev, trace := clean.trace, loader := k.loader.stop, storer := k.storer.stop, tlbWait := none })

/-- A core whose task is over is IDLE, and its lenders' lending ends (R60, R158). -/
def idleCore (s : State) (c : Nat) : State :=
  let hot := tyHeat (s.core c).task.entry = 2
  let s1 := s.modCore c (fun k => { k with mode := .idle, task := Task.reset, binding := false })
  let s2 := if hot then lendingEnds s1 c else s1
  (tryLeave s2 (squareOf c)).dueOnce (.selection (dieId (dieOf c)))

/-- The cores that a core's unit still holds: of a broken gang those whose `done` is still to come (R173, R176). -/
def unitMembers (s : State) (c : Nat) : List Nat :=
  let t := (s.core c).task
  if t.gang = 0 then [c]
  else (unitCores t.gang t.leader).filter (fun m =>
    let u := (s.core m).task
    (s.core m).holdsTask && u.gang == t.gang && u.leader == t.leader && u.rva == t.rva)

/-- The unit of a core is discarded (R172): its members are cleared and IDLE. It counts as finished. -/
def discardUnit (s : State) (c : Nat) (fail : Bool) : State :=
  let t := (s.core c).task
  let ms := unitMembers s c
  let s1 := ms.foldl clearTask s
  let s2 := unitFinished s1 c t.job (recLaunch t.record) fail
  ms.foldl idleCore s2

/-- The ORIGIN of a unit's record: its task, or the helper whose fault ends it (R411, R415). (DEDUCED, unsafe; log 39.) -/
def unitOrigin (t : TrapInfo) : Nat := if flag t.info 63 then (if flag t.info 62 then 2 else 1) else 0

/-- A unit ends as failed (R414). -/
def endUnit (s : State) (c : Nat) (t : TrapInfo) (pc : Word) : State :=
  let s1 := taskTrapRecord s c t.cause (unitOrigin t) pc t.addr t.info
  let s2 := if t.cause = cEcc ∨ t.cause = cLockstep ∨ t.cause = cWatchdog then machineCheck s1 c t.cause pc else s1
  discardUnit s2 c true

/-- The entry of a unit that goes back to a ready queue: the lane of the square it leaves (R384). -/
def requeuedAs (s : State) (c : Nat) : Ready :=
  let t := (s.core c).task
  { readyOf s t.record t.rva.toNat t.job (squareOf t.leader) none with prio := t.prio, rq := t.rq }

/-- A unit is aborted before its commit point and its record requeued (R179), held by the fault that ended it. -/
def abortUnit (s : State) (c : Nat) (h : Option HeldFault) : State :=
  let ms := unitMembers s c
  let r := requeuedAs s c
  let s1 := ms.foldl (fun s m => discardJobs (clearTask s m) m) s
  let s2 := placeReady s1 (dieOf c) true { r with rq := satAdd r.rq 1 65535, fault := h }
  ms.foldl idleCore s2

/-- The members that go on together: a whole unit, of a broken gang the core alone (R176). -/
def together (s : State) (c : Nat) : List Nat := if (s.core c).task.brk then [c] else unitMembers s c

/-- A unit parks at its faulting instruction, with what it holds (R179). The fault is held by the member it struck. -/
def parkUnit (s : State) (c : Nat) (h : HeldFault) : State :=
  let s1 := (together s c).foldl (fun s m => s.modCore m (fun k =>
    let k := k.leaveBody
    { k with mode := .park, pipe := { k.pipe with pc := k.pipe.hints.va.getD k.pipe.pc, hints := Hints.none } })) s
  s1.modCore c (fun k => { k with fault := some h })

/-- The members of a parked unit go on, at their instructions or in the wait that they were in. -/
def unparkUnit (s : State) (c : Nat) : State :=
  (together s c).foldl (fun s m =>
    let k := s.core m
    if k.mode ≠ .park then s
    else
      let asleep := k.waitSt.isSome || k.barSt.isSome
      let s1 := s.modCore m (fun k => { k with mode := if asleep then .wait else .run, fault := none })
      let s2 := if k.waitSt.isSome then (s1.dueOnce (.waitWake (coreId m))).dueOnce (.waitTimeout (coreId m)) else s1
      if k.barSt.isSome then s2.dueOnce (.barRelease (coreId m)) else s2) s

/-! ## LOCKSTEP pairs (R177) -/

/-- The checker's copy of what the pair shares. -/
def mirror (s : State) (leader : Nat) : State :=
  let p := s.core leader
  s.modCore (leader + 1) (fun k =>
    { k with
      mode := p.mode, regs := p.regs, pipe := p.pipe, trap := p.trap, task := p.task, nest := p.nest, waitSt := p.waitSt
      barSt := p.barSt, check := p.check, mismatch := p.mismatch, tiles := p.tiles, pool := p.pool
      mx := { k.mx with acc := p.mx.acc, mode := p.mx.mode, sample := p.mx.sample }
      ev := { k.ev with win := p.ev.win, org := p.ev.org, wtmo := p.ev.wtmo, lateDrop := p.ev.lateDrop, spill := p.ev.spill }
      evc := p.evc, evcSel := p.evcSel, trace := { k.trace with base := p.trace.base, len := p.trace.len } })

/-- The core of a pair of a LOCKSTEP gang is mirrored. -/
def mirrored (s : State) (c : Nat) : State :=
  let t := (s.core c).task
  if t.gang = 3 ∧ (s.core c).holdsTask then mirror s t.leader else s

/-- STREAM.STAT (R302). -/
def streamStat (k : Core) : Word :=
  let mask := fun (f : Strm → Bool) => (List.range 8).foldl (fun m i => if (k.streams[i]?.map f).getD false then m + 2 ^ i else m) 0
  BitVec.ofNat 64 (mask (·.bound) * 2 ^ 16 + mask (·.overB) * 2 ^ 8 + mask (·.endB))

/-- The control registers of a core that a task can write. -/
def Core.ctlRegs (k : Core) : CtlRegs :=
  { trap := k.trap, ends := k.streams.toList.map (fun x => (x.endB, x.overB)), mxMode := k.mx.mode, mxSample := k.mx.sample
    evWin := k.ev.win, evOrg := k.ev.org, evWtmo := k.ev.wtmo, evLate := k.ev.lateDrop, evSpill := k.ev.spill, evc := k.evc
    evcSel := k.evcSel, logBase := k.pool.base, traceBase := k.trace.base, traceLen := k.trace.len }

/-- They are put back. -/
def Core.withCtl (k : Core) (x : CtlRegs) : Core :=
  let ends := fun (i : Nat) (e : Strm) => match x.ends[i]? with
    | some b => { e with endB := b.1, overB := b.2 }
    | none => e
  { k with
    trap := x.trap
    streams := Vector.ofFn (fun i : Fin 8 => ends i.val (k.streams[i.val]))
    mx := { k.mx with mode := x.mxMode, sample := x.mxSample }
    ev := { k.ev with win := x.evWin, org := x.evOrg, wtmo := x.evWtmo, lateDrop := x.evLate, spill := x.evSpill }
    evc := x.evc
    evcSel := x.evcSel
    pool := { k.pool with base := x.logBase }
    trace := { k.trace with base := x.traceBase, len := x.traceLen } }

/-- The control registers as the context slot lists them (R423): TRAP, STREAM.STAT, MX.MODE, MX.SAMPLE, EV, EVC, LOG, TRACE. -/
def ctlWords (k : Core) : List Nat :=
  [k.trap.cause.toNat, k.trap.pc.toNat, k.trap.addr.toNat, k.trap.info.toNat, (streamStat k).toNat, k.mx.mode, k.mx.sample,
   k.ev.win, k.ev.org.toNat, k.ev.wtmo, k.ev.ldrop * 2 ^ 32 + b2n k.ev.lateDrop, k.ev.spillReg.toNat] ++
  k.evc.toList.map (·.toNat) ++ k.evcSel.toList.map (·.toNat) ++
  [k.pool.base.toNat, k.pool.stat.toNat, k.trace.base.toNat, k.trace.len.toNat, k.trace.count]

/-- The bytes of a checkpoint (R177): registers and masks, control registers, vector registers and slots, the tile table. -/
def checkBytes (k : Core) : List (Nat × Nat × Nat) :=
  (List.range 16).flatMap (fun i =>
    [(i * 8, 8, (k.regs.raw .k i).toNat), (128 + i * 8, 8, (k.regs.raw .q i).toNat),
     (832 + i * 64, 64, (k.regs.raw .v i).toNat), (1856 + i * 64, 64, (k.regs.raw .y i).toNat)]) ++
  (List.range 8).map (fun i => (256 + i * 8, 8, (k.regs.raw .m i).toNat)) ++
  (ctlWords k).mapIdx (fun i v => (320 + i * 8, 8, v)) ++
  (List.range 64).map (fun n =>
    let t := k.tile n
    (2880 + n * 32, 32, t.cfg.toNat + t.back.toNat * 2 ^ 64 + t.stat.toNat * 2 ^ 128))

/-- A checkpoint of a LOCKSTEP pair is taken, and its area in both scratchpads is written. -/
def takeCheck (s : State) (c : Nat) : State :=
  let t := (s.core c).task
  if t.gang ≠ 3 then s
  else
    let k := s.core t.leader
    let x : Check :=
      { regs := (k.settle).regs, ctl := k.ctlRegs, pc := k.pipe.hints.va.getD k.pipe.pc, tiles := k.tiles, nest := k.nest,
        rep := k.pipe.rep }
    let s1 := s.modCore t.leader (fun k => { k with check := some x, mismatch := false })
    [t.leader, t.leader + 1].foldl (fun s m =>
      (checkBytes k).foldl (fun s e => ringWrite s m (scratchLoc m + t.region + e.1) e.2.1 e.2.2) s) s1

/-- A mismatch: the pair goes back to its last checkpoint, or ends at a second one (R177). An SC operation that has still to perform
is behind the checkpoint and issues again. -/
def mismatchAt (s : State) (c : Nat) : State :=
  let l := (s.core c).task.leader
  let k := s.core l
  if k.task.gang ≠ 3 ∨ ¬ k.holdsTask then s
  else match k.mismatch, k.check with
    | false, some x =>
      let gone := s.scOps.filter (fun o => o.core.val = l ∧ o.op.isSome)
      let s0 : State := gone.foldl (fun s o => remoteUnsent s l o.pieces) { s with
        scOps := s.scOps.filter (fun o => o.core.val ≠ l) }
      let s1 := telemetry s0 (dieOf l) 10 l k.task.job (x.pc.toNat * 2 ^ 64)
      mirror (s1.modCore l (fun k => { k.withCtl x.ctl with
        regs := x.regs, tiles := x.tiles, nest := x.nest, mismatch := true, mode := .run, waitSt := none, barSt := none
        pipe := { k.pipe with
          pc := x.pc, hints := Hints.none, stalls := [], pend := [], rep := x.rep, inBody := false, skip := false } })) l
    | _, _ => endUnit s l (mkTrap cLockstep 0) (k.pipe.hints.va.getD k.pipe.pc)

/-! ## Helper faults delivered (R381) -/

def Strm.mode (x : Strm) : Nat := field x.desc 224 2
def mAgen : Nat := 0
def mLoader : Nat := 1
def mStorer : Nat := 2

def helperOf (k : Core) (storer : Bool) : Helper := if storer then k.storer else k.loader
def State.modHelper (s : State) (c : Nat) (storer : Bool) (f : Helper → Helper) : State :=
  s.modCore c (fun k => if storer then { k with storer := f k.storer } else { k with loader := f k.loader })

/-- After delivery the helper's streams act as if it had ended them (R379, R381); pops still wait for the reads in flight. -/
def helperDelivered (s : State) (c : Nat) (storer : Bool) : State :=
  let mode := if storer then mStorer else mLoader
  let s1 := s.modHelper c storer (fun h => { h with fault := none, delivered := true })
  s1.modCore c (fun k => { k with streams := k.streams.map (fun x =>
    if x.bound ∧ x.mode = mode then { x with endMark := true, fifo := if storer then [] else x.fifo } else x) })

/-! ## Taking a trap (R410 to R416, R176) -/

/-- The delivery classes of R410. -/
inductive TrapClass where
  | entry | buffer | endUnit
  deriving DecidableEq, Repr

def classOf (cause : Nat) : TrapClass :=
  if cause = cPageAbsent ∨ cause = cPagePerm ∨ cause = cLogFault then .buffer
  else if cause = cEcc ∨ cause = cLockstep ∨ cause = cWatchdog then .endUnit
  else .entry

/-- One core enters its trap entry (R412): issued results are written, the TRAP registers are written, ACT is set and the
task goes on at TRAPPC. Stall counts and hints are lost; nest and repetition state stay. -/
def enterTrap (k0 : Core) (t : TrapInfo) (pc : Word) : Core :=
  let k := k0.leaveBody.settle
  { k with
    mode := .run
    fetchBuf := none
    waitSt := none
    barSt := none
    mx := { k.mx with window := k.mx.window.filter (fun e => e.2 ≠ .task) }
    trap := { cause := BitVec.ofNat 64 (256 + t.cause), pc := pc, addr := t.addr, info := t.info ||| BitVec.ofNat 64 (b2n t.skip) }
    pipe := { k.pipe with
      pc := tyTrapPc k.task.entry
      hints := Hints.none
      skip := false
      rep := k.pipe.rep.map (fun r =>
        if r.held.isSome then r else { r with held := some pc, after := k.pipe.hints.va.getD k.pipe.pc }) } }

/-- A paging fault of a unit: the die's fault buffer takes it, and the unit aborts or parks (R179, R416). A fault of a fetch leaves
the address of its instruction in TRAP.PC (R233, R421), and LOG_FAULT all of its TRAP registers (R411), in a trap entry too.
(DEDUCED, unsafe; log 86.) -/
def bufferFault (s : State) (c : Nat) (t : TrapInfo) (pc : Word) : State :=
  let (h, s2) := fbHeld s c (s.core c).task.job { t with tag := 0 }
  let s3 := if t.cause = cLogFault then s2.modCore c (fun k => { k with trap := { k.trap with
      cause := setField k.trap.cause 0 8 cLogFault, pc := pc, addr := t.addr, info := t.info } })
    else if t.access = .fetch then s2.modCore c (fun k => { k with trap := { k.trap with pc := pc } })
    else s2
  if (unitMembers s3 c).any (fun m => (s3.core m).task.commit) then parkUnit s3 c h else abortUnit s3 c (some h)

/-- A fault held for a stream, a tile or a helper is taken, and held no longer; an instruction that waited for a tile waits no more. -/
def dropHeldFaults (s0 : State) (c : Nat) (t : TrapInfo) : State :=
  let s := if flag t.info 63 then helperDelivered s0 c (flag t.info 62) else s0
  s.modCore c (fun k => { k with
    streams := k.streams.map (fun x => { x with fault := none })
    pipe := { k.pipe with bodyWait := none }
    tiles := k.tiles.map (fun e => (e.1, { e.2 with fault := none })) })

/-- What the entry of a member of a broken gang reports (R176, R419). -/
def gangBreak (rank cause : Nat) : TrapInfo :=
  mkTrap cGangBreak 0 (BitVec.ofNat 64 (cause % 256 * 2 ^ 8 + rank % 4 * 4))

/-- A core's task takes a trap, its reads met at their homes. `c` is the member it strikes; `pcOf` gives each member's first
unissued instruction. -/
def takeTrap (s0 : State) (c : Nat) (t0 : TrapInfo) (pcOf : Nat → Word) : State :=
  let t := { t0 with met := [] }
  let s := dropHeldFaults (s0.meets (some c) t0) c t0
  let k := s.core c
  match classOf t.cause with
  | .buffer => bufferFault s c t (pcOf c)
  | .endUnit => if t.cause = cLockstep then mismatchAt s c else endUnit s c t (pcOf c)
  | .entry =>
    if tyTrapPc k.task.entry = 0 ∨ flag k.trap.cause 8 then endUnit s c t (pcOf c)
    else if (k.task.gang = 1 ∨ k.task.gang = 2) ∧ k.task.brk = false then
      (gangOf s c).foldl (fun s m => s.modCore m (fun x =>
        enterTrap { x with task := { x.task with brk := true } } (if m = c then t else gangBreak k.task.rank t.cause)
          (pcOf m))) s
    else mirrored (s.modCore c (fun x => enterTrap x t (pcOf c))) c

/-! ## Returning from a trap entry (R244, R253) -/

/-- `eret` of one core, in its trap entry. -/
def returnFromTrap (k0 : Core) : Core :=
  let k := k0.leaveBody.settle
  let skip := flag k.trap.info 0
  let k1 := { k with fetchBuf := none, trap := { k.trap with cause := setField k.trap.cause 8 1 0 } }
  match k.pipe.rep with
  | some r =>
    if r.held = some k.trap.pc then
      { k1 with pipe := { k1.pipe with
          pc := r.after, hints := Hints.none, skip := false
          rep := if skip then Rep.next { r with held := none } else some { r with held := none } } }
    else { k1 with pipe := { k1.pipe with pc := k.trap.pc, hints := Hints.none, skip := skip, rep := none } }
  | none => { k1 with pipe := { k1.pipe with pc := k.trap.pc, hints := Hints.none, skip := skip } }

/-! ## The retry after a flush (R417, R418) -/

/-- The fault is the one that a tag names. -/
def HeldFault.tagged (h : HeldFault) (die entry gen : Nat) : Bool :=
  decide (h.die = die ∧ h.index = some entry ∧ h.gen = gen)

def tagOf (x : Option HeldFault) (die entry gen : Nat) : Bool := (x.map (fun h => h.tagged die entry gen)).getD false

/-- A helper that waited on the fault goes on, or takes it as final. -/
def Helper.retry (h : Helper) (die entry gen : Nat) (killed : Bool) : Helper :=
  if tagOf h.held die entry gen then
    if killed then { h with held := none, running := false, missing := false, fault := h.held.map (·.trap) }
    else { h with held := none }
  else h

/-- The paging cause that an unserviceable entry reports (R418). -/
def finalTrap (t : TrapInfo) : TrapInfo :=
  if t.cause = cLogFault then { t with cause := t.kind, info := BitVec.ofNat 64 (t.flag * 16) } else t

/-- A retry reaches the cores: a parked unit resumes or ends, helpers and jobs go on. -/
def retryCores (s : State) (die entry gen : Nat) (killed : Bool) : State :=
  (s.cores.map (·.1)).foldl (fun s c =>
    let k := s.core c
    let s1 := s.modCore c (fun k => { k with
      loader := k.loader.retry die entry gen killed
      storer := k.storer.retry die entry gen killed })
    let held := k.jobs.filter (fun j => tagOf j.held die entry gen)
    let s2 := held.foldl (fun s j =>
      let s := setJob s c j.id (fun j => { j with held := none })
      if killed then (match j.held with
        | some h => endJob s c j { h.trap with tag := 0 }
        | none => s)
      else s.due (.jobComplete (coreId c) j.id)) s1
    match k.fault with
    | some h =>
      if h.tagged die entry gen then
        if killed then endUnit s2 c (finalTrap h.trap) k.firstUnissued
        else unparkUnit s2 c
      else s2
    | none => s2) s

/-- A queue's list once a fault is serviced: the records of units that it aborted are placed now, ahead of the others (R179); a
saved unit keeps its place (R384). -/
def requeued (now die entry gen : Nat) (l : List Ready) : List Ready :=
  let freed := fun (r : Ready) => tagOf r.fault die entry gen
  (l.filter (fun r => freed r && r.ctx.isNone)).map (fun r => { r with fault := none, placedAt := now }) ++
    (l.filter (fun r => !(freed r && r.ctx.isNone))).map (fun r => if freed r then { r with fault := none } else r)

/-- A record that waits for its fault goes on, or its unit ends (R418). -/
def retryRecords (s : State) (die entry gen : Nat) (killed : Bool) : State :=
  [0, 1].foldl (fun s d =>
    let hit := (s.die d).ready.filter (fun r => tagOf r.fault die entry gen) ++
      (s.die d).spill.filter (fun r => tagOf r.fault die entry gen)
    if hit = [] then s
    else if killed then
      let gone := fun (r : Ready) => hit.any (fun x => x.seq = r.seq)
      let s1 := s.modDie d (fun k => { k with
        ready := k.ready.filter (fun r => !gone r), spill := k.spill.filter (fun r => !gone r) })
      hit.foldl (fun s r =>
        let c := squareCore r.lane
        let t := finalTrap ((r.fault.map (·.trap)).getD (mkTrap cPageAbsent 0))
        let s1 := trapRecord s d { job := r.job, data := (trapData s t.cause 0 c (recLaunch r.record) (recType r.record) 0
          t.addr t.info r.rva 0) }
        let s2 := match r.ctx with
          | some u => { s1 with saved := s1.saved.filter (fun e => e.2.unit ≠ u) }
          | none => s1
        unitFinished s2 c r.job (recLaunch r.record) true) s1
    else
      (s.modDie d (fun k => { k with
        ready := requeued s.cyc die entry gen k.ready, spill := requeued s.cyc die entry gen k.spill })).dueOnce
        (.selection (dieId d))) s

/-- A retry reaches the helpers of saved tasks: they go on after the resumption, or their fault stands then (R383). -/
def retrySaved (s : State) (die entry gen : Nat) (killed : Bool) : State :=
  { s with saved := s.saved.map (fun e =>
      let k := e.2.core
      let k1 := { k with loader := k.loader.retry die entry gen killed, storer := k.storer.retry die entry gen killed }
      (e.1, { e.2 with core := k1 })) }

/-- A tagged retry reaches the agent that holds the entry; any other is discarded (R417). -/
def retryFault (s : State) (die entry gen : Nat) : State :=
  let key := gen * 512 + entry
  let killed := (s.die die).killed.contains key
  let s1 := s.modDie die (fun d => { d with killed := d.killed.filter (· ≠ key) })
  retryRecords (retrySaved (retryCores s1 die entry gen killed) die entry gen killed) die entry gen killed

end Sys2Proof.Machine
end

