-- ==== Sys2Proof/Machine/Store.lean ====
section
/-! DEFINITION. Stores of a task and of its storer: to memory, to tile slots and to the queue windows (11 R281 to R286, R306,
12 R316, 03 R74, R82). -/
namespace Sys2Proof.Machine

/-- A card stored into a copy-engine window is submitted, or refused with WINDOW_DENIED (R306). A task's is a release of its earlier
accesses (R137). -/
def submitWindow (s : State) (c va data : Nat) (storer : Bool) : Res State :=
  let k := cardOf data
  if k.engine ≠ 1 ∧ k.engine ≠ 4 then raise cWindowDenied va
  else match cardCheck s c k with
    | some (cause, addr) => raise cWindowDenied (if cause = cIllegalOp then va else addr)
    | none =>
      if (s.square (squareOf c)).copyWin.any (fun e => e.2.1.val = c) then stall
      else do
        let s1 ← if storer then pure s else settleTask s c 0
        match submitCard s1 c k with
        | none => stall
        | some s2 => pure (commit s2 c)

/-- A 64-byte store into the core's MXE queue window (R316). -/
def storeCommand (s : State) (c data : Nat) (storer : Bool) : Res State :=
  if storer then .ok (commit (arriveAtWindow s c (BitVec.ofNat 512 data) .storer) c)
  else taskAtWindow s c (BitVec.ofNat 512 data)

/-- The store may be logged (R82): a plain scalar store, naturally aligned. -/
def loggableStore (a : Access) (scalar : Bool) : Bool :=
  scalar && (a.len == 1 || a.len == 2 || a.len == 4 || a.len == 8) && decide (a.va % a.len = 0)

/-- A store into a tile slot (R74, R82). A READY tile is written at once, behind the stores it must not pass. -/
def storeTile (s : State) (a : Access) (n off data : Nat) (scalar : Bool) : Res State := do
  let t ← slotCheck s a n off
  let log := loggableStore a scalar
  if tileAwaited s a.core n ∧ log then stall
  if t.state = stReady ∨ log = false then
    let p ← slotReady s a n off
    let s1 ← orderBefore s a.core [p]
    let s2 ← writePieces (remoteSent s1 a.core [p]) a 0 [p] data
    pure (markDirty (remoteServed s2 a.core [p]) a.core n)
  else do
    orderWait s a.core []
    logOrWait s a.core n 0 (Nat.log2 a.len) off data a.va

/-- A store of the task: `scalar` for a plain scalar store, `release` for a release (R119). (DEDUCED, unsafe; log 18.) -/
def storeData (s : State) (a : Access) (data : Nat) (scalar release : Bool) : Res State := do
  let (r, t, s1) ← checkAccess s a
  match t with
  | .tile n off =>
    let s2 ← if release then drainAll s1 a.core else pure s1
    storeTile s2 a n off data scalar
  | .bytes ps =>
    match r.space with
    | .mxQueue => storeCommand s1 a.core data false
    | .copyQueue => submitWindow s1 a.core a.va data false
    | _ =>
      orderWait s1 a.core ps
      bufferStore (l1dInvalidate s1 a.core a.job a.va a.len) a.core ps a.len data release a.agent

/-- The checks of an access at issue: those of R41, and of a tile's slot those of R74. -/
def accessCheck (s : State) (a : Access) : Res State := do
  let (_, t, s1) ← checkAccess s a
  match t with
  | .tile n off =>
    let _ ← slotCheck s1 a n off
    pure s1
  | .bytes _ => pure s1

/-- Every element of a strided store, a gather or a scatter checked (R108, R285, R286): the first that fails is reported. -/
def accessChecks (s : State) : List Access → Res State
  | [] => .ok s
  | a :: as => do
    let s1 ← accessCheck s a
    accessChecks s1 as

/-- The elements on tile slots wait until each of their tiles is READY (R286). -/
def slotsReady (s : State) : List Access → Res Unit
  | [] => .ok ()
  | a :: as => do
    let (_, t, _) ← checkAccess s a
    match t with
    | .tile n off =>
      let _ ← slotReady s a n off
      slotsReady s as
    | .bytes _ => slotsReady s as

/-- All elements pass their checks and could be accessed now, before any performs (R108). -/
def elementsReady (s : State) (l : List Access) : Res State := do
  let s1 ← accessChecks s l
  slotsReady s1 l
  pure s1

def storeEach (s : State) : List (Access × Nat) → Res State
  | [] => .ok s
  | e :: es => do
    let s1 ← storeData s e.1 e.2 false false
    storeEach s1 es

def storeMany (s : State) (l : List (Access × Nat)) : Res State := do
  let s1 ← elementsReady s (l.map (·.1))
  storeEach s1 l

/-- The elements of a strided load or a gather in order: the values. What is left of an instruction whose element fails is
nothing (R108). -/
def loadEach (s : State) (cp : Option Nat) : List Access → Res (List Nat × State)
  | [] => .ok ([], s)
  | a :: as => do
    let (v, s1) ← loadData s a cp
    let (vs, s2) ← loadEach s1 cp as
    pure (v :: vs, s2)

/-- A storer's write of an element (R376, R380): it performs at once, and its core's L1D copies go (R99).
(DEDUCED, unsafe; log 37.) -/
def storeHelper (s : State) (a : Access) (data : Nat) : Res State := do
  let (r, t, s1) ← checkAccess s a
  match t with
  | .tile n off =>
    let p ← slotReady s1 a n off
    let s2 ← writePieces (remoteSent s1 a.core [p]) a 0 [p] data
    pure (markDirty (remoteServed s2 a.core [p]) a.core n)
  | .bytes ps =>
    match r.space with
    | .mxQueue => storeCommand s1 a.core data true
    | .copyQueue => submitWindow s1 a.core a.va data true
    | _ =>
      let s2 ← writePieces (remoteSent (l1dInvalidate s1 a.core a.job a.va a.len) a.core ps) a 0 ps data
      pure (remoteServed s2 a.core ps)

end Sys2Proof.Machine
end

