-- ==== Sys2Proof/Machine/Port.lean ====
section
/-! DEFINITION. Streams and the FIFOs they share with the helpers (11 R296 to R302, 14 R376 to R381). -/
namespace Sys2Proof.Machine

/-! ## A stream's descriptor (R296) -/

def Strm.writes (x : Strm) : Bool := flag x.desc 226
/-- The element width in bytes. -/
def Strm.ew (x : Strm) : Nat := 2 ^ field x.desc 227 3
def Strm.cp (x : Strm) : Nat := field x.desc 230 2

/-- Extent `i`, and signed stride `i`. -/
def Strm.extent (x : Strm) (i : Nat) : Nat := field x.desc (64 + 16 * i) 16 + 1
def Strm.stride (x : Strm) (i : Nat) : Int := sint (field x.desc (128 + 24 * i) 24) 24

/-- The number of elements. -/
def Strm.total (x : Strm) : Nat := x.extent 0 * x.extent 1 * x.extent 2 * x.extent 3

/-- The address of element `k` of an AGEN stream. -/
def Strm.addr (x : Strm) (k : Nat) : Nat :=
  let i0 := k % x.extent 0
  let i1 := k / x.extent 0 % x.extent 1
  let i2 := k / (x.extent 0 * x.extent 1) % x.extent 2
  let i3 := k / (x.extent 0 * x.extent 1 * x.extent 2)
  wrap ((field x.desc 0 64 : Int) + i0 * x.stride 0 + i1 * x.stride 1 + i2 * x.stride 2 + i3 * x.stride 3) 64

def Core.strm (k : Core) (i : Nat) : Strm := (k.streams[i]?).getD Strm.reset
def State.modStrm (s : State) (c i : Nat) (f : Strm → Strm) : State :=
  s.modCore c (fun k => { k with streams := k.streams.setIfInBounds i (f (k.strm i)) })

/-- The stream that a register names, bound or not (R189): `k12` to `k15`, `v12` to `v15`. -/
def streamOf (f : RegFile) (i : Nat) : Option Nat :=
  match f with
  | .k => if 12 ≤ i then some (i - 12) else none
  | .v => if 12 ≤ i then some (i - 8) else none
  | _ => none

/-! ## Helper faults delivered (R381) -/

/-- A helper's fault that stands is taken by the task's operation on one of its streams. (DEDUCED, unsafe; log 39.) -/
def helperFault (s : State) (c : Nat) (storer : Bool) : Res Unit :=
  match (helperOf (s.core c) storer).fault with
  | some t => .error (.trap t)
  | none => .ok ()

/-- The helper that serves a stream of this mode: its fault is taken, and while its code is missing operations on its FIFOs
wait (R383). -/
def streamFault (s : State) (c : Nat) (mode : Nat) : Res Unit := do
  if mode = mLoader ∨ mode = mStorer then
    helperFault s c (mode = mStorer)
    if (helperOf (s.core c) (mode = mStorer)).missing then stall

/-! ## Pops and pushes (R298) -/

/-- A pop of a bound read stream: the element, zero-extended. A LOADER stream's end waits for the reads in flight to it (R379, R381). -/
def popStream (s : State) (c i : Nat) : Res (Vec × State) := do
  let x := (s.core c).strm i
  streamFault s c x.mode
  let past : Vec × State := (0, s.modStrm c i (fun x => { x with endB := true }))
  if x.total ≤ x.pos then pure past
  else match x.fifo with
    | v :: rest =>
      let s1 := (s.modStrm c i (fun x => { x with fifo := rest, pos := x.pos + 1 })).modCore c (fun k => { k with
        pipe := { k.pipe with pops := k.pipe.pops ++ [(i, v)] } })
      let fin : Fin 8 := ⟨i % 8, Nat.mod_lt _ (by decide)⟩
      pure (v, if x.mode = mAgen ∧ x.fetched < x.total then s1.dueOnce (.streamFetch (coreId c) fin) else s1)
    | [] =>
      if x.mode = mLoader then (if x.endMark && !(s.core c).loader.reads.any (fun r => r.fifo = i) then pure past else stall)
      else match x.fault with
        | some t => .error (.trap t)
        | none => stall [.due (.streamFetch (coreId c) ⟨i % 8, Nat.mod_lt _ (by decide)⟩)]

/-- The store that the next push of an AGEN stream makes. -/
def pushAccess (s : State) (c : Nat) (x : Strm) : Access := { taskAccess s c .write (x.addr x.pos) x.ew 1 with cp := x.cp }

/-- The push of a value still to come, checked when its instruction issues: a helper's fault, and for an AGEN stream the store
(R298, R381). -/
def pushCheck (s : State) (c i : Nat) : Res State := do
  let x := (s.core c).strm i
  streamFault s c x.mode
  if x.mode = mAgen ∧ x.pos < x.total then accessCheck s (pushAccess s c x) else pure s

/-- Elements popped stand again at the heads of their streams, in their order (R189). -/
def giveBack (s : State) (c : Nat) (pops : List (Nat × BitVec 512)) : State :=
  pops.foldr (fun e s => s.modStrm c e.1 (fun x => { x with fifo := e.2 :: x.fifo, pos := x.pos - 1 })) s

/-- A push to a bound write stream; one into a STORER FIFO is a release of the task's earlier accesses (R380). A push of 1 to 8 bytes counts as a plain scalar store (R82). (DEDUCED, unsafe; log 47.)
(DESIGN CHOICE, unsafe; log 85.) -/
def pushStream (s : State) (c i : Nat) (v : Vec) : Res State := do
  let x := (s.core c).strm i
  streamFault s c x.mode
  let data := v.toNat % 2 ^ (8 * x.ew)
  if x.total ≤ x.pos ∨ (x.mode = mStorer ∧ x.endMark) then pure (s.modStrm c i (fun x => { x with overB := true }))
  else if x.mode = mAgen then
    let s1 ← storeData s (pushAccess s c x) data (x.ew ≤ 8) false
    pure (s1.modStrm c i (fun x => { x with pos := x.pos + 1 }))
  else if 8 ≤ x.fifo.length then stall
  else do
    let s1 ← settleTask s c 0
    pure (s1.modStrm c i (fun x => { x with fifo := x.fifo ++ [BitVec.ofNat 512 data], pos := x.pos + 1 }))

/-- The tile whose slot an address lies in. -/
def slotOf (va : Nat) : Option Nat :=
  match rowOf va with
  | some r => match r.space with
    | .slot n => some n
    | _ => none
  | none => none

/-- The stream unit fetches the next element of an AGEN read stream (R298, R299). A fault is held for the pop. While the fetch
waits for a tile, loggable operations to it wait (R90). The fault's address is the element's; a paging fault keeps the address to be
served, which its fault-buffer entry reports (R416). (DEDUCED, safe; log 93.) -/
def fetchElement (s : State) (c i : Nat) : State :=
  let x := (s.core c).strm i
  let fin : Fin 8 := ⟨i % 8, Nat.mod_lt _ (by decide)⟩
  if ¬ x.bound ∨ x.mode ≠ mAgen ∨ x.writes ∨ x.total ≤ x.fetched ∨ 8 ≤ x.fifo.length ∨ x.fault.isSome ∨
      ¬ (s.core c).holdsTask then s
  else
    let va := x.addr x.fetched
    let waits := fun (s : State) (b : Bool) => match slotOf va with
      | some n => s.modTile c n (fun t => { t with
          waiters := if b then (if t.waiters.contains i then t.waiters else i :: t.waiters) else t.waiters.filter (· ≠ i) })
      | none => s
    match loadData s (taskAccess s c .read va x.ew 1) (some x.cp) with
    | .ok (v, s1) =>
      let s2 := (waits s1 false).modStrm c i (fun x => { x with
        fifo := x.fifo ++ [BitVec.ofNat 512 v], fetched := x.fetched + 1 })
      s2.dueOnce (.streamFetch (coreId c) fin)
    | .error (.trap t) =>
      let at_ := if t.cause = cPageAbsent ∨ t.cause = cPagePerm then t.addr else BitVec.ofNat 64 va
      (waits (s.meets (some c) t) false).modStrm c i (fun x => { x with fault := some { t with addr := at_, met := [] } })
    | .error (.stall reqs) => (applyReqs (waits s true) reqs).dueOnce (.streamFetch (coreId c) fin)

/-- Stream `i` ends (R300): its FIFO goes, with the loader's reads in flight for it. -/
def endStream (s : State) (c i : Nat) : State :=
  let x := (s.core c).strm i
  let s0 := match slotOf (x.addr x.fetched) with
    | some n => if x.bound ∧ x.mode = mAgen ∧ ¬ x.writes then s.modTile c n (fun t => { t with waiters := t.waiters.filter (· ≠ i) }) else s
    | none => s
  (s0.modStrm c i (fun x => { x with
    bound := false, fifo := [], endMark := false, part := 0, parts := 0, fault := none })).modHelper c false
      (fun h => { h with reads := h.reads.filter (fun r => r.fifo ≠ i) })

/-- `sunbind` of a bound stream (R300): a write stream waits until it is empty and its elements have performed. -/
def unbindStream (s : State) (c i : Nat) : Res State := do
  let x := (s.core c).strm i
  if x.bound = false then pure s
  else
    streamFault s c x.mode
    if (s.core c).pushing i ∨ (x.writes ∧ x.mode = mStorer ∧ x.fifo ≠ []) then stall
    let s1 ← if x.writes then drainAll s c else pure s
    pure (endStream s1 c i)

/-! ## The loader's reads in flight (R377) -/

/-- The access of a helper to the device (R380). -/
def helperAccess (s : State) (c : Nat) (storer : Bool) (kind : AccessKind) (va len : Nat) : Access :=
  { taskAccess s c kind va len 1 with agent := if storer then .storer else .loader }

/-- Places of a FIFO that are taken. (DEDUCED, unsafe; log 66.) -/
def placesTaken (k : Core) (i : Nat) : Nat :=
  let x := k.strm i
  x.fifo.length + (k.loader.reads.filter (fun r => r.fifo = i)).length + (if x.mode = mLoader ∧ x.parts ≠ 0 then 1 else 0)

/-- A helper's fault at its instruction (R381, R411): a paging fault waits for its entry's retry, any other stops it. The entry of a
transfer that its access demanded names the paging engine (R416). -/
def helperTrap (s0 : State) (c : Nat) (storer : Bool) (t0 : TrapInfo) (pc : Nat) : State :=
  let info := BitVec.ofNat 64 (2 ^ 63 + b2n storer * 2 ^ 62 + pc % 2 ^ 14 * 2 ^ 48)
  let agent := if t0.agent = .paging then .paging else if storer then .storer else .loader
  let t := { t0 with info := t0.info ||| info, agent := agent, met := [] }
  let s := (s0.meets (some c) t0).modCore c (fun k => { k with tiles := k.tiles.map (fun e =>
    (e.1, if e.2.fault = some t0 then { e.2 with fault := none } else e.2)) })
  if t.cause = cPageAbsent ∨ t.cause = cPagePerm then
    let (h, s1) := fbHeld s c (s.core c).task.job t
    s1.modHelper c storer (fun x => { x with held := some h })
  else s.modHelper c storer (fun x => { x with fault := some t, running := false })

/-- A load of a helper at its home (R380). -/
def helperLoad (s : State) (a : Access) : Res (Nat × State) := do
  let (_, t, s1) ← checkAccess s a
  match t with
  | .bytes ps => readPieces s1 a ps
  | .tile n off => do
    let p ← slotReady s1 a n off
    readPiece s1 a p

/-- The oldest read in flight returns: its element enters its FIFO, or waits in its place behind an element that `yl.push` has
begun (R377). A fault is taken at its `yl.ld`: a paging fault leaves the read in flight, any other drops it and the reads behind
it. (DEDUCED, unsafe; log 66.) -/
def loaderReturn (s : State) (c : Nat) : State :=
  let h := (s.core c).loader
  match h.reads.span (·.value.isSome) with
  | (_, []) => s
  | (before, r :: later) =>
    let again := fun (s : State) => s.dueOnce (.loaderReturn (coreId c))
    let drop := fun (s : State) => s.modHelper c false (fun h => { h with reads := before })
    if h.held.isSome then s
    else
      match helperLoad s (helperAccess s c false .read r.va ((s.core c).strm r.fifo).ew) with
      | .error (.trap t) =>
        if h.fault.isSome then drop s
        else
          let s1 := helperTrap s c false t r.pc
          if (s1.core c).loader.held.isSome then s1 else if h.delivered then drop s else drop s1
      | .error (.stall reqs) => again (applyReqs s reqs)
      | .ok (v, s1) =>
        let got := BitVec.ofNat 512 v
        let waits := ((s1.core c).strm r.fifo).parts != 0
        let s2 := if waits then s1 else s1.modStrm c r.fifo (fun x => { x with fifo := x.fifo ++ [got] })
        again (s2.modHelper c false (fun h => { h with
          reads := before ++ (if waits then [{ r with value := some got }] else []) ++ later }))

end Sys2Proof.Machine
end

