-- ==== Sys2Proof/Machine/Context.lean ====
section
/-! DEFINITION. Pre-emption: the drain, the context slot, and the resumption of a saved unit (16 R422 to R424, 03 R94, 13 R360,
14 R374, R375, R383, 02 R62). -/
namespace Sys2Proof.Machine

/-! ## Reads of a job's structures that may fail -/

/-- A read of the hardware for a job: the value, or the address that failed. -/
def hwTry (s : State) (job va n : Nat) : Except TrapInfo (Nat × State) :=
  match readRange s (hwAccess 0 job va n .read) (rangeFuel n) va n with
  | .ok r => .ok r
  | .error (.trap t) => .error t
  | .error (.stall _) => .error (mkTrap cWindowDenied va)

/-! ## Helper images (R374, R375) -/

/-- The header of an image, if it is within the limits. -/
def imageHeader (v : Nat) : Option (Nat × Nat) :=
  let code := bits v 0 32
  let data := bits v 32 32
  if code % 4 = 0 ∧ data % 4 = 0 ∧ 4 ≤ code ∧ code ≤ 16384 ∧ data ≤ 16384 then some (code, data) else none

/-- An image can be read and its header is right; else the address whose read failed, 0 for a bad header. -/
def imageCheck (s : State) (job va : Nat) : Except Nat State :=
  if va = 0 then .ok s
  else if va % 8 ≠ 0 ∨ 2 ^ 53 ≤ va then .error 0
  else match hwTry s job va 8 with
    | .error t => .error t.addr.toNat
    | .ok (v, s1) =>
      match imageHeader v with
      | none => .error 0
      | some (code, data) =>
        match hwTry s1 job (va + 8) (code + data) with
        | .error t => .error t.addr.toNat
        | .ok (_, s2) => .ok s2

/-- The code of an image copied into a helper's store, and with `fresh` its data too; the copy of the code is skipped when the
store holds the image. -/
def copyImage (s : State) (c : Nat) (storer : Bool) (job va : Nat) (fresh : Bool) : Except TrapInfo State := do
  let (v, s1) ← hwTry s job va 8
  let (code, data) := (bits v 0 32, bits v 32 32)
  let held := (helperOf (s.core c) storer).image = some (job, BitVec.ofNat 64 va)
  let s2 ← if held then pure s1
    else do
      let (x, s2) ← hwTry s1 job (va + 8) code
      pure ((s2.clearRange (codeLoc c storer) (codeLoc c storer + 0x4000)).write (codeLoc c storer) code x)
  let s3 ← if fresh then do
      let (y, s3) ← hwTry s2 job (va + 8 + code) data
      pure ((s3.clearRange (dataLoc c storer) (dataLoc c storer + 0x4000)).write (dataLoc c storer) data y)
    else pure s2
  pure (s3.modHelper c storer (fun h => { h with image := some (job, BitVec.ofNat 64 va) }))

/-! ## The context slot (R422, R423) -/

def ctxWord (s : State) (job die : Nat) : Word := if die = 0 then (s.job job).ctx0 else (s.job job).ctx1

/-- The lowest `n` free slots of a job's pool on a die; none while there are not so many. -/
def freeSlots (s : State) (job die n : Nat) : Option (List Nat) :=
  let used := (s.saved.filter (fun e => e.2.job = job ∧ e.2.die = die)).map (·.2.slot)
  let free := ((List.range (field (ctxWord s job die) 0 13)).filter (fun i => !used.contains i)).take n
  if free.length = n then some free else none

def slotVa (s : State) (job die slot : Nat) : Nat := (ctxWord s job die).toNat / 2 ^ 20 * 2 ^ 20 + slot * 2 ^ 20

/-- The stretches of storage that a slot holds as bytes: offset in the slot, location, length. -/
def slotParts (s : State) (c : Nat) (dirs : List Nat) : List (Nat × Nat × Nat) :=
  let e := (s.core c).task.entry
  let lent := dirs.flatMap (fun d =>
    match neighbour c d with
    | some n => [(0x22000 + d * 0x200, lentRegLoc n + facing d * 0x200, 0x200),
                 (0x64000 + d * 0x10000, scratchLoc n + facing d * 0x10000, 0x10000)]
    | none => [])
  [(0x8000, laneLoc c 0, 0x10000)] ++
  (if tyLdProg e = 0 then [] else [(0x19000, dataLoc c false, 0x4000)]) ++
  (if tyStProg e = 0 then [] else [(0x1E000, dataLoc c true, 0x4000)]) ++
  (if tySpad e = 0 then [] else [(0x24000, scratchLoc c, tySpad e * 4096)]) ++ lent

/-- Values laid one after another, `w` bits each. -/
def laid (w : Nat) : List Nat → Nat
  | [] => 0
  | v :: vs => v % 2 ^ w + laid w vs * 2 ^ w

/-- Values of `n` bytes each that stand one after another from an offset of a slot. -/
def laidAt (off n : Nat) (l : List Nat) : Nat × Nat × Nat := (off, n * l.length, laid (8 * n) l)

/-- The register files as a slot holds them. -/
def slotRegs (k : Core) : List (Nat × Nat × Nat) :=
  let raw := fun (f : RegFile) (n : Nat) => (List.range n).map (fun i => (k.regs.raw f i).toNat)
  [laidAt 0x40 8 (raw .k 16), laidAt 0xC0 8 (raw .q 16), laidAt 0x140 8 (raw .m 8), laidAt 0x1000 64 (raw .v 16),
   laidAt 0x1400 64 (raw .y 16)]

/-- What a slot holds of the event queue (R360, R423): EVH, LT, the window number, the enabled mask and the cycle of the stale
timer, the FIFO events of 16 bytes, behind them their slots and ranks of arrival, and for each event in the spill ring its slot and
its place in the order of arrival. The spec leaves the bits of a tracking entry open: the slot stands in its lowest three.
(DESIGN CHOICE, unsafe; log 13.) -/
def slotEvents (q : EvQueue) : List (Nat × Nat × Nat) :=
  let fifo := q.events.filter (·.ring.isNone)
  let ring := (q.events.zipIdx).filterMap (fun e => e.1.ring.map (fun j => (e.1.slot, e.2, j)))
  [(0x500, 16, q.evh.toNat), laidAt 0x510 8 (q.lt.toList ++ [q.wnum, q.enabled, q.staleAt]),
   laidAt 0x22800 16 (fifo.map (fun e => e.hdr.toNat + e.pay.toNat * 2 ^ 64)),
   laidAt 0x23800 8 (fifo.map (fun e => e.slot + e.arr * 8))] ++
  ring.map (fun e => (0xA4000 + e.2.2 % max 1 q.ringSize * 4, 4, e.1 + e.2.1 * 8))

/-- The control registers as a slot holds them (R423). -/
def slotCtl (k : Core) : Nat × Nat × Nat := laidAt 0x180 8 (ctlWords k)

/-- A table's entries packed, each `w` bits wide at its number; and the table of the entries that are not 0. -/
def packed (w : Nat) (t : Table Nat) : Nat := t.foldl (fun a e => a + e.2 % 2 ^ w * 2 ^ (w * e.1)) 0

def unpacked (w n v : Nat) : Table Nat :=
  ((List.range n).map (fun i => (i, bits v (w * i) w))).filter (fun e => e.2 ≠ 0)

/-- The bytes of the parts of a slot from one offset to another. -/
def partSize (parts : List (Nat × Nat × Nat)) (lo hi : Nat) : Nat :=
  parts.foldl (fun a e => if lo ≤ e.1 ∧ e.1 < hi then a + e.2.1 else a) 0

/-- The header of a slot (R423): record, PC, state with ACT and COMMIT, the fault entry's index and GEN, and the sizes of the parts:
loader, storer, lent register quarters, events, region, lent scratchpad quarters. The slots of the queues stand by age: the ages of
their heads are 0. (DESIGN CHOICE, unsafe; log 13.) -/
def slotHeader (k : Core) (pc : Word) (parts : List (Nat × Nat × Nat)) : Nat × Nat × Nat :=
  let st := match k.mode with | .wait => 1 | .park => 2 | _ => 0
  let entry := match k.fault with | some f => (f.index.map (· + 1)).getD 0 + f.gen * 2 ^ 16 | none => 0
  let size := partSize parts
  laidAt 0 8 [k.task.record.toNat, k.task.record.toNat / 2 ^ 64, pc.toNat,
    st + (if k.trap.cause.getLsbD 8 then 2 ^ 8 else 0) + b2n k.task.commit * 2 ^ 16, entry,
    laid 32 [size 0x18000 0x1D000, size 0x1D000 0x22000], laid 32 [size 0x22000 0x22800, size 0x22800 0x24000],
    laid 32 [size 0x24000 0x64000, size 0x64000 0xA4000]]

/-- The nest, the repetition, the wait and the barrier in a slot (R423). (DESIGN CHOICE, unsafe; log 13.) -/
def slotControl (k : Core) : List (Nat × Nat × Nat) :=
  let n := k.nest
  laidAt 0x380 8 (([b2n n.active, n.cnt.toNat, n.parts, n.minChunk, n.order, n.pos, n.stop] ++ n.e).take 16) ::
  (match k.pipe.rep with
    | some r => [laidAt 0x400 8 [r.n, r.total, r.stagger, r.step, r.j, r.pos, r.after.toNat, (r.held.map (·.toNat)).getD 0],
        laidAt 0x440 4 ((r.body.take 8).map (·.word))]
    | none => []) ++
  (match k.waitSt with
    | some w => [(0x480, 64, w.desc.toNat), laidAt 0x4C0 8 [w.ctl.toNat, w.deadline, w.d]]
    | none => []) ++
  (match k.barSt with
    | some b => [laidAt 0x4E0 8 [b.va.toNat, b.g.toNat, b.index, b.d]]
    | none => [])

/-- The streams, the tile table, and the gang and MXE state in a slot (R423). (DESIGN CHOICE, unsafe; log 13.) -/
def slotUnits (k : Core) : List (Nat × Nat × Nat) :=
  let l := k.mx.latch
  [laidAt 0x580 64 (k.streams.toList.map (fun x => x.desc.toNat + x.pos % 2 ^ 64 * 2 ^ 256 +
      laid 1 [b2n x.bound, b2n x.endB, b2n x.overB, b2n x.endMark] * 2 ^ 320)),
   laidAt 0x780 32 ((List.range 64).map (fun n =>
      let t := k.tile n
      t.cfg.toNat + t.back.toNat * 2 ^ 64 + t.stat.toNat * 2 ^ 128 + laid 16 [t.logHead, t.logTail] * 2 ^ 192)),
   laidAt 0xF80 8 [k.task.gang, k.task.rank, b2n k.mismatch, k.mx.sb0.toNat, k.mx.sb1.toNat, l.fmt, l.n, l.k, b2n l.sparse],
   (0x1800, 0x800, packed 4 k.mx.staging), (0x2000, 0x2000, l.weights % 2 ^ 65536),
   (0x4000, 0x4000, packed 32 (k.mx.acc.map (fun e => (e.1, e.2.toNat))))]

/-- The place of a stream's FIFO in a helper's part of a slot, and the bytes of an element: the `k` streams have 64 bytes each, the
`v` streams 512. -/
def fifoPlace (i : Nat) : Nat × Nat := if i < 4 then (0x200 + i * 64, 8) else (0x400 + (i - 4) * 512, 64)

/-- A helper's registers, HB and PC in a slot, and the FIFOs, end marks and begun elements of its streams (R383, R423).
(DESIGN CHOICE, unsafe; log 13.) -/
def slotHelper (k : Core) (storer : Bool) : List (Nat × Nat × Nat) :=
  let h := helperOf k storer
  let base := if storer then 0x1D000 else 0x18000
  let fifos := (k.streams.toList.zipIdx).filter (fun e => e.1.mode = if storer then mStorer else mLoader)
  [laidAt base 4 (h.x.toList.map (·.toNat)),
   laidAt (base + 0x80) 8 (h.hb.toList.map (·.toNat) ++ [h.pc.toNat, laid 1 [b2n h.running, b2n h.ended, b2n h.delivered]])] ++
  fifos.flatMap (fun (x, i) =>
    [laidAt (base + 0xC0 + i * 8) 8 [x.fifo.length + b2n x.endMark * 2 ^ 8 + x.parts * 2 ^ 16],
     laidAt (base + (fifoPlace i).1) (fifoPlace i).2 ((x.fifo.take 8).map (·.toNat)),
     laidAt (base + 0xC00 + i * 64) 64 [x.part.toNat]])

/-- The stretches of storage read for a slot. -/
def savedParts (s : State) (c : Nat) : List (Nat × Nat × Nat) → List (Nat × Nat × Nat) × State
  | [] => ([], s)
  | (off, loc, n) :: rest =>
    let (v, s1) := ringRead s c loc n
    let (l, s2) := savedParts s1 c rest
    ((off, n, v) :: l, s2)

/-- Values written into a slot. -/
def writeParts (s : State) (job base : Nat) : List (Nat × Nat × Nat) → Except Stop State
  | [] => .ok s
  | (off, n, v) :: rest => do
    let s1 ← writeRange s (hwAccess 0 job (base + off) n .write) (rangeFuel n) (base + off) n v
    writeParts s1 job base rest

/-- The tile table as it is saved (R94). -/
def savedTile (t : Tile) : Tile :=
  if t.home = 0 ∨ t.conf = false then { t with fault := none, wanted := false, waiters := [] }
  else if t.paged then { t with
    state := stEmpty, dirty := false, pinned := false, ferr := false, keep := false, fault := none, wanted := false, waiters := [] }
  else { Tile.reset with cfg := t.cfg, conf := true, state := stReady }

/-- The directions in which a core's neighbours lend to it. -/
def lentDirs (s : State) (c : Nat) : List Nat :=
  (List.range 4).filter (fun d => match neighbour c d with
    | some n => lendsTo s c d n
    | none => false)

/-- One member saved in a slot under a number of its own. (DESIGN CHOICE, unsafe; log 13.) -/
def saveMember (s : State) (c unit key slot : Nat) : Except Stop State := do
  let k := (s.core c).leaveBody.settle
  let die := dieOf c
  let job := k.task.job
  let base := slotVa s job die slot
  let dirs := lentDirs s c
  let (parts, s0) := savedParts s c (slotParts s c dirs)
  let pending := (k.jobs.filter (fun j => j.engine ≠ 0 ∧ j.engine ≠ 9 ∧ k.task.jobsFrom < j.id)).map (fun j => (c, j.id))
  let pc := k.pipe.hints.va.getD k.pipe.pc
  let kept : Core :=
    { k with
      tiles := k.tiles.map (fun e => (e.1, savedTile e.2))
      task := { k.task with elsewhere := k.task.elsewhere ++ pending }
      jobs := [], l1d := [], l1i := [], fills := [], fetchBuf := none, atoms := [], near := [], preempt := none, deque := []
      spilled := []
      streams := k.streams.map (fun x => if x.mode = mAgen then { x with fifo := [], fetched := x.pos, fault := none } else x)
      pipe := { Pipe.reset with pc := pc, gva := k.pipe.gva, pops := k.pipe.pops, rep := k.pipe.rep, skip := k.pipe.skip } }
  let body := slotRegs kept ++ [slotCtl kept] ++ slotControl kept ++ slotUnits kept ++ slotEvents kept.ev ++
    (if tyLdProg k.task.entry = 0 then [] else slotHelper kept false) ++ (if tyStProg k.task.entry = 0 then [] else slotHelper kept true) ++
    parts
  let s1 ← writeParts s0 job base (slotHeader kept pc body :: body)
  let x : Saved := { unit := unit, job := job, die := die, slot := slot, core := kept, fromCore := coreId c, was := k.mode,
                     lent := dirs }
  pure { s1 with saved := Table.set s1.saved key x }

/-- The members saved in slots of their own. (DESIGN CHOICE, unsafe; log 41.) -/
def saveMembers (s : State) (unit : Nat) : List (Nat × Nat) → Except Stop State
  | [] => .ok s
  | (c, slot) :: rest => do
    let s1 ← saveMember s c unit s.seq slot
    saveMembers { s1 with seq := s1.seq + 1 } unit rest

/-! ## The drain (R422) -/

/-- Between instruction groups, or between repetitions (R244). -/
def atPoint (k : Core) : Bool :=
  k.tlbWait.isNone && (match k.pipe.rep with
    | some r => r.held.isSome || r.pos == 0
    | none => true)

/-- The loader's reads in flight complete (R383). -/
def finishReads (c : Nat) : Nat → State → State
  | 0, s => s
  | fuel + 1, s =>
    let h := (s.core c).loader
    if h.reads.all (·.value.isSome) ∨ h.held.isSome then s else finishReads c fuel (loaderReturn s c)

/-- What still keeps a member from being saved after its results are in. -/
def stillBusy (s : State) (c : Nat) : Bool :=
  let k := s.core c
  s.scOps.any (fun o => o.core.val = c) || k.awaits || k.mx.queue != [] || k.mx.window.any (fun e => e.2 != .task) ||
    (s.square (squareOf c)).copyWin.any (fun e => e.2.1.val = c) ||
    (k.loader.reads.any (·.value.isNone) && !k.loader.held.isSome) || slotsQueued s c ||
    k.tiles.any (fun e => e.2.moving.isSome || (e.2.conf && e.2.paged && e.2.home == 1 && e.2.dirty))

/-- One member's drain goes as far as it can. -/
def drainMember (s : State) (c : Nat) : Except Stop State := do
  let s0 ← settleNear (s.modMx c (fun m => { m with window := m.window.filter (fun e => e.2 ≠ .task) })) c
  let s1 ← drainAll s0 c
  let s2 := finishReads c 64 (disarmAll s1 c)
  let dirty := (s2.core c).tiles.filter (fun e =>
    e.2.conf && e.2.paged && e.2.home == 1 && e.2.dirty && e.2.state == stReady && e.2.moving.isNone && !transferHeld s2 c e.2)
  pure (dirty.foldl (fun s e => requestEvict s c e.1 byNone) s2)

def drainMembers (s : State) : List Nat → Except Stop State
  | [] => .ok s
  | c :: cs => do
    let s1 ← drainMember s c
    drainMembers s1 cs

/-- The queue descriptor that holds a descheduled producer (R399). -/
def holdOf : PreemptReason → Option Word
  | .watermark q => some q
  | _ => none

/-- The saved unit's record goes back to the lane of the square it left, behind records of equal priority (R384). -/
def placeSaved (s : State) (c unit : Nat) (reason : PreemptReason) (fault : Option HeldFault) : State :=
  placeReady s (dieOf c) false { requeuedAs s c with ctx := some unit, hold := holdOf reason, fault := fault }

/-- A pre-emption of the core's unit is under way. -/
def preempting (s : State) (c : Nat) : Bool := (unitMembers s c).any (fun m => (s.core m).preempt.isSome)

/-- The task's level or an ancestor is hard-cancelled (R172). -/
def hardCancelled (s : State) (c : Nat) : Bool :=
  let t := (s.core c).task
  levelHardCancelling s t.job (recLaunch t.record)

/-- A core waits or is parked. -/
def asleep (k : Core) : Bool := k.mode == .wait || k.mode == .park

/-- A hard cancel reaches a bound unit: it is discarded at once if it waits or is parked, else at its next pre-emption point. -/
def hardCancelAt (s : State) (c : Nat) : State :=
  let k := s.core c
  if ¬ k.holdsTask ∨ k.task.ending then s
  else if (unitMembers s c).all (fun m => asleep (s.core m)) then discardUnit s c false
  else (s.modCore c (fun k => { k with preempt := some (k.preempt.getD .request) })).dueOnce (.preemptDone (coreId c))

/-- A pre-emption goes on: once every member of the unit stands at a pre-emption point it drains, and once all is drained the unit
is saved and its cores are IDLE. It waits for a `done` that has issued. (DESIGN CHOICE, unsafe; log 41.) -/
def preemptStep (s : State) (c : Nat) : State :=
  let k := s.core c
  let again := fun (s : State) => s.dueOnce (.preemptDone (coreId c))
  let ms := unitMembers s c
  match k.preempt with
  | none => s
  | some reason =>
    if ¬ k.holdsTask then s.modCore c (fun k => { k with preempt := none })
    else if ms.any (fun m => (s.core m).task.ending) then again s
    else if hardCancelled s c ∧ ms.all (fun m => atPoint (s.core m) || asleep (s.core m)) then discardUnit s c false
    else if ms.any (fun m => !atPoint (s.core m)) then again s
    else
      match freeSlots s k.task.job (dieOf c) ms.length with
      | none => again s
      | some slots =>
        match drainMembers s ms with
        | .error (.trap t) => endUnit s c t k.firstUnissued
        | .error (.stall reqs) => again (applyReqs s reqs)
        | .ok s1 =>
          if ms.any (stillBusy s1) then again s1
          else
            let fault := ms.findSome? (fun m => (s1.core m).fault)
            let unit := s1.seq
            let s2 := ms.foldl (fun s m => releaseBlocks (spillAll s m) m (fun _ => true)) s1
            match saveMembers s2 unit (ms.zip slots) with
            | .error _ => again s1
            | .ok s3 =>
              let s4 := placeSaved s3 c unit reason fault
              ms.foldl idleCore (ms.foldl (fun s m => s.modCore m (fun k =>
                let clean := Core.reset m
                { k with
                  pipe := { clean.pipe with lastIssue := k.pipe.lastIssue }
                  regs := clean.regs, nest := clean.nest, waitSt := none, barSt := none, fault := none, preempt := none
                  check := none, mismatch := false, streams := clean.streams, tiles := [], pool := clean.pool
                  ev := clean.ev, trace := clean.trace, loader := k.loader.stop, storer := k.storer.stop })) s4)

/-! ## Resumption (R422, R423) -/

/-- The members of a saved unit, in rank order, each with its number. -/
def savedMembers (s : State) (unit : Nat) : List (Nat × Saved) := s.saved.filter (fun e => e.2.unit = unit)

/-- The bytes of a slot read back; the rows of a scratchpad with their parity (R49). A bit error that stands in a row or word written so
stays. (DESIGN CHOICE, unsafe; log 95.) -/
def readParts (s : State) (job base : Nat) : List (Nat × Nat × Nat) → State
  | [] => s
  | (off, loc, n) :: rest =>
    match hwTry s job (base + off) n with
    | .ok (v, s1) => readParts (putBytes s1 loc n v) job base rest
    | .error _ => readParts s job base rest

/-- The `i`-th of the values of `n` bytes that stand one after another from an offset, in the bytes of a slot. -/
def slotWord (x off n i : Nat) : Nat := bits x ((off + n * i) * 8) (n * 8)

/-- The registers read back from the bytes of a slot. -/
def readRegs (x : Nat) (r : Regs) : Regs :=
  let at_ := fun (off n i : Nat) => BitVec.ofNat 512 (slotWord x off n i)
  (List.range 16).foldl (fun r i =>
    let r1 := (((r.put .k i (at_ 0x40 8 i)).put .q i (at_ 0xC0 8 i)).put .v i (at_ 0x1000 64 i)).put .y i (at_ 0x1400 64 i)
    if i < 8 then r1.put .m i (at_ 0x140 8 i) else r1) r

/-- The control registers read back, in the order of `ctlWords`. -/
def readCtl (x : Nat) (k : Core) : Core :=
  let w := fun (i : Nat) => slotWord x 0x180 8 i
  let v := fun (i : Nat) => BitVec.ofNat 64 (w i)
  { k with
    trap := { cause := v 0, pc := v 1, addr := v 2, info := v 3 }
    mx := { k.mx with mode := w 5, sample := w 6 }
    ev := { k.ev with win := w 7, org := v 8, wtmo := w 9, lateDrop := bit (w 10) 0, ldrop := w 10 / 2 ^ 32
                      spill := BitVec.ofNat 64 (w 11 % 2 ^ 32), drops := w 11 / 2 ^ 32 }
    evc := Vector.ofFn (fun i : Fin 8 => v (12 + i.val))
    evcSel := Vector.ofFn (fun i : Fin 8 => v (20 + i.val))
    pool := { k.pool with base := v 28, ovf := bits (w 29) 32 32, peak := bits (w 29) 16 13 }
    trace := { k.trace with base := v 30, len := v 31, count := w 32 } }

/-- The nest, the repetition, the wait and the barrier read back. The hints of a captured instruction and its address have no place in
a slot. (DESIGN CHOICE, unsafe; log 13.) -/
def readControl (x : Nat) (k : Core) : Core :=
  let w := fun (off i : Nat) => slotWord x off 8 i
  let v := fun (off i : Nat) => BitVec.ofNat 64 (w off i)
  { k with
    nest := { active := bit (w 0x380 0) 0, cnt := v 0x380 1, parts := w 0x380 2, minChunk := w 0x380 3, order := w 0x380 4
              pos := w 0x380 5, stop := w 0x380 6, e := [w 0x380 7, w 0x380 8, w 0x380 9, w 0x380 10] }
    pipe := { k.pipe with
      pc := v 0 2
      rep := k.pipe.rep.map (fun r => { r with
        n := w 0x400 0, total := w 0x400 1, stagger := w 0x400 2, step := w 0x400 3, j := w 0x400 4, pos := w 0x400 5
        after := v 0x400 6, held := r.held.map (fun _ => v 0x400 7)
        body := r.body.mapIdx (fun i b => if i < 8 then { b with word := slotWord x 0x440 4 i } else b) }) }
    waitSt := k.waitSt.map (fun _ => { desc := BitVec.ofNat 512 (slotWord x 0x480 64 0), ctl := v 0x4C0 0, deadline := w 0x4C0 1, d := w 0x4C0 2 })
    barSt := k.barSt.map (fun _ => { va := v 0x4E0 0, g := v 0x4E0 1, index := w 0x4E0 2, d := w 0x4E0 3 })
    task := { k.task with record := BitVec.ofNat 128 (slotWord x 0 16 0), commit := bit (w 0 3) 16 } }

/-- A tile's entry read back (R72, R423). -/
def readTile (x n : Nat) (t : Tile) : Tile :=
  let o := 0x780 + n * 32
  let st := slotWord x o 8 2
  { t with
    cfg := BitVec.ofNat 64 (slotWord x o 8 0), back := BitVec.ofNat 64 (slotWord x o 8 1), state := bits st 0 2, dirty := bit st 3
    pinned := bit st 4, conf := bit st 5, keep := bit st 6, ferr := bit st 7, logCnt := bits st 8 7
    logHead := slotWord x (o + 24) 2 0, logTail := slotWord x (o + 24) 2 1 }

/-- The streams, the tile table, and the gang and MXE state read back, with the staging buffer, the weights and the accumulators. -/
def readUnits (x : Nat) (k : Core) : Core :=
  let g := fun (i : Nat) => slotWord x 0xF80 8 i
  let stream := fun (i : Nat) (e : Strm) =>
    let o := 0x580 + i * 64
    let f := slotWord x (o + 40) 8 0
    { e with desc := BitVec.ofNat 256 (slotWord x o 32 0), pos := slotWord x (o + 32) 8 0, bound := bit f 0, endB := bit f 1
             overB := bit f 2, endMark := bit f 3 }
  { k with
    streams := Vector.ofFn (fun i : Fin 8 => stream i.val (k.streams[i.val]))
    tiles := k.tiles.map (fun e => (e.1, readTile x e.1 e.2))
    task := { k.task with gang := g 0, rank := g 1 }
    mismatch := bit (g 2) 0
    mx := { k.mx with
      sb0 := BitVec.ofNat 32 (g 3), sb1 := BitVec.ofNat 32 (g 4)
      latch := { k.mx.latch with fmt := g 5, n := g 6, k := g 7, sparse := bit (g 8) 0, weights := slotWord x 0x2000 0x2000 0 }
      staging := unpacked 4 4096 (slotWord x 0x1800 0x800 0)
      acc := (unpacked 32 4096 (slotWord x 0x4000 0x4000 0)).map (fun e => (e.1, BitVec.ofNat 32 e.2)) } }

/-- EVH, LT, the window number and the enabled mask read back. -/
def readQueue (x : Nat) (q : EvQueue) : EvQueue :=
  { q with
    evh := BitVec.ofNat 128 (slotWord x 0x500 16 0), lt := Vector.ofFn (fun i : Fin 8 => slotWord x 0x510 8 i.val)
    wnum := slotWord x 0x510 8 8, enabled := slotWord x 0x510 8 9 }

/-- What a slot's first 32 KiB hold of a core's state, put back. -/
def readState (x : Nat) (k : Core) : Core :=
  let k1 := readUnits x (readControl x (readCtl x k))
  { k1 with regs := readRegs x k1.regs, ev := readQueue x k1.ev }

/-- A helper's registers and FIFOs read back from the bytes of its part (R383). -/
def readHelper (x : Nat) (storer : Bool) (k : Core) : Core :=
  let f := slotWord x (0x80 + 40) 8 0
  let back := fun (h : Helper) => { h with
    x := Vector.ofFn (fun i : Fin 32 => BitVec.ofNat 32 (slotWord x 0 4 i.val))
    hb := Vector.ofFn (fun i : Fin 4 => BitVec.ofNat 64 (slotWord x 0x80 8 i.val))
    pc := BitVec.ofNat 32 (slotWord x 0x80 8 4), running := bit f 0, ended := bit f 1, delivered := bit f 2 }
  let stream := fun (i : Nat) (e : Strm) =>
    if e.mode = (if storer then mStorer else mLoader) then
      let m := slotWord x (0xC0 + i * 8) 8 0
      let (o, n) := fifoPlace i
      { e with fifo := (List.range (bits m 0 8)).map (fun j => BitVec.ofNat 512 (slotWord x o n j)), endMark := bit m 8
               parts := m / 2 ^ 16, part := BitVec.ofNat 512 (slotWord x (0xC00 + i * 64) 64 0) }
    else e
  { k with
    loader := if storer then k.loader else back k.loader
    storer := if storer then back k.storer else k.storer
    streams := Vector.ofFn (fun i : Fin 8 => stream i.val (k.streams[i.val])) }

/-- The events of a saved queue with what its slot holds of them (R360): `x` are the bytes of the event area, with header, payload,
slot and rank of those from the FIFOs, `y` those of the tracking entries, with the slots of those in the ring. `n` counts the FIFO
events before. -/
def readEvents (x y size : Nat) : Nat → List Ev → List Ev
  | _, [] => []
  | n, e :: es =>
    match e.ring with
    | none =>
      { e with hdr := BitVec.ofNat 64 (slotWord x 0 8 (2 * n)), pay := BitVec.ofNat 64 (slotWord x 0 8 (2 * n + 1))
               slot := slotWord x 0x1000 8 n % 8, arr := slotWord x 0x1000 8 n / 8 } :: readEvents x y size (n + 1) es
    | some j => { e with slot := slotWord y 0 4 (j % max 1 size) % 8 } :: readEvents x y size n es

/-- A stretch of a slot read, and what follows from its bytes; a read that fails leaves what the unit held. -/
def withSlot (job va n : Nat) (f : Nat → Core → Core) (e : Core × State) : Core × State :=
  match hwTry e.2 job va n with
  | .ok (x, s1) => (f x e.1, s1)
  | .error t => (e.1, e.2.meets none t)

/-- The queue's events read back, where there are any. -/
def withEvents (job base : Nat) (e : Core × State) : Core × State :=
  let q := e.1.ev
  if q.events = [] then e
  else match hwTry e.2 job (base + 0x22800) 0x1800 with
    | .error t => (e.1, e.2.meets none t)
    | .ok (x, s1) =>
      let put := fun (y : Nat) (k : Core) => { k with ev := { k.ev with events := readEvents x y q.ringSize 0 q.events } }
      if q.ringUsed = 0 then (put 0 e.1, s1) else withSlot job (base + 0xA4000) 0x4000 put (e.1, s1)

/-- A core's state as its slot holds it: its registers and control state, its events and its helpers. -/
def readSlot (s : State) (job base : Nat) (k : Core) : Core × State :=
  let e1 := withEvents job base (withSlot job base 0x8000 readState (k, s))
  let e2 := if tyLdProg k.task.entry = 0 then e1 else withSlot job (base + 0x18000) 0x1000 (fun x k => readHelper x false k) e1
  if tyStProg k.task.entry = 0 then e2 else withSlot job (base + 0x1D000) 0x1000 (fun x k => readHelper x true k) e2

/-- A helper of a resumed task: its code copied again (R383). -/
def resumeHelper (s : State) (c : Nat) (storer : Bool) : State :=
  let k := s.core c
  let va := if storer then tyStProg k.task.entry else tyLdProg k.task.entry
  if va = 0 then s
  else
    let s0 := s.modHelper c storer (fun h => { h with image := none, missing := true })
    match copyImage s0 c storer k.task.job va.toNat false with
    | .ok s1 => s1.modHelper c storer (fun h => { h with missing := false })
    | .error t => helperTrap s0 c storer { t with access := .fetch } (helperOf k storer).pc.toNat

/-- One member resumed on a core; `leader` is the rank-0 core of its unit there. The helpers' stores hold the images that they held on
this core (R375). (DESIGN CHOICE, unsafe; log 13.) -/
def resumeMember (s : State) (c leader key : Nat) (x : Saved) (prio : Nat) : State :=
  let live := s.core c
  let base := slotVa s x.job x.die x.slot
  let (was, s0) := readSlot s x.job base x.core
  let k : Core :=
    { was with
      mode := .idle
      task := { was.task with leader := leader, prio := prio, jobsFrom := live.jobSeq }
      fault := none
      loader := { was.loader with image := live.loader.image }, storer := { was.storer with image := live.storer.image }
      preds := [], l1d := live.l1d, l1dTree := live.l1dTree, l1i := live.l1i, l1iTree := live.l1iTree, fills := live.fills
      jobs := live.jobs, jobSeq := live.jobSeq, spad := live.spad
      lend := live.lend, deque := live.deque, spilled := live.spilled, stealGen := live.stealGen, steal := none
      af := live.af, reserved := live.reserved, resSeq := live.resSeq, latched := live.latched, kept := live.kept, binding := live.binding
      nodeCount := live.nodeCount, nodeBlack := live.nodeBlack, energy := live.energy
      pipe := { was.pipe with lastIssue := s.cyc } }
  let s2 := readParts (s0.setCore c k) x.job base (slotParts (s0.setCore c k) c x.lent)
  let s3 := resumeHelper (resumeHelper s2 c false) c true
  { s3 with saved := Table.erase s3.saved key }

end Sys2Proof.Machine
end

