-- ==== Sys2Proof/Machine/Sched.lean ====
section
/-! DEFINITION. The distributor: validity of records, selection, binding and start, reservations, steals, the exchange between
the halves, the lantern and the forecasts (07 R158 to R167, R172 to R180, 14 R374, R375, 15 R384 to R407). -/
namespace Sys2Proof.Machine

/-! ## Type entries (R162, R163, R394) -/

/-- The type entry of a record through the half's cache of 64, or the address whose read failed. -/
def typeOf (s : State) (die job type : Nat) : Except TrapInfo (BitVec 512 × State) :=
  match (s.die die).typeCache.find? (fun e => e.1 = job ∧ e.2.1 = type) with
  | some e => .ok (e.2.2, s)
  | none =>
    match hwTry s job ((s.job job).ttb.toNat / 2 ^ 16 * 2 ^ 16 + type * 64) 64 with
    | .error t => .error t
    | .ok (v, s1) =>
      let e := BitVec.ofNat 512 v
      .ok (e, s1.modDie die (fun d => { d with typeCache := ((job, type, e) :: d.typeCache).take 64 }))

/-- The fields of a type entry are ones that R163 and R374 allow, for a record of a job. -/
def entryLegal (record : BitVec 128) (job : Nat) (e : BitVec 512) : Bool :=
  let zero := field e 327 1 = 0 ∧ field e 335 1 = 0 ∧ field e 345 3 = 0 ∧ field e 360 24 = 0 ∧ field e 433 15 = 0 ∧
    field e 448 64 = 0
  let pc := tyEntry e
  let fields := tyVreg e < 3 ∧ tyHeat e < 3 ∧ tyGang e < 4 ∧ tySpad e ≤ 64 ∧ tyTiles e ≤ 64 ∧ pc ≠ 0 ∧ pc.toNat % 4 = 0
  let gang := ¬ (tyHeat e = 2 ∧ tyGang e ≠ 0) ∧ ¬ (tyGang e = 3 ∧ (62 < tySpad e ∨ tyLdProg e ≠ 0 ∨ tyStProg e ≠ 0))
  decide (zero ∧ fields ∧ gang ∧ ¬ (recSys record ∧ job ≠ 0))

/-- A record is valid: its entry; else the address whose read failed, 0 where none failed (R163). -/
def recordCheck (s : State) (die job : Nat) (record : BitVec 128) : Except Nat (BitVec 512 × State) :=
  if field (s.job job).ttb 0 11 ≤ recType record then .error 0
  else match typeOf s die job (recType record) with
    | .error t => .error t.addr.toNat
    | .ok (e, s1) =>
      if entryLegal record job e = false then .error 0
      else do
        let s2 ← imageCheck s1 job (tyLdProg e).toNat
        let s3 ← imageCheck s2 job (tyStProg e).toNat
        pure (e, s3)

/-- A record is checked before it is bound (R163). A saved unit's was; its entry stands with it, and its images are not checked
again (R383). -/
def unitCheck (s : State) (die : Nat) (r : Ready) : Except Nat (BitVec 512 × State) :=
  match r.ctx with
  | none => recordCheck s die r.job r.nextUnit
  | some u =>
    match savedMembers s u with
    | m :: _ => .ok (m.2.core.task.entry, s)
    | [] => .error 0

/-! ## Candidates (R386, R390) -/

/-- A consumer boost applies to the record's launch (R399). -/
def boosted (s : State) (job launch : Nat) : Bool := s.boosts.any (fun b => b.1 == job && b.2.1 == launch)

/-- The effective priority of a waiting record (R386). -/
def effective (s : State) (r : Ready) : Nat := min 7 (r.prio + (if boosted s r.job (recLaunch r.record) then 2 else 0))

/-- The record may be selected: no hold and no fault keeps it, and its job is enabled (R168, R399, R422). -/
def selectable (s : State) (r : Ready) : Bool := r.hold.isNone && r.fault.isNone && flag (s.job r.job).ctl 0

/-- The heads of the FIFOs of a list of records: the first selectable one of each lane, job and effective priority. -/
def heads (s : State) : List Ready → List (Nat × Nat × Nat) → List Ready
  | [], _ => []
  | r :: rs, seen =>
    let key := (r.lane, r.job, effective s r)
    if selectable s r = false ∨ seen.contains key then heads s rs seen else r :: heads s rs (key :: seen)

/-- The distance of two squares (R390). -/
def squareGap (p q : Nat) : Nat :=
  max (p % 8) (q % 8) - min (p % 8) (q % 8) + (max (p / 8) (q / 8) - min (p / 8) (q / 8))

/-- A reservation of a record stands (R392). -/
def isReserved (s : State) (r : Ready) : Bool := s.cores.any (fun e => e.2.reserved == some e.1 && e.2.resSeq == r.seq)

/-- The candidates of a freed core in the order of R390, each with whether it stands on the core's own deque. -/
def candidates (s : State) (c : Nat) : List (Bool × Ready) :=
  let q := squareOf c
  let d := s.die (dieOf c)
  let own := match (s.core c).deque with
    | r :: _ => if selectable s r then [(true, r)] else []
    | [] => []
  let hs := (heads s d.ready []).filter (fun r => inPartition s r.job q && !isReserved s r)
  let mine := hs.filter (fun r => r.lane = q)
  let others := hs.filter (fun r => r.lane ≠ q && !recLocal r.record)
  let near := sortBy (fun r => squareGap q r.lane * 64 + r.lane) others
  let all := (own.filter (fun e => inPartition s e.2.job q && !isReserved s e.2)) ++ mine.map (fun r => (false, r)) ++
    near.map (fun r => (false, r))
  sortBy (fun e => 7 - effective s e.2) all

/-- One unit of an entry leaves its queue (R385, R393). -/
def takeUnit (s : State) (c : Nat) (own : Bool) (r : Ready) : State :=
  let f := fun (l : List Ready) =>
    if r.units ≤ 1 then l.filter (fun e => e.seq ≠ r.seq)
    else l.map (fun e => if e.seq = r.seq then { e with unit := e.unit + 1 } else e)
  if own then refillDeque (s.modCore c (fun k => { k with deque := f k.deque })) c
  else unspill (s.modDie (dieOf c) (fun d => { d with ready := f d.ready })) (dieOf c)

/-- The unit that an entry yields. -/
def unitOf (r : Ready) : Ready := { r with record := r.nextUnit, ext := none, unit := 0 }

/-- A unit dropped at selection (R163, R172): it counts as finished. `va` is the address whose read failed. -/
def dropUnit (s : State) (c : Nat) (r : Ready) (invalid : Option Nat) : State :=
  let u := unitOf r
  let s1 := match invalid with
    | some va => trapRecord s (dieOf c)
        { job := u.job, data := (trapData s cIllegalOp 4 c (recLaunch u.record) (recType u.record) 0 (BitVec.ofNat 64 va) 0
          u.rva 0) }
    | none => s
  let s2 := match r.ctx with
    | some n => { s1 with saved := s1.saved.filter (fun e => e.2.unit ≠ n) }
    | none => s1
  unitFinished s2 c u.job (recLaunch u.record) invalid.isSome

/-! ## Binding (R391, R392) -/

/-- The core takes a task: IDLE, not withdrawn, and neither selected for, nor kept for a gang, nor reserved; and the firmware has placed
the first system record (R452). -/
def coreFree (s : State) (c : Nat) : Bool :=
  let k := s.core c
  k.mode == .idle && !k.spad.wdrn && k.latched.isNone && k.kept.isNone && !k.binding && k.reserved.isNone && !s.halted && s.sec.booted && s.sec.placed

/-- The core would be free but for a reservation of `leader`'s. -/
def coreFor (s : State) (leader c : Nat) : Bool :=
  let k := s.core c
  k.mode == .idle && !k.spad.wdrn && k.latched.isNone && k.kept.isNone && !k.binding &&
    (k.reserved.isNone || k.reserved == some leader)

/-- Whether a record binds to a core: at once, once other cores are IDLE or DARK, or not. -/
inductive Fit where
  | now
  | later (cores : List Nat)
  | never
  deriving DecidableEq, Repr

/-- The rank-0 position of a gang mode (R173). -/
def gangHead (gang c : Nat) : Bool :=
  match gang with
  | 0 => true
  | 2 => c == squareCore (squareOf c)
  | _ => c % 2 == 0

/-- What a saved unit asks of the core it resumes on (R62, R360, R422). -/
def resumesOn (s : State) (c job unit : Nat) : Bool :=
  let ms := savedMembers s unit
  let dirs := (lendersOf s c job).map (·.1)
  match ms with
  | [] => false
  | m :: _ => m.2.die == dieOf c && (!ms.any (fun e => e.2.core.ev.enabled != 0) || m.2.fromCore.val == c) &&
      ms.all (fun e => e.2.lent.all dirs.contains)

/-- The test of R391 for a valid record. -/
def bindsTo (s : State) (c : Nat) (r : Ready) (e : BitVec 512) : Fit :=
  let local_ := (recLocal r.record || tyPersist e) && r.lane != squareOf c
  let resume := match r.ctx with
    | some u => resumesOn s c r.job u
    | none => true
  if local_ ∨ resume = false ∨ gangHead (tyGang e) c = false then .never
  else if tyGang e ≠ 0 then
    let ms := unitCores (tyGang e) c
    if ms.any (fun m => (s.core m).spad.wdrn) then .never
    else if ms.all (coreFor s c) then .now else .later ms
  else if tyHeat e = 2 then
    let ls := lendersOf s c r.job
    if litCapable c = false then .never
    else if ls.all (fun l => lendsTo s c l.1 l.2) then .now else .later (c :: ls.map (·.2))
  else .now

/-- The reservation that a core leads is over; what it has darkened stays so. -/
def dropReservation (s : State) (leader : Nat) : State :=
  if (s.core leader).reserved = some leader then { s with
    cores := s.cores.map (fun e => if e.2.reserved = some leader then (e.1, { e.2 with reserved := none }) else e) }
  else s

/-- The unit is selected for a core (R393): a reservation for it is over, the members of a gang are kept for it, and it binds. -/
def latchUnit (s : State) (c : Nat) (own : Bool) (r : Ready) (e : BitVec 512) : State :=
  let s1 := dropReservation (takeUnit s c own r) c
  let s2 := if tyGang e = 0 then s1
    else (unitCores (tyGang e) c).foldl (fun s m => s.modCore m (fun k => { k with kept := some c })) s1
  (s2.modCore c (fun k => { k with latched := some (unitOf r) })).dueOnce (.taskBind (coreId c))

/-- A reservation ends, and what it has darkened is lit again (R392). -/
def endReservation (s : State) (leader : Nat) : State := lendingEnds (dropReservation s leader) leader

/-- The cores are reserved for a record (R392). -/
def reserve (s : State) (leader : Nat) (r : Ready) (cores : List Nat) : State :=
  let s1 := (leader :: cores).foldl (fun s m => s.modCore m (fun k => { k with reserved := some leader })) s
  s1.modCore leader (fun k => { k with resSeq := r.seq })

/-- A selected unit is dropped at its binding: its cores are free again, and a square that waits to leave its partition may. -/
def unlatch (s : State) (c : Nat) : State :=
  let cores := (s.cores.filter (fun e => e.1 = c ∨ e.2.kept = some c)).map (·.1)
  let s1 := cores.foldl (fun s m => s.modCore m (fun k =>
    { k with task := if m = c ∨ k.binding then Task.reset else k.task, kept := none, binding := false, latched := if m = c then none else k.latched })) s
  cores.foldl (fun s m => tryLeave s (squareOf m)) (lendingEnds s1 c)

/-- The cores may be reserved: none is for another record, and the freed core's square holds no reservation (R392). -/
def mayReserve (s : State) (c : Nat) (cores : List Nat) : Bool :=
  (c :: cores).all (fun m => (s.core m).reserved.isNone) &&
    (squareCores (squareOf c)).all (fun m => (s.core m).reserved != some m)

/-- A reserved record's own cores: lenders that have become IDLE go dark (R392). -/
def prepareLenders (s : State) (c job : Nat) : State :=
  (lendersOf s c job).foldl (fun s l =>
    let k := s.core l.2
    let free := k.mode = .dark ∨ coreFor s c l.2
    if free ∧ lendsTo s c l.1 l.2 = false then darken s c l.1 l.2 else s) s

/-- The candidate whose priority is best is dealt with: dropped, selected, passed over or reserved for. `wait` is a HOT or gang
record passed over as R392 states, with its cores. The answer is the state and whether the core is served. -/
def selectWith (c : Nat) : Nat → State → Option (Bool × Ready × List Nat) → List (Bool × Ready) → State × Bool
  | 0, s, _, _ => (s, true)
  | fuel + 1, s, wait, cands =>
    match cands with
    | [] =>
      match wait with
      | some (_, r, cores) => (prepareLenders (reserve s c r cores) c r.job, true)
      | none => (s, false)
    | (own, r) :: rest =>
      if levelCancelling s r.job (recLaunch r.record) then
        let s1 := dropUnit (takeUnit s c own r) c r none
        selectWith c fuel s1 wait (if wait.isNone then candidates s1 c else rest)
      else match unitCheck s (dieOf c) r with
        | .error va =>
          let s1 := dropUnit (takeUnit s c own r) c r (some va)
          selectWith c fuel s1 wait (if wait.isNone then candidates s1 c else rest)
        | .ok (e, s1) =>
          match bindsTo s1 c r e with
          | .now =>
            match wait with
            | some (_, w, cores) =>
              if effective s1 r < effective s1 w then (prepareLenders (reserve s1 c w cores) c w.job, true)
              else (latchUnit s1 c own r e, true)
            | none => (latchUnit s1 c own r e, true)
          | .later cores =>
            if wait.isNone ∧ mayReserve s1 c cores then selectWith c fuel s1 (some (own, r, cores)) rest
            else selectWith c fuel s1 wait rest
          | .never => selectWith c fuel s1 wait rest

/-- The record of a reservation, where it waits. -/
def reservedRecord (s : State) (c : Nat) : Option (Bool × Ready) :=
  let seq := (s.core c).resSeq
  match (s.core c).deque.find? (fun r => r.seq = seq) with
  | some r => some (true, r)
  | none => ((s.die (dieOf c)).ready.find? (fun r => r.seq = seq)).map (fun r => (false, r))

/-- A reservation that stands: it ends, or its record binds once every core is ready (R392). -/
def stepReservation (s : State) (c : Nat) : State :=
  match reservedRecord s c with
  | none => endReservation s c
  | some (own, r) =>
    if levelCancelling s r.job (recLaunch r.record) then endReservation s c
    else match unitCheck s (dieOf c) r with
      | .error _ => endReservation s c
      | .ok (e, s1) =>
        let s2 := if tyHeat e = 2 then prepareLenders s1 c r.job else s1
        match bindsTo s2 c r e with
        | .now => if coreFor s2 c c then latchUnit s2 c own r e else s2
        | .later cores => cores.foldl (fun s m =>
            if (s.core m).reserved.isNone then s.modCore m (fun k => { k with reserved := some c }) else s) s2
        | .never => endReservation s2 c

/-- A cancel of a record's level ends its reservation at once (R392). -/
def cancelReservations (s : State) : State :=
  let leaders := (s.cores.filter (fun e => e.2.reserved = some e.1)).map (·.1)
  leaders.foldl (fun s c => match reservedRecord s c with
    | some (_, r) => if levelCancelling s r.job (recLaunch r.record) then endReservation s c else s
    | none => s) s

/-! ## Steals (R395 to R397) -/

/-- A draw of the steal generator (R395). -/
def stealDraw (g : Nat) : Nat := if g % 2 = 1 then g / 2 ^^^ 0xB400 else g / 2

/-- The jobs whose partition holds a square. -/
def jobsOn (s : State) (q : Nat) : List Nat := (0 :: (s.jobs.map (·.1)).filter (· ≠ 0)).filter (fun j => inPartition s j q)

/-- The core may be asked: on the die, in the partition of the asking core's job. -/
def mayAsk (s : State) (thief c : Nat) : Bool :=
  c != thief && dieOf c == dieOf thief && (jobsOn s (squareOf thief)).any (fun j => inPartition s j (squareOf c))

/-- The cores that a round asks before it draws (R395). -/
def nearCores (c : Nat) : List Nat :=
  let gap := fun (o : Nat) => max (coreX c) (coreX o) - min (coreX c) (coreX o) + (max (coreY c) (coreY o) - min (coreY c) (coreY o))
  (squareCores (squareOf c)).filter (· ≠ c) ++
    (List.range 256).filter (fun o => decide (dieOf o = dieOf c ∧ squareOf o ≠ squareOf c ∧ 1 ≤ gap o ∧ gap o ≤ 2))

/-- The next core that a round draws: with the round and the generator after the draws. -/
def drawNext (s : State) (c : Nat) : Nat → StealRound → Nat → Option Nat × StealRound × Nat
  | 0, r, g => (none, r, g)
  | fuel + 1, r, g =>
    if 32 ≤ r.draws ∨ 8 ≤ r.counted then (none, r, g)
    else
      let g1 := stealDraw g
      let o := dieOf c * 128 + g1 % 128
      let r1 := { r with draws := r.draws + 1 }
      if r.asked.contains o ∨ mayAsk s c o = false then drawNext s c fuel r1 g1
      else (some o, { r1 with counted := r1.counted + 1 }, g1)

/-- The round asks its next core, or ends and waits 256 cycles. -/
def askNext (s : State) (c : Nat) (r : StealRound) : State :=
  match (nearCores c).find? (fun o => !r.asked.contains o && mayAsk s c o) with
  | some o =>
    ((s.evCount c 0x13 1).modCore c (fun k => { k with steal := some { r with asked := o :: r.asked, asking := some o, reply := none } })).due
      (.stealRequest (coreId c))
  | none =>
    let (next, r1, g) := drawNext s c 32 r (s.core c).stealGen
    let s1 := s.modCore c (fun k => { k with stealGen := g })
    match next with
    | some o =>
      ((s1.evCount c 0x13 1).modCore c (fun k => { k with steal := some { r1 with asked := o :: r1.asked, asking := some o, reply := none } })).due
        (.stealRequest (coreId c))
    | none =>
      (s1.modCore c (fun k => { k with steal := some { r1 with asking := none, reply := none, wakeAt := s.cyc + 256 } })).due
        (.stealBackoff (coreId c))

/-- An idle core without a candidate begins a round (R395). A core in no partition has nobody to ask. (DESIGN CHOICE, unsafe; log 40.) -/
def beginSteal (s : State) (c : Nat) : State :=
  if (s.core c).steal.isSome ∨ jobsOn s (squareOf c) = [] then s
  else askNext s c { asked := [], asking := none, reply := none, draws := 0, counted := 0, wakeAt := 0 }

/-- The top of a logical deque. -/
def dequeTop (k : Core) : Option Ready :=
  match k.spilled.getLast? with
  | some r => some r
  | none => k.deque.getLast?

/-- One unit of the top leaves the deque; a spilled top is read from the ring (R396). -/
def takeTop (s : State) (v : Nat) (r : Ready) : State × Ready :=
  let (s1, r1) := match r.slot with
    | some i => ringLoad s (dequeRingVa s r.job v i) r
    | none => (s, r)
  let f := fun (l : List Ready) =>
    if r.units ≤ 1 then l.filter (fun e => e.seq ≠ r.seq)
    else l.map (fun e => if e.seq = r.seq then { e with unit := e.unit + 1 } else e)
  (refillDeque (s1.modCore v (fun k => { k with deque := f k.deque, spilled := f k.spilled })) v, unitOf r1)

/-- A selection round that is due as a steal reaches the core would pop the one unit that the core's deque holds: the owner gets it
(R181, R389). (DESIGN CHOICE, unsafe; log 40.) -/
def ownerPops (s : State) (v : Nat) (t : Ready) : Bool :=
  let k := s.core v
  unitsOf (k.deque ++ k.spilled) == 1 && coreFree s v && s.todo.contains (.selection (dieId (dieOf v))) &&
    ((candidates s v).head?.map (fun e => e.1 && e.2.seq == t.seq)).getD false

/-- A request reaches a victim's controller (R389, R396). -/
def stealAt (s : State) (thief : Nat) : State :=
  match (s.core thief).steal with
  | none => s
  | some r =>
    match r.asking with
    | none => s
    | some v =>
      let answer := fun (s : State) (x : Option Ready) =>
        (s.modCore thief (fun k => { k with steal := k.steal.map (fun r => { r with reply := some x }) })).due
          (.stealReply (coreId thief))
      match dequeTop (s.core v) with
      | some t =>
        if recStealable t.record ∧ ¬ recLocal t.record ∧ t.stolen = false ∧ flag (s.job t.job).ctl 0 ∧
            inPartition s t.job (squareOf thief) ∧ ownerPops s v t = false then
          let (s1, u) := takeTop s v t
          answer s1 (some { u with lane := squareOf v, stolen := true })
        else answer s none
      | none => answer s none

/-- A reply reaches the thief (R395 to R397). -/
def stealBack (s : State) (thief : Nat) : State :=
  match (s.core thief).steal with
  | none => s
  | some r =>
    match r.reply with
    | none => s
    | some none => if coreFree s thief then askNext s thief r else s.modCore thief (fun k => { k with steal := none })
    | some (some t) =>
      let s0 := s.modCore thief (fun k => { k with steal := none })
      if levelCancelling s0 t.job (recLaunch t.record) then
        (dropUnit s0 thief t none).dueOnce (.selection (dieId (dieOf thief)))
      else match recordCheck s0 (dieOf thief) t.job t.record with
        | .error va => (dropUnit s0 thief t (some va)).dueOnce (.selection (dieId (dieOf thief)))
        | .ok (e, s1) =>
          if tyPersist e ∨ tyGang e ≠ 0 ∨ tyHeat e = 2 ∨ coreFree s1 thief = false ∨ inPartition s1 t.job (squareOf thief) = false ∨
              flag (s1.job t.job).ctl 0 = false then
            placeReady s1 (dieOf thief) true { t with stolen := false }
          else
            (s1.modCore thief (fun k => { k with latched := some t })).dueOnce (.taskBind (coreId thief))

/-- The wait after a round without success is over (R395). -/
def stealAgain (s : State) (c : Nat) : State :=
  match (s.core c).steal with
  | none => s
  | some r =>
    if r.asking.isSome then s
    else if r.wakeAt ≤ s.cyc then
      (s.modCore c (fun k => { k with steal := none })).dueOnce (.selection (dieId (dieOf c)))
    else s.due (.stealBackoff (coreId c))

/-! ## Selection rounds (R390) -/

/-- The cores of a die. -/
def dieCores (die : Nat) : List Nat := (List.range 128).map (fun i => die * 128 + i)

/-- One freed core is served; without a candidate that it can bind it steals (R390). -/
def serveCore (s : State) (c : Nat) : State :=
  if coreFree s c = false ∨ (((s.core c).steal.map (fun r => r.asking.isSome)).getD false) then s
  else match candidates s c with
    | [] => beginSteal s c
    | l =>
      match selectWith c 4096 s none l with
      | (s1, true) => s1
      | (s1, false) => beginSteal s1 c

/-- A selection round of a half (R390). -/
def selectionStep (s : State) (die : Nat) : State :=
  let s0 := unspill s die
  let leaders := (s0.cores.filter (fun e => e.2.reserved = some e.1 && dieOf e.1 == die)).map (·.1)
  (dieCores die).foldl serveCore (leaders.foldl stepReservation s0)

/-- Records that wait on a die keep its rounds going. -/
def waitsOn (s : State) (die : Nat) : Bool :=
  (s.die die).ready != [] || (s.die die).spill != [] ||
    s.cores.any (fun e => dieOf e.1 == die && (e.2.deque != [] || e.2.spilled != [] || e.2.reserved == some e.1))

/-! ## Binding and start (R167, R375, R394) -/

/-- The start state of a core for a unit (R167). -/
def startCore (s : State) (c leader rank : Nat) (r : Ready) (e : BitVec 512) : Core :=
  let live := s.core c
  let t : Task :=
    { record := r.record, rva := r.rva, entry := e, job := r.job, prio := r.prio, rq := r.rq, commit := false,
      gang := tyGang e, rank := rank, brk := false, leader := leader, ending := false, halting := false, stolen := r.stolen,
      jobsFrom := live.jobSeq, elsewhere := [] }
  let xyz := recX r.record + recY r.record * 2 ^ 16 + recZ r.record * 2 ^ 32
  let regs := ((((Regs.reset.put .k 1 ((tyArgs e).zeroExtend 512)).put .k 2 (BitVec.ofNat 512 xyz)).put .k 3
    (BitVec.ofNat 512 (recArg r.record)))).put .k 4 (r.rva.zeroExtend 512)
  { Core.reset c with
    task := t
    regs := regs
    pipe := { Pipe.reset with pc := tyEntry e, iva := tyEntry e, lastIssue := s.cyc, readyAt := s.cyc }
    pool := startPool (tySpad e)
    mx := { MxCore.reset with queue := live.mx.queue }
    loader := { live.loader.stop with x := Helper.reset.x, pc := 0, hb := Helper.reset.hb }
    storer := { live.storer.stop with x := Helper.reset.x, pc := 0, hb := Helper.reset.hb }
    jobs := live.jobs, jobSeq := live.jobSeq, l1d := live.l1d, l1dTree := live.l1dTree, l1i := live.l1i, l1iTree := live.l1iTree
    fills := live.fills, steal := live.steal, spad := live.spad, lend := live.lend, deque := live.deque, spilled := live.spilled
    stealGen := live.stealGen, af := live.af
    reserved := live.reserved, resSeq := live.resSeq, latched := live.latched, kept := live.kept, binding := true
    nodeCount := live.nodeCount, nodeBlack := live.nodeBlack, energy := live.energy }

/-- The images of a core's helpers copied in (R375). -/
def bindImages (s : State) (c job : Nat) (e : BitVec 512) : Except TrapInfo State := do
  let s1 ← if tyLdProg e = 0 then pure s else copyImage s c false job (tyLdProg e).toNat true
  if tyStProg e = 0 then pure s1 else copyImage s1 c true job (tyStProg e).toNat true

/-- The members of a fresh unit set up. -/
def bindMembers (leader : Nat) (r : Ready) (e : BitVec 512) : State → List Nat → Nat → Except TrapInfo State
  | s, [], _ => .ok s
  | s, c :: cs, rank => do
    let s1 := s.setCore c (startCore s c leader (if tyGang e = 3 then 0 else rank) r e)
    let s2 ← bindImages s1 c r.job e
    bindMembers leader r e s2 cs (rank + 1)

/-- The members of a saved unit resumed. -/
def resumeUnit (s : State) (leader unit prio : Nat) : State :=
  let ms := savedMembers s unit
  ms.foldl (fun s m =>
    let c := leader + ((m.2.fromCore.val : Int) - (ms.head?.map (fun e => (e.2.fromCore.val : Int))).getD 0).toNat
    (resumeMember s c leader m.1 m.2 prio).modCore c (fun k => { k with binding := true })) s

/-- A selected record binds (R394). A failing read of its entry or images drops it. (DEDUCED, unsafe; log 36.) -/
def bindTask (s : State) (c : Nat) : State :=
  match (s.core c).latched with
  | none => s
  | some r =>
    if (s.core c).binding ∨ (s.square (squareOf c)).clearing then s
    else
      let start := fun (s : State) => s.dueOnce (.taskStart (coreId c))
      match r.ctx with
      | some u => start (resumeUnit s c u r.prio)
      | none =>
        match recordCheck s (dieOf c) r.job r.record with
        | .error va => unlatch (dropUnit s c r (some va)) c
        | .ok (e, s1) =>
          match bindMembers c r e s1 (unitCores (tyGang e) c) 0 with
          | .ok s2 => start s2
          | .error t => unlatch (dropUnit s1 c r (some t.addr.toNat)) c

/-- A helper begins (R375). -/
def startHelper (k : Core) (h : Helper) (va : Word) : Helper :=
  if va = 0 then h
  else
    let x (n : Nat) : BitVec 32 := BitVec.ofNat 32 n
    let k2 := (k.regs.raw .k 2).toNat
    { h with
      running := true
      x := (((h.x.setIfInBounds 2 (x 0x4000)).setIfInBounds 10 (x (k.regs.raw .k 3).toNat)).setIfInBounds 11 (x k2)).setIfInBounds 12
        (x (bits k2 32 16))
      hb := (h.hb.setIfInBounds 0 (tyArgs k.task.entry)).setIfInBounds 1 k.task.rva }

/-- The stream unit, the stale timer and the conditions of a resumed core go on. -/
def wakeUnits (s : State) (c : Nat) : State :=
  let k := s.core c
  let s1 := (List.range 8).foldl (fun s i =>
    let x := k.strm i
    if x.bound ∧ x.mode = mAgen ∧ ¬ x.writes then
      s.dueOnce (.streamFetch (coreId c) ⟨i % 8, Nat.mod_lt _ (by decide)⟩) else s) s
  let s2 := if k.loader.reads = [] then s1 else s1.dueOnce (.loaderReturn (coreId c))
  let s3 := if k.waitSt.isSome then (s2.dueOnce (.waitWake (coreId c))).dueOnce (.waitTimeout (coreId c)) else s2
  if k.barSt.isSome then s3.dueOnce (.barRelease (coreId c)) else s3

/-- One member of a unit starts, or goes on where it was saved. -/
def startMember (s : State) (c : Nat) (resumed : Bool) (was : CoreMode) : State :=
  let s1 := s.modCore c (fun k => { k with binding := false, latched := none, kept := none, mode := was })
  if resumed then wakeUnits (restoreEvents s1 c) c
  else
    s1.modCore c (fun k => { k with
      ev := startQueue k.task.entry s.time
      loader := startHelper k k.loader (tyLdProg k.task.entry)
      storer := startHelper k k.storer (tyStProg k.task.entry) })

/-- The unit's first instruction may issue (R375). -/
def startUnit (s : State) (c : Nat) : State :=
  let k := s.core c
  if k.binding = false then s
  else
    let ms := (unitCores k.task.gang c).filter (fun m => (s.core m).binding)
    let resumed := (k.latched.map (fun r => r.ctx.isSome)).getD false
    let s1 := ms.foldl (fun s m =>
      let x := s.core m
      startMember s m resumed (if x.waitSt.isSome || x.barSt.isSome then .wait else .run)) s
    let s2 := if resumed then s1 else takeCheck s1 c
    if hardCancelled s2 c then hardCancelAt s2 c else s2

/-! ## Aging (R161, R386) -/

/-- The cycles of 50 µs at 2.3 GHz. -/
def agingCycles : Nat := 115000

/-- A record that has waited a further 50 µs, and a level more. The record of an aborted unit is placed only once its fault is
serviced (R179). -/
def agedRecord (now : Nat) (r : Ready) : Ready :=
  if r.placedAt + agingCycles ≤ now ∧ (r.fault.isNone ∨ r.ctx.isSome) then
    { r with prio := min 7 (r.prio + 1), placedAt := r.placedAt + agingCycles }
  else r

/-- Records that age into a higher FIFO enter it behind the records already there; the others keep their places (R386). -/
def agedList (s : State) (l : List Ready) : List Ready :=
  let rises := fun (r : Ready) => decide (effective s r < effective s (agedRecord s.cyc r))
  (l.filter (fun r => !rises r)).map (agedRecord s.cyc) ++ (l.filter rises).map (agedRecord s.cyc)

/-- On a deque the order stays. -/
def agedDeque (now : Nat) (l : List Ready) : List Ready := l.map (agedRecord now)

/-- Every placed record ages until it is bound, one that has been selected too (R161). -/
def ageRecords (s : State) : State :=
  { s with
    dies := s.dies.map (fun e => (e.1, { e.2 with ready := agedList s e.2.ready, spill := agedDeque s.cyc e.2.spill }))
    cores := s.cores.map (fun e => (e.1, { e.2 with
      deque := agedDeque s.cyc e.2.deque, spilled := agedDeque s.cyc e.2.spilled
      latched := if e.2.binding then e.2.latched else e.2.latched.map (agedRecord s.cyc) })) }

/-! ## The exchange of the halves (R398) -/

/-- The cores of a job's partition on a die that are IDLE and unreserved. -/
def idleOf (s : State) (die job : Nat) : List Nat :=
  (dieCores die).filter (fun c => coreFree s c && inPartition s job (squareOf c))

/-- The record may leave its die, as a LOCAL or a PERSIST one may not (R180), and binds to no IDLE, unreserved core of it. -/
def bindsNowhere (s : State) (die : Nat) (r : Ready) : Bool :=
  match typeOf s die r.job (recType r.record) with
  | .error _ => false
  | .ok (e, _) => !tyPersist e && (idleOf s die r.job).all (fun c =>
      match bindsTo s c r e with
      | .now => false
      | _ => true)

/-- The records that a half sends (R398). -/
def crossing (s : State) (die job : Nat) : List Ready :=
  let waiting := fun (d : Nat) => (s.die d).ready.filter (fun r => r.job = job ∧ selectable s r)
  let others := waiting (1 - die)
  if idleOf s (1 - die) job = [] then []
  else
    let stuck := (waiting die).filter (fun r => !recLocal r.record && r.ctx.isNone && !isReserved s r && bindsNowhere s die r)
    let top := stuck.foldl (fun m r => max m (effective s r)) 0
    if others.any (fun r => top ≤ effective s r) then []
    else (sortBy (fun r => r.seq) (stuck.filter (fun r => effective s r = top))).take 8

/-- The lowest-numbered square of a partition on a die. -/
def firstSquare (s : State) (job die : Nat) : Option Nat :=
  (List.range 32).findSome? (fun i => if flag (s.job job).part (die * 32 + i) then some (die * 32 + i) else none)

/-- Records move to the other half. -/
def moveRecords (s : State) (die job : Nat) (l : List Ready) : State :=
  match firstSquare s job (1 - die) with
  | none => s
  | some q =>
    let gone := s.modDie die (fun d => { d with ready := d.ready.filter (fun r => !l.any (fun x => x.seq = r.seq)) })
    l.foldl (fun s r => placeReady s (1 - die) false { r with lane := q }) (unspill gone die)

/-- The jobs with records on the on-chip queues. -/
def readyJobs (s : State) : List Nat := (((s.die 0).ready ++ (s.die 1).ready).map (·.job)).eraseDups

def exchangeHalves (s : State) : State :=
  (readyJobs s).foldl (fun t job => [0, 1].foldl (fun t d => moveRecords t d job (crossing s d job)) t) s

/-! ## The lantern (R404 to R406) -/

/-- The jobs that have a phase at CNT = 0 that has not completed. -/
def quietPhases (s : State) (job : Nat) : List Nat :=
  (List.range 4096).filter (fun i =>
    let b := readLevel s job i
    decide (b.kind = 2 ∧ b.cnt = 0 ∧ b.status = levelOpen ∧ b.can = false))

/-- The jobs with a quiet phase, in rising order. A job whose block 0 cannot be read has no level table.
(DESIGN CHOICE, unsafe; log 25.) -/
def phaseJobs (s : State) : List Nat :=
  (sortBy id (s.jobs.map (·.1))).filter (fun j => (hwRead s j (levelVa s j 0) 32).isSome && quietPhases s j != [])

/-- The counts of a job at the nodes of a square, and whether a node is black. -/
def squareNodes (s : State) (q : Nat) : Word × Bool :=
  let k := s.square q
  (squareCores q).foldl (fun a c => (a.1 + (s.core c).nodeCount, a.2 || (s.core c).nodeBlack))
    (k.copyCount + k.mxCount, k.copyBlack || k.mxBlack)

/-- One circuit (R406): every node of the admitted jobs is passed, and quiet jobs are reported. (DESIGN CHOICE, unsafe; log 25.) -/
def lanternStep (s : State) : State :=
  let jobs := (phaseJobs s).take 16
  let entry := fun (j : Nat) =>
    let sq := (List.range 64).filter (fun q => holdsSquare s j q)
    let sums := sq.foldl (fun (a : Word × Bool) q => let n := squareNodes s q; (a.1 + n.1, a.2 || n.2)) (0, false)
    (j, sums.1 + Table.getD (s.die 0).halfCount j 0 + Table.getD (s.die 1).halfCount j 0,
      sums.2 || (s.die 0).halfBlack.contains j || (s.die 1).halfBlack.contains j)
  let es := jobs.map entry
  let white := jobs.foldl (fun s j =>
    let s1 := (List.range 64).foldl (fun s q =>
      if holdsSquare s j q then
        (squareCores q).foldl (fun s c => if (s.core c).nodeBlack then s.modCore c (fun k => { k with nodeBlack := false }) else s)
          (if (s.square q).copyBlack || (s.square q).mxBlack then
            s.modSquare q (fun k => { k with copyBlack := false, mxBlack := false }) else s)
      else s) s
    let drop := fun (d : Die) => { d with halfBlack := d.halfBlack.filter (· ≠ j) }
    (s1.modDie 0 drop).modDie 1 drop) s
  let s1 : State := { white with lantern := es }
  let done := es.foldl (fun s e =>
    if e.2.1 = 0 ∧ e.2.2 = false then
      (quietPhases s e.1).foldl (fun s i => completePhase s (squareCore ((firstSquare s e.1 0).getD 0)) e.1 i) s
    else s) s1
  if phaseJobs done = [] then { done with lantern := [] } else done.dueOnce .lantern

/-! ## Forecasts (R407) -/

/-- The activity forecast of a core. -/
def forecastOf (s : State) (c : Nat) : Nat :=
  let k := s.core c
  let h := match k.mode with
    | .run | .park => (match tyHeat k.task.entry with
      | 2 => 5
      | 1 => 3
      | _ => 2)
    | .wait | .dark => 1
    | .idle => 0
  let d := min 16 (unitsOf (k.deque ++ k.spilled))
  let lane := min 64 (unitsOf ((s.die (dieOf c)).ready.filter (fun r => r.lane = squareOf c)))
  min 255 (40 * h + 8 * d + lane)

def forecastStep (s : State) : State :=
  (List.range 256).foldl (fun t c =>
    let f := forecastOf s c
    if f = (s.core c).af then t else t.modCore c (fun k => { k with af := f })) s

/-! ## Placement by an operation (R363, R446), and by the firmware (R452) -/

/-- The record of a refused placement (R172, R363). (DEDUCED, unsafe; log 58.) -/
def cancelledRecord (s : State) (c job origin : Nat) (record : BitVec 128) (ka : Nat) : State :=
  trapRecord s (dieOf c) { job := job, data := (trapData s cCancelled origin c (recLaunch record) (recType record) 0 0 0
    (BitVec.ofNat 64 ka) 0) }

/-- Steps 4 and 5 of R363 at the level block of the record's launch, for an origin of R415: the record goes to the core's deque or to
its square's lane. (DEDUCED, unsafe; log 58.) -/
def placeAt (s0 : State) (c job ka v origin : Nat) (toDeque : Bool) : State :=
  let record := BitVec.ofNat 128 v
  let launch := recLaunch record
  let b := readLevel s0 job launch
  let s := levelSeen s0 job launch
  if b.status ≠ levelOpen ∨ b.can then cancelledRecord s c job origin record ka
  else
    let s1 := if ka % 2 = 1 then s else setCnt s job launch (b.cnt + 1)
    if recDep record = 0 then placeFrom s1 c job ka toDeque else s1

/-- The firmware writes memory at a PA of a die, as it does when it writes job 0's tables (R452). (DESIGN CHOICE, unsafe; log 103.) -/
def firmwareWrite (s : State) (die pa : Nat) (data : List Byte) : State :=
  let loc := pagedLoc die pa
  let n := data.length
  if s.sec.booted = false ∨ installed s die < pa + n then s
  else (l2Access (revoked s none loc n) loc n true true).write loc n (ofBytes data)

/-- The firmware places a record of job 0, the first of them the last step of bring-up (R452). (DESIGN CHOICE, unsafe; log 103.) -/
def firmwarePlace (s : State) (va : Nat) : State :=
  let n := if va % 2 = 1 then 64 else 16
  if s.sec.booted = false then s
  else
    match hwTry s 0 (va - va % 2) n with
    | .error _ => s
    | .ok (v, s1) =>
      let q := ((firstSquare s1 0 (va / 2 ^ 52 % 2)).orElse (fun _ => firstSquare s1 0 (1 - va / 2 ^ 52 % 2))).getD 0
      placeAt { s1 with sec := { s1.sec with placed := true } } (squareCore q) 0 va v 4 false

end Sys2Proof.Machine
end

