-- ==== Sys2Proof/Machine/Repeat.lean ====
section
/-! DEFINITION. The words of a repetition: which may stand in its body, how they are staggered, and which scalar registers they
use (08 R192, R200, R211, 09 R240, R241). -/
namespace Sys2Proof.Machine

/-! ## Words -/

def majorOf (w : Nat) : Nat := bits w 25 7
/-- The word is a hint (R192, R200). (DEDUCED, unsafe; log 67.) -/
def isHint (w : Nat) : Bool := majorOf w == 0x7F
def hintKind (w : Nat) : Nat := bits w 21 4
def hintPayload (w : Nat) : Nat := bits w 0 21

/-- The majors that a repetition body may hold (R240). -/
def bodyMajor (w : Nat) : Bool :=
  let m := majorOf w
  m == 0x31 || decide (0x38 ≤ m ∧ m ≤ 0x46) || m == 0x50 || m == 0x51

/-! ## Staggered fields (R241) -/

/-- A word with its `n`-bit field at `lo` replaced. -/
def putField (w lo n x : Nat) : Nat := w - bits w lo n * 2 ^ lo + x % 2 ^ n * 2 ^ lo

/-- A register field advanced: 0 and queue ages stay. -/
def advReg (w lo n by_ : Nat) : Nat :=
  let f := bits w lo n
  if f = 0 ∨ 16 ≤ f then w else putField w lo n ((f - 1 + by_) % 15 + 1)

/-- A tile field or a selector advanced modulo its range. -/
def advMod (w lo n by_ : Nat) : Nat := putField w lo n ((bits w lo n + by_) % 2 ^ n)

/-- Which of the fields d, a and b of an A-form word name a register that advances; stream numbers, masks, immediates and
type codes in these places stay. -/
def aFormFields (major sub : Nat) : Bool × Bool × Bool :=
  match major with
  | 0x31 => (true, false, true)
  | 0x3A => (true, true, !(10 ≤ sub && sub ≤ 12))
  | 0x3B => if sub < 10 then (false, true, true) else if sub < 20 then (false, false, false)
    else if sub < 22 then (true, false, false) else (true, true, true)
  | 0x3C => (true, true, false)
  | 0x3F => if sub = 5 then (true, false, true) else if sub = 6 then (false, true, true) else (true, true, true)
  | _ => (true, true, true)

/-- The fields td, ta, tb, a and the selector that a sub-operation of X-form has. -/
def xFormFields (sub : Nat) : Bool × Bool × Bool × Bool × Bool :=
  match sub with
  | 0 | 1 => (false, false, true, false, false)
  | 2 => (false, false, false, true, true)
  | 3 => (false, true, false, false, false)
  | 4 => (false, true, true, true, false)
  | 5 => (false, false, false, true, false)
  | 6 => (true, false, false, false, false)
  | 7 => (false, true, false, false, false)
  | _ => (false, false, false, false, false)

/-- Apply a change where a condition holds. -/
def when_ (b : Bool) (f : Nat → Nat) (w : Nat) : Nat := if b then f w else w

/-- A body word in a repetition, its fields advanced by `by_` where the stagger bits say so. (DEDUCED, unsafe; log 20.) -/
def staggered (w stagger by_ : Nat) : Nat :=
  let m := majorOf w
  let s0 := bit stagger 0
  let s1 := bit stagger 1
  let s2 := bit stagger 2
  match m with
  | 0x40 => when_ s1 (advReg · 16 5 by_) (when_ s0 (advReg · 21 4 by_) w)
  | 0x41 => when_ s2 (advReg · 20 5 by_) (when_ s1 (advReg · 15 5 by_) w)
  | 0x50 =>
    when_ s2 (advReg · 9 5 by_) (when_ (s1 && bits w 5 4 != 6) (advReg · 14 5 by_) (when_ s0 (advMod · 19 6 by_) w))
  | 0x51 =>
    let (td, ta, tb, a, sel) := xFormFields (bits w 4 4)
    when_ (s0 && sel) (advMod · 20 5 by_) (when_ (s1 && a) (advReg · 8 5 by_) (when_ (s2 && tb) (advMod · 13 4 by_)
      (when_ (s1 && ta) (advMod · 17 4 by_) (when_ (s0 && td) (advMod · 21 4 by_) w))))
  | _ =>
    let (d, a, b) := aFormFields m (bits w 6 5)
    when_ (s2 && b) (advReg · 11 5 by_) (when_ (s1 && a) (advReg · 16 5 by_) (when_ (s0 && d) (advReg · 21 4 by_) w))

/-! ## What a body does with the scalar registers (R211) -/

/-- The scalar registers that a body word names as sources. -/
def scalarReads (w : Nat) : List Nat :=
  let a := bits w 16 5
  let b := bits w 11 5
  let sub := bits w 6 5
  match majorOf w with
  | 0x31 => if sub = 0 then [b] else []
  | 0x3D => if sub = 1 ∨ sub = 2 then [b] else []
  | 0x3F => match sub with
    | 0 => [a]
    | 1 => [b]
    | 2 => [a, b]
    | 6 => [a]
    | _ => []
  | 0x40 => [a]
  | 0x41 => [bits w 15 5]
  | 0x42 => [a, b]
  | 0x43 => [a, b]
  | 0x44 => [a, bits w 7 4]
  | 0x45 => [a, bits w 7 4]
  | 0x46 => if sub = 0 ∨ sub = 2 then [a] else []
  | 0x50 => [bits w 14 5, bits w 9 5]
  | 0x51 => if bits w 4 4 = 4 ∨ bits w 4 4 = 5 then [bits w 8 5] else []
  | _ => []

/-- The body word's result is scalar and goes to the queue. -/
def pushesScalar (w : Nat) : Bool :=
  let sub := bits w 6 5
  let toQueue := bits w 21 4 == 0
  match majorOf w with
  | 0x31 => sub == 2 && toQueue
  | 0x3B => (sub == 20 || sub == 21) && toQueue
  | 0x3E => decide (sub ≤ 8) && toQueue
  | 0x3F => (sub == 1 || sub == 5) && toQueue
  | 0x50 => bits w 5 4 == 6
  | _ => false

/-- The named scalar registers that the instructions of a running body read, in any repetition. -/
def Rep.reads (r : Rep) : List Nat :=
  (List.range (Nat.min r.total 15)).flatMap (fun j => r.body.flatMap (fun b =>
    (scalarReads (staggered b.word r.stagger (r.step * j))).filter (fun i => decide (1 ≤ i ∧ i < 16))))

/-- An instruction of the running body pushes the scalar queue. -/
def Rep.pushes (r : Rep) : Bool := r.body.any (fun b => pushesScalar b.word)

end Sys2Proof.Machine
end

