-- ==== Sys2Proof/Machine/Operands.lean ====
section
/-! DEFINITION. Operand forms, hints and the issue of an instruction (07 R175 to R177, 08 R186 to R213). Every meaning of a core's
word goes through `issue`: it names the operands and what the hints may change, and gives its own effect. -/
namespace Sys2Proof.Machine

/-! ## Outcomes -/

/-- The outcome of a meaning. -/
abbrev Out := Host.Outcome State Fault Refusal

/-! ## What an instruction names -/

/-- The hint fields of R202 to R204 that an instruction takes. -/
structure HintUse where
  imm : Nat := 0
  sc : Bool := false
  scope : Bool := false
  sat : Bool := false
  rm : Bool := false
  br : Bool := false
  deriving DecidableEq, Repr

/-- The operands and the result of an instruction: source fields in field order with their files and codes (R193), registers
it reads besides, its destination, registers it writes besides with latency 1, the tile entries it names, its latency (0: variable),
its class (R434), the hints it takes, whether it is for SYSTEM mode only, whether it waits for a running repetition whatever it
names (R211; log 92), and whether it is `vdiv` or `vsqrt` (R265). -/
structure Sig where
  srcs : List (RegFile × Nat) := []
  also : List (RegFile × Nat) := []
  dst : Option (RegFile × Nat) := none
  more : List (RegFile × Nat) := []
  tiles : List Nat := []
  lat : Nat := 0
  cls : Nat := 0
  use : HintUse := {}
  sys : Bool := false
  alone : Bool := false
  divides : Bool := false
  deriving DecidableEq, Repr

/-- The queue of a file. -/
def queueOf : RegFile → RegFile
  | .k => .q
  | .v => .y
  | f => f

/-- The register that an operand field names: 16 and above are queue ages (R193). -/
def operand (f : RegFile) (code : Nat) : RegFile × Nat := if 16 ≤ code then (queueOf f, code - 16) else (f, code)

/-- The register that a result is written to; none for a push (R186). -/
def destReg (d : Option (RegFile × Nat)) : Option (RegFile × Nat) :=
  match d with
  | some (.m, i) => some (.m, i)
  | some (f, i) => if i = 0 then none else some (f, i)
  | none => none

/-- The registers an instruction reads. -/
def Sig.reads (g : Sig) : List (RegFile × Nat) := g.srcs.map (fun e => operand e.1 e.2) ++ g.also

/-! ## Hints (R200 to R205) -/

/-- The hints and the stall counts that stand before the next instruction, after one more hint. Kinds 4 to 15 attach to
nothing (R205). -/
def noteHint (h : Hints) (stalls : List Nat) (va : Word) (kind payload : Nat) : Hints × List Nat :=
  let h1 := { h with va := some (h.va.getD va) }
  match kind with
  | 0 => (h1, (List.range 7).map (fun i => bits payload (3 * i) 3))
  | 1 => ({ h1 with imms := h.imms ++ [payload] }, stalls)
  | 2 => ({ h1 with mod := some payload }, stalls)
  | 3 => ({ h1 with br := some payload }, stalls)
  | _ => (h, stalls)

/-- The target may not carry these hints (R200, R202 to R204). -/
def hintsIllegal (h : Hints) (u : HintUse) : Bool :=
  let m := h.mod.getD 0
  let b := h.br.getD 0
  (h.imms != [] && (u.imm == 0 || decide (2 < h.imms.length))) || bits m 10 11 != 0 || bits b 2 19 != 0 ||
    (u.scope && bit m 8 && decide (5 ≤ bits m 5 3)) || (u.sat && bits m 3 2 == 3) || (u.rm && decide (5 ≤ bits m 0 3)) ||
    (u.br && bits b 0 2 == 3)

/-- An immediate field of `n` bits as the hints extend it (R202); `signed` says how it is extended without them. -/
def immOf (h : Hints) (n f : Nat) (signed : Bool) : Int :=
  match h.imms with
  | [] => if signed then sint f n else (f : Int)
  | [p] => sint (p * 2 ^ n + f) (21 + n)
  | p :: q :: _ => sint ((p * 2 ^ 21 + q) * 2 ^ n + f) (42 + n)

/-- The scope code in force (R203). -/
def scopeOf (h : Hints) (p : Nat) : Nat := let m := h.mod.getD 0; if bit m 8 then bits m 5 3 else p

/-- The rounding mode in force (R203). -/
def rmWith (h : Hints) (dflt : Rm) : Rm :=
  match bits (h.mod.getD 0) 0 3 with
  | 1 => .rne
  | 2 => .rz
  | 3 => .dn
  | 4 => .up
  | _ => dflt

/-- Saturation in force (R203). -/
def satWith (h : Hints) (dflt : Bool) : Bool :=
  match bits (h.mod.getD 0) 3 2 with
  | 1 => true
  | 2 => false
  | _ => dflt

/-- The SC variant is asked for (R203). -/
def scWith (h : Hints) : Bool := bit (h.mod.getD 0) 9

/-! ## The instruction at hand -/

/-- The body instruction that a running repetition issues next, where the turn is the body's (R242). -/
def Core.bodyInstr (k : Core) : Option BodyInstr :=
  match k.pipe.rep with
  | some r => if k.pipe.inBody && r.held.isNone then r.body[r.pos]? else none
  | none => none

/-- The hints of the instruction at hand. -/
def Core.hints (k : Core) : Hints :=
  match k.bodyInstr with
  | some b => b.hints
  | none => k.pipe.hints

/-- Its stall count. -/
def Core.stallCount (k : Core) : Nat :=
  match k.bodyInstr with
  | some b => b.stall
  | none => k.pipe.stalls.headD 0

/-- Its address. -/
def Core.instrVa (k : Core) : Word :=
  match k.bodyInstr with
  | some b => b.va
  | none => k.pipe.pc

/-- The address of its group, with its hints (R199). -/
def Core.groupVa (k : Core) : Word := k.hints.va.getD k.instrVa

/-! ## Checks at issue (R199) -/

/-- The stream that a register names, if one is bound to it (R189). -/
def Core.boundAt (k : Core) (r : RegFile × Nat) : Option Nat :=
  match streamOf r.1 r.2 with
  | some i => if (k.strm i).bound then some i else none
  | none => none

/-- A register beyond the task's demand (R165). -/
def gatedReg (vreg : Nat) (r : RegFile × Nat) : Bool :=
  match r.1 with
  | .v => (vreg == 0 && r.2 != 0) || (vreg == 1 && decide (8 ≤ r.2))
  | .y => vreg == 0
  | _ => false

/-- The result goes to a gated register or queue (R165). -/
def gatedDest (vreg : Nat) (d : Option (RegFile × Nat)) : Bool :=
  match d with
  | some (.v, i) => if i = 0 then vreg == 0 else gatedReg vreg (.v, i)
  | _ => false

/-- CHECK mode (R209): a source is short. -/
def Core.anyShort (k : Core) (rs : List (RegFile × Nat)) : Bool :=
  tyCheck k.task.entry && rs.any (fun r => k.short (k.pipe.sched + 1 + k.stallCount) r.1 r.2)

/-- An instruction after a `rep` waits until the repetition is done (R211): a vector, matrix, tile or stream instruction, one that
reads or pushes the scalar queue while the body pushes it, and one that writes a named register that the body reads. The model lets
those wait as well that end, suspend or leave the instruction stream. (DESIGN CHOICE, safe; log 92.) -/
def Core.heldBack (k : Core) (g : Sig) : Bool :=
  match k.pipe.rep with
  | none => false
  | some r =>
    let writes := g.dst.toList ++ g.more
    let wide := (g.reads ++ writes).any (fun e => e.1 == .v || e.1 == .y || e.1 == .m)
    let queue := g.reads.any (fun e => e.1 == .q) || g.dst == some (.k, 0)
    r.held.isNone && !k.pipe.inBody &&
      (g.alone || wide || g.tiles != [] || (queue && r.pushes) || writes.any (fun e => e.1 == .k && r.reads.contains e.2))

/-- The checks of R199 before the instruction's own, for one member. -/
def issueChecks (s : State) (c : Nat) (g : Sig) : Res Unit := do
  let k := s.core c
  if k.heldBack g then stall
  let vreg := tyVreg k.task.entry
  let rs := g.reads
  if hintsIllegal k.hints g.use then raise cIllegalOp
  if g.sys && !k.task.sys then raise cPriv
  if rs.any (gatedReg vreg) || gatedDest vreg g.dst then raise cRegGated
  match g.tiles.find? (fun n => decide (tyTiles k.task.entry ≤ n)) with
  | some n => raise cRegGated 0 (entryInfo n false)
  | none => pure ()
  if k.anyShort rs then raise cStallShort
  if rs.any (fun r => k.waits r.1 r.2) then stall
  match destReg g.dst with
  | some r => if k.waits r.1 r.2 then stall
  | none => pure ()
  if g.more.any (fun r => k.waits r.1 r.2) then stall
  if g.divides && k.pipe.pend.any (fun p => p.vdiv) then stall
  if rs.any (fun r => match k.boundAt r with
      | some i => (k.strm i).writes
      | none => false) then raise cIllegalOp
  match (destReg g.dst).bind k.boundAt with
  | some i => if (k.strm i).writes = false then raise cIllegalOp
  | none => pure ()

/-! ## Issue -/

/-- The cycle in which the instruction issues: after the last by its stall count, and late enough not to land before an earlier
write of its destination (R206, R208). (DESIGN CHOICE, unsafe; log 4.) -/
def issueCycle (s : State) (k : Core) (g : Sig) : Nat :=
  let first := max (max s.cyc k.pipe.readyAt) (k.pipe.lastIssue + 1 + k.stallCount)
  let base := if g.cls = 1 then max first k.pipe.divFree else first
  let writes := ((destReg g.dst).toList.map (fun r => (r, g.lat))) ++ g.more.map (fun r => (r, 1))
  writes.foldl (fun at_ w =>
    match k.pipe.pend.find? (fun p => !p.wait && decide (p.file = w.1.1 ∧ p.idx = w.1.2)) with
    | some p => max at_ (p.landAt + 1 - w.2)
    | none => at_) base

/-- The instruction leaves the issue stage: the program counter and the counts of R209 advance. A body instruction of a
repetition leaves the program counter alone (R242). -/
def beginIssue (s : State) (c : Nat) (g : Sig) : State :=
  let k := s.core c
  let inRep := k.bodyInstr.isSome
  let at_ := issueCycle s k g
  let n := k.stallCount
  let s1 := s.modCore c (fun k =>
    { (k.charge k.task.job (tyNrg k.task.entry) g.cls 1).charge k.task.job (tyNrg k.task.entry) 15
        (at_ - (max k.pipe.lastIssue k.awayAt + 1)) with
      pipe := { k.pipe with
        iva := k.instrVa
        gva := k.groupVa
        gstalls := k.pipe.stalls
        pops := []
        divides := g.divides
        pc := if inRep then k.pipe.pc else k.pipe.pc + 4
        stalls := if inRep then k.pipe.stalls else k.pipe.stalls.drop 1
        lastIssue := at_
        readyAt := at_ + 1
        sched := k.pipe.sched + 1 + n } })
  (((s1.evCount c 0x02 1).evCount c 0x04 n).evCount c 0x01 (at_ - max k.pipe.lastIssue k.pipe.otherClock.lastIssue)).evCount c 0x03
    (at_ - (max k.pipe.lastIssue k.awayAt + 1 + n))

/-- The operand values, fields that name a read stream popped in field order (R189). (DEDUCED, unsafe; log 50.) -/
def popOperands (s : State) (c : Nat) : List (RegFile × Nat) → Res (List Vec × State)
  | [] => .ok ([], s)
  | e :: es => do
    let r := operand e.1 e.2
    let (v, s1) ← match (s.core c).boundAt r with
      | some i => popStream s c i
      | none => pure ((s.core c).read r.1 r.2, s)
    let (vs, s2) ← popOperands s1 c es
    pure (v :: vs, s2)

/-- What follows the effect: the hints are used up, or a repetition goes to its next position. -/
def endIssue (s : State) (c : Nat) (inRep : Bool) : State :=
  s.modCore c (fun k =>
    if inRep then Core.stepBody { k with pipe := { k.pipe with full := false, bodyWait := none } }
    else { k with pipe := { k.pipe with full := false, hints := Hints.none } })

/-- The effect of an instruction for one member: the operand values in field order and the state after issue. -/
abbrev Body := Nat → List Vec → State → Res State

/-- One member issues the instruction. -/
def issueOne (g : Sig) (body : Body) (s : State) (c : Nat) : Res State := do
  issueChecks s c g
  let inRep := (s.core c).bodyInstr.isSome
  let (vs, s1) ← popOperands (beginIssue s c g) c g.srcs
  let s2 ← body c vs s1
  pure (endIssue s2 c inRep)

/-- How the issue of a whole unit ends: done, waiting with what it asks for, or with a trap of a member, and the members whose
instruction has issued with the state they leave. -/
inductive Issued where
  | ok (s : State)
  | stall (reqs : List Req)
  | trap (t : TrapInfo) (c : Nat) (s : State) (done : List Nat)

/-- The members issue in the order of their ranks (R175). (DESIGN CHOICE, unsafe; log 27.) -/
def issueAll (g : Sig) (body : Body) : State → List Nat → List Nat → Issued
  | s, [], _ => .ok s
  | s, c :: cs, done =>
    match issueOne g body s c with
    | .ok s1 => issueAll g body s1 cs (done ++ [c])
    | .error (.stall reqs) => .stall reqs
    | .error (.trap t) => .trap t c s done

/-- The unit waits: what it asks for is set under way (R189: the pops it made are given back). A body instruction that waits lets
the integer pipeline go on (R211). -/
def waitAtIssue (s : State) (ms : List Nat) (reqs : List Req) : State :=
  ms.foldl (fun s m => s.modCore m Core.leaveBody) (applyReqs s reqs)

/-- A trap of the integer pipeline waits for the member's results, and for a running repetition. (DESIGN CHOICE, safe; log 92.) -/
def Core.trapWaits (k : Core) : Bool := k.awaits || (k.repeating && !k.pipe.inBody)

/-- A trap of a member. It waits for every issued result (R210). Where it is one of the fault buffer nothing of the instruction
has been done; else the members before have issued theirs (R176). -/
def trapAtIssue (s0 s : State) (m : Nat) (ms done : List Nat) (t : TrapInfo) : State :=
  if ms.any (fun x => (s0.core x).trapWaits) then waitAtIssue s0 ms []
  else
    let issued := fun (x : Nat) => done.contains x && classOf t.cause == .entry
    takeTrap (if classOf t.cause = .entry ∧ done ≠ [] then s else s0) m t
      (fun x => if issued x then (s.core x).firstUnissued else (s0.core x).groupVa)

/-- The core whose instruction stream the actor's unit follows (R175). -/
def issuer (s : State) : Nat :=
  let c := s.actor.core.val
  let t := (s.core c).task
  if t.gang ≠ 0 ∧ t.brk = false then t.leader else c

/-- A LOCKSTEP pair takes a checkpoint when a commit-point operation has performed, and its checker follows (R177). An SC operation
performs in its place later, and the checkpoint comes with it. -/
def afterPair (s : State) (c : Nat) (committed : Bool) : State :=
  if (s.core c).task.gang ≠ 3 then s
  else
    let s1 : State := s.modCore c (fun k => { k with task := { k.task with commit := k.task.commit || committed } })
    if (s.core c).task.commit && !s.scOps.any (fun o => o.core.val == c) then
      match settleNear s1 c with
      | .ok s2 => mirrored (takeCheck s2 c) c
      | .error (.trap t) => takeTrap s1 c t (fun m => (s1.core m).pipe.gva)
      | .error (.stall _) => mirrored s1 c
    else mirrored s1 c

/-- A pair's COMMIT is set aside while its instruction runs, so that its own commit point shows. -/
def beforePair (s : State) (c : Nat) : State :=
  if (s.core c).task.gang ≠ 3 then s
  else s.modCore c (fun k => { k with task := { k.task with commit := false } })

/-- An instruction of a unit issues, waits or traps. -/
def issueUnit (g : Sig) (body : Body) (s : State) (c : Nat) : State :=
  let ms := actingMembers s c
  let was := (s.core c).task.commit
  match issueAll g body (beforePair s c) ms [] with
  | .ok s1 => if (s.core c).task.gang = 3 then afterPair s1 c was else s1
  | .stall reqs => mirrored (waitAtIssue s ms reqs) c
  | .trap t m s1 done => trapAtIssue s s1 m ms done t

/-- An instruction of a core's word is executed by the actor's unit. -/
def issue (g : Sig) (body : Body) (s : State) : Out :=
  let c := issuer s
  if (s.core c).mode = .run then .next (issueUnit g body s c) else .fault (.coreNotRunning (coreId c))

/-! ## Operand values and results -/

/-- Operand `i` as 64 bits. -/
def arg (vs : List Vec) (i : Nat) : Word := (vs[i]?.getD 0).setWidth 64
/-- Operand `i` as a vector. -/
def argV (vs : List Vec) (i : Nat) : Vec := vs[i]?.getD 0

/-- A fixed-latency result (R186, R189, R207). -/
def putResult (s : State) (c : Nat) (f : RegFile) (d lat : Nat) (v : Vec) : Res State :=
  match destReg (some (f, d)) with
  | none => .ok (s.modCore c (fun k => k.pushFixed (queueOf f) v lat))
  | some r =>
    match (s.core c).boundAt r with
    | some i => pushStream s c i v
    | none => .ok (s.modCore c (fun k => k.putFixed r.1 r.2 v lat))

/-- A variable-latency result whose value is there (R208). -/
def putVariable (s : State) (c : Nat) (f : RegFile) (d : Nat) (v : Vec) : Res State :=
  match destReg (some (f, d)) with
  | none => .ok ((s.modCore c (fun k => k.pushLater (queueOf f) v)).due (.resultWriteback (coreId c)))
  | some r =>
    match (s.core c).boundAt r with
    | some i => pushStream s c i v
    | none =>
      if r = (.k, 0) then .ok s
      else .ok ((s.modCore c (fun k => k.putLater r.1 r.2 v)).due (.resultWriteback (coreId c)))

/-- A scalar destination whose value is still to come, checked: the stream that is bound to it takes the push (R298). -/
def awaitCheck (s : State) (c d : Nat) : Res State :=
  match (destReg (some (.k, d))).bind (s.core c).boundAt with
  | some i => pushCheck s c i
  | none => .ok s

/-- A result whose value is still to come: its number. It goes to the stream that is bound to its register now (R189). -/
def putAwaited (s0 : State) (c : Nat) (d : Nat) : Res (Nat × State) := do
  let s ← awaitCheck s0 c d
  let n := (s.core c).pipe.seq
  match destReg (some (.k, d)) with
  | none => pure (n, s.modCore c (fun k => k.pushAwait .q))
  | some r => pure (n, s.modCore c (fun k => k.putAwait r.1 r.2 ((s.core c).boundAt r).isSome))

/-- A scalar result of fixed latency. -/
def putK (s : State) (c d lat : Nat) (v : Word) : Res State := putResult s c .k d lat (v.zeroExtend 512)
/-- A scalar result of variable latency. -/
def putKLater (s : State) (c d : Nat) (v : Word) : Res State := putVariable s c .k d (v.zeroExtend 512)

/-- Bubbles after a control transfer (R213). -/
def bubble (s : State) (c n : Nat) : State :=
  s.modCore c (fun k => { k with pipe := { k.pipe with readyAt := k.pipe.readyAt + n } })

/-- The program counter goes to a target. -/
def jumpTo (s : State) (c : Nat) (va : Word) : State :=
  s.modCore c (fun k => { k with fetchBuf := none, pipe := { k.pipe with pc := va } })

/-- The leader's rank-0 core of a unit and whether a member follows it (R175). -/
def followsLeader (s : State) (c : Nat) : Bool :=
  let t := (s.core c).task
  (t.gang == 1 || t.gang == 2) && !t.brk && t.leader != c

end Sys2Proof.Machine
end

