-- ==== Sys2Proof/Machine/Vector.lean ====
section
/-! DEFINITION. The vector instructions of majors 0x38 to 0x3F (10 R259 to R277). -/
namespace Sys2Proof.Machine

/-! ## Lanes and masks (R185, R259) -/

/-- Lane width of an integer type code; lane width of a floating-point one. -/
def laneBits (t : Nat) : Nat := 8 * 2 ^ t
def floatBits (t : Nat) : Nat := (fmtFormat t).width
/-- Lane `i` of `e` bits. -/
def lane (e : Nat) (v : Vec) (i : Nat) : Nat := bits v.toNat (e * i) e
/-- The number of lanes. -/
def laneCount (e : Nat) : Nat := 512 / e
/-- A vector of lanes of `e` bits, lane 0 first. -/
def ofLanes (e : Nat) (l : List Nat) : Vec := BitVec.ofNat 512 (l.foldr (fun x acc => acc * 2 ^ e + x % 2 ^ e) 0)

/-- The lanes of a function of the lane's number. -/
def lanesOf (n : Nat) (f : Nat → Nat) : List Nat := (List.range n).map f

/-- A mask field's value; `m0` is all ones. -/
def maskOf (k : Core) (m : Nat) : Nat := (k.read .m m).toNat % 2 ^ 64
/-- The mask register that a field reads. -/
def maskReg (m : Nat) : List (RegFile × Nat) := if m = 0 then [] else [(.m, m)]

/-- What inactive lanes hold: the old lanes of a named destination, 0 in a push or a stream (R185, R189). -/
def oldVec (s : State) (c d : Nat) : Vec :=
  let k := s.core c
  if d = 0 ∨ (k.boundAt (.v, d)).isSome then 0 else k.regs.raw .v d

/-- The vector's new lanes under a mask, written to `vd` or pushed; `lat` 0 is a result that comes later. -/
def putLanes (s : State) (c d lat e mask : Nat) (new : List Nat) : Res State :=
  let old := oldVec s c d
  let v := ofLanes e ((List.range (laneCount e)).map (fun i => if bit mask i then new[i]?.getD 0 else lane e old i))
  if lat = 0 then putVariable s c .v d v else putResult s c .v d lat v

/-- A vector written whole. (DEDUCED, unsafe; log 47.) -/
def putVec (s : State) (c d lat e : Nat) (new : List Nat) : Res State := putResult s c .v d lat (ofLanes e new)

/-! ## Moulds (R259) -/

/-- Binary: a function of the two lanes. A latency of 0 is that of a division, whose result comes later (R265). -/
def vecBinary (cls lat e : Nat) (use : HintUse) (f : Hints → Nat → Nat → Nat) (d : Fin 16) (a b : Fin 32) (m : Fin 8)
    (s : State) : Out :=
  issue { srcs := [(.v, a), (.v, b)], also := maskReg m, dst := some (.v, d), lat := lat, cls := cls, use := use,
          divides := lat == 0 }
    (fun c vs s =>
      let h := (s.core c).hints
      putLanes s c d lat e (maskOf (s.core c) m)
        (lanesOf (laneCount e) (fun i => f h (lane e (argV vs 0) i) (lane e (argV vs 1) i)))) s

/-- Accumulate: a function of the old lane of `vd` as well. -/
def vecAccumulate (cls lat e : Nat) (use : HintUse) (f : Hints → Nat → Nat → Nat → Nat) (d : Fin 16) (a b : Fin 32)
    (m : Fin 8) (s : State) : Out :=
  issue { srcs := [(.v, a), (.v, b)], also := (.v, d.val) :: maskReg m, dst := some (.v, d), lat := lat, cls := cls, use := use }
    (fun c vs s =>
      let h := (s.core c).hints
      let acc := (s.core c).read .v d
      putLanes s c d lat e (maskOf (s.core c) m)
        (lanesOf (laneCount e) (fun i => f h (lane e acc i) (lane e (argV vs 0) i) (lane e (argV vs 1) i)))) s

/-- Unary: a function of the lane. A latency of 0 is that of a square root (R265). -/
def vecUnary (cls lat e : Nat) (use : HintUse) (f : Hints → Nat → Nat) (d : Fin 16) (a : Fin 32) (m : Fin 8)
    (s : State) : Out :=
  issue { srcs := [(.v, a)], also := maskReg m, dst := some (.v, d), lat := lat, cls := cls, use := use, divides := lat == 0 }
    (fun c vs s =>
      let h := (s.core c).hints
      putLanes s c d lat e (maskOf (s.core c) m) (lanesOf (laneCount e) (fun i => f h (lane e (argV vs 0) i)))) s

/-- Compare: the relation of active lanes as bits of `md`. -/
def vecCompare (e : Nat) (f : Nat → Nat → Bool) (d : Fin 16) (a b : Fin 32) (m : Fin 8) (s : State) : Out :=
  issue { srcs := [(.v, a), (.v, b)], also := maskReg m, dst := some (.m, d), lat := 2, cls := 2 }
    (fun c vs s =>
      let k := s.core c
      let mask := maskOf k m
      let old := (k.regs.raw .m d).toNat
      let new := (List.range (laneCount e)).foldl (fun acc i =>
        acc + b2n (if bit mask i then f (lane e (argV vs 0) i) (lane e (argV vs 1) i) else bit old i) * 2 ^ i) 0
      putResult s c .m d 2 (BitVec.ofNat 512 new)) s

/-- Mask logic over the lanes of the type. -/
def maskLogic (t : Nat) (f : Nat → Nat → Nat) (d : Fin 16) (a b : Fin 32) (s : State) : Out :=
  let n := laneCount (laneBits t)
  issue { srcs := [(.m, a), (.m, b)], dst := some (.m, d), lat := 2, cls := 2 }
    (fun c vs s => putResult s c .m d 2 (BitVec.ofNat 512 (f ((arg vs 0).toNat % 2 ^ n) ((arg vs 1).toNat % 2 ^ n)))) s

/-- Mask count: a number of the mask's bits below N. -/
def maskCount (t : Nat) (f : Nat → Nat → Nat) (d : Fin 16) (a : Fin 32) (s : State) : Out :=
  let n := laneCount (laneBits t)
  issue { srcs := [(.m, a)], dst := some (.k, d), lat := 2, cls := 2 }
    (fun c vs s => putK s c d 2 (BitVec.ofNat 64 (f n ((arg vs 0).toNat % 2 ^ n)))) s

/-- Permute: the lane of the result as a function of the sources' lanes. -/
def vecPermute (t : Nat) (two : Bool) (f : Nat → (Nat → Nat) → (Nat → Nat) → Nat → Nat) (d : Fin 16) (a b : Fin 32) (m : Fin 8)
    (s : State) : Out :=
  let e := laneBits t
  let n := laneCount e
  issue { srcs := if two then [(.v, a), (.v, b)] else [(.v, a)], also := maskReg m, dst := some (.v, d), lat := 3, cls := 2 }
    (fun c vs s =>
      putLanes s c d 3 e (maskOf (s.core c) m)
        (lanesOf n (fun i => f n (lane e (argV vs 0)) (lane e (argV vs 1)) i))) s

/-- Slide: lanes move by the scalar operand. -/
def vecSlide (t : Nat) (f : Nat → Nat → (Nat → Nat) → Nat → Nat) (d : Fin 16) (a b : Fin 32) (m : Fin 8) (s : State) : Out :=
  let e := laneBits t
  let n := laneCount e
  issue { srcs := [(.v, a), (.k, b)], also := maskReg m, dst := some (.v, d), lat := 3, cls := 2 }
    (fun c vs s =>
      putLanes s c d 3 e (maskOf (s.core c) m) (lanesOf n (f n (arg vs 1).toNat (lane e (argV vs 0))))) s

/-- The lanes whose mask bit is 1. -/
def selected (e mask : Nat) (v : Vec) : List Nat :=
  ((List.range (laneCount e)).filter (fun i => bit mask i)).map (fun i => lane e v i)

/-- Reduction of the selected lanes to a scalar. -/
def vecReduce (e : Nat) (use : HintUse) (f : Hints → List Nat → Word) (d : Fin 16) (a : Fin 32) (m : Fin 8) (s : State) : Out :=
  issue { srcs := [(.v, a)], also := maskReg m, dst := some (.k, d), lat := 6, cls := 2, use := use }
    (fun c vs s => putK s c d 6 (f (s.core c).hints (selected e (maskOf (s.core c) m) (argV vs 0)))) s

/-- Scan: lane i of the result from the selected lanes up to i. -/
def vecScan (t : Nat) (f : Nat → List Nat → Nat) (d : Fin 16) (a : Fin 32) (m : Fin 8) (s : State) : Out :=
  let e := laneBits t
  issue { srcs := [(.v, a)], also := maskReg m, dst := some (.v, d), lat := 6, cls := 2 }
    (fun c vs s =>
      let mask := maskOf (s.core c) m
      putLanes s c d 6 e mask (lanesOf (laneCount e) (fun i => f e (selected e (mask % 2 ^ (i + 1)) (argV vs 0))))) s

/-! ## Floating point, major 0x38 (R262 to R265) -/

/-- The hint fields of majors that round, and of majors that saturate (R203). -/
def useRm : HintUse := { rm := true }
def useSat : HintUse := { sat := true }
def useCvt : HintUse := { rm := true, sat := true }

/-- A rounded function of two numbers. -/
def floatBinary (f : Rm → Fp → Fp → Fp) (d : Fin 16) (a b : Fin 32) (t m : Fin 8) (s : State) : Out :=
  let fm := fmtFormat t
  vecBinary 3 4 (floatBits t) useRm (fun h x y => let rm := rmWith h .rne; fm.round rm false (f rm (fm.unpack x) (fm.unpack y)))
    d a b m s

/-- `vmin` and `vmax` of two patterns. -/
def floatPick (t : Nat) (first : Fp → Fp → Bool) (x y : Nat) : Nat :=
  let fm := fmtFormat t
  let p := fm.unpack x
  let q := fm.unpack y
  if p.isNan && q.isNan then fm.canonical else if p.isNan then y else if q.isNan then x else if first p q then x else y

/-- RCP of R264. -/
def rcpRound (t : Nat) (rm : Rm) (x : Fp) : Nat :=
  if t = 4 then fp32.pack (roundFp 13 fp32 8191 115 rm false x) else (fmtFormat t).round rm false x

/-- `vadd` (R264). -/
def execVaddFp (d : Fin 16) (a b : Fin 32) (t m : Fin 8) (s : State) : Out := floatBinary Fp.add d a b t m s

/-- `vsub` (R264). -/
def execVsubFp (d : Fin 16) (a b : Fin 32) (t m : Fin 8) (s : State) : Out :=
  floatBinary (fun rm x y => Fp.add rm x y.neg) d a b t m s

/-- `vmul` (R264). -/
def execVmulFp (d : Fin 16) (a b : Fin 32) (t m : Fin 8) (s : State) : Out := floatBinary (fun _ x y => Fp.mul x y) d a b t m s

/-- A rounded `d ± a·b`. -/
def floatFused (minus : Bool) (d : Fin 16) (a b : Fin 32) (t m : Fin 8) (s : State) : Out :=
  let fm := fmtFormat t
  vecAccumulate 3 4 (floatBits t) useRm (fun h z x y =>
    let rm := rmWith h .rne
    let p := Fp.mul (fm.unpack x) (fm.unpack y)
    fm.round rm false (Fp.add rm (fm.unpack z) (if minus then p.neg else p))) d a b m s

/-- `vmla` (R264). -/
def execVmlaFp (d : Fin 16) (a b : Fin 32) (t m : Fin 8) (s : State) : Out := floatFused false d a b t m s

/-- `vmls` (R264). -/
def execVmlsFp (d : Fin 16) (a b : Fin 32) (t m : Fin 8) (s : State) : Out := floatFused true d a b t m s

/-- `vmin` (R264). -/
def execVminFp (d : Fin 16) (a b : Fin 32) (t m : Fin 8) (s : State) : Out :=
  vecBinary 3 4 (floatBits t) useRm (fun _ x y => floatPick t Fp.below x y) d a b m s

/-- `vmax` (R264). -/
def execVmaxFp (d : Fin 16) (a b : Fin 32) (t m : Fin 8) (s : State) : Out :=
  vecBinary 3 4 (floatBits t) useRm (fun _ x y => floatPick t (fun p q => Fp.below q p) x y) d a b m s

/-- `vabs` (R264). -/
def execVabsFp (d : Fin 16) (a : Fin 32) (t m : Fin 8) (s : State) : Out :=
  let e := floatBits t
  vecUnary 3 4 e useRm (fun _ x => x % 2 ^ (e - 1)) d a m s

/-- `vneg` (R264). -/
def execVnegFp (d : Fin 16) (a : Fin 32) (t m : Fin 8) (s : State) : Out :=
  let e := floatBits t
  vecUnary 3 4 e useRm (fun _ x => x ^^^ 2 ^ (e - 1)) d a m s

/-- `vdiv` (R264, R265). -/
def execVdiv (d : Fin 16) (a b : Fin 32) (t m : Fin 8) (s : State) : Out :=
  let fm := fmtFormat t
  vecBinary 3 0 (floatBits t) useRm (fun h x y => fm.round (rmWith h .rne) false (Fp.div (fm.unpack x) (fm.unpack y))) d a b m s

/-- `vsqrt` (R264, R265). -/
def execVsqrt (d : Fin 16) (a : Fin 32) (t m : Fin 8) (s : State) : Out :=
  let fm := fmtFormat t
  vecUnary 3 0 (floatBits t) useRm (fun h x => fm.round (rmWith h .rne) false (Fp.sqrt (fm.unpack x))) d a m s

/-- `vrcp` (R264). -/
def execVrcp (d : Fin 16) (a : Fin 32) (t m : Fin 8) (s : State) : Out :=
  vecUnary 3 4 (floatBits t) useRm (fun h x =>
    rcpRound t (rmWith h .rne) (Fp.div (.num false 1 0) ((fmtFormat t).unpack x))) d a m s

/-- `vrsq` (R264). -/
def execVrsq (d : Fin 16) (a : Fin 32) (t m : Fin 8) (s : State) : Out :=
  vecUnary 3 4 (floatBits t) useRm (fun h x => rcpRound t (rmWith h .rne) (Fp.rsqrt ((fmtFormat t).unpack x))) d a m s

/-! ## Integers, major 0x39 (R266, R267) -/

/-- The least and the greatest signed number of `e` bits. -/
def sMin (e : Nat) : Int := -(2 ^ (e - 1) : Nat)
def sMax (e : Nat) : Int := (2 ^ (e - 1) : Nat) - 1
/-- An exact number as a lane: saturated to the signed range, or to the unsigned one. -/
def satS (e : Nat) (x : Int) : Nat := wrap (sat x (sMin e) (sMax e)) e
def satU (e : Nat) (x : Int) : Nat := wrap (sat x 0 ((2 ^ e : Nat) - 1)) e

/-- An exact result that wraps, or saturates where `hnt.mod` asks for it (R267). -/
def vecInt (f : Int → Int → Int) (d : Fin 16) (a b : Fin 32) (t m : Fin 8) (s : State) : Out :=
  let e := laneBits t
  vecBinary 2 2 e useSat (fun h x y =>
    let r := f (sint x e) (sint y e)
    if satWith h false then satS e r else wrap r e) d a b m s

/-- A function of the lanes of an integer type. -/
def vecPlain (f : Nat → Nat → Nat → Nat) (d : Fin 16) (a b : Fin 32) (t m : Fin 8) (s : State) : Out :=
  vecBinary 2 2 (laneBits t) {} (fun _ => f (laneBits t)) d a b m s
def vecPlain1 (f : Nat → Nat → Nat) (d : Fin 16) (a : Fin 32) (t m : Fin 8) (s : State) : Out :=
  vecUnary 2 2 (laneBits t) {} (fun _ => f (laneBits t)) d a m s

/-- `vadd` of integers (R266). -/
def execVaddInt (d : Fin 16) (a b : Fin 32) (t m : Fin 8) (s : State) : Out := vecInt (· + ·) d a b t m s
/-- `vsub` of integers (R266). -/
def execVsubInt (d : Fin 16) (a b : Fin 32) (t m : Fin 8) (s : State) : Out := vecInt (· - ·) d a b t m s
/-- `vmul` of integers (R266). -/
def execVmulInt (d : Fin 16) (a b : Fin 32) (t m : Fin 8) (s : State) : Out := vecInt (· * ·) d a b t m s

/-- `vmla` of integers (R266). -/
def execVmlaInt (d : Fin 16) (a b : Fin 32) (t m : Fin 8) (s : State) : Out :=
  vecAccumulate 2 2 (laneBits t) {} (fun _ z x y => z + x * y) d a b m s

/-- `vmin` of integers (R266). -/
def execVminInt (d : Fin 16) (a b : Fin 32) (t m : Fin 8) (s : State) : Out :=
  vecPlain (fun e x y => if sint y e < sint x e then y else x) d a b t m s
/-- `vmax` of integers (R266). -/
def execVmaxInt (d : Fin 16) (a b : Fin 32) (t m : Fin 8) (s : State) : Out :=
  vecPlain (fun e x y => if sint x e < sint y e then y else x) d a b t m s
/-- `vminz` (R266). -/
def execVminz (d : Fin 16) (a b : Fin 32) (t m : Fin 8) (s : State) : Out := vecPlain (fun _ x y => Nat.min x y) d a b t m s
/-- `vmaxz` (R266). -/
def execVmaxz (d : Fin 16) (a b : Fin 32) (t m : Fin 8) (s : State) : Out := vecPlain (fun _ x y => Nat.max x y) d a b t m s
/-- `vabs` of integers (R266). -/
def execVabsInt (d : Fin 16) (a : Fin 32) (t m : Fin 8) (s : State) : Out := vecPlain1 (fun e x => (sint x e).natAbs) d a t m s
/-- `vneg` of integers (R266). -/
def execVnegInt (d : Fin 16) (a : Fin 32) (t m : Fin 8) (s : State) : Out := vecPlain1 (fun e x => 2 ^ e - x) d a t m s
/-- `vadds` (R266). -/
def execVadds (d : Fin 16) (a b : Fin 32) (t m : Fin 8) (s : State) : Out :=
  vecPlain (fun e x y => satS e (sint x e + sint y e)) d a b t m s
/-- `vsubs` (R266). -/
def execVsubs (d : Fin 16) (a b : Fin 32) (t m : Fin 8) (s : State) : Out :=
  vecPlain (fun e x y => satS e (sint x e - sint y e)) d a b t m s
/-- `vaddsz` (R266). -/
def execVaddsz (d : Fin 16) (a b : Fin 32) (t m : Fin 8) (s : State) : Out :=
  vecPlain (fun e x y => satU e ((x : Int) + y)) d a b t m s
/-- `vsubsz` (R266). -/
def execVsubsz (d : Fin 16) (a b : Fin 32) (t m : Fin 8) (s : State) : Out :=
  vecPlain (fun e x y => satU e ((x : Int) - y)) d a b t m s
/-- `vmulh` (R266). -/
def execVmulh (d : Fin 16) (a b : Fin 32) (t m : Fin 8) (s : State) : Out :=
  vecPlain (fun e x y => wrap (sint x e * sint y e / (2 ^ e : Nat)) e) d a b t m s

/-- The sum of the products of the four bytes, as `f` reads them. -/
def dot4 (f : Nat → Int) (x y : Nat) : Nat :=
  wrap ((List.range 4).foldl (fun acc j => acc + f (bits x (8 * j) 8) * f (bits y (8 * j) 8)) 0) 32

/-- `vdot4` (R266). -/
def execVdot4 (d : Fin 16) (a b : Fin 32) (t m : Fin 8) (s : State) : Out :=
  vecPlain (fun _ x y => dot4 (fun v => sint v 8) x y) d a b t m s
/-- `vdot4z` (R266). -/
def execVdot4z (d : Fin 16) (a b : Fin 32) (t m : Fin 8) (s : State) : Out :=
  vecPlain (fun _ x y => dot4 (fun v => (v : Int)) x y) d a b t m s
/-- `vclmul` (R266). -/
def execVclmul (d : Fin 16) (a b : Fin 32) (t m : Fin 8) (s : State) : Out := vecPlain (fun e x y => clmulNat e x y) d a b t m s
/-- `vclmulh` (R266). -/
def execVclmulh (d : Fin 16) (a b : Fin 32) (t m : Fin 8) (s : State) : Out :=
  vecPlain (fun e x y => clmulNat e x y >>> e) d a b t m s

/-! ## Logic and shifts, major 0x3A (R268) -/

/-- Shifts by an amount; by the width or more, every bit goes. -/
def vshlLane (e x n : Nat) : Nat := if e ≤ n then 0 else x <<< n
def vshrLane (e x n : Nat) : Nat := if e ≤ n then 0 else x >>> n
def vsraLane (e x n : Nat) : Nat := wrap (sint x e / (2 ^ Nat.min n e : Nat)) e

/-- `vand` (R268). -/
def execVand (d : Fin 16) (a b : Fin 32) (t m : Fin 8) (s : State) : Out := vecPlain (fun _ x y => x &&& y) d a b t m s
/-- `vor` (R268). -/
def execVor (d : Fin 16) (a b : Fin 32) (t m : Fin 8) (s : State) : Out := vecPlain (fun _ x y => x ||| y) d a b t m s
/-- `vxor` (R268). -/
def execVxor (d : Fin 16) (a b : Fin 32) (t m : Fin 8) (s : State) : Out := vecPlain (fun _ x y => x ^^^ y) d a b t m s
/-- `vandn` (R268). -/
def execVandn (d : Fin 16) (a b : Fin 32) (t m : Fin 8) (s : State) : Out :=
  vecPlain (fun e x y => x &&& (2 ^ e - 1 - y)) d a b t m s
/-- `vnot` (R268). -/
def execVnot (d : Fin 16) (a : Fin 32) (t m : Fin 8) (s : State) : Out := vecPlain1 (fun e x => 2 ^ e - 1 - x) d a t m s
/-- `vshl` (R268). -/
def execVshl (d : Fin 16) (a b : Fin 32) (t m : Fin 8) (s : State) : Out := vecPlain vshlLane d a b t m s
/-- `vshr` (R268). -/
def execVshr (d : Fin 16) (a b : Fin 32) (t m : Fin 8) (s : State) : Out := vecPlain vshrLane d a b t m s
/-- `vsra` (R268). -/
def execVsra (d : Fin 16) (a b : Fin 32) (t m : Fin 8) (s : State) : Out := vecPlain vsraLane d a b t m s
/-- `vpopc` (R268). -/
def execVpopc (d : Fin 16) (a : Fin 32) (t m : Fin 8) (s : State) : Out := vecPlain1 popcount d a t m s
/-- `vclz` (R268). -/
def execVclz (d : Fin 16) (a : Fin 32) (t m : Fin 8) (s : State) : Out := vecPlain1 leadingZeros d a t m s
/-- `vshli` (R268). -/
def execVshli (d : Fin 16) (a i : Fin 32) (t m : Fin 8) (s : State) : Out := vecPlain1 (fun e x => vshlLane e x i) d a t m s
/-- `vshri` (R268). -/
def execVshri (d : Fin 16) (a i : Fin 32) (t m : Fin 8) (s : State) : Out := vecPlain1 (fun e x => vshrLane e x i) d a t m s
/-- `vsrai` (R268). -/
def execVsrai (d : Fin 16) (a i : Fin 32) (t m : Fin 8) (s : State) : Out := vecPlain1 (fun e x => vsraLane e x i) d a t m s

/-! ## Compares and masks, major 0x3B (R269, R270) -/

/-- A compare of integers by a condition code of R230. -/
def intCompare (code : Nat) (d : Fin 16) (a b : Fin 32) (t m : Fin 8) (s : State) : Out :=
  vecCompare (laneBits t) (condHolds (laneBits t) code) d a b m s
/-- A compare of floating-point numbers. -/
def floatCompare (f : Fp → Fp → Bool) (d : Fin 16) (a b : Fin 32) (t m : Fin 8) (s : State) : Out :=
  vecCompare (floatBits t) (fun x y => f ((fmtFormat t).unpack x) ((fmtFormat t).unpack y)) d a b m s

/-- `veq` (R269). -/
def execVeq (d : Fin 16) (a b : Fin 32) (t m : Fin 8) (s : State) : Out := intCompare 0 d a b t m s
/-- `vne` (R269). -/
def execVne (d : Fin 16) (a b : Fin 32) (t m : Fin 8) (s : State) : Out := intCompare 1 d a b t m s
/-- `vlt` (R269). -/
def execVlt (d : Fin 16) (a b : Fin 32) (t m : Fin 8) (s : State) : Out := intCompare 2 d a b t m s
/-- `vge` (R269). -/
def execVge (d : Fin 16) (a b : Fin 32) (t m : Fin 8) (s : State) : Out := intCompare 3 d a b t m s
/-- `vlo` (R269). -/
def execVlo (d : Fin 16) (a b : Fin 32) (t m : Fin 8) (s : State) : Out := intCompare 4 d a b t m s
/-- `vhs` (R269). -/
def execVhs (d : Fin 16) (a b : Fin 32) (t m : Fin 8) (s : State) : Out := intCompare 5 d a b t m s
/-- `vfeq` (R269). -/
def execVfeq (d : Fin 16) (a b : Fin 32) (t m : Fin 8) (s : State) : Out := floatCompare Fp.eq d a b t m s
/-- `vflt` (R269). -/
def execVflt (d : Fin 16) (a b : Fin 32) (t m : Fin 8) (s : State) : Out := floatCompare Fp.lt d a b t m s
/-- `vfle` (R269). -/
def execVfle (d : Fin 16) (a b : Fin 32) (t m : Fin 8) (s : State) : Out :=
  floatCompare (fun x y => Fp.lt x y || Fp.eq x y) d a b t m s
/-- `vfun` (R269). -/
def execVfun (d : Fin 16) (a b : Fin 32) (t m : Fin 8) (s : State) : Out :=
  floatCompare (fun x y => x.isNan || y.isNan) d a b t m s

/-- `mand` (R270). -/
def execMand (d : Fin 16) (a b : Fin 32) (t : Fin 8) (s : State) : Out := maskLogic t (· &&& ·) d a b s
/-- `mor` (R270). -/
def execMor (d : Fin 16) (a b : Fin 32) (t : Fin 8) (s : State) : Out := maskLogic t (· ||| ·) d a b s
/-- `mxor` (R270). -/
def execMxor (d : Fin 16) (a b : Fin 32) (t : Fin 8) (s : State) : Out := maskLogic t (· ^^^ ·) d a b s
/-- `mandn` (R270). -/
def execMandn (d : Fin 16) (a b : Fin 32) (t : Fin 8) (s : State) : Out := maskLogic t (fun x y => x &&& (x ^^^ y)) d a b s
/-- `mpop` (R270). -/
def execMpop (d : Fin 16) (a : Fin 32) (t : Fin 8) (s : State) : Out := maskCount t popcount d a s
/-- `mffs` (R270). -/
def execMffs (d : Fin 16) (a : Fin 32) (t : Fin 8) (s : State) : Out := maskCount t trailingZeros d a s

/-- `vsel` (R270). -/
def execVsel (d : Fin 16) (a b : Fin 32) (t m : Fin 8) (s : State) : Out :=
  let e := laneBits t
  issue { srcs := [(.v, a), (.v, b)], also := maskReg m, dst := some (.v, d), lat := 2, cls := 2 }
    (fun c vs s =>
      let mask := maskOf (s.core c) m
      putVec s c d 2 e (lanesOf (laneCount e) (fun i => if bit mask i then lane e (argV vs 0) i else lane e (argV vs 1) i))) s

/-! ## Conversions, major 0x3C (R271 to R273) -/

/-- A conversion of the first L lanes of `es` bits to lanes of `ed` bits; the lanes above are 0. -/
def vecConvert (es ed : Nat) (use : HintUse) (f : Hints → Nat → Nat) (d : Fin 16) (a : Fin 32) (m : Fin 8) (s : State) : Out :=
  let n := 512 / Nat.max es ed
  issue { srcs := [(.v, a)], also := maskReg m, dst := some (.v, d), lat := 3, cls := 3, use := use }
    (fun c vs s =>
      let h := (s.core c).hints
      let mask := maskOf (s.core c) m
      let old := oldVec s c d
      putVec s c d 3 ed (lanesOf (laneCount ed) (fun i =>
        if n ≤ i then 0 else if bit mask i then f h (lane es (argV vs 0) i) else lane ed old i))) s

/-- The SAT field of `hnt.mod`, and SATM (R273). -/
def satField (h : Hints) : Nat := bits (h.mod.getD 0) 3 2

/-- `vcvt` (R273). -/
def execVcvt (d : Fin 16) (a : Fin 32) (r : Fin 4) (f t m : Fin 8) (s : State) : Out :=
  vecConvert (floatBits f) (floatBits t) useCvt
    (fun h x => (fmtFormat t).round (rmWith h (rmOf r)) (satField h == 1) ((fmtFormat f).unpack x)) d a m s

/-- `vf2i` (R273). -/
def execVf2i (d : Fin 16) (a : Fin 32) (r : Fin 4) (f t m : Fin 8) (s : State) : Out :=
  let e := laneBits t
  vecConvert (floatBits f) e useCvt
    (fun h x => wrap (Fp.toIntSat (rmWith h (rmOf r)) ((fmtFormat f).unpack x) (sMin e) (sMax e)) e) d a m s

/-- `vi2f` (R273). -/
def execVi2f (d : Fin 16) (a : Fin 32) (r : Fin 4) (f t m : Fin 8) (s : State) : Out :=
  let e := laneBits (f.val % 4)
  vecConvert e (floatBits t) useCvt
    (fun h x => (fmtFormat t).round (rmWith h (rmOf r)) (satField h == 1)
      (Fp.ofInt (if f.val < 4 then sint x e else (x : Int)) 0 false)) d a m s

/-- The mode of `vnarrow` under the SAT field (R273). -/
def narrowMode (sat mode : Nat) : Nat := if sat = 2 then 0 else if sat = 1 ∧ mode = 0 then 1 else mode

/-- `vnarrow` (R273). -/
def execVnarrow (d : Fin 16) (a : Fin 32) (q : Fin 4) (f t m : Fin 8) (s : State) : Out :=
  let es := laneBits f
  let ed := laneBits t
  vecConvert es ed useSat
    (fun h x => match narrowMode (satField h) q with
      | 0 => x
      | 1 => satS ed (sint x es)
      | 2 => satU ed (sint x es)
      | _ => satU ed (x : Int)) d a m s

/-- `vwiden` (R272, R273). -/
def execVwiden (d : Fin 16) (a : Fin 32) (h e : Fin 2) (f t m : Fin 8) (s : State) : Out :=
  let es := laneBits f
  let ed := laneBits t
  let n := laneCount ed
  issue { srcs := [(.v, a)], also := maskReg m, dst := some (.v, d), lat := 3, cls := 3, use := useSat }
    (fun c vs s =>
      putLanes s c d 3 ed (maskOf (s.core c) m) (lanesOf n (fun i =>
        let x := lane es (argV vs 0) (h * n + i)
        if e.val = 0 then wrap (sint x es) ed else x))) s

/-! ## Permutes, major 0x3D (R274) -/

/-- `vperm` (R274). -/
def execVperm (d : Fin 16) (a b : Fin 32) (t m : Fin 8) (s : State) : Out :=
  vecPermute t true (fun n x y i => if y i < n then x (y i) else 0) d a b m s

/-- `vslideup` (R274). -/
def execVslideup (d : Fin 16) (a b : Fin 32) (t m : Fin 8) (s : State) : Out :=
  vecSlide t (fun _ k x i => if k ≤ i then x (i - k) else 0) d a b m s

/-- `vslidedn` (R274). -/
def execVslidedn (d : Fin 16) (a b : Fin 32) (t m : Fin 8) (s : State) : Out :=
  vecSlide t (fun n k x i => if i + k < n then x (i + k) else 0) d a b m s

/-- `vcompress` (R274). -/
def execVcompress (d : Fin 16) (a : Fin 32) (t m : Fin 8) (s : State) : Out :=
  let e := laneBits t
  issue { srcs := [(.v, a)], also := maskReg m, dst := some (.v, d), lat := 3, cls := 2 }
    (fun c vs s => putVec s c d 3 e (selected e (maskOf (s.core c) m) (argV vs 0))) s

/-- `vexpand` (R274). -/
def execVexpand (d : Fin 16) (a : Fin 32) (t m : Fin 8) (s : State) : Out :=
  let e := laneBits t
  issue { srcs := [(.v, a)], also := maskReg m, dst := some (.v, d), lat := 3, cls := 2 }
    (fun c vs s =>
      let mask := maskOf (s.core c) m
      putLanes s c d 3 e mask (lanesOf (laneCount e) (fun i => lane e (argV vs 0) (popcount i mask)))) s

/-- Interleaved lanes from lane `from_` up. -/
def zipped (from_ : Nat) (x y : Nat → Nat) (i : Nat) : Nat := if i % 2 = 0 then x (i / 2 + from_) else y (i / 2 + from_)
/-- Lanes of one parity of both sources. -/
def unzipped (n odd : Nat) (x y : Nat → Nat) (i : Nat) : Nat :=
  if i < n / 2 then x (2 * i + odd) else y (2 * (i - n / 2) + odd)

/-- `vzip.lo` (R274). -/
def execVzipLo (d : Fin 16) (a b : Fin 32) (t m : Fin 8) (s : State) : Out :=
  vecPermute t true (fun _ x y i => zipped 0 x y i) d a b m s
/-- `vzip.hi` (R274). -/
def execVzipHi (d : Fin 16) (a b : Fin 32) (t m : Fin 8) (s : State) : Out :=
  vecPermute t true (fun n x y i => zipped (n / 2) x y i) d a b m s
/-- `vuzp.ev` (R274). -/
def execVuzpEv (d : Fin 16) (a b : Fin 32) (t m : Fin 8) (s : State) : Out :=
  vecPermute t true (fun n x y i => unzipped n 0 x y i) d a b m s
/-- `vuzp.od` (R274). -/
def execVuzpOd (d : Fin 16) (a b : Fin 32) (t m : Fin 8) (s : State) : Out :=
  vecPermute t true (fun n x y i => unzipped n 1 x y i) d a b m s
/-- `vrev` (R274). -/
def execVrev (d : Fin 16) (a : Fin 32) (t m : Fin 8) (s : State) : Out :=
  vecPermute t false (fun n x _ i => x (n - 1 - i)) d a 0 m s
/-- `vpack` (R274). -/
def execVpack (d : Fin 16) (a b : Fin 32) (t m : Fin 8) (s : State) : Out :=
  vecPermute t true (fun n x y i => if i < n / 2 then x i else y (i - n / 2)) d a b m s

/-! ## Reductions and scans, major 0x3E (R275, R276) -/

/-- The greatest of the numbers and of a least one. -/
def maxFrom (lo : Int) (l : List Int) : Int := l.foldl (fun a x => if a < x then x else a) lo
/-- The least of the numbers and of a greatest one. -/
def minFrom (hi : Int) (l : List Int) : Int := l.foldl (fun a x => if x < a then x else a) hi

/-- A reduction of an integer type. -/
def intReduce (use : HintUse) (f : Nat → List Nat → Word) (d : Fin 16) (a : Fin 32) (t m : Fin 8) (s : State) : Out :=
  vecReduce (laneBits t) use (fun _ => f (laneBits t)) d a m s

/-- `vradd` (R275). -/
def execVradd (d : Fin 16) (a : Fin 32) (t m : Fin 8) (s : State) : Out :=
  intReduce useRm (fun e l => BitVec.ofInt 64 (l.foldl (fun acc x => acc + sint x e) 0)) d a t m s
/-- `vrmin` (R275). -/
def execVrmin (d : Fin 16) (a : Fin 32) (t m : Fin 8) (s : State) : Out :=
  intReduce {} (fun e l => BitVec.ofInt 64 (minFrom (sMax e) (l.map (fun x => sint x e)))) d a t m s
/-- `vrmax` (R275). -/
def execVrmax (d : Fin 16) (a : Fin 32) (t m : Fin 8) (s : State) : Out :=
  intReduce {} (fun e l => BitVec.ofInt 64 (maxFrom (sMin e) (l.map (fun x => sint x e)))) d a t m s
/-- `vrminz` (R275). -/
def execVrminz (d : Fin 16) (a : Fin 32) (t m : Fin 8) (s : State) : Out :=
  intReduce {} (fun e l => BitVec.ofNat 64 (l.foldl Nat.min (2 ^ e - 1))) d a t m s
/-- `vrmaxz` (R275). -/
def execVrmaxz (d : Fin 16) (a : Fin 32) (t m : Fin 8) (s : State) : Out :=
  intReduce {} (fun _ l => BitVec.ofNat 64 (l.foldl Nat.max 0)) d a t m s
/-- `vrand` (R275). -/
def execVrand (d : Fin 16) (a : Fin 32) (t m : Fin 8) (s : State) : Out :=
  intReduce {} (fun e l => BitVec.ofNat 64 (l.foldl (· &&& ·) (2 ^ e - 1))) d a t m s
/-- `vror` (R275). -/
def execVror (d : Fin 16) (a : Fin 32) (t m : Fin 8) (s : State) : Out :=
  intReduce {} (fun _ l => BitVec.ofNat 64 (l.foldl (· ||| ·) 0)) d a t m s
/-- `vrxor` (R275). -/
def execVrxor (d : Fin 16) (a : Fin 32) (t m : Fin 8) (s : State) : Out :=
  intReduce {} (fun _ l => BitVec.ofNat 64 (l.foldl (· ^^^ ·) 0)) d a t m s

/-- The sequential sum of R276. -/
def sequentialSum (fm : Format) (rm : Rm) : List Nat → Nat
  | [] => 0
  | x :: xs => xs.foldl (fun acc y => fm.round rm false (Fp.add rm (fm.unpack acc) (fm.unpack y))) x

/-- `vrfadd` (R276). -/
def execVrfadd (d : Fin 16) (a : Fin 32) (t m : Fin 8) (s : State) : Out :=
  vecReduce (floatBits t) useRm (fun h l => BitVec.ofNat 64 (sequentialSum (fmtFormat t) (rmWith h .rne) l)) d a m s

/-- `vscan.add` (R275). -/
def execVscanAdd (d : Fin 16) (a : Fin 32) (t m : Fin 8) (s : State) : Out :=
  vecScan t (fun _ l => l.foldl (· + ·) 0) d a m s
/-- `vscan.xor` (R275). -/
def execVscanXor (d : Fin 16) (a : Fin 32) (t m : Fin 8) (s : State) : Out :=
  vecScan t (fun _ l => l.foldl (· ^^^ ·) 0) d a m s
/-- `vscan.max` (R275). -/
def execVscanMax (d : Fin 16) (a : Fin 32) (t m : Fin 8) (s : State) : Out :=
  vecScan t (fun e l => wrap (maxFrom (sMin e) (l.map (fun x => sint x e))) e) d a m s

/-! ## Moves, major 0x3F (R277) -/

/-- `vsplat` (R277). -/
def execVsplat (d : Fin 16) (a : Fin 32) (t m : Fin 8) (s : State) : Out :=
  let e := laneBits t
  issue { srcs := [(.k, a)], also := maskReg m, dst := some (.v, d), lat := 2, cls := 2 }
    (fun c vs s => putLanes s c d 2 e (maskOf (s.core c) m) (lanesOf (laneCount e) (fun _ => (arg vs 0).toNat))) s

/-- `vext` (R277). -/
def execVext (d : Fin 16) (a b : Fin 32) (t : Fin 8) (s : State) : Out :=
  let e := laneBits t
  issue { srcs := [(.v, a), (.k, b)], dst := some (.k, d), lat := 2, cls := 2 }
    (fun c vs s =>
      let i := (arg vs 1).toNat
      putK s c d 2 (BitVec.ofNat 64 (if i < laneCount e then lane e (argV vs 0) i else 0))) s

/-- `vins` (R277). -/
def execVins (d : Fin 16) (a b : Fin 32) (t : Fin 8) (s : State) : Out :=
  let e := laneBits t
  issue { srcs := [(.k, a), (.k, b)], also := [(.v, d.val)], dst := some (.v, d), lat := 2, cls := 2 }
    (fun c vs s =>
      let old := (s.core c).read .v d
      putVec s c d 2 e (lanesOf (laneCount e) (fun i =>
        if i = (arg vs 1).toNat then (arg vs 0).toNat else lane e old i))) s

/-- `vmov` (R277). -/
def execVmov (d : Fin 16) (a : Fin 32) (t m : Fin 8) (s : State) : Out := vecPlain1 (fun _ x => x) d a t m s

/-- `vidx` (R277). -/
def execVidx (d : Fin 16) (t m : Fin 8) (s : State) : Out :=
  let e := laneBits t
  issue { also := maskReg m, dst := some (.v, d), lat := 2, cls := 2 }
    (fun c _ s => putLanes s c d 2 e (maskOf (s.core c) m) (lanesOf (laneCount e) id)) s

/-- `vbits` (R277). -/
def execVbits (d : Fin 16) (a : Fin 32) (t : Fin 8) (s : State) : Out := maskCount t (fun _ x => x) d a s

/-- `vmsk` (R277). -/
def execVmsk (d : Fin 16) (a : Fin 32) (t : Fin 8) (s : State) : Out :=
  issue { srcs := [(.k, a)], dst := some (.m, d), lat := 2, cls := 2 }
    (fun c vs s => putResult s c .m d 2 (BitVec.ofNat 512 ((arg vs 0).toNat % 2 ^ laneCount (laneBits t)))) s

end Sys2Proof.Machine
end

