-- ==== Sys2Proof/Machine/MemInstr.lean ====
section
/-! DEFINITION. Plain memory instructions: scalar and vector loads and stores, strided accesses, gathers and scatters, lane slices
(11 R279 to R287). -/
namespace Sys2Proof.Machine

/-! ## Scalar loads and stores (R281, R282) -/

/-- A scalar as loaded: `n` bits extended to 64. -/
def loaded (sext : Nat) (n v : Nat) : Word := if sext = 1 then sext64 v n else BitVec.ofNat 64 v

/-- The effective address. -/
def effective64 (base : Word) (off : Int) : Nat := wrap (base.toNat + off) 64

/-- `ld` (R281). -/
def execLd (d : Fin 16) (a : Fin 32) (w : Fin 4) (x : Fin 2) (c : Fin 4) (o : Fin 2048) (s : State) : Out :=
  let n : Nat := 2 ^ w.val
  issue { srcs := [(.k, a)], dst := some (.k, d), cls := 4, use := { imm := 11 } }
    (fun m vs s => do
      let va := effective64 (arg vs 0) (immOf (s.core m).hints 11 o true * (n : Int))
      let (v, s1) ← loadData s (taskAccess s m .read va n 1) (some c)
      putKLater s1 m d (loaded x (8 * n) v)) s

/-- `st` (R281). -/
def execSt (b a : Fin 32) (w c : Fin 4) (o : Fin 2048) (s : State) : Out :=
  let n : Nat := 2 ^ w.val
  issue { srcs := [(.k, a), (.k, b)], cls := 4, use := { imm := 11 } }
    (fun m vs s =>
      let va := effective64 (arg vs 0) (immOf (s.core m).hints 11 o true * (n : Int))
      storeData s { taskAccess s m .write va n 1 with cp := c.val } ((arg vs 1).toNat % 2 ^ (8 * n)) true false) s

/-- The address of the indexed forms (R282). -/
def indexed64 (base index : Word) (k n : Nat) : Nat := (base.toNat + index.toNat * (if k = 1 then n else 1)) % 2 ^ 64

/-- `ldx` (R282). -/
def execLdx (d : Fin 16) (a b : Fin 32) (w : Fin 4) (x : Fin 2) (c : Fin 4) (k : Fin 2) (s : State) : Out :=
  let n : Nat := 2 ^ w.val
  issue { srcs := [(.k, a), (.k, b)], dst := some (.k, d), cls := 4 }
    (fun m vs s => do
      let (v, s1) ← loadData s (taskAccess s m .read (indexed64 (arg vs 0) (arg vs 1) k n) n 1) (some c)
      putKLater s1 m d (loaded x (8 * n) v)) s

/-- `stx` (R282). -/
def execStx (d : Fin 16) (a b : Fin 32) (w c : Fin 4) (k : Fin 2) (s : State) : Out :=
  let n : Nat := 2 ^ w.val
  issue { srcs := [(.k, a), (.k, b), (.k, d.val)], cls := 4 }
    (fun m vs s =>
      storeData s { taskAccess s m .write (indexed64 (arg vs 0) (arg vs 1) k n) n 1 with cp := c.val }
        ((arg vs 2).toNat % 2 ^ (8 * n)) true false) s

/-! ## Vector loads and stores (R284) -/

/-- The bytes of a size code: 64, 32 or 16. -/
def vecBytes (z : Nat) : Nat := 64 / 2 ^ z

/-- `vld` (R284). -/
def execVld (d : Fin 16) (a : Fin 32) (z c : Fin 4) (o : Fin 2048) (s : State) : Out :=
  let n := vecBytes z
  issue { srcs := [(.k, a)], dst := some (.v, d), cls := 4, use := { imm := 11 } }
    (fun m vs s => do
      let va := effective64 (arg vs 0) (immOf (s.core m).hints 11 o true * 64)
      let (v, s1) ← loadData s (taskAccess s m .read va n 1) (some c)
      putVariable s1 m .v d (BitVec.ofNat 512 v)) s

/-- `vst` (R284). -/
def execVst (b a : Fin 32) (z c : Fin 4) (o : Fin 2048) (s : State) : Out :=
  let n := vecBytes z
  issue { srcs := [(.k, a), (.v, b)], cls := 4, use := { imm := 11 } }
    (fun m vs s =>
      let va := effective64 (arg vs 0) (immOf (s.core m).hints 11 o true * 64)
      storeData s { taskAccess s m .write va n 1 with cp := c.val } ((argV vs 1).toNat % 2 ^ (8 * n)) false false) s

/-! ## Strided accesses (R285) -/

/-- The active lanes among `n`. -/
def activeLanes (n mask : Nat) : List Nat := (List.range n).filter (fun i => bit mask i)

/-- A lane's address. -/
def stridedVa (base stride : Word) (i : Nat) : Nat := wrap (base.toNat + i * stride.toInt) 64

/-- Values at their lanes, 0 elsewhere. -/
def atLanes (n : Nat) (at_ vs : List Nat) : List Nat :=
  (List.range n).map (fun i => (((at_.zip vs).find? (fun e => e.1 = i)).map (·.2)).getD 0)

/-- `vlss` (R285). -/
def execVlss (d : Fin 16) (a b : Fin 32) (t : Fin 8) (c : Fin 4) (m : Fin 8) (s : State) : Out :=
  let e := laneBits t
  issue { srcs := [(.k, a), (.k, b)], also := maskReg m, dst := some (.v, d), cls := 4 }
    (fun x vs s => do
      let mask := maskOf (s.core x) m
      let on := activeLanes (laneCount e) mask
      let (l, s1) ← loadEach s (some c)
        (on.map (fun i => taskAccess s x .read (stridedVa (arg vs 0) (arg vs 1) i) (e / 8) 1))
      putLanes s1 x d 0 e mask (atLanes (laneCount e) on l)) s

/-- `vsss` (R285). -/
def execVsss (d : Fin 16) (a b : Fin 32) (t : Fin 8) (c : Fin 4) (m : Fin 8) (s : State) : Out :=
  let e := laneBits t
  issue { srcs := [(.k, a), (.k, b), (.v, d.val)], also := maskReg m, cls := 4 }
    (fun x vs s =>
      storeMany s ((activeLanes (laneCount e) (maskOf (s.core x) m)).map (fun i =>
        ({ taskAccess s x .write (stridedVa (arg vs 0) (arg vs 1) i) (e / 8) 1 with cp := c.val }, lane e (argV vs 2) i)))) s

/-! ## Gathers and scatters (R286) -/

/-- Index and element widths in bits. -/
def gatherBits (code : Nat) : Nat := 16 * 2 ^ code
/-- The number of lanes. -/
def gatherLanes (i e : Nat) : Nat := 512 / Nat.max (gatherBits i) (gatherBits e)

/-- The lane is dropped: the sentinel, or an index at the bound or above. -/
def dropped (iw : Nat) (bound : Option Nat) (x : Nat) : Bool :=
  x == 2 ^ iw - 1 || (match bound with
    | some b => decide (b ≤ x)
    | none => false)

/-- The active lanes that are dropped, and those that access memory with their addresses. (DEDUCED, unsafe; log 45.) -/
def gatherPlan (i e : Nat) (base : Word) (idx : Vec) (bound : Option Nat) (mask : Nat) : List Nat × List (Nat × Nat) :=
  let iw := gatherBits i
  let on := activeLanes (gatherLanes i e) mask
  let gone := fun (k : Nat) => dropped iw bound (lane iw idx k)
  (on.filter gone, (on.filter (fun k => !gone k)).map (fun k => (k, (base.toNat + lane iw idx k * (gatherBits e / 8)) % 2 ^ 64)))

/-- The mask bits of dropped lanes are cleared (R286), and with them the bits from lane `n` on (R185).
(DEDUCED, unsafe; log 68.) -/
def clearDropped (s : State) (c m n mask : Nat) (gone : List Nat) : Res State :=
  if m = 0 ∨ gone = [] then .ok s
  else putVariable s c .m m (BitVec.ofNat 512 (gone.foldl (fun v i => setBit v i false) (mask % 2 ^ n)))

/-- The operand fields of a gather or scatter: the bound register is read where it is named. -/
def boundSrc (k : Nat) : List (RegFile × Nat) := if k = 0 then [] else [(.k, k)]
def boundOf (k : Nat) (v : Word) : Option Nat := if k = 0 then none else some v.toNat

/-- `vgth` (R286). -/
def execVgth (d : Fin 16) (a b : Fin 32) (k : Fin 16) (i e : Fin 4) (m : Fin 8) (s : State) : Out :=
  issue { srcs := (RegFile.k, a.val) :: (RegFile.v, b.val) :: boundSrc k, also := maskReg m, dst := some (.v, d), cls := 4 }
    (fun c vs s => do
      let ew := gatherBits e
      let mask := maskOf (s.core c) m
      let (gone, lanes) := gatherPlan i e (arg vs 0) (argV vs 1) (boundOf k (arg vs 2)) mask
      let accs := lanes.map (fun x => taskAccess s c .read x.2 (ew / 8) (ew / 8))
      let s0 ← elementsReady s accs
      let (l, s1) ← loadEach (accs.foldl gatherCounted s0) none accs
      let high := 2 ^ laneCount ew - 2 ^ gatherLanes i e
      let s2 ← putLanes s1 c d 0 ew (mask % 2 ^ gatherLanes i e + high) (atLanes (laneCount ew) (lanes.map (·.1)) l)
      clearDropped s2 c m (gatherLanes i e) mask gone) s

/-- `vsct` (R286). -/
def execVsct (d : Fin 16) (a b : Fin 32) (k : Fin 16) (i e : Fin 4) (m : Fin 8) (s : State) : Out :=
  issue { srcs := (RegFile.k, a.val) :: (RegFile.v, b.val) :: (boundSrc k ++ [(RegFile.v, d.val)]), also := maskReg m, cls := 4 }
    (fun c vs s => do
      let ew := gatherBits e
      let mask := maskOf (s.core c) m
      let (gone, lanes) := gatherPlan i e (arg vs 0) (argV vs 1) (boundOf k (arg vs 2)) mask
      let data := vs.getLast?.getD 0
      let puts := lanes.map (fun x => (taskAccess s c .write x.2 (ew / 8) (ew / 8), lane ew data x.1))
      let s1 ← storeMany s puts
      clearDropped ((puts.map (·.1)).foldl gatherCounted s1) c m (gatherLanes i e) mask gone) s

/-! ## Lane slices (R45, R287) -/

/-- A read of a slice. A LOCKSTEP pair reads both copies and compares them (R177). (DEDUCED, unsafe; log 76.) -/
def sliceRead (s : State) (c j off n : Nat) : Res (Nat × State) := do
  let s1 ← portCheck (s.modCore c (fun k => k.charge k.task.job (tyNrg k.task.entry) 14 1)) c (laneLoc c j + off) n off false
  let v := s1.read (laneLoc c j + off) n
  if (s1.core c).task.gang ≠ 3 then pure (v, s1)
  else
    let s2 ← portCheck s1 c (laneLoc (c + 1) j + off) n off false
    if s2.read (laneLoc (c + 1) j + off) n ≠ v then raise cLockstep
    pure (v, s2)

/-- A write of a slice; both copies of a LOCKSTEP pair are written (R177). -/
def sliceWrite (s : State) (c j off n v : Nat) : Res State := do
  let s1 ← portCheck (s.modCore c (fun k => k.charge k.task.job (tyNrg k.task.entry) 14 1)) c (laneLoc c j + off) n off true
  let s2 := s1.write (laneLoc c j + off) n v
  if (s2.core c).task.gang ≠ 3 then pure s2
  else
    let s3 ← portCheck s2 c (laneLoc (c + 1) j + off) n off true
    pure (s3.write (laneLoc (c + 1) j + off) n v)

/-- The parts of slices that a lane of the indexed forms reaches: slice and bytes, for a lane of `e` bits. -/
def sliceParts (e i : Nat) : List (Nat × Nat) := if e = 64 then [(2 * i, 4), (2 * i + 1, 4)] else [(i * e / 32, e / 8)]

/-- Reads of several parts, joined from the lowest. -/
def readParts32 (s : State) (c off : Nat) : List (Nat × Nat) → Res (Nat × State)
  | [] => .ok (0, s)
  | p :: ps => do
    let (v, s1) ← sliceRead s c p.1 off p.2
    let (w, s2) ← readParts32 s1 c off ps
    pure (v + w * 2 ^ (8 * p.2), s2)

def writeParts32 (s : State) (c off : Nat) : List (Nat × Nat) → Nat → Res State
  | [], _ => .ok s
  | p :: ps, v => do
    let s1 ← sliceWrite s c p.1 off p.2 (v % 2 ^ (8 * p.2))
    writeParts32 s1 c off ps (v / 2 ^ (8 * p.2))

/-- The lanes of an indexed load in order; one that lies outside reads 0. -/
def readLanes (s : State) (c e : Nat) (idx : Vec) : List Nat → Res (List Nat × State)
  | [] => .ok ([], s)
  | i :: is => do
    let off := lane e idx i * (e / 8)
    let (v, s1) ← if 4096 ≤ off then pure (0, s) else readParts32 s c off (sliceParts e i)
    let (vs, s2) ← readLanes s1 c e idx is
    pure (v :: vs, s2)

def writeLanes (s : State) (c e : Nat) (idx data : Vec) : List Nat → Res State
  | [] => .ok s
  | i :: is => do
    let off := lane e idx i * (e / 8)
    let s1 ← if 4096 ≤ off then pure s else writeParts32 s c off (sliceParts e i) (lane e data i)
    writeLanes s1 c e idx data is

/-- The checks of the uniform forms' offset. -/
def sliceOffset (o : Word) : Res Nat :=
  if o.toNat % 4 ≠ 0 then raise cMisalign o.toNat else if 4096 ≤ o.toNat then raise cWindowDenied o.toNat else .ok o.toNat

/-- Byte `b` of slice `j`'s word belongs to an active lane of `e` bits. -/
def sliceActive (e mask j b : Nat) : Bool := bit mask ((4 * j + b) * 8 / e)

/-- The words of a uniform load, slice 0 lowest. A slice none of whose lanes is active is not accessed (R185). -/
def readUniform (s : State) (c o e mask : Nat) : List Nat → Res (Nat × State)
  | [] => .ok (0, s)
  | j :: js => do
    let (v, s1) ← if (List.range 4).any (sliceActive e mask j) then sliceRead s c j o 4 else pure (0, s)
    let (w, s2) ← readUniform s1 c o e mask js
    pure (v + w * 2 ^ 32, s2)

/-- The bytes of active lanes of one slice's word. -/
def writeBytes (s : State) (c j o v : Nat) : List Nat → Res State
  | [] => .ok s
  | b :: bs => do
    let s1 ← sliceWrite s c j (o + b) 1 (bits v (8 * b) 8)
    writeBytes s1 c j o v bs

/-- The words of a uniform store: a word of active lanes is written whole (R46). -/
def writeUniform (s : State) (c o e mask : Nat) (data : Vec) : List Nat → Res State
  | [] => .ok s
  | j :: js => do
    let v := lane 32 data j
    let s1 ← if (List.range 4).all (sliceActive e mask j) then sliceWrite s c j o 4 v
             else writeBytes s c j o v ((List.range 4).filter (sliceActive e mask j))
    writeUniform s1 c o e mask data js

/-- `vldl` (R287). -/
def execVldl (d : Fin 16) (a : Fin 32) (t m : Fin 8) (s : State) : Out :=
  let e := laneBits t
  issue { srcs := [(.k, a)], also := maskReg m, dst := some (.v, d), cls := 4 }
    (fun c vs s => do
      let mask := maskOf (s.core c) m
      let o ← sliceOffset (arg vs 0)
      let (v, s1) ← readUniform s c o e mask (List.range 16)
      putLanes s1 c d 0 e mask (lanesOf (laneCount e) (fun i => bits v (e * i) e))) s

/-- `vldlx` (R287). -/
def execVldlx (d : Fin 16) (a : Fin 32) (t m : Fin 8) (s : State) : Out :=
  let e := laneBits t
  issue { srcs := [(.v, a)], also := maskReg m, dst := some (.v, d), cls := 4 }
    (fun c vs s => do
      let mask := maskOf (s.core c) m
      let on := activeLanes (laneCount e) mask
      let (l, s1) ← readLanes s c e (argV vs 0) on
      putLanes s1 c d 0 e mask (atLanes (laneCount e) on l)) s

/-- `vstl` (R287). -/
def execVstl (a b : Fin 32) (t m : Fin 8) (s : State) : Out :=
  let e := laneBits t
  issue { srcs := [(.k, a), (.v, b)], also := maskReg m, cls := 4 }
    (fun c vs s => do
      let o ← sliceOffset (arg vs 0)
      writeUniform s c o e (maskOf (s.core c) m) (argV vs 1) (List.range 16)) s

/-- `vstlx` (R287). -/
def execVstlx (a b : Fin 32) (t m : Fin 8) (s : State) : Out :=
  let e := laneBits t
  issue { srcs := [(.v, a), (.v, b)], also := maskReg m, cls := 4 }
    (fun c vs s =>
      writeLanes s c e (argV vs 0) (argV vs 1) (activeLanes (laneCount e) (maskOf (s.core c) m))) s

end Sys2Proof.Machine
end

