-- ==== Sys2Proof/WellFormed.lean ====
section
/-! DEFINITION. Which field values an instruction may have (08 R195, R196, R198, R202 and the descriptions of each group):
an encoding with any other value is ILLEGAL_OP. -/
namespace Sys2Proof

/-- The value is a sign-extended one of `n` bits. -/
def Rv.fits (n : Nat) (x : BitVec 32) : Bool := decide (x.toNat < 2 ^ (n - 1) ∨ 2 ^ 32 - 2 ^ (n - 1) ≤ x.toNat)

/-- The operation has a word: its immediate is one that the word's field holds (14 R372). -/
def Rv.Op.wf : Rv.Op → Bool
  | .lui _ i => decide (i.toNat % 4096 = 0)
  | .auipc _ i => decide (i.toNat % 4096 = 0)
  | .jal _ o => decide (o.toNat % 2 = 0) && Rv.fits 21 o
  | .jalr _ _ o => Rv.fits 12 o
  | .branch _ _ _ o => decide (o.toNat % 2 = 0) && Rv.fits 13 o
  | .load _ _ _ o => Rv.fits 12 o
  | .store _ _ _ o => Rv.fits 12 o
  | .aluImm f _ _ i =>
    match f with
    | .sll => decide (i.toNat < 32)
    | .srl => decide (i.toNat < 32)
    | .sra => decide (i.toNat < 32)
    | .add => Rv.fits 12 i
    | .slt => Rv.fits 12 i
    | .sltu => Rv.fits 12 i
    | .xor => Rv.fits 12 i
    | .or => Rv.fits 12 i
    | .and => Rv.fits 12 i
    | .sub => false
    | .mul => false
    | .mulh => false
    | .mulhsu => false
    | .mulhu => false
    | .div => false
    | .divu => false
    | .rem => false
    | .remu => false
  | .alu _ _ _ _ => true

/-- Every field of the instruction holds a value the spec allows. Rows without a word have no fields to check. -/
def Instr.wf : Instr → Bool
  | .add _ _ _ w => decide (w.val < 2)
  | .sub _ _ _ w => decide (w.val < 2)
  | .and _ _ _ w => decide (w.val < 2)
  | .or _ _ _ w => decide (w.val < 2)
  | .xor _ _ _ w => decide (w.val < 2)
  | .andn _ _ _ w => decide (w.val < 2)
  | .orn _ _ _ w => decide (w.val < 2)
  | .sll _ _ _ w => decide (w.val < 2)
  | .srl _ _ _ w => decide (w.val < 2)
  | .sra _ _ _ w => decide (w.val < 2)
  | .rol _ _ _ w => decide (w.val < 2)
  | .ror _ _ _ w => decide (w.val < 2)
  | .min _ _ _ w => decide (w.val < 2)
  | .max _ _ _ w => decide (w.val < 2)
  | .minz _ _ _ w => decide (w.val < 2)
  | .maxz _ _ _ w => decide (w.val < 2)
  | .addx2 _ _ _ w => decide (w.val < 2)
  | .addx4 _ _ _ w => decide (w.val < 2)
  | .addx8 _ _ _ w => decide (w.val < 2)
  | .addx16 _ _ _ w => decide (w.val < 2)
  | .clmul _ _ _ w => decide (w.val < 2)
  | .clmulh _ _ _ w => decide (w.val < 2)
  | .clz _ _ w => decide (w.val < 2)
  | .ctz _ _ w => decide (w.val < 2)
  | .pop _ _ w => decide (w.val < 2)
  | .brev _ _ w => decide (w.val < 2)
  | .bswap _ _ w => decide (w.val < 2)
  | .sextb _ _ w => decide (w.val = 0)
  | .sexth _ _ w => decide (w.val = 0)
  | .sextw _ _ w => decide (w.val = 0)
  | .zextb _ _ w => decide (w.val = 0)
  | .zexth _ _ w => decide (w.val = 0)
  | .zextw _ _ w => decide (w.val = 0)
  | .neg _ _ w => decide (w.val < 2)
  | .not _ _ w => decide (w.val < 2)
  | .mov _ _ w => decide (w.val < 2)
  | .mul _ _ _ w => decide (w.val < 2)
  | .mulh _ _ _ w => decide (w.val < 2)
  | .mulhz _ _ _ w => decide (w.val < 2)
  | .mulhsz _ _ _ w => decide (w.val < 2)
  | .div _ _ _ w => decide (w.val < 2)
  | .divz _ _ _ w => decide (w.val < 2)
  | .rem _ _ _ w => decide (w.val < 2)
  | .remz _ _ _ w => decide (w.val < 2)
  | .seq _ _ _ w => decide (w.val < 2)
  | .sne _ _ _ w => decide (w.val < 2)
  | .slt _ _ _ w => decide (w.val < 2)
  | .sge _ _ _ w => decide (w.val < 2)
  | .slo _ _ _ w => decide (w.val < 2)
  | .shs _ _ _ w => decide (w.val < 2)
  | .sel _ _ _ w _ => decide (w.val < 2)
  | .bfx _ _ _ w => decide (w.val < 2)
  | .bfxs _ _ _ w => decide (w.val < 2)
  | .bfi d _ _ w => decide (w.val < 2 ∧ d.val ≠ 0)
  | .addi _ _ _ => true
  | .andi _ _ _ => true
  | .ori _ _ _ => true
  | .xori _ _ _ => true
  | .slli _ _ w s => decide ((w.val = 0 ∨ s.val < 32))
  | .srli _ _ w s => decide ((w.val = 0 ∨ s.val < 32))
  | .srai _ _ w s => decide ((w.val = 0 ∨ s.val < 32))
  | .roli _ _ w s => decide ((w.val = 0 ∨ s.val < 32))
  | .cmpi _ _ c _ => decide (c.val < 6)
  | .li _ _ => true
  | .getc _ _ => true
  | .setc _ _ => true
  | .setcLogBase _ => true
  | .setcTrace _ _ => true
  | .setcEvRebase _ _ => true
  | .setcEvSpill _ => true
  | .setcMxMode _ _ => true
  | .br a b c _ => decide ((c.val < 6 ∨ (c.val = 6 ∧ a.val = 0 ∧ b.val = 0)))
  | .jmp _ => true
  | .call _ => true
  | .jr _ => true
  | .callr _ => true
  | .lnest _ _ => true
  | .lnext _ => true
  | .rep _ a _ _ c => decide ((c.val = 0 ∨ a.val = 0))
  | .repw => true
  | .wait _ _ _ => true
  | .done => true
  | .yield => true
  | .trap _ => true
  | .brk => true
  | .eret => true
  | .chk => true
  | .nop => true
  | .cancel _ _ => true
  | .cancelh _ _ => true
  | .tlbinv _ _ => true
  | .fbflush _ _ => true
  | .halt => true
  | .ld _ _ w s _ _ => decide ((s.val = 0 ∨ w.val ≠ 3))
  | .st _ _ _ _ _ => true
  | .ldx _ _ _ w s _ _ => decide ((s.val = 0 ∨ w.val ≠ 3))
  | .stx _ _ _ _ _ _ => true
  | .ldAcq _ _ p w s => decide (p.val < 5 ∧ (s.val = 0 ∨ w.val ≠ 3))
  | .stRel _ _ p _ => decide (p.val < 5)
  | .ldSc _ _ p w s => decide (p.val < 5 ∧ (s.val = 0 ∨ w.val ≠ 3))
  | .stSc _ _ p _ => decide (p.val < 5)
  | .amoAdd _ _ _ p _ _ => decide (p.val < 5)
  | .amoAnd _ _ _ p _ _ => decide (p.val < 5)
  | .amoOr _ _ _ p _ _ => decide (p.val < 5)
  | .amoXor _ _ _ p _ _ => decide (p.val < 5)
  | .amoMin _ _ _ p _ _ => decide (p.val < 5)
  | .amoMax _ _ _ p _ _ => decide (p.val < 5)
  | .amoMinz _ _ _ p _ _ => decide (p.val < 5)
  | .amoMaxz _ _ _ p _ _ => decide (p.val < 5)
  | .amoSwap _ _ _ p _ _ => decide (p.val < 5)
  | .amoFadd _ _ _ p _ w => decide (p.val < 5 ∧ w.val = 1)
  | .amoIncw _ _ _ p _ _ => decide (p.val < 5)
  | .redAdd _ _ p _ => decide (p.val < 5)
  | .redAnd _ _ p _ => decide (p.val < 5)
  | .redOr _ _ p _ => decide (p.val < 5)
  | .redXor _ _ p _ => decide (p.val < 5)
  | .redMin _ _ p _ => decide (p.val < 5)
  | .redMax _ _ p _ => decide (p.val < 5)
  | .redMinz _ _ p _ => decide (p.val < 5)
  | .redMaxz _ _ p _ => decide (p.val < 5)
  | .redSwap _ _ p _ => decide (p.val < 5)
  | .redFadd _ _ p w => decide (p.val < 5 ∧ w.val = 1)
  | .cas _ _ _ p _ _ _ => decide (p.val < 5)
  | .fenceAcq p => decide (p.val < 5)
  | .fenceRel p => decide (p.val < 5)
  | .fenceFull p => decide (p.val < 5)
  | .pf _ => true
  | .l1inv _ _ => true
  | .sbind _ _ => true
  | .sunbind _ => true
  | .sstat _ _ => true
  | .ejob _ => true
  | .vaddFp _ _ _ t _ => decide (2 ≤ t.val ∧ t.val ≤ 4)
  | .vsubFp _ _ _ t _ => decide (2 ≤ t.val ∧ t.val ≤ 4)
  | .vmulFp _ _ _ t _ => decide (2 ≤ t.val ∧ t.val ≤ 4)
  | .vmlaFp d _ _ t _ => decide (2 ≤ t.val ∧ t.val ≤ 4 ∧ d.val ≠ 0)
  | .vmlsFp d _ _ t _ => decide (2 ≤ t.val ∧ t.val ≤ 4 ∧ d.val ≠ 0)
  | .vminFp _ _ _ t _ => decide (2 ≤ t.val ∧ t.val ≤ 4)
  | .vmaxFp _ _ _ t _ => decide (2 ≤ t.val ∧ t.val ≤ 4)
  | .vabsFp _ _ t _ => decide (2 ≤ t.val ∧ t.val ≤ 4)
  | .vnegFp _ _ t _ => decide (2 ≤ t.val ∧ t.val ≤ 4)
  | .vdiv _ _ _ t _ => decide (t.val = 4)
  | .vsqrt _ _ t _ => decide (t.val = 4)
  | .vrcp _ _ t _ => decide (2 ≤ t.val ∧ t.val ≤ 4)
  | .vrsq _ _ t _ => decide (2 ≤ t.val ∧ t.val ≤ 4)
  | .vaddInt _ _ _ t _ => decide (t.val < 4)
  | .vsubInt _ _ _ t _ => decide (t.val < 4)
  | .vmulInt _ _ _ t _ => decide (t.val < 4)
  | .vmlaInt d _ _ t _ => decide (t.val < 4 ∧ d.val ≠ 0)
  | .vminInt _ _ _ t _ => decide (t.val < 4)
  | .vmaxInt _ _ _ t _ => decide (t.val < 4)
  | .vminz _ _ _ t _ => decide (t.val < 4)
  | .vmaxz _ _ _ t _ => decide (t.val < 4)
  | .vabsInt _ _ t _ => decide (t.val < 4)
  | .vnegInt _ _ t _ => decide (t.val < 4)
  | .vadds _ _ _ t _ => decide (t.val < 4)
  | .vsubs _ _ _ t _ => decide (t.val < 4)
  | .vaddsz _ _ _ t _ => decide (t.val < 4)
  | .vsubsz _ _ _ t _ => decide (t.val < 4)
  | .vmulh _ _ _ t _ => decide (t.val < 4)
  | .vdot4 _ _ _ t _ => decide (t.val = 2)
  | .vdot4z _ _ _ t _ => decide (t.val = 2)
  | .vclmul _ _ _ t _ => decide (t.val < 4)
  | .vclmulh _ _ _ t _ => decide (t.val < 4)
  | .vand _ _ _ t _ => decide (t.val < 4)
  | .vor _ _ _ t _ => decide (t.val < 4)
  | .vxor _ _ _ t _ => decide (t.val < 4)
  | .vandn _ _ _ t _ => decide (t.val < 4)
  | .vnot _ _ t _ => decide (t.val < 4)
  | .vshl _ _ _ t _ => decide (t.val < 4)
  | .vshr _ _ _ t _ => decide (t.val < 4)
  | .vsra _ _ _ t _ => decide (t.val < 4)
  | .vpopc _ _ t _ => decide (t.val < 4)
  | .vclz _ _ t _ => decide (t.val < 4)
  | .vshli _ _ i t _ => decide (t.val < 4 ∧ (t.val ≠ 0 ∨ i.val < 8) ∧ (t.val ≠ 1 ∨ i.val < 16))
  | .vshri _ _ i t _ => decide (t.val < 4 ∧ (t.val ≠ 0 ∨ i.val < 8) ∧ (t.val ≠ 1 ∨ i.val < 16))
  | .vsrai _ _ i t _ => decide (t.val < 4 ∧ (t.val ≠ 0 ∨ i.val < 8) ∧ (t.val ≠ 1 ∨ i.val < 16))
  | .veq d _ _ t _ => decide (t.val < 4 ∧ d.val < 8)
  | .vne d _ _ t _ => decide (t.val < 4 ∧ d.val < 8)
  | .vlt d _ _ t _ => decide (t.val < 4 ∧ d.val < 8)
  | .vge d _ _ t _ => decide (t.val < 4 ∧ d.val < 8)
  | .vlo d _ _ t _ => decide (t.val < 4 ∧ d.val < 8)
  | .vhs d _ _ t _ => decide (t.val < 4 ∧ d.val < 8)
  | .vfeq d _ _ t _ => decide (2 ≤ t.val ∧ t.val ≤ 4 ∧ d.val < 8)
  | .vflt d _ _ t _ => decide (2 ≤ t.val ∧ t.val ≤ 4 ∧ d.val < 8)
  | .vfle d _ _ t _ => decide (2 ≤ t.val ∧ t.val ≤ 4 ∧ d.val < 8)
  | .vfun d _ _ t _ => decide (2 ≤ t.val ∧ t.val ≤ 4 ∧ d.val < 8)
  | .mand d a b t => decide (t.val < 4 ∧ d.val < 8 ∧ a.val < 8 ∧ b.val < 8)
  | .mor d a b t => decide (t.val < 4 ∧ d.val < 8 ∧ a.val < 8 ∧ b.val < 8)
  | .mxor d a b t => decide (t.val < 4 ∧ d.val < 8 ∧ a.val < 8 ∧ b.val < 8)
  | .mandn d a b t => decide (t.val < 4 ∧ d.val < 8 ∧ a.val < 8 ∧ b.val < 8)
  | .mpop _ a t => decide (t.val < 4 ∧ a.val < 8)
  | .mffs _ a t => decide (t.val < 4 ∧ a.val < 8)
  | .vsel _ _ _ t _ => decide (t.val < 4)
  | .vcvt _ _ _ s t _ => decide (t.val < 5 ∧ s.val < 5)
  | .vf2i _ _ _ s t _ => decide (t.val < 4 ∧ s.val < 5)
  | .vi2f _ _ _ _ t _ => decide (t.val < 5)
  | .vnarrow _ _ _ s t _ => decide (s.val < 4 ∧ t.val < s.val)
  | .vwiden _ _ _ _ s t _ => decide (t.val < 4 ∧ s.val < t.val)
  | .vperm _ _ _ t _ => decide (t.val < 4)
  | .vslideup _ _ _ t _ => decide (t.val < 4)
  | .vslidedn _ _ _ t _ => decide (t.val < 4)
  | .vcompress _ _ t _ => decide (t.val < 4)
  | .vexpand _ _ t _ => decide (t.val < 4)
  | .vzipLo _ _ _ t _ => decide (t.val < 4)
  | .vzipHi _ _ _ t _ => decide (t.val < 4)
  | .vuzpEv _ _ _ t _ => decide (t.val < 4)
  | .vuzpOd _ _ _ t _ => decide (t.val < 4)
  | .vrev _ _ t _ => decide (t.val < 4)
  | .vpack _ _ _ t _ => decide (t.val < 4)
  | .vradd _ _ t _ => decide (t.val < 4)
  | .vrmin _ _ t _ => decide (t.val < 4)
  | .vrmax _ _ t _ => decide (t.val < 4)
  | .vrminz _ _ t _ => decide (t.val < 4)
  | .vrmaxz _ _ t _ => decide (t.val < 4)
  | .vrand _ _ t _ => decide (t.val < 4)
  | .vror _ _ t _ => decide (t.val < 4)
  | .vrxor _ _ t _ => decide (t.val < 4)
  | .vrfadd _ _ t _ => decide (2 ≤ t.val ∧ t.val ≤ 4)
  | .vscanAdd _ _ t _ => decide (t.val < 4)
  | .vscanXor _ _ t _ => decide (t.val < 4)
  | .vscanMax _ _ t _ => decide (t.val < 4)
  | .vsplat _ _ t _ => decide (t.val < 4)
  | .vext _ _ _ t => decide (t.val < 4)
  | .vins d _ _ t => decide (d.val ≠ 0 ∧ t.val < 4)
  | .vmov _ _ t _ => decide (t.val < 4)
  | .vidx _ t _ => decide (t.val < 4)
  | .vbits _ a t => decide (t.val < 4 ∧ a.val < 8)
  | .vmsk d _ t => decide (t.val < 4 ∧ d.val < 8)
  | .vld _ _ z _ _ => decide (z.val ≠ 3)
  | .vst _ _ z _ _ => decide (z.val ≠ 3)
  | .vlss _ _ _ t _ _ => decide (t.val < 4)
  | .vsss _ _ _ t _ _ => decide (t.val < 4)
  | .vgth _ _ _ _ i e _ => decide (i.val < 3 ∧ e.val < 3)
  | .vsct _ _ _ _ i e _ => decide (i.val < 3 ∧ e.val < 3)
  | .vldl _ _ t _ => decide (t.val < 4)
  | .vldlx _ _ t _ => decide (t.val < 4)
  | .vstl _ _ t _ => decide (t.val < 4)
  | .vstlx _ _ t _ => decide (t.val < 4)
  | .tcfg _ _ _ => true
  | .tld _ _ _ => true
  | .tst _ _ _ => true
  | .tfetch _ => true
  | .tevict _ => true
  | .tzero _ => true
  | .tstat _ s => decide (s.val < 3)
  | .tpin _ => true
  | .tunpin _ => true
  | .mwld _ => true
  | .mwldSp _ => true
  | .mmeta _ _ => true
  | .mmul _ _ => true
  | .mmulSc _ _ _ _ => true
  | .mwsc _ => true
  | .mst _ => true
  | .mld _ => true
  | .mfence => true
  | .cpush _ _ _ => true
  | .cflush _ => true
  | .carm _ _ _ => true
  | .evpop _ => true
  | .evpay _ => true
  | .evsend _ _ _ => true
  | .evwinClose _ _ => true
  | .evwinOrigin _ _ => true
  | .evwinSlots _ _ => true
  | .evstat _ => true
  | .spawn _ => true
  | .dec _ => true
  | .qpush _ _ _ => true
  | .qpop _ _ => true
  | .bar _ _ _ => true
  | .hntStall _ _ _ _ _ _ _ => true
  | .hntImm _ => true
  | .hntMod _ => true
  | .hntBr _ => true
  | .hntNop k _ => decide (4 ≤ k.val)
  | .ylLdFifo _ _ _ => true
  | .ylLdReg _ _ _ => true
  | .ylPush _ _ => true
  | .ylBase _ _ _ => true
  | .ylWait _ _ => true
  | .ylEnd _ _ => true
  | .ylPop _ _ => true
  | .ylSt _ _ _ => true
  | .helperRv32Instr _ op => op.wf
  | .helperFence => true
  | .helperEbreak _ => true
  | .resultWriteback _ => true
  | .storePerform _ _ => true
  | .l1dSectorFill _ => true
  | .fbEventResend _ _ => true
  | .faultRetry _ _ _ => true
  | .tlbinvComplete _ => true
  | .parityLand _ _ => true
  | .scrubStep _ => true
  | .sqmScrubStep _ => true
  | .epochEnd => true
  | .bankRetire _ _ => true
  | .lendClearDone _ => true
  | .lendEndClearDone _ => true
  | .squareClearDone _ => true
  | .cspClearDone _ _ => true
  | .tileFillLastBeat _ _ => true
  | .logApplyEntry _ _ => true
  | .tileDrainDone _ _ => true
  | .tileTransferFault _ _ => true
  | .beaconWindow => true
  | .traceRecordWrite _ => true
  | .engineJobStart _ _ => true
  | .engineJobComplete _ _ => true
  | .engineJobFault _ _ => true
  | .ownershipGrant _ => true
  | .revoke _ _ _ => true
  | .revokeDataReturn _ => true
  | .dramRefresh _ _ _ => true
  | .streamFetchReturn _ _ => true
  | .mxeLatchLoadDone _ => true
  | .mxeCommandStart _ => true
  | .mxeRowInject _ => true
  | .mxeCommandComplete _ => true
  | .mxeQueueWindowStore _ _ _ => true
  | .copyQueueWindowStore _ _ _ => true
  | .coalescerApply _ => true
  | .coalescerTimeout _ _ => true
  | .coalescerTwinReady _ _ => true
  | .eventArrive _ _ _ _ _ => true
  | .windowStaleTimeout _ => true
  | .waitWake _ => true
  | .waitTimeout _ => true
  | .barRelease _ => true
  | .taskEnd _ => true
  | .selectionRound _ => true
  | .taskBind _ => true
  | .taskStart _ => true
  | .agingTick => true
  | .stealRequest _ => true
  | .stealReply _ => true
  | .stealBackoff _ => true
  | .halfExchange => true
  | .lanternCircuit => true
  | .forecastTick => true
  | .railSettle _ => true
  | .slewStep _ => true
  | .nrgUpdate => true
  | .trqRetry _ => true
  | .watchdog _ => true
  | .lockstepMismatch _ => true
  | .preemptDrainDone _ => true
  | .jobPtbWrite _ _ _ => true
  | .cspOwnWrite _ _ _ => true
  | .spadForceRetire _ _ => true
  | .jobPartWrite _ _ => true
  | .jobCtlWrite _ _ => true
  | .hbwBaseWrite _ _ => true
  | .fbKill _ _ => true
  | .preCtlReq _ _ => true
  | .pwrCapWrite _ => true
  | .secAtreq _ => true
  | .secPolWrite _ => true
  | .ethRouteWrite _ _ _ => true
  | .registerWrite _ _ => true
  | .ethFrameReceive _ => true
  | .roceWrite _ _ _ _ => true
  | .roceRead _ _ _ _ => true
  | .roceFetchAdd _ _ _ _ => true
  | .roceCompareSwap _ _ _ _ _ => true
  | .place _ _ => true
  | .hostDec _ _ => true
  | .hostCancel _ _ => true
  | .hostCancelh _ _ => true
  | .ucieModuleFail => true
  | .thermalThreshold _ _ => true
  | .memTempChange _ _ => true
  | .tamperAlarm _ => true
  | .debugUnlockFail => true
  | .coldReset _ => true
  | .bootDatagram _ _ => true
  | .bootTransferEnd => true
  | .illegalOpEncoding => true
  | .instructionFetchFault => true
  | .loaderReadReturn _ => true
  | .gptpMessageReceive _ => true
  | .roceUnsupportedRequest _ => true
  | .attestationReportDone => true

/-- The instruction is one of the core's 32-bit words (08 R192). -/
def Instr.isCoreWord : Instr → Bool
  | .add _ _ _ _ => true
  | .sub _ _ _ _ => true
  | .and _ _ _ _ => true
  | .or _ _ _ _ => true
  | .xor _ _ _ _ => true
  | .andn _ _ _ _ => true
  | .orn _ _ _ _ => true
  | .sll _ _ _ _ => true
  | .srl _ _ _ _ => true
  | .sra _ _ _ _ => true
  | .rol _ _ _ _ => true
  | .ror _ _ _ _ => true
  | .min _ _ _ _ => true
  | .max _ _ _ _ => true
  | .minz _ _ _ _ => true
  | .maxz _ _ _ _ => true
  | .addx2 _ _ _ _ => true
  | .addx4 _ _ _ _ => true
  | .addx8 _ _ _ _ => true
  | .addx16 _ _ _ _ => true
  | .clmul _ _ _ _ => true
  | .clmulh _ _ _ _ => true
  | .clz _ _ _ => true
  | .ctz _ _ _ => true
  | .pop _ _ _ => true
  | .brev _ _ _ => true
  | .bswap _ _ _ => true
  | .sextb _ _ _ => true
  | .sexth _ _ _ => true
  | .sextw _ _ _ => true
  | .zextb _ _ _ => true
  | .zexth _ _ _ => true
  | .zextw _ _ _ => true
  | .neg _ _ _ => true
  | .not _ _ _ => true
  | .mov _ _ _ => true
  | .mul _ _ _ _ => true
  | .mulh _ _ _ _ => true
  | .mulhz _ _ _ _ => true
  | .mulhsz _ _ _ _ => true
  | .div _ _ _ _ => true
  | .divz _ _ _ _ => true
  | .rem _ _ _ _ => true
  | .remz _ _ _ _ => true
  | .seq _ _ _ _ => true
  | .sne _ _ _ _ => true
  | .slt _ _ _ _ => true
  | .sge _ _ _ _ => true
  | .slo _ _ _ _ => true
  | .shs _ _ _ _ => true
  | .sel _ _ _ _ _ => true
  | .bfx _ _ _ _ => true
  | .bfxs _ _ _ _ => true
  | .bfi _ _ _ _ => true
  | .addi _ _ _ => true
  | .andi _ _ _ => true
  | .ori _ _ _ => true
  | .xori _ _ _ => true
  | .slli _ _ _ _ => true
  | .srli _ _ _ _ => true
  | .srai _ _ _ _ => true
  | .roli _ _ _ _ => true
  | .cmpi _ _ _ _ => true
  | .li _ _ => true
  | .getc _ _ => true
  | .setc _ _ => true
  | .setcLogBase _ => true
  | .setcTrace _ _ => true
  | .setcEvRebase _ _ => true
  | .setcEvSpill _ => true
  | .setcMxMode _ _ => true
  | .br _ _ _ _ => true
  | .jmp _ => true
  | .call _ => true
  | .jr _ => true
  | .callr _ => true
  | .lnest _ _ => true
  | .lnext _ => true
  | .rep _ _ _ _ _ => true
  | .repw => true
  | .wait _ _ _ => true
  | .done => true
  | .yield => true
  | .trap _ => true
  | .brk => true
  | .eret => true
  | .chk => true
  | .nop => true
  | .cancel _ _ => true
  | .cancelh _ _ => true
  | .tlbinv _ _ => true
  | .fbflush _ _ => true
  | .halt => true
  | .ld _ _ _ _ _ _ => true
  | .st _ _ _ _ _ => true
  | .ldx _ _ _ _ _ _ _ => true
  | .stx _ _ _ _ _ _ => true
  | .ldAcq _ _ _ _ _ => true
  | .stRel _ _ _ _ => true
  | .ldSc _ _ _ _ _ => true
  | .stSc _ _ _ _ => true
  | .amoAdd _ _ _ _ _ _ => true
  | .amoAnd _ _ _ _ _ _ => true
  | .amoOr _ _ _ _ _ _ => true
  | .amoXor _ _ _ _ _ _ => true
  | .amoMin _ _ _ _ _ _ => true
  | .amoMax _ _ _ _ _ _ => true
  | .amoMinz _ _ _ _ _ _ => true
  | .amoMaxz _ _ _ _ _ _ => true
  | .amoSwap _ _ _ _ _ _ => true
  | .amoFadd _ _ _ _ _ _ => true
  | .amoIncw _ _ _ _ _ _ => true
  | .redAdd _ _ _ _ => true
  | .redAnd _ _ _ _ => true
  | .redOr _ _ _ _ => true
  | .redXor _ _ _ _ => true
  | .redMin _ _ _ _ => true
  | .redMax _ _ _ _ => true
  | .redMinz _ _ _ _ => true
  | .redMaxz _ _ _ _ => true
  | .redSwap _ _ _ _ => true
  | .redFadd _ _ _ _ => true
  | .cas _ _ _ _ _ _ _ => true
  | .fenceAcq _ => true
  | .fenceRel _ => true
  | .fenceFull _ => true
  | .pf _ => true
  | .l1inv _ _ => true
  | .sbind _ _ => true
  | .sunbind _ => true
  | .sstat _ _ => true
  | .ejob _ => true
  | .vaddFp _ _ _ _ _ => true
  | .vsubFp _ _ _ _ _ => true
  | .vmulFp _ _ _ _ _ => true
  | .vmlaFp _ _ _ _ _ => true
  | .vmlsFp _ _ _ _ _ => true
  | .vminFp _ _ _ _ _ => true
  | .vmaxFp _ _ _ _ _ => true
  | .vabsFp _ _ _ _ => true
  | .vnegFp _ _ _ _ => true
  | .vdiv _ _ _ _ _ => true
  | .vsqrt _ _ _ _ => true
  | .vrcp _ _ _ _ => true
  | .vrsq _ _ _ _ => true
  | .vaddInt _ _ _ _ _ => true
  | .vsubInt _ _ _ _ _ => true
  | .vmulInt _ _ _ _ _ => true
  | .vmlaInt _ _ _ _ _ => true
  | .vminInt _ _ _ _ _ => true
  | .vmaxInt _ _ _ _ _ => true
  | .vminz _ _ _ _ _ => true
  | .vmaxz _ _ _ _ _ => true
  | .vabsInt _ _ _ _ => true
  | .vnegInt _ _ _ _ => true
  | .vadds _ _ _ _ _ => true
  | .vsubs _ _ _ _ _ => true
  | .vaddsz _ _ _ _ _ => true
  | .vsubsz _ _ _ _ _ => true
  | .vmulh _ _ _ _ _ => true
  | .vdot4 _ _ _ _ _ => true
  | .vdot4z _ _ _ _ _ => true
  | .vclmul _ _ _ _ _ => true
  | .vclmulh _ _ _ _ _ => true
  | .vand _ _ _ _ _ => true
  | .vor _ _ _ _ _ => true
  | .vxor _ _ _ _ _ => true
  | .vandn _ _ _ _ _ => true
  | .vnot _ _ _ _ => true
  | .vshl _ _ _ _ _ => true
  | .vshr _ _ _ _ _ => true
  | .vsra _ _ _ _ _ => true
  | .vpopc _ _ _ _ => true
  | .vclz _ _ _ _ => true
  | .vshli _ _ _ _ _ => true
  | .vshri _ _ _ _ _ => true
  | .vsrai _ _ _ _ _ => true
  | .veq _ _ _ _ _ => true
  | .vne _ _ _ _ _ => true
  | .vlt _ _ _ _ _ => true
  | .vge _ _ _ _ _ => true
  | .vlo _ _ _ _ _ => true
  | .vhs _ _ _ _ _ => true
  | .vfeq _ _ _ _ _ => true
  | .vflt _ _ _ _ _ => true
  | .vfle _ _ _ _ _ => true
  | .vfun _ _ _ _ _ => true
  | .mand _ _ _ _ => true
  | .mor _ _ _ _ => true
  | .mxor _ _ _ _ => true
  | .mandn _ _ _ _ => true
  | .mpop _ _ _ => true
  | .mffs _ _ _ => true
  | .vsel _ _ _ _ _ => true
  | .vcvt _ _ _ _ _ _ => true
  | .vf2i _ _ _ _ _ _ => true
  | .vi2f _ _ _ _ _ _ => true
  | .vnarrow _ _ _ _ _ _ => true
  | .vwiden _ _ _ _ _ _ _ => true
  | .vperm _ _ _ _ _ => true
  | .vslideup _ _ _ _ _ => true
  | .vslidedn _ _ _ _ _ => true
  | .vcompress _ _ _ _ => true
  | .vexpand _ _ _ _ => true
  | .vzipLo _ _ _ _ _ => true
  | .vzipHi _ _ _ _ _ => true
  | .vuzpEv _ _ _ _ _ => true
  | .vuzpOd _ _ _ _ _ => true
  | .vrev _ _ _ _ => true
  | .vpack _ _ _ _ _ => true
  | .vradd _ _ _ _ => true
  | .vrmin _ _ _ _ => true
  | .vrmax _ _ _ _ => true
  | .vrminz _ _ _ _ => true
  | .vrmaxz _ _ _ _ => true
  | .vrand _ _ _ _ => true
  | .vror _ _ _ _ => true
  | .vrxor _ _ _ _ => true
  | .vrfadd _ _ _ _ => true
  | .vscanAdd _ _ _ _ => true
  | .vscanXor _ _ _ _ => true
  | .vscanMax _ _ _ _ => true
  | .vsplat _ _ _ _ => true
  | .vext _ _ _ _ => true
  | .vins _ _ _ _ => true
  | .vmov _ _ _ _ => true
  | .vidx _ _ _ => true
  | .vbits _ _ _ => true
  | .vmsk _ _ _ => true
  | .vld _ _ _ _ _ => true
  | .vst _ _ _ _ _ => true
  | .vlss _ _ _ _ _ _ => true
  | .vsss _ _ _ _ _ _ => true
  | .vgth _ _ _ _ _ _ _ => true
  | .vsct _ _ _ _ _ _ _ => true
  | .vldl _ _ _ _ => true
  | .vldlx _ _ _ _ => true
  | .vstl _ _ _ _ => true
  | .vstlx _ _ _ _ => true
  | .tcfg _ _ _ => true
  | .tld _ _ _ => true
  | .tst _ _ _ => true
  | .tfetch _ => true
  | .tevict _ => true
  | .tzero _ => true
  | .tstat _ _ => true
  | .tpin _ => true
  | .tunpin _ => true
  | .mwld _ => true
  | .mwldSp _ => true
  | .mmeta _ _ => true
  | .mmul _ _ => true
  | .mmulSc _ _ _ _ => true
  | .mwsc _ => true
  | .mst _ => true
  | .mld _ => true
  | .mfence => true
  | .cpush _ _ _ => true
  | .cflush _ => true
  | .carm _ _ _ => true
  | .evpop _ => true
  | .evpay _ => true
  | .evsend _ _ _ => true
  | .evwinClose _ _ => true
  | .evwinOrigin _ _ => true
  | .evwinSlots _ _ => true
  | .evstat _ => true
  | .spawn _ => true
  | .dec _ => true
  | .qpush _ _ _ => true
  | .qpop _ _ => true
  | .bar _ _ _ => true
  | .hntStall _ _ _ _ _ _ _ => true
  | .hntImm _ => true
  | .hntMod _ => true
  | .hntBr _ => true
  | .hntNop _ _ => true
  | .ylLdFifo _ _ _ => false
  | .ylLdReg _ _ _ => false
  | .ylPush _ _ => false
  | .ylBase _ _ _ => false
  | .ylWait _ _ => false
  | .ylEnd _ _ => false
  | .ylPop _ _ => false
  | .ylSt _ _ _ => false
  | .helperRv32Instr _ _ => false
  | .helperFence => false
  | .helperEbreak _ => false
  | .resultWriteback _ => false
  | .storePerform _ _ => false
  | .l1dSectorFill _ => false
  | .fbEventResend _ _ => false
  | .faultRetry _ _ _ => false
  | .tlbinvComplete _ => false
  | .parityLand _ _ => false
  | .scrubStep _ => false
  | .sqmScrubStep _ => false
  | .epochEnd => false
  | .bankRetire _ _ => false
  | .lendClearDone _ => false
  | .lendEndClearDone _ => false
  | .squareClearDone _ => false
  | .cspClearDone _ _ => false
  | .tileFillLastBeat _ _ => false
  | .logApplyEntry _ _ => false
  | .tileDrainDone _ _ => false
  | .tileTransferFault _ _ => false
  | .beaconWindow => false
  | .traceRecordWrite _ => false
  | .engineJobStart _ _ => false
  | .engineJobComplete _ _ => false
  | .engineJobFault _ _ => false
  | .ownershipGrant _ => false
  | .revoke _ _ _ => false
  | .revokeDataReturn _ => false
  | .dramRefresh _ _ _ => false
  | .streamFetchReturn _ _ => false
  | .mxeLatchLoadDone _ => false
  | .mxeCommandStart _ => false
  | .mxeRowInject _ => false
  | .mxeCommandComplete _ => false
  | .mxeQueueWindowStore _ _ _ => false
  | .copyQueueWindowStore _ _ _ => false
  | .coalescerApply _ => false
  | .coalescerTimeout _ _ => false
  | .coalescerTwinReady _ _ => false
  | .eventArrive _ _ _ _ _ => false
  | .windowStaleTimeout _ => false
  | .waitWake _ => false
  | .waitTimeout _ => false
  | .barRelease _ => false
  | .taskEnd _ => false
  | .selectionRound _ => false
  | .taskBind _ => false
  | .taskStart _ => false
  | .agingTick => false
  | .stealRequest _ => false
  | .stealReply _ => false
  | .stealBackoff _ => false
  | .halfExchange => false
  | .lanternCircuit => false
  | .forecastTick => false
  | .railSettle _ => false
  | .slewStep _ => false
  | .nrgUpdate => false
  | .trqRetry _ => false
  | .watchdog _ => false
  | .lockstepMismatch _ => false
  | .preemptDrainDone _ => false
  | .jobPtbWrite _ _ _ => false
  | .cspOwnWrite _ _ _ => false
  | .spadForceRetire _ _ => false
  | .jobPartWrite _ _ => false
  | .jobCtlWrite _ _ => false
  | .hbwBaseWrite _ _ => false
  | .fbKill _ _ => false
  | .preCtlReq _ _ => false
  | .pwrCapWrite _ => false
  | .secAtreq _ => false
  | .secPolWrite _ => false
  | .ethRouteWrite _ _ _ => false
  | .registerWrite _ _ => false
  | .ethFrameReceive _ => false
  | .roceWrite _ _ _ _ => false
  | .roceRead _ _ _ _ => false
  | .roceFetchAdd _ _ _ _ => false
  | .roceCompareSwap _ _ _ _ _ => false
  | .place _ _ => false
  | .hostDec _ _ => false
  | .hostCancel _ _ => false
  | .hostCancelh _ _ => false
  | .ucieModuleFail => false
  | .thermalThreshold _ _ => false
  | .memTempChange _ _ => false
  | .tamperAlarm _ => false
  | .debugUnlockFail => false
  | .coldReset _ => false
  | .bootDatagram _ _ => false
  | .bootTransferEnd => false
  | .illegalOpEncoding => false
  | .instructionFetchFault => false
  | .loaderReadReturn _ => false
  | .gptpMessageReceive _ => false
  | .roceUnsupportedRequest _ => false
  | .attestationReportDone => false

/-- The instruction is one of the helpers' words (14 R372, R376). -/
def Instr.isHelperWord (i : Instr) : Bool :=
  match i with
  | .ylLdFifo _ _ _ => true
  | .ylLdReg _ _ _ => true
  | .ylPush _ _ => true
  | .ylBase _ _ _ => true
  | .ylWait _ _ => true
  | .ylEnd _ _ => true
  | .ylPop _ _ => true
  | .ylSt _ _ _ => true
  | .helperRv32Instr _ _ => true
  | .helperFence => true
  | .helperEbreak _ => true
  | _ => false

/-- The instruction is the one that the decoder gives for its word. Three rows of `evwin` share one word, for which the
decoder gives the first (13 R358), a `setc` of a number that has a row of its own is that row (08 R190), and a helper's
operation stands for its 32-bit word (14 R372). -/
def Instr.canonical : Instr → Bool
  | .add _ _ _ _ => true
  | .sub _ _ _ _ => true
  | .and _ _ _ _ => true
  | .or _ _ _ _ => true
  | .xor _ _ _ _ => true
  | .andn _ _ _ _ => true
  | .orn _ _ _ _ => true
  | .sll _ _ _ _ => true
  | .srl _ _ _ _ => true
  | .sra _ _ _ _ => true
  | .rol _ _ _ _ => true
  | .ror _ _ _ _ => true
  | .min _ _ _ _ => true
  | .max _ _ _ _ => true
  | .minz _ _ _ _ => true
  | .maxz _ _ _ _ => true
  | .addx2 _ _ _ _ => true
  | .addx4 _ _ _ _ => true
  | .addx8 _ _ _ _ => true
  | .addx16 _ _ _ _ => true
  | .clmul _ _ _ _ => true
  | .clmulh _ _ _ _ => true
  | .clz _ _ _ => true
  | .ctz _ _ _ => true
  | .pop _ _ _ => true
  | .brev _ _ _ => true
  | .bswap _ _ _ => true
  | .sextb _ _ _ => true
  | .sexth _ _ _ => true
  | .sextw _ _ _ => true
  | .zextb _ _ _ => true
  | .zexth _ _ _ => true
  | .zextw _ _ _ => true
  | .neg _ _ _ => true
  | .not _ _ _ => true
  | .mov _ _ _ => true
  | .mul _ _ _ _ => true
  | .mulh _ _ _ _ => true
  | .mulhz _ _ _ _ => true
  | .mulhsz _ _ _ _ => true
  | .div _ _ _ _ => true
  | .divz _ _ _ _ => true
  | .rem _ _ _ _ => true
  | .remz _ _ _ _ => true
  | .seq _ _ _ _ => true
  | .sne _ _ _ _ => true
  | .slt _ _ _ _ => true
  | .sge _ _ _ _ => true
  | .slo _ _ _ _ => true
  | .shs _ _ _ _ => true
  | .sel _ _ _ _ _ => true
  | .bfx _ _ _ _ => true
  | .bfxs _ _ _ _ => true
  | .bfi _ _ _ _ => true
  | .addi _ _ _ => true
  | .andi _ _ _ => true
  | .ori _ _ _ => true
  | .xori _ _ _ => true
  | .slli _ _ _ _ => true
  | .srli _ _ _ _ => true
  | .srai _ _ _ _ => true
  | .roli _ _ _ _ => true
  | .cmpi _ _ _ _ => true
  | .li _ _ => true
  | .getc _ _ => true
  | .setc _ n => decide (n.val ∉ [0x041, 0x043, 0x060, 0x061, 0x064, 0x0C0, 0x0C4, 0x0C5])
  | .setcLogBase _ => true
  | .setcTrace _ _ => true
  | .setcEvRebase _ _ => true
  | .setcEvSpill _ => true
  | .setcMxMode _ _ => true
  | .br _ _ _ _ => true
  | .jmp _ => true
  | .call _ => true
  | .jr _ => true
  | .callr _ => true
  | .lnest _ _ => true
  | .lnext _ => true
  | .rep _ _ _ _ _ => true
  | .repw => true
  | .wait _ _ _ => true
  | .done => true
  | .yield => true
  | .trap _ => true
  | .brk => true
  | .eret => true
  | .chk => true
  | .nop => true
  | .cancel _ _ => true
  | .cancelh _ _ => true
  | .tlbinv _ _ => true
  | .fbflush _ _ => true
  | .halt => true
  | .ld _ _ _ _ _ _ => true
  | .st _ _ _ _ _ => true
  | .ldx _ _ _ _ _ _ _ => true
  | .stx _ _ _ _ _ _ => true
  | .ldAcq _ _ _ _ _ => true
  | .stRel _ _ _ _ => true
  | .ldSc _ _ _ _ _ => true
  | .stSc _ _ _ _ => true
  | .amoAdd _ _ _ _ _ _ => true
  | .amoAnd _ _ _ _ _ _ => true
  | .amoOr _ _ _ _ _ _ => true
  | .amoXor _ _ _ _ _ _ => true
  | .amoMin _ _ _ _ _ _ => true
  | .amoMax _ _ _ _ _ _ => true
  | .amoMinz _ _ _ _ _ _ => true
  | .amoMaxz _ _ _ _ _ _ => true
  | .amoSwap _ _ _ _ _ _ => true
  | .amoFadd _ _ _ _ _ _ => true
  | .amoIncw _ _ _ _ _ _ => true
  | .redAdd _ _ _ _ => true
  | .redAnd _ _ _ _ => true
  | .redOr _ _ _ _ => true
  | .redXor _ _ _ _ => true
  | .redMin _ _ _ _ => true
  | .redMax _ _ _ _ => true
  | .redMinz _ _ _ _ => true
  | .redMaxz _ _ _ _ => true
  | .redSwap _ _ _ _ => true
  | .redFadd _ _ _ _ => true
  | .cas _ _ _ _ _ _ _ => true
  | .fenceAcq _ => true
  | .fenceRel _ => true
  | .fenceFull _ => true
  | .pf _ => true
  | .l1inv _ _ => true
  | .sbind _ _ => true
  | .sunbind _ => true
  | .sstat _ _ => true
  | .ejob _ => true
  | .vaddFp _ _ _ _ _ => true
  | .vsubFp _ _ _ _ _ => true
  | .vmulFp _ _ _ _ _ => true
  | .vmlaFp _ _ _ _ _ => true
  | .vmlsFp _ _ _ _ _ => true
  | .vminFp _ _ _ _ _ => true
  | .vmaxFp _ _ _ _ _ => true
  | .vabsFp _ _ _ _ => true
  | .vnegFp _ _ _ _ => true
  | .vdiv _ _ _ _ _ => true
  | .vsqrt _ _ _ _ => true
  | .vrcp _ _ _ _ => true
  | .vrsq _ _ _ _ => true
  | .vaddInt _ _ _ _ _ => true
  | .vsubInt _ _ _ _ _ => true
  | .vmulInt _ _ _ _ _ => true
  | .vmlaInt _ _ _ _ _ => true
  | .vminInt _ _ _ _ _ => true
  | .vmaxInt _ _ _ _ _ => true
  | .vminz _ _ _ _ _ => true
  | .vmaxz _ _ _ _ _ => true
  | .vabsInt _ _ _ _ => true
  | .vnegInt _ _ _ _ => true
  | .vadds _ _ _ _ _ => true
  | .vsubs _ _ _ _ _ => true
  | .vaddsz _ _ _ _ _ => true
  | .vsubsz _ _ _ _ _ => true
  | .vmulh _ _ _ _ _ => true
  | .vdot4 _ _ _ _ _ => true
  | .vdot4z _ _ _ _ _ => true
  | .vclmul _ _ _ _ _ => true
  | .vclmulh _ _ _ _ _ => true
  | .vand _ _ _ _ _ => true
  | .vor _ _ _ _ _ => true
  | .vxor _ _ _ _ _ => true
  | .vandn _ _ _ _ _ => true
  | .vnot _ _ _ _ => true
  | .vshl _ _ _ _ _ => true
  | .vshr _ _ _ _ _ => true
  | .vsra _ _ _ _ _ => true
  | .vpopc _ _ _ _ => true
  | .vclz _ _ _ _ => true
  | .vshli _ _ _ _ _ => true
  | .vshri _ _ _ _ _ => true
  | .vsrai _ _ _ _ _ => true
  | .veq _ _ _ _ _ => true
  | .vne _ _ _ _ _ => true
  | .vlt _ _ _ _ _ => true
  | .vge _ _ _ _ _ => true
  | .vlo _ _ _ _ _ => true
  | .vhs _ _ _ _ _ => true
  | .vfeq _ _ _ _ _ => true
  | .vflt _ _ _ _ _ => true
  | .vfle _ _ _ _ _ => true
  | .vfun _ _ _ _ _ => true
  | .mand _ _ _ _ => true
  | .mor _ _ _ _ => true
  | .mxor _ _ _ _ => true
  | .mandn _ _ _ _ => true
  | .mpop _ _ _ => true
  | .mffs _ _ _ => true
  | .vsel _ _ _ _ _ => true
  | .vcvt _ _ _ _ _ _ => true
  | .vf2i _ _ _ _ _ _ => true
  | .vi2f _ _ _ _ _ _ => true
  | .vnarrow _ _ _ _ _ _ => true
  | .vwiden _ _ _ _ _ _ _ => true
  | .vperm _ _ _ _ _ => true
  | .vslideup _ _ _ _ _ => true
  | .vslidedn _ _ _ _ _ => true
  | .vcompress _ _ _ _ => true
  | .vexpand _ _ _ _ => true
  | .vzipLo _ _ _ _ _ => true
  | .vzipHi _ _ _ _ _ => true
  | .vuzpEv _ _ _ _ _ => true
  | .vuzpOd _ _ _ _ _ => true
  | .vrev _ _ _ _ => true
  | .vpack _ _ _ _ _ => true
  | .vradd _ _ _ _ => true
  | .vrmin _ _ _ _ => true
  | .vrmax _ _ _ _ => true
  | .vrminz _ _ _ _ => true
  | .vrmaxz _ _ _ _ => true
  | .vrand _ _ _ _ => true
  | .vror _ _ _ _ => true
  | .vrxor _ _ _ _ => true
  | .vrfadd _ _ _ _ => true
  | .vscanAdd _ _ _ _ => true
  | .vscanXor _ _ _ _ => true
  | .vscanMax _ _ _ _ => true
  | .vsplat _ _ _ _ => true
  | .vext _ _ _ _ => true
  | .vins _ _ _ _ => true
  | .vmov _ _ _ _ => true
  | .vidx _ _ _ => true
  | .vbits _ _ _ => true
  | .vmsk _ _ _ => true
  | .vld _ _ _ _ _ => true
  | .vst _ _ _ _ _ => true
  | .vlss _ _ _ _ _ _ => true
  | .vsss _ _ _ _ _ _ => true
  | .vgth _ _ _ _ _ _ _ => true
  | .vsct _ _ _ _ _ _ _ => true
  | .vldl _ _ _ _ => true
  | .vldlx _ _ _ _ => true
  | .vstl _ _ _ _ => true
  | .vstlx _ _ _ _ => true
  | .tcfg _ _ _ => true
  | .tld _ _ _ => true
  | .tst _ _ _ => true
  | .tfetch _ => true
  | .tevict _ => true
  | .tzero _ => true
  | .tstat _ _ => true
  | .tpin _ => true
  | .tunpin _ => true
  | .mwld _ => true
  | .mwldSp _ => true
  | .mmeta _ _ => true
  | .mmul _ _ => true
  | .mmulSc _ _ _ _ => true
  | .mwsc _ => true
  | .mst _ => true
  | .mld _ => true
  | .mfence => true
  | .cpush _ _ _ => true
  | .cflush _ => true
  | .carm _ _ _ => true
  | .evpop _ => true
  | .evpay _ => true
  | .evsend _ _ _ => true
  | .evwinClose _ _ => true
  | .evwinOrigin _ _ => false
  | .evwinSlots _ _ => false
  | .evstat _ => true
  | .spawn _ => true
  | .dec _ => true
  | .qpush _ _ _ => true
  | .qpop _ _ => true
  | .bar _ _ _ => true
  | .hntStall _ _ _ _ _ _ _ => true
  | .hntImm _ => true
  | .hntMod _ => true
  | .hntBr _ => true
  | .hntNop _ _ => true
  | .ylLdFifo _ _ _ => true
  | .ylLdReg _ _ _ => true
  | .ylPush _ _ => true
  | .ylBase _ _ _ => true
  | .ylWait _ _ => true
  | .ylEnd _ _ => true
  | .ylPop _ _ => true
  | .ylSt _ _ _ => true
  | .helperRv32Instr compressed _ => !compressed
  | .helperFence => true
  | .helperEbreak compressed => !compressed
  | .resultWriteback _ => true
  | .storePerform _ _ => true
  | .l1dSectorFill _ => true
  | .fbEventResend _ _ => true
  | .faultRetry _ _ _ => true
  | .tlbinvComplete _ => true
  | .parityLand _ _ => true
  | .scrubStep _ => true
  | .sqmScrubStep _ => true
  | .epochEnd => true
  | .bankRetire _ _ => true
  | .lendClearDone _ => true
  | .lendEndClearDone _ => true
  | .squareClearDone _ => true
  | .cspClearDone _ _ => true
  | .tileFillLastBeat _ _ => true
  | .logApplyEntry _ _ => true
  | .tileDrainDone _ _ => true
  | .tileTransferFault _ _ => true
  | .beaconWindow => true
  | .traceRecordWrite _ => true
  | .engineJobStart _ _ => true
  | .engineJobComplete _ _ => true
  | .engineJobFault _ _ => true
  | .ownershipGrant _ => true
  | .revoke _ _ _ => true
  | .revokeDataReturn _ => true
  | .dramRefresh _ _ _ => true
  | .streamFetchReturn _ _ => true
  | .mxeLatchLoadDone _ => true
  | .mxeCommandStart _ => true
  | .mxeRowInject _ => true
  | .mxeCommandComplete _ => true
  | .mxeQueueWindowStore _ _ _ => true
  | .copyQueueWindowStore _ _ _ => true
  | .coalescerApply _ => true
  | .coalescerTimeout _ _ => true
  | .coalescerTwinReady _ _ => true
  | .eventArrive _ _ _ _ _ => true
  | .windowStaleTimeout _ => true
  | .waitWake _ => true
  | .waitTimeout _ => true
  | .barRelease _ => true
  | .taskEnd _ => true
  | .selectionRound _ => true
  | .taskBind _ => true
  | .taskStart _ => true
  | .agingTick => true
  | .stealRequest _ => true
  | .stealReply _ => true
  | .stealBackoff _ => true
  | .halfExchange => true
  | .lanternCircuit => true
  | .forecastTick => true
  | .railSettle _ => true
  | .slewStep _ => true
  | .nrgUpdate => true
  | .trqRetry _ => true
  | .watchdog _ => true
  | .lockstepMismatch _ => true
  | .preemptDrainDone _ => true
  | .jobPtbWrite _ _ _ => true
  | .cspOwnWrite _ _ _ => true
  | .spadForceRetire _ _ => true
  | .jobPartWrite _ _ => true
  | .jobCtlWrite _ _ => true
  | .hbwBaseWrite _ _ => true
  | .fbKill _ _ => true
  | .preCtlReq _ _ => true
  | .pwrCapWrite _ => true
  | .secAtreq _ => true
  | .secPolWrite _ => true
  | .ethRouteWrite _ _ _ => true
  | .registerWrite _ _ => true
  | .ethFrameReceive _ => true
  | .roceWrite _ _ _ _ => true
  | .roceRead _ _ _ _ => true
  | .roceFetchAdd _ _ _ _ => true
  | .roceCompareSwap _ _ _ _ _ => true
  | .place _ _ => true
  | .hostDec _ _ => true
  | .hostCancel _ _ => true
  | .hostCancelh _ _ => true
  | .ucieModuleFail => true
  | .thermalThreshold _ _ => true
  | .memTempChange _ _ => true
  | .tamperAlarm _ => true
  | .debugUnlockFail => true
  | .coldReset _ => true
  | .bootDatagram _ _ => true
  | .bootTransferEnd => true
  | .illegalOpEncoding => true
  | .instructionFetchFault => true
  | .loaderReadReturn _ => true
  | .gptpMessageReceive _ => true
  | .roceUnsupportedRequest _ => true
  | .attestationReportDone => true

end Sys2Proof
end

