-- ==== Sys2Proof/Decode.lean ====
section
/-! DEFINITION. The decoder and the encoder of the core's 32-bit words (08 R192 to R198) and of the helpers' words
(14 R372, R376). Every word either decodes to one instruction or is rejected by name.

Lean's code generator holds no more than 245 constructors with fields in one type, and the opcode table has more rows, so
what builds instructions has no compiled code here and is marked so. The kernel evaluates it as any other definition. -/
namespace Sys2Proof

/-- Why a word is no instruction. -/
inductive DecodeError where
  /-- The major opcode is not allocated (R198). -/
  | unallocatedMajor (major : Nat)
  /-- No row of the major has these sub-operation and zero bits (R198). -/
  | unallocatedFields (major : Nat)
  /-- A field holds a value that is ILLEGAL_OP for the instruction (R195, R196, R198). -/
  | illegalFieldValue (major : Nat)
  /-- A word of the helpers' custom opcodes that R376 does not allocate. -/
  | unallocatedCustom (opcode : Nat)
  /-- A helper word of no RV32IMC instruction the helper has (R372). -/
  | unsupportedHelperWord (opcode : Nat)
  deriving DecidableEq, Repr

/-- The `n` bits of `w` from bit `lo` up. -/
def fld (w lo n : Nat) : Fin (2 ^ n) := ⟨w / 2 ^ lo % 2 ^ n, Nat.mod_lt _ (Nat.two_pow_pos n)⟩

/-- Major 0x1 (R197). -/
noncomputable def parseAlu (w : Nat) : Except DecodeError Instr :=
  if w % 16 = 0 ∧ w / 64 % 32 = 0 then .ok (.add (fld w 21 4) (fld w 16 5) (fld w 11 5) (fld w 4 2))
  else if w % 16 = 0 ∧ w / 64 % 32 = 1 then .ok (.sub (fld w 21 4) (fld w 16 5) (fld w 11 5) (fld w 4 2))
  else if w % 16 = 0 ∧ w / 64 % 32 = 2 then .ok (.and (fld w 21 4) (fld w 16 5) (fld w 11 5) (fld w 4 2))
  else if w % 16 = 0 ∧ w / 64 % 32 = 3 then .ok (.or (fld w 21 4) (fld w 16 5) (fld w 11 5) (fld w 4 2))
  else if w % 16 = 0 ∧ w / 64 % 32 = 4 then .ok (.xor (fld w 21 4) (fld w 16 5) (fld w 11 5) (fld w 4 2))
  else if w % 16 = 0 ∧ w / 64 % 32 = 5 then .ok (.andn (fld w 21 4) (fld w 16 5) (fld w 11 5) (fld w 4 2))
  else if w % 16 = 0 ∧ w / 64 % 32 = 6 then .ok (.orn (fld w 21 4) (fld w 16 5) (fld w 11 5) (fld w 4 2))
  else if w % 16 = 0 ∧ w / 64 % 32 = 7 then .ok (.sll (fld w 21 4) (fld w 16 5) (fld w 11 5) (fld w 4 2))
  else if w % 16 = 0 ∧ w / 64 % 32 = 8 then .ok (.srl (fld w 21 4) (fld w 16 5) (fld w 11 5) (fld w 4 2))
  else if w % 16 = 0 ∧ w / 64 % 32 = 9 then .ok (.sra (fld w 21 4) (fld w 16 5) (fld w 11 5) (fld w 4 2))
  else if w % 16 = 0 ∧ w / 64 % 32 = 10 then .ok (.rol (fld w 21 4) (fld w 16 5) (fld w 11 5) (fld w 4 2))
  else if w % 16 = 0 ∧ w / 64 % 32 = 11 then .ok (.ror (fld w 21 4) (fld w 16 5) (fld w 11 5) (fld w 4 2))
  else if w % 16 = 0 ∧ w / 64 % 32 = 12 then .ok (.min (fld w 21 4) (fld w 16 5) (fld w 11 5) (fld w 4 2))
  else if w % 16 = 0 ∧ w / 64 % 32 = 13 then .ok (.max (fld w 21 4) (fld w 16 5) (fld w 11 5) (fld w 4 2))
  else if w % 16 = 0 ∧ w / 64 % 32 = 14 then .ok (.minz (fld w 21 4) (fld w 16 5) (fld w 11 5) (fld w 4 2))
  else if w % 16 = 0 ∧ w / 64 % 32 = 15 then .ok (.maxz (fld w 21 4) (fld w 16 5) (fld w 11 5) (fld w 4 2))
  else if w % 16 = 0 ∧ w / 64 % 32 = 16 then .ok (.addx2 (fld w 21 4) (fld w 16 5) (fld w 11 5) (fld w 4 2))
  else if w % 16 = 0 ∧ w / 64 % 32 = 17 then .ok (.addx4 (fld w 21 4) (fld w 16 5) (fld w 11 5) (fld w 4 2))
  else if w % 16 = 0 ∧ w / 64 % 32 = 18 then .ok (.addx8 (fld w 21 4) (fld w 16 5) (fld w 11 5) (fld w 4 2))
  else if w % 16 = 0 ∧ w / 64 % 32 = 19 then .ok (.addx16 (fld w 21 4) (fld w 16 5) (fld w 11 5) (fld w 4 2))
  else if w % 16 = 0 ∧ w / 64 % 32 = 20 then .ok (.clmul (fld w 21 4) (fld w 16 5) (fld w 11 5) (fld w 4 2))
  else if w % 16 = 0 ∧ w / 64 % 32 = 21 then .ok (.clmulh (fld w 21 4) (fld w 16 5) (fld w 11 5) (fld w 4 2))
  else .error (.unallocatedFields 0x1)

/-- Major 0x2 (R197). -/
noncomputable def parseAlu1 (w : Nat) : Except DecodeError Instr :=
  if w % 16 = 0 ∧ w / 64 % 1024 = 0 then .ok (.clz (fld w 21 4) (fld w 16 5) (fld w 4 2))
  else if w % 16 = 0 ∧ w / 64 % 1024 = 1 then .ok (.ctz (fld w 21 4) (fld w 16 5) (fld w 4 2))
  else if w % 16 = 0 ∧ w / 64 % 1024 = 2 then .ok (.pop (fld w 21 4) (fld w 16 5) (fld w 4 2))
  else if w % 16 = 0 ∧ w / 64 % 1024 = 3 then .ok (.brev (fld w 21 4) (fld w 16 5) (fld w 4 2))
  else if w % 16 = 0 ∧ w / 64 % 1024 = 4 then .ok (.bswap (fld w 21 4) (fld w 16 5) (fld w 4 2))
  else if w % 16 = 0 ∧ w / 64 % 1024 = 5 then .ok (.sextb (fld w 21 4) (fld w 16 5) (fld w 4 2))
  else if w % 16 = 0 ∧ w / 64 % 1024 = 6 then .ok (.sexth (fld w 21 4) (fld w 16 5) (fld w 4 2))
  else if w % 16 = 0 ∧ w / 64 % 1024 = 7 then .ok (.sextw (fld w 21 4) (fld w 16 5) (fld w 4 2))
  else if w % 16 = 0 ∧ w / 64 % 1024 = 8 then .ok (.zextb (fld w 21 4) (fld w 16 5) (fld w 4 2))
  else if w % 16 = 0 ∧ w / 64 % 1024 = 9 then .ok (.zexth (fld w 21 4) (fld w 16 5) (fld w 4 2))
  else if w % 16 = 0 ∧ w / 64 % 1024 = 10 then .ok (.zextw (fld w 21 4) (fld w 16 5) (fld w 4 2))
  else if w % 16 = 0 ∧ w / 64 % 1024 = 11 then .ok (.neg (fld w 21 4) (fld w 16 5) (fld w 4 2))
  else if w % 16 = 0 ∧ w / 64 % 1024 = 12 then .ok (.not (fld w 21 4) (fld w 16 5) (fld w 4 2))
  else if w % 16 = 0 ∧ w / 64 % 1024 = 13 then .ok (.mov (fld w 21 4) (fld w 16 5) (fld w 4 2))
  else .error (.unallocatedFields 0x2)

/-- Major 0x3 (R197). -/
noncomputable def parseMulDiv (w : Nat) : Except DecodeError Instr :=
  if w % 16 = 0 ∧ w / 64 % 32 = 0 then .ok (.mul (fld w 21 4) (fld w 16 5) (fld w 11 5) (fld w 4 2))
  else if w % 16 = 0 ∧ w / 64 % 32 = 1 then .ok (.mulh (fld w 21 4) (fld w 16 5) (fld w 11 5) (fld w 4 2))
  else if w % 16 = 0 ∧ w / 64 % 32 = 2 then .ok (.mulhz (fld w 21 4) (fld w 16 5) (fld w 11 5) (fld w 4 2))
  else if w % 16 = 0 ∧ w / 64 % 32 = 3 then .ok (.mulhsz (fld w 21 4) (fld w 16 5) (fld w 11 5) (fld w 4 2))
  else if w % 16 = 0 ∧ w / 64 % 32 = 4 then .ok (.div (fld w 21 4) (fld w 16 5) (fld w 11 5) (fld w 4 2))
  else if w % 16 = 0 ∧ w / 64 % 32 = 5 then .ok (.divz (fld w 21 4) (fld w 16 5) (fld w 11 5) (fld w 4 2))
  else if w % 16 = 0 ∧ w / 64 % 32 = 6 then .ok (.rem (fld w 21 4) (fld w 16 5) (fld w 11 5) (fld w 4 2))
  else if w % 16 = 0 ∧ w / 64 % 32 = 7 then .ok (.remz (fld w 21 4) (fld w 16 5) (fld w 11 5) (fld w 4 2))
  else .error (.unallocatedFields 0x3)

/-- Major 0x4 (R197). -/
noncomputable def parseCmp (w : Nat) : Except DecodeError Instr :=
  if w % 16 = 0 ∧ w / 64 % 32 = 0 then .ok (.seq (fld w 21 4) (fld w 16 5) (fld w 11 5) (fld w 4 2))
  else if w % 16 = 0 ∧ w / 64 % 32 = 1 then .ok (.sne (fld w 21 4) (fld w 16 5) (fld w 11 5) (fld w 4 2))
  else if w % 16 = 0 ∧ w / 64 % 32 = 2 then .ok (.slt (fld w 21 4) (fld w 16 5) (fld w 11 5) (fld w 4 2))
  else if w % 16 = 0 ∧ w / 64 % 32 = 3 then .ok (.sge (fld w 21 4) (fld w 16 5) (fld w 11 5) (fld w 4 2))
  else if w % 16 = 0 ∧ w / 64 % 32 = 4 then .ok (.slo (fld w 21 4) (fld w 16 5) (fld w 11 5) (fld w 4 2))
  else if w % 16 = 0 ∧ w / 64 % 32 = 5 then .ok (.shs (fld w 21 4) (fld w 16 5) (fld w 11 5) (fld w 4 2))
  else if w / 64 % 32 = 6 then .ok (.sel (fld w 21 4) (fld w 16 5) (fld w 11 5) (fld w 4 2) (fld w 0 4))
  else .error (.unallocatedFields 0x4)

/-- Major 0x5 (R197). -/
noncomputable def parseBitf (w : Nat) : Except DecodeError Instr :=
  if w % 16 = 0 ∧ w / 64 % 32 = 0 then .ok (.bfx (fld w 21 4) (fld w 16 5) (fld w 11 5) (fld w 4 2))
  else if w % 16 = 0 ∧ w / 64 % 32 = 1 then .ok (.bfxs (fld w 21 4) (fld w 16 5) (fld w 11 5) (fld w 4 2))
  else if w % 16 = 0 ∧ w / 64 % 32 = 2 then .ok (.bfi (fld w 21 4) (fld w 16 5) (fld w 11 5) (fld w 4 2))
  else .error (.unallocatedFields 0x5)

/-- Major 0x8 (R197). -/
noncomputable def parseAddi (w : Nat) : Except DecodeError Instr :=
  .ok (.addi (fld w 21 4) (fld w 16 5) (fld w 0 16))

/-- Major 0x9 (R197). -/
noncomputable def parseAndi (w : Nat) : Except DecodeError Instr :=
  .ok (.andi (fld w 21 4) (fld w 16 5) (fld w 0 16))

/-- Major 0xa (R197). -/
noncomputable def parseOri (w : Nat) : Except DecodeError Instr :=
  .ok (.ori (fld w 21 4) (fld w 16 5) (fld w 0 16))

/-- Major 0xb (R197). -/
noncomputable def parseXori (w : Nat) : Except DecodeError Instr :=
  .ok (.xori (fld w 21 4) (fld w 16 5) (fld w 0 16))

/-- Major 0xc (R197). -/
noncomputable def parseShi (w : Nat) : Except DecodeError Instr :=
  if w / 64 % 4 = 0 ∧ w / 512 % 128 = 0 then .ok (.slli (fld w 21 4) (fld w 16 5) (fld w 8 1) (fld w 0 6))
  else if w / 64 % 4 = 1 ∧ w / 512 % 128 = 0 then .ok (.srli (fld w 21 4) (fld w 16 5) (fld w 8 1) (fld w 0 6))
  else if w / 64 % 4 = 2 ∧ w / 512 % 128 = 0 then .ok (.srai (fld w 21 4) (fld w 16 5) (fld w 8 1) (fld w 0 6))
  else if w / 64 % 4 = 3 ∧ w / 512 % 128 = 0 then .ok (.roli (fld w 21 4) (fld w 16 5) (fld w 8 1) (fld w 0 6))
  else .error (.unallocatedFields 0xc)

/-- Major 0xd (R197). -/
noncomputable def parseCmpi (w : Nat) : Except DecodeError Instr :=
  .ok (.cmpi (fld w 21 4) (fld w 16 5) (fld w 13 3) (fld w 0 13))

/-- Major 0xe (R197). -/
noncomputable def parseLi (w : Nat) : Except DecodeError Instr :=
  if w / 65536 % 32 = 0 then .ok (.li (fld w 21 4) (fld w 0 16))
  else .error (.unallocatedFields 0xe)

/-- Major 0x10 (R197). -/
noncomputable def parseGetc (w : Nat) : Except DecodeError Instr :=
  if w / 4096 % 512 = 0 then .ok (.getc (fld w 21 4) (fld w 0 12))
  else .error (.unallocatedFields 0x10)

/-- Major 0x11 (R197). -/
noncomputable def parseSetc (w : Nat) : Except DecodeError Instr :=
  if w % 65536 = 192 ∧ w / 2097152 % 16 = 0 then .ok (.setcLogBase (fld w 16 5))
  else if w / 2 % 32768 = 98 ∧ w / 2097152 % 16 = 0 then .ok (.setcTrace (fld w 16 5) (fld w 0 1))
  else if w / 2 % 32768 = 48 ∧ w / 2097152 % 16 = 0 then .ok (.setcEvRebase (fld w 16 5) (fld w 0 1))
  else if w % 65536 = 100 ∧ w / 2097152 % 16 = 0 then .ok (.setcEvSpill (fld w 16 5))
  else if w % 2 = 1 ∧ w / 4 % 16384 = 16 ∧ w / 2097152 % 16 = 0 then .ok (.setcMxMode (fld w 16 5) (fld w 1 1))
  else if w / 4096 % 16 = 0 ∧ w / 2097152 % 16 = 0 then .ok (.setc (fld w 16 5) (fld w 0 12))
  else .error (.unallocatedFields 0x11)

/-- Major 0x18 (R197). -/
noncomputable def parseBr (w : Nat) : Except DecodeError Instr :=
  .ok (.br (fld w 20 5) (fld w 15 5) (fld w 12 3) (fld w 0 12))

/-- Major 0x19 (R197). -/
noncomputable def parseJmp (w : Nat) : Except DecodeError Instr :=
  .ok (.jmp (fld w 0 25))

/-- Major 0x1a (R197). -/
noncomputable def parseCall (w : Nat) : Except DecodeError Instr :=
  .ok (.call (fld w 0 25))

/-- Major 0x1b (R197). -/
noncomputable def parseJr (w : Nat) : Except DecodeError Instr :=
  if w % 65536 = 0 ∧ w / 2097152 % 16 = 0 then .ok (.jr (fld w 16 5))
  else if w % 65536 = 64 ∧ w / 2097152 % 16 = 0 then .ok (.callr (fld w 16 5))
  else .error (.unallocatedFields 0x1b)

/-- Major 0x1c (R197). -/
noncomputable def parseLnest (w : Nat) : Except DecodeError Instr :=
  if w % 65536 = 0 then .ok (.lnest (fld w 21 4) (fld w 16 5))
  else .error (.unallocatedFields 0x1c)

/-- Major 0x1d (R197). -/
noncomputable def parseLnext (w : Nat) : Except DecodeError Instr :=
  if w / 4096 % 8192 = 6 then .ok (.lnext (fld w 0 12))
  else .error (.unallocatedFields 0x1d)

/-- Major 0x1e (R197). -/
noncomputable def parseRep (w : Nat) : Except DecodeError Instr :=
  .ok (.rep (fld w 22 3) (fld w 17 5) (fld w 14 3) (fld w 11 3) (fld w 0 11))

/-- Major 0x1f (R197). -/
noncomputable def parseRepw (w : Nat) : Except DecodeError Instr :=
  if w % 33554432 = 0 then .ok (.repw)
  else .error (.unallocatedFields 0x1f)

/-- Major 0x20 (R197). -/
noncomputable def parseWait (w : Nat) : Except DecodeError Instr :=
  if w % 2048 = 0 then .ok (.wait (fld w 21 4) (fld w 16 5) (fld w 11 5))
  else .error (.unallocatedFields 0x20)

/-- Major 0x21 (R197). -/
noncomputable def parseSys (w : Nat) : Except DecodeError Instr :=
  if w % 33554432 = 0 then .ok (.done)
  else if w % 33554432 = 64 then .ok (.yield)
  else if w % 65536 = 128 ∧ w / 2097152 % 16 = 0 then .ok (.trap (fld w 16 5))
  else if w % 33554432 = 192 then .ok (.brk)
  else if w % 33554432 = 256 then .ok (.eret)
  else if w % 33554432 = 320 then .ok (.chk)
  else if w % 33554432 = 384 then .ok (.nop)
  else if w % 2048 = 448 ∧ w / 2097152 % 16 = 0 then .ok (.cancel (fld w 16 5) (fld w 11 5))
  else if w % 2048 = 512 ∧ w / 2097152 % 16 = 0 then .ok (.cancelh (fld w 16 5) (fld w 11 5))
  else if w % 2048 = 576 ∧ w / 2097152 % 16 = 0 then .ok (.tlbinv (fld w 16 5) (fld w 11 5))
  else if w % 65536 = 640 then .ok (.fbflush (fld w 21 4) (fld w 16 5))
  else if w % 33554432 = 704 then .ok (.halt)
  else .error (.unallocatedFields 0x21)

/-- Major 0x28 (R197). -/
noncomputable def parseLd (w : Nat) : Except DecodeError Instr :=
  .ok (.ld (fld w 21 4) (fld w 16 5) (fld w 14 2) (fld w 13 1) (fld w 11 2) (fld w 0 11))

/-- Major 0x29 (R197). -/
noncomputable def parseSt (w : Nat) : Except DecodeError Instr :=
  .ok (.st (fld w 20 5) (fld w 15 5) (fld w 13 2) (fld w 11 2) (fld w 0 11))

/-- Major 0x2a (R197). -/
noncomputable def parseLdx (w : Nat) : Except DecodeError Instr :=
  if w % 32 = 0 then .ok (.ldx (fld w 21 4) (fld w 16 5) (fld w 11 5) (fld w 9 2) (fld w 8 1) (fld w 6 2) (fld w 5 1))
  else .error (.unallocatedFields 0x2a)

/-- Major 0x2b (R197). -/
noncomputable def parseStx (w : Nat) : Except DecodeError Instr :=
  if w % 32 = 0 ∧ w / 256 % 2 = 0 then .ok (.stx (fld w 21 4) (fld w 16 5) (fld w 11 5) (fld w 9 2) (fld w 6 2) (fld w 5 1))
  else .error (.unallocatedFields 0x2b)

/-- Major 0x2c (R197). -/
noncomputable def parseOrdered (w : Nat) : Except DecodeError Instr :=
  if w % 8 = 0 ∧ w / 512 % 128 = 0 then .ok (.ldAcq (fld w 21 4) (fld w 16 5) (fld w 6 3) (fld w 4 2) (fld w 3 1))
  else if w % 16 = 0 ∧ w / 512 % 4 = 1 ∧ w / 2097152 % 16 = 0 then .ok (.stRel (fld w 16 5) (fld w 11 5) (fld w 6 3) (fld w 4 2))
  else if w % 8 = 0 ∧ w / 512 % 128 = 2 then .ok (.ldSc (fld w 21 4) (fld w 16 5) (fld w 6 3) (fld w 4 2) (fld w 3 1))
  else if w % 16 = 0 ∧ w / 512 % 4 = 3 ∧ w / 2097152 % 16 = 0 then .ok (.stSc (fld w 16 5) (fld w 11 5) (fld w 6 3) (fld w 4 2))
  else .error (.unallocatedFields 0x2c)

/-- Major 0x2d (R197). -/
noncomputable def parseAmo (w : Nat) : Except DecodeError Instr :=
  if w / 2 % 32 = 0 then .ok (.amoAdd (fld w 21 4) (fld w 16 5) (fld w 11 5) (fld w 8 3) (fld w 6 2) (fld w 0 1))
  else if w / 2 % 32 = 1 then .ok (.amoAnd (fld w 21 4) (fld w 16 5) (fld w 11 5) (fld w 8 3) (fld w 6 2) (fld w 0 1))
  else if w / 2 % 32 = 2 then .ok (.amoOr (fld w 21 4) (fld w 16 5) (fld w 11 5) (fld w 8 3) (fld w 6 2) (fld w 0 1))
  else if w / 2 % 32 = 3 then .ok (.amoXor (fld w 21 4) (fld w 16 5) (fld w 11 5) (fld w 8 3) (fld w 6 2) (fld w 0 1))
  else if w / 2 % 32 = 4 then .ok (.amoMin (fld w 21 4) (fld w 16 5) (fld w 11 5) (fld w 8 3) (fld w 6 2) (fld w 0 1))
  else if w / 2 % 32 = 5 then .ok (.amoMax (fld w 21 4) (fld w 16 5) (fld w 11 5) (fld w 8 3) (fld w 6 2) (fld w 0 1))
  else if w / 2 % 32 = 6 then .ok (.amoMinz (fld w 21 4) (fld w 16 5) (fld w 11 5) (fld w 8 3) (fld w 6 2) (fld w 0 1))
  else if w / 2 % 32 = 7 then .ok (.amoMaxz (fld w 21 4) (fld w 16 5) (fld w 11 5) (fld w 8 3) (fld w 6 2) (fld w 0 1))
  else if w / 2 % 32 = 8 then .ok (.amoSwap (fld w 21 4) (fld w 16 5) (fld w 11 5) (fld w 8 3) (fld w 6 2) (fld w 0 1))
  else if w / 2 % 32 = 9 then .ok (.amoFadd (fld w 21 4) (fld w 16 5) (fld w 11 5) (fld w 8 3) (fld w 6 2) (fld w 0 1))
  else if w / 2 % 32 = 10 then .ok (.amoIncw (fld w 21 4) (fld w 16 5) (fld w 11 5) (fld w 8 3) (fld w 6 2) (fld w 0 1))
  else .error (.unallocatedFields 0x2d)

/-- Major 0x2e (R197). -/
noncomputable def parseRed (w : Nat) : Except DecodeError Instr :=
  if w / 2 % 128 = 0 ∧ w / 2097152 % 16 = 0 then .ok (.redAdd (fld w 16 5) (fld w 11 5) (fld w 8 3) (fld w 0 1))
  else if w / 2 % 128 = 1 ∧ w / 2097152 % 16 = 0 then .ok (.redAnd (fld w 16 5) (fld w 11 5) (fld w 8 3) (fld w 0 1))
  else if w / 2 % 128 = 2 ∧ w / 2097152 % 16 = 0 then .ok (.redOr (fld w 16 5) (fld w 11 5) (fld w 8 3) (fld w 0 1))
  else if w / 2 % 128 = 3 ∧ w / 2097152 % 16 = 0 then .ok (.redXor (fld w 16 5) (fld w 11 5) (fld w 8 3) (fld w 0 1))
  else if w / 2 % 128 = 4 ∧ w / 2097152 % 16 = 0 then .ok (.redMin (fld w 16 5) (fld w 11 5) (fld w 8 3) (fld w 0 1))
  else if w / 2 % 128 = 5 ∧ w / 2097152 % 16 = 0 then .ok (.redMax (fld w 16 5) (fld w 11 5) (fld w 8 3) (fld w 0 1))
  else if w / 2 % 128 = 6 ∧ w / 2097152 % 16 = 0 then .ok (.redMinz (fld w 16 5) (fld w 11 5) (fld w 8 3) (fld w 0 1))
  else if w / 2 % 128 = 7 ∧ w / 2097152 % 16 = 0 then .ok (.redMaxz (fld w 16 5) (fld w 11 5) (fld w 8 3) (fld w 0 1))
  else if w / 2 % 128 = 8 ∧ w / 2097152 % 16 = 0 then .ok (.redSwap (fld w 16 5) (fld w 11 5) (fld w 8 3) (fld w 0 1))
  else if w / 2 % 128 = 9 ∧ w / 2097152 % 16 = 0 then .ok (.redFadd (fld w 16 5) (fld w 11 5) (fld w 8 3) (fld w 0 1))
  else .error (.unallocatedFields 0x2e)

/-- Major 0x2f (R197). -/
noncomputable def parseCas (w : Nat) : Except DecodeError Instr :=
  if w / 16 % 2 = 0 then .ok (.cas (fld w 21 4) (fld w 16 5) (fld w 11 5) (fld w 8 3) (fld w 6 2) (fld w 5 1) (fld w 0 4))
  else .error (.unallocatedFields 0x2f)

/-- Major 0x30 (R197). -/
noncomputable def parseFence (w : Nat) : Except DecodeError Instr :=
  if w % 8 = 0 ∧ w / 64 % 524288 = 0 then .ok (.fenceAcq (fld w 3 3))
  else if w % 8 = 0 ∧ w / 64 % 524288 = 1 then .ok (.fenceRel (fld w 3 3))
  else if w % 8 = 0 ∧ w / 64 % 524288 = 2 then .ok (.fenceFull (fld w 3 3))
  else if w % 65536 = 192 ∧ w / 2097152 % 16 = 0 then .ok (.pf (fld w 16 5))
  else if w % 2048 = 256 ∧ w / 2097152 % 16 = 0 then .ok (.l1inv (fld w 16 5) (fld w 11 5))
  else .error (.unallocatedFields 0x30)

/-- Major 0x31 (R197). -/
noncomputable def parseStream (w : Nat) : Except DecodeError Instr :=
  if w % 2048 = 0 ∧ w / 524288 % 64 = 0 then .ok (.sbind (fld w 16 3) (fld w 11 5))
  else if w % 65536 = 64 ∧ w / 524288 % 64 = 0 then .ok (.sunbind (fld w 16 3))
  else if w % 65536 = 128 ∧ w / 524288 % 4 = 0 then .ok (.sstat (fld w 21 4) (fld w 16 3))
  else .error (.unallocatedFields 0x31)

/-- Major 0x32 (R197). -/
noncomputable def parseEjob (w : Nat) : Except DecodeError Instr :=
  if w % 65536 = 0 ∧ w / 2097152 % 16 = 0 then .ok (.ejob (fld w 16 5))
  else .error (.unallocatedFields 0x32)

/-- Major 0x38 (R197). -/
noncomputable def parseVfp (w : Nat) : Except DecodeError Instr :=
  if w / 64 % 32 = 0 then .ok (.vaddFp (fld w 21 4) (fld w 16 5) (fld w 11 5) (fld w 3 3) (fld w 0 3))
  else if w / 64 % 32 = 1 then .ok (.vsubFp (fld w 21 4) (fld w 16 5) (fld w 11 5) (fld w 3 3) (fld w 0 3))
  else if w / 64 % 32 = 2 then .ok (.vmulFp (fld w 21 4) (fld w 16 5) (fld w 11 5) (fld w 3 3) (fld w 0 3))
  else if w / 64 % 32 = 3 then .ok (.vmlaFp (fld w 21 4) (fld w 16 5) (fld w 11 5) (fld w 3 3) (fld w 0 3))
  else if w / 64 % 32 = 4 then .ok (.vmlsFp (fld w 21 4) (fld w 16 5) (fld w 11 5) (fld w 3 3) (fld w 0 3))
  else if w / 64 % 32 = 5 then .ok (.vminFp (fld w 21 4) (fld w 16 5) (fld w 11 5) (fld w 3 3) (fld w 0 3))
  else if w / 64 % 32 = 6 then .ok (.vmaxFp (fld w 21 4) (fld w 16 5) (fld w 11 5) (fld w 3 3) (fld w 0 3))
  else if w / 64 % 1024 = 7 then .ok (.vabsFp (fld w 21 4) (fld w 16 5) (fld w 3 3) (fld w 0 3))
  else if w / 64 % 1024 = 8 then .ok (.vnegFp (fld w 21 4) (fld w 16 5) (fld w 3 3) (fld w 0 3))
  else if w / 64 % 32 = 9 then .ok (.vdiv (fld w 21 4) (fld w 16 5) (fld w 11 5) (fld w 3 3) (fld w 0 3))
  else if w / 64 % 1024 = 10 then .ok (.vsqrt (fld w 21 4) (fld w 16 5) (fld w 3 3) (fld w 0 3))
  else if w / 64 % 1024 = 11 then .ok (.vrcp (fld w 21 4) (fld w 16 5) (fld w 3 3) (fld w 0 3))
  else if w / 64 % 1024 = 12 then .ok (.vrsq (fld w 21 4) (fld w 16 5) (fld w 3 3) (fld w 0 3))
  else .error (.unallocatedFields 0x38)

/-- Major 0x39 (R197). -/
noncomputable def parseVint (w : Nat) : Except DecodeError Instr :=
  if w / 64 % 32 = 0 then .ok (.vaddInt (fld w 21 4) (fld w 16 5) (fld w 11 5) (fld w 3 3) (fld w 0 3))
  else if w / 64 % 32 = 1 then .ok (.vsubInt (fld w 21 4) (fld w 16 5) (fld w 11 5) (fld w 3 3) (fld w 0 3))
  else if w / 64 % 32 = 2 then .ok (.vmulInt (fld w 21 4) (fld w 16 5) (fld w 11 5) (fld w 3 3) (fld w 0 3))
  else if w / 64 % 32 = 3 then .ok (.vmlaInt (fld w 21 4) (fld w 16 5) (fld w 11 5) (fld w 3 3) (fld w 0 3))
  else if w / 64 % 32 = 4 then .ok (.vminInt (fld w 21 4) (fld w 16 5) (fld w 11 5) (fld w 3 3) (fld w 0 3))
  else if w / 64 % 32 = 5 then .ok (.vmaxInt (fld w 21 4) (fld w 16 5) (fld w 11 5) (fld w 3 3) (fld w 0 3))
  else if w / 64 % 32 = 6 then .ok (.vminz (fld w 21 4) (fld w 16 5) (fld w 11 5) (fld w 3 3) (fld w 0 3))
  else if w / 64 % 32 = 7 then .ok (.vmaxz (fld w 21 4) (fld w 16 5) (fld w 11 5) (fld w 3 3) (fld w 0 3))
  else if w / 64 % 1024 = 8 then .ok (.vabsInt (fld w 21 4) (fld w 16 5) (fld w 3 3) (fld w 0 3))
  else if w / 64 % 1024 = 9 then .ok (.vnegInt (fld w 21 4) (fld w 16 5) (fld w 3 3) (fld w 0 3))
  else if w / 64 % 32 = 10 then .ok (.vadds (fld w 21 4) (fld w 16 5) (fld w 11 5) (fld w 3 3) (fld w 0 3))
  else if w / 64 % 32 = 11 then .ok (.vsubs (fld w 21 4) (fld w 16 5) (fld w 11 5) (fld w 3 3) (fld w 0 3))
  else if w / 64 % 32 = 12 then .ok (.vaddsz (fld w 21 4) (fld w 16 5) (fld w 11 5) (fld w 3 3) (fld w 0 3))
  else if w / 64 % 32 = 13 then .ok (.vsubsz (fld w 21 4) (fld w 16 5) (fld w 11 5) (fld w 3 3) (fld w 0 3))
  else if w / 64 % 32 = 14 then .ok (.vmulh (fld w 21 4) (fld w 16 5) (fld w 11 5) (fld w 3 3) (fld w 0 3))
  else if w / 64 % 32 = 15 then .ok (.vdot4 (fld w 21 4) (fld w 16 5) (fld w 11 5) (fld w 3 3) (fld w 0 3))
  else if w / 64 % 32 = 16 then .ok (.vdot4z (fld w 21 4) (fld w 16 5) (fld w 11 5) (fld w 3 3) (fld w 0 3))
  else if w / 64 % 32 = 17 then .ok (.vclmul (fld w 21 4) (fld w 16 5) (fld w 11 5) (fld w 3 3) (fld w 0 3))
  else if w / 64 % 32 = 18 then .ok (.vclmulh (fld w 21 4) (fld w 16 5) (fld w 11 5) (fld w 3 3) (fld w 0 3))
  else .error (.unallocatedFields 0x39)

/-- Major 0x3a (R197). -/
noncomputable def parseVlogic (w : Nat) : Except DecodeError Instr :=
  if w / 64 % 32 = 0 then .ok (.vand (fld w 21 4) (fld w 16 5) (fld w 11 5) (fld w 3 3) (fld w 0 3))
  else if w / 64 % 32 = 1 then .ok (.vor (fld w 21 4) (fld w 16 5) (fld w 11 5) (fld w 3 3) (fld w 0 3))
  else if w / 64 % 32 = 2 then .ok (.vxor (fld w 21 4) (fld w 16 5) (fld w 11 5) (fld w 3 3) (fld w 0 3))
  else if w / 64 % 32 = 3 then .ok (.vandn (fld w 21 4) (fld w 16 5) (fld w 11 5) (fld w 3 3) (fld w 0 3))
  else if w / 64 % 1024 = 4 then .ok (.vnot (fld w 21 4) (fld w 16 5) (fld w 3 3) (fld w 0 3))
  else if w / 64 % 32 = 5 then .ok (.vshl (fld w 21 4) (fld w 16 5) (fld w 11 5) (fld w 3 3) (fld w 0 3))
  else if w / 64 % 32 = 6 then .ok (.vshr (fld w 21 4) (fld w 16 5) (fld w 11 5) (fld w 3 3) (fld w 0 3))
  else if w / 64 % 32 = 7 then .ok (.vsra (fld w 21 4) (fld w 16 5) (fld w 11 5) (fld w 3 3) (fld w 0 3))
  else if w / 64 % 1024 = 8 then .ok (.vpopc (fld w 21 4) (fld w 16 5) (fld w 3 3) (fld w 0 3))
  else if w / 64 % 1024 = 9 then .ok (.vclz (fld w 21 4) (fld w 16 5) (fld w 3 3) (fld w 0 3))
  else if w / 64 % 32 = 10 then .ok (.vshli (fld w 21 4) (fld w 16 5) (fld w 11 5) (fld w 3 3) (fld w 0 3))
  else if w / 64 % 32 = 11 then .ok (.vshri (fld w 21 4) (fld w 16 5) (fld w 11 5) (fld w 3 3) (fld w 0 3))
  else if w / 64 % 32 = 12 then .ok (.vsrai (fld w 21 4) (fld w 16 5) (fld w 11 5) (fld w 3 3) (fld w 0 3))
  else .error (.unallocatedFields 0x3a)

/-- Major 0x3b (R197). -/
noncomputable def parseVcmp (w : Nat) : Except DecodeError Instr :=
  if w / 64 % 32 = 0 then .ok (.veq (fld w 21 4) (fld w 16 5) (fld w 11 5) (fld w 3 3) (fld w 0 3))
  else if w / 64 % 32 = 1 then .ok (.vne (fld w 21 4) (fld w 16 5) (fld w 11 5) (fld w 3 3) (fld w 0 3))
  else if w / 64 % 32 = 2 then .ok (.vlt (fld w 21 4) (fld w 16 5) (fld w 11 5) (fld w 3 3) (fld w 0 3))
  else if w / 64 % 32 = 3 then .ok (.vge (fld w 21 4) (fld w 16 5) (fld w 11 5) (fld w 3 3) (fld w 0 3))
  else if w / 64 % 32 = 4 then .ok (.vlo (fld w 21 4) (fld w 16 5) (fld w 11 5) (fld w 3 3) (fld w 0 3))
  else if w / 64 % 32 = 5 then .ok (.vhs (fld w 21 4) (fld w 16 5) (fld w 11 5) (fld w 3 3) (fld w 0 3))
  else if w / 64 % 32 = 6 then .ok (.vfeq (fld w 21 4) (fld w 16 5) (fld w 11 5) (fld w 3 3) (fld w 0 3))
  else if w / 64 % 32 = 7 then .ok (.vflt (fld w 21 4) (fld w 16 5) (fld w 11 5) (fld w 3 3) (fld w 0 3))
  else if w / 64 % 32 = 8 then .ok (.vfle (fld w 21 4) (fld w 16 5) (fld w 11 5) (fld w 3 3) (fld w 0 3))
  else if w / 64 % 32 = 9 then .ok (.vfun (fld w 21 4) (fld w 16 5) (fld w 11 5) (fld w 3 3) (fld w 0 3))
  else if w % 8 = 0 ∧ w / 64 % 32 = 16 then .ok (.mand (fld w 21 4) (fld w 16 5) (fld w 11 5) (fld w 3 3))
  else if w % 8 = 0 ∧ w / 64 % 32 = 17 then .ok (.mor (fld w 21 4) (fld w 16 5) (fld w 11 5) (fld w 3 3))
  else if w % 8 = 0 ∧ w / 64 % 32 = 18 then .ok (.mxor (fld w 21 4) (fld w 16 5) (fld w 11 5) (fld w 3 3))
  else if w % 8 = 0 ∧ w / 64 % 32 = 19 then .ok (.mandn (fld w 21 4) (fld w 16 5) (fld w 11 5) (fld w 3 3))
  else if w % 8 = 0 ∧ w / 64 % 1024 = 20 then .ok (.mpop (fld w 21 4) (fld w 16 5) (fld w 3 3))
  else if w % 8 = 0 ∧ w / 64 % 1024 = 21 then .ok (.mffs (fld w 21 4) (fld w 16 5) (fld w 3 3))
  else if w / 64 % 32 = 22 then .ok (.vsel (fld w 21 4) (fld w 16 5) (fld w 11 5) (fld w 3 3) (fld w 0 3))
  else .error (.unallocatedFields 0x3b)

/-- Major 0x3c (R197). -/
noncomputable def parseVcvt (w : Nat) : Except DecodeError Instr :=
  if w / 64 % 32 = 0 then .ok (.vcvt (fld w 21 4) (fld w 16 5) (fld w 14 2) (fld w 11 3) (fld w 3 3) (fld w 0 3))
  else if w / 64 % 32 = 1 then .ok (.vf2i (fld w 21 4) (fld w 16 5) (fld w 14 2) (fld w 11 3) (fld w 3 3) (fld w 0 3))
  else if w / 64 % 32 = 2 then .ok (.vi2f (fld w 21 4) (fld w 16 5) (fld w 14 2) (fld w 11 3) (fld w 3 3) (fld w 0 3))
  else if w / 64 % 32 = 3 then .ok (.vnarrow (fld w 21 4) (fld w 16 5) (fld w 14 2) (fld w 11 3) (fld w 3 3) (fld w 0 3))
  else if w / 64 % 32 = 4 then .ok (.vwiden (fld w 21 4) (fld w 16 5) (fld w 15 1) (fld w 14 1) (fld w 11 3) (fld w 3 3) (fld w 0 3))
  else .error (.unallocatedFields 0x3c)

/-- Major 0x3d (R197). -/
noncomputable def parseVperm (w : Nat) : Except DecodeError Instr :=
  if w / 64 % 32 = 0 then .ok (.vperm (fld w 21 4) (fld w 16 5) (fld w 11 5) (fld w 3 3) (fld w 0 3))
  else if w / 64 % 32 = 1 then .ok (.vslideup (fld w 21 4) (fld w 16 5) (fld w 11 5) (fld w 3 3) (fld w 0 3))
  else if w / 64 % 32 = 2 then .ok (.vslidedn (fld w 21 4) (fld w 16 5) (fld w 11 5) (fld w 3 3) (fld w 0 3))
  else if w / 64 % 1024 = 3 then .ok (.vcompress (fld w 21 4) (fld w 16 5) (fld w 3 3) (fld w 0 3))
  else if w / 64 % 1024 = 4 then .ok (.vexpand (fld w 21 4) (fld w 16 5) (fld w 3 3) (fld w 0 3))
  else if w / 64 % 32 = 5 then .ok (.vzipLo (fld w 21 4) (fld w 16 5) (fld w 11 5) (fld w 3 3) (fld w 0 3))
  else if w / 64 % 32 = 6 then .ok (.vzipHi (fld w 21 4) (fld w 16 5) (fld w 11 5) (fld w 3 3) (fld w 0 3))
  else if w / 64 % 32 = 7 then .ok (.vuzpEv (fld w 21 4) (fld w 16 5) (fld w 11 5) (fld w 3 3) (fld w 0 3))
  else if w / 64 % 32 = 8 then .ok (.vuzpOd (fld w 21 4) (fld w 16 5) (fld w 11 5) (fld w 3 3) (fld w 0 3))
  else if w / 64 % 1024 = 9 then .ok (.vrev (fld w 21 4) (fld w 16 5) (fld w 3 3) (fld w 0 3))
  else if w / 64 % 32 = 10 then .ok (.vpack (fld w 21 4) (fld w 16 5) (fld w 11 5) (fld w 3 3) (fld w 0 3))
  else .error (.unallocatedFields 0x3d)

/-- Major 0x3e (R197). -/
noncomputable def parseVred (w : Nat) : Except DecodeError Instr :=
  if w / 64 % 1024 = 0 then .ok (.vradd (fld w 21 4) (fld w 16 5) (fld w 3 3) (fld w 0 3))
  else if w / 64 % 1024 = 1 then .ok (.vrmin (fld w 21 4) (fld w 16 5) (fld w 3 3) (fld w 0 3))
  else if w / 64 % 1024 = 2 then .ok (.vrmax (fld w 21 4) (fld w 16 5) (fld w 3 3) (fld w 0 3))
  else if w / 64 % 1024 = 3 then .ok (.vrminz (fld w 21 4) (fld w 16 5) (fld w 3 3) (fld w 0 3))
  else if w / 64 % 1024 = 4 then .ok (.vrmaxz (fld w 21 4) (fld w 16 5) (fld w 3 3) (fld w 0 3))
  else if w / 64 % 1024 = 5 then .ok (.vrand (fld w 21 4) (fld w 16 5) (fld w 3 3) (fld w 0 3))
  else if w / 64 % 1024 = 6 then .ok (.vror (fld w 21 4) (fld w 16 5) (fld w 3 3) (fld w 0 3))
  else if w / 64 % 1024 = 7 then .ok (.vrxor (fld w 21 4) (fld w 16 5) (fld w 3 3) (fld w 0 3))
  else if w / 64 % 1024 = 8 then .ok (.vrfadd (fld w 21 4) (fld w 16 5) (fld w 3 3) (fld w 0 3))
  else if w / 64 % 1024 = 9 then .ok (.vscanAdd (fld w 21 4) (fld w 16 5) (fld w 3 3) (fld w 0 3))
  else if w / 64 % 1024 = 10 then .ok (.vscanXor (fld w 21 4) (fld w 16 5) (fld w 3 3) (fld w 0 3))
  else if w / 64 % 1024 = 11 then .ok (.vscanMax (fld w 21 4) (fld w 16 5) (fld w 3 3) (fld w 0 3))
  else .error (.unallocatedFields 0x3e)

/-- Major 0x3f (R197). -/
noncomputable def parseVmove (w : Nat) : Except DecodeError Instr :=
  if w / 64 % 1024 = 0 then .ok (.vsplat (fld w 21 4) (fld w 16 5) (fld w 3 3) (fld w 0 3))
  else if w % 8 = 0 ∧ w / 64 % 32 = 1 then .ok (.vext (fld w 21 4) (fld w 16 5) (fld w 11 5) (fld w 3 3))
  else if w % 8 = 0 ∧ w / 64 % 32 = 2 then .ok (.vins (fld w 21 4) (fld w 16 5) (fld w 11 5) (fld w 3 3))
  else if w / 64 % 1024 = 3 then .ok (.vmov (fld w 21 4) (fld w 16 5) (fld w 3 3) (fld w 0 3))
  else if w / 64 % 32768 = 4 then .ok (.vidx (fld w 21 4) (fld w 3 3) (fld w 0 3))
  else if w % 8 = 0 ∧ w / 64 % 1024 = 5 then .ok (.vbits (fld w 21 4) (fld w 16 5) (fld w 3 3))
  else if w % 8 = 0 ∧ w / 64 % 1024 = 6 then .ok (.vmsk (fld w 21 4) (fld w 16 5) (fld w 3 3))
  else .error (.unallocatedFields 0x3f)

/-- Major 0x40 (R197). -/
noncomputable def parseVld (w : Nat) : Except DecodeError Instr :=
  if w / 8192 % 2 = 0 then .ok (.vld (fld w 21 4) (fld w 16 5) (fld w 14 2) (fld w 11 2) (fld w 0 11))
  else .error (.unallocatedFields 0x40)

/-- Major 0x41 (R197). -/
noncomputable def parseVst (w : Nat) : Except DecodeError Instr :=
  .ok (.vst (fld w 20 5) (fld w 15 5) (fld w 13 2) (fld w 11 2) (fld w 0 11))

/-- Major 0x42 (R197). -/
noncomputable def parseVlss (w : Nat) : Except DecodeError Instr :=
  if w / 8 % 8 = 0 then .ok (.vlss (fld w 21 4) (fld w 16 5) (fld w 11 5) (fld w 8 3) (fld w 6 2) (fld w 0 3))
  else .error (.unallocatedFields 0x42)

/-- Major 0x43 (R197). -/
noncomputable def parseVsss (w : Nat) : Except DecodeError Instr :=
  if w / 8 % 8 = 0 then .ok (.vsss (fld w 21 4) (fld w 16 5) (fld w 11 5) (fld w 8 3) (fld w 6 2) (fld w 0 3))
  else .error (.unallocatedFields 0x43)

/-- Major 0x44 (R197). -/
noncomputable def parseVgth (w : Nat) : Except DecodeError Instr :=
  .ok (.vgth (fld w 21 4) (fld w 16 5) (fld w 11 5) (fld w 7 4) (fld w 5 2) (fld w 3 2) (fld w 0 3))

/-- Major 0x45 (R197). -/
noncomputable def parseVsct (w : Nat) : Except DecodeError Instr :=
  .ok (.vsct (fld w 21 4) (fld w 16 5) (fld w 11 5) (fld w 7 4) (fld w 5 2) (fld w 3 2) (fld w 0 3))

/-- Major 0x46 (R197). -/
noncomputable def parseLane (w : Nat) : Except DecodeError Instr :=
  if w / 64 % 1024 = 0 then .ok (.vldl (fld w 21 4) (fld w 16 5) (fld w 3 3) (fld w 0 3))
  else if w / 64 % 1024 = 1 then .ok (.vldlx (fld w 21 4) (fld w 16 5) (fld w 3 3) (fld w 0 3))
  else if w / 64 % 32 = 2 ∧ w / 2097152 % 16 = 0 then .ok (.vstl (fld w 16 5) (fld w 11 5) (fld w 3 3) (fld w 0 3))
  else if w / 64 % 32 = 3 ∧ w / 2097152 % 16 = 0 then .ok (.vstlx (fld w 16 5) (fld w 11 5) (fld w 3 3) (fld w 0 3))
  else .error (.unallocatedFields 0x46)

/-- Major 0x50 (R197). -/
noncomputable def parseTile (w : Nat) : Except DecodeError Instr :=
  if w % 512 = 0 then .ok (.tcfg (fld w 19 6) (fld w 14 5) (fld w 9 5))
  else if w % 512 = 32 then .ok (.tld (fld w 19 6) (fld w 14 5) (fld w 9 5))
  else if w % 512 = 64 then .ok (.tst (fld w 19 6) (fld w 14 5) (fld w 9 5))
  else if w % 524288 = 96 then .ok (.tfetch (fld w 19 6))
  else if w % 524288 = 128 then .ok (.tevict (fld w 19 6))
  else if w % 524288 = 160 then .ok (.tzero (fld w 19 6))
  else if w % 16384 = 192 then .ok (.tstat (fld w 19 6) (fld w 14 5))
  else if w % 524288 = 224 then .ok (.tpin (fld w 19 6))
  else if w % 524288 = 256 then .ok (.tunpin (fld w 19 6))
  else .error (.unallocatedFields 0x50)

/-- Major 0x51 (R197). -/
noncomputable def parseMatrix (w : Nat) : Except DecodeError Instr :=
  if w % 8192 = 0 ∧ w / 131072 % 256 = 0 then .ok (.mwld (fld w 13 4))
  else if w % 8192 = 16 ∧ w / 131072 % 256 = 0 then .ok (.mwldSp (fld w 13 4))
  else if w % 256 = 32 ∧ w / 8192 % 128 = 0 then .ok (.mmeta (fld w 20 5) (fld w 8 5))
  else if w / 2 % 65536 = 24 ∧ w / 2097152 % 16 = 0 then .ok (.mmul (fld w 17 4) (fld w 0 1))
  else if w / 2 % 128 = 32 ∧ w / 2097152 % 16 = 0 then .ok (.mmulSc (fld w 17 4) (fld w 13 4) (fld w 8 5) (fld w 0 1))
  else if w % 256 = 80 ∧ w / 8192 % 4096 = 0 then .ok (.mwsc (fld w 8 5))
  else if w % 2097152 = 96 then .ok (.mst (fld w 21 4))
  else if w % 131072 = 112 ∧ w / 2097152 % 16 = 0 then .ok (.mld (fld w 17 4))
  else if w % 33554432 = 128 then .ok (.mfence)
  else .error (.unallocatedFields 0x51)

/-- Major 0x52 (R197). -/
noncomputable def parseCoalesce (w : Nat) : Except DecodeError Instr :=
  if w / 8 % 256 = 0 ∧ w / 2097152 % 16 = 0 then .ok (.cpush (fld w 16 5) (fld w 11 5) (fld w 0 3))
  else if w / 8 % 4194304 = 8 then .ok (.cflush (fld w 0 3))
  else if w / 8 % 256 = 16 ∧ w / 2097152 % 16 = 0 then .ok (.carm (fld w 16 5) (fld w 11 5) (fld w 0 3))
  else .error (.unallocatedFields 0x52)

/-- Major 0x58 (R197). -/
noncomputable def parseEvent (w : Nat) : Except DecodeError Instr :=
  if w % 2097152 = 0 then .ok (.evpop (fld w 21 4))
  else if w % 2097152 = 64 then .ok (.evpay (fld w 21 4))
  else if w / 2 % 1024 = 64 ∧ w / 2097152 % 16 = 0 then .ok (.evsend (fld w 16 5) (fld w 11 5) (fld w 0 1))
  else if w % 2048 = 192 ∧ w / 2097152 % 16 = 0 then .ok (.evwinClose (fld w 16 5) (fld w 11 5))
  else if w % 2097152 = 256 then .ok (.evstat (fld w 21 4))
  else .error (.unallocatedFields 0x58)

/-- Major 0x59 (R197). -/
noncomputable def parseTask (w : Nat) : Except DecodeError Instr :=
  if w % 65536 = 0 ∧ w / 2097152 % 16 = 0 then .ok (.spawn (fld w 16 5))
  else if w % 65536 = 64 ∧ w / 2097152 % 16 = 0 then .ok (.dec (fld w 16 5))
  else if w % 2048 = 128 then .ok (.qpush (fld w 21 4) (fld w 16 5) (fld w 11 5))
  else if w % 65536 = 192 then .ok (.qpop (fld w 21 4) (fld w 16 5))
  else if w % 2048 = 256 then .ok (.bar (fld w 21 4) (fld w 16 5) (fld w 11 5))
  else .error (.unallocatedFields 0x59)

/-- Major 0x7f (R197). -/
noncomputable def parseHint (w : Nat) : Except DecodeError Instr :=
  if w / 2097152 % 16 = 0 then .ok (.hntStall (fld w 18 3) (fld w 15 3) (fld w 12 3) (fld w 9 3) (fld w 6 3) (fld w 3 3) (fld w 0 3))
  else if w / 2097152 % 16 = 1 then .ok (.hntImm (fld w 0 21))
  else if w / 2097152 % 16 = 2 then .ok (.hntMod (fld w 0 21))
  else if w / 2097152 % 16 = 3 then .ok (.hntBr (fld w 0 21))
  else .ok (.hntNop (fld w 21 4) (fld w 0 21))

/-- The row of the opcode table that a word's fixed bits name (R197, R198). -/
noncomputable def parse (w : Nat) : Except DecodeError Instr :=
  match w / 33554432 % 128 with
  | 0x1 => parseAlu w
  | 0x2 => parseAlu1 w
  | 0x3 => parseMulDiv w
  | 0x4 => parseCmp w
  | 0x5 => parseBitf w
  | 0x8 => parseAddi w
  | 0x9 => parseAndi w
  | 0xa => parseOri w
  | 0xb => parseXori w
  | 0xc => parseShi w
  | 0xd => parseCmpi w
  | 0xe => parseLi w
  | 0x10 => parseGetc w
  | 0x11 => parseSetc w
  | 0x18 => parseBr w
  | 0x19 => parseJmp w
  | 0x1a => parseCall w
  | 0x1b => parseJr w
  | 0x1c => parseLnest w
  | 0x1d => parseLnext w
  | 0x1e => parseRep w
  | 0x1f => parseRepw w
  | 0x20 => parseWait w
  | 0x21 => parseSys w
  | 0x28 => parseLd w
  | 0x29 => parseSt w
  | 0x2a => parseLdx w
  | 0x2b => parseStx w
  | 0x2c => parseOrdered w
  | 0x2d => parseAmo w
  | 0x2e => parseRed w
  | 0x2f => parseCas w
  | 0x30 => parseFence w
  | 0x31 => parseStream w
  | 0x32 => parseEjob w
  | 0x38 => parseVfp w
  | 0x39 => parseVint w
  | 0x3a => parseVlogic w
  | 0x3b => parseVcmp w
  | 0x3c => parseVcvt w
  | 0x3d => parseVperm w
  | 0x3e => parseVred w
  | 0x3f => parseVmove w
  | 0x40 => parseVld w
  | 0x41 => parseVst w
  | 0x42 => parseVlss w
  | 0x43 => parseVsss w
  | 0x44 => parseVgth w
  | 0x45 => parseVsct w
  | 0x46 => parseLane w
  | 0x50 => parseTile w
  | 0x51 => parseMatrix w
  | 0x52 => parseCoalesce w
  | 0x58 => parseEvent w
  | 0x59 => parseTask w
  | 0x7f => parseHint w
  | m => .error (.unallocatedMajor m)

/-- The instruction of a core's word: its row, with every field at a value that R195 to R198 allow. -/
noncomputable def decode (w : Nat) : Except DecodeError Instr :=
  match parse w with
  | .ok i => if i.wf then .ok i else .error (.illegalFieldValue (w / 33554432 % 128))
  | .error e => .error e

/-- The word of an RV32IM operation in its 32-bit form, as the RISC-V Unprivileged ISA 20191213 lays it down (14 R372). -/
def encodeRv : Rv.Op → Nat
  | .lui rd i => 0x37 + rd.val * 128 + i.toNat / 4096 * 4096
  | .auipc rd i => 0x17 + rd.val * 128 + i.toNat / 4096 * 4096
  | .jal rd o => 0x6F + rd.val * 128 + (o.toNat / 4096 % 256) * 4096 + (o.toNat / 2048 % 2) * 1048576
      + (o.toNat / 2 % 1024) * 2097152 + (o.toNat / 1048576 % 2) * 2147483648
  | .jalr rd rs o => 0x67 + rd.val * 128 + rs.val * 32768 + (o.toNat % 4096) * 1048576
  | .branch c r1 r2 o => 0x63 + (o.toNat / 2048 % 2) * 128 + (o.toNat / 2 % 16) * 256 + encodeCond c * 4096
      + r1.val * 32768 + r2.val * 1048576 + (o.toNat / 32 % 64) * 33554432 + (o.toNat / 4096 % 2) * 2147483648
  | .load k rd rs o => 0x03 + rd.val * 128 + encodeLoad k * 4096 + rs.val * 32768 + (o.toNat % 4096) * 1048576
  | .store k r1 r2 o => 0x23 + (o.toNat % 32) * 128 + encodeStore k * 4096 + r1.val * 32768 + r2.val * 1048576
      + (o.toNat / 32 % 128) * 33554432
  | .aluImm f rd rs i => 0x13 + rd.val * 128 + (encodeAlu f).1 * 4096 + rs.val * 32768 + (i.toNat % 4096) * 1048576
      + (if f = .sra then 0x40000000 else 0)
  | .alu f rd r1 r2 => 0x33 + rd.val * 128 + (encodeAlu f).1 * 4096 + r1.val * 32768 + r2.val * 1048576
      + (encodeAlu f).2 * 33554432
where
  /-- funct3 of a branch. -/
  encodeCond : Rv.Cond → Nat
    | .beq => 0 | .bne => 1 | .blt => 4 | .bge => 5 | .bltu => 6 | .bgeu => 7
  /-- funct3 of a load. -/
  encodeLoad : Rv.Load → Nat
    | .lb => 0 | .lh => 1 | .lw => 2 | .lbu => 4 | .lhu => 5
  /-- funct3 of a store. -/
  encodeStore : Rv.Store → Nat
    | .sb => 0 | .sh => 1 | .sw => 2
  /-- funct3 and funct7 of an arithmetic operation. -/
  encodeAlu : Rv.Alu → Nat × Nat
    | .add => (0, 0) | .sub => (0, 32) | .sll => (1, 0) | .slt => (2, 0) | .sltu => (3, 0) | .xor => (4, 0)
    | .srl => (5, 0) | .sra => (5, 32) | .or => (6, 0) | .and => (7, 0)
    | .mul => (0, 1) | .mulh => (1, 1) | .mulhsu => (2, 1) | .mulhu => (3, 1)
    | .div => (4, 1) | .divu => (5, 1) | .rem => (6, 1) | .remu => (7, 1)

/-- The word of an instruction (R192, R195, R197, R376); 0, which is no instruction (R198), for a row that has no
word. -/
def encode : Instr → Nat
  | .add d a b w => 33554432 + d.val * 2097152 + a.val * 65536 + b.val * 2048 + w.val * 16
  | .sub d a b w => 33554496 + d.val * 2097152 + a.val * 65536 + b.val * 2048 + w.val * 16
  | .and d a b w => 33554560 + d.val * 2097152 + a.val * 65536 + b.val * 2048 + w.val * 16
  | .or d a b w => 33554624 + d.val * 2097152 + a.val * 65536 + b.val * 2048 + w.val * 16
  | .xor d a b w => 33554688 + d.val * 2097152 + a.val * 65536 + b.val * 2048 + w.val * 16
  | .andn d a b w => 33554752 + d.val * 2097152 + a.val * 65536 + b.val * 2048 + w.val * 16
  | .orn d a b w => 33554816 + d.val * 2097152 + a.val * 65536 + b.val * 2048 + w.val * 16
  | .sll d a b w => 33554880 + d.val * 2097152 + a.val * 65536 + b.val * 2048 + w.val * 16
  | .srl d a b w => 33554944 + d.val * 2097152 + a.val * 65536 + b.val * 2048 + w.val * 16
  | .sra d a b w => 33555008 + d.val * 2097152 + a.val * 65536 + b.val * 2048 + w.val * 16
  | .rol d a b w => 33555072 + d.val * 2097152 + a.val * 65536 + b.val * 2048 + w.val * 16
  | .ror d a b w => 33555136 + d.val * 2097152 + a.val * 65536 + b.val * 2048 + w.val * 16
  | .min d a b w => 33555200 + d.val * 2097152 + a.val * 65536 + b.val * 2048 + w.val * 16
  | .max d a b w => 33555264 + d.val * 2097152 + a.val * 65536 + b.val * 2048 + w.val * 16
  | .minz d a b w => 33555328 + d.val * 2097152 + a.val * 65536 + b.val * 2048 + w.val * 16
  | .maxz d a b w => 33555392 + d.val * 2097152 + a.val * 65536 + b.val * 2048 + w.val * 16
  | .addx2 d a b w => 33555456 + d.val * 2097152 + a.val * 65536 + b.val * 2048 + w.val * 16
  | .addx4 d a b w => 33555520 + d.val * 2097152 + a.val * 65536 + b.val * 2048 + w.val * 16
  | .addx8 d a b w => 33555584 + d.val * 2097152 + a.val * 65536 + b.val * 2048 + w.val * 16
  | .addx16 d a b w => 33555648 + d.val * 2097152 + a.val * 65536 + b.val * 2048 + w.val * 16
  | .clmul d a b w => 33555712 + d.val * 2097152 + a.val * 65536 + b.val * 2048 + w.val * 16
  | .clmulh d a b w => 33555776 + d.val * 2097152 + a.val * 65536 + b.val * 2048 + w.val * 16
  | .clz d a w => 67108864 + d.val * 2097152 + a.val * 65536 + w.val * 16
  | .ctz d a w => 67108928 + d.val * 2097152 + a.val * 65536 + w.val * 16
  | .pop d a w => 67108992 + d.val * 2097152 + a.val * 65536 + w.val * 16
  | .brev d a w => 67109056 + d.val * 2097152 + a.val * 65536 + w.val * 16
  | .bswap d a w => 67109120 + d.val * 2097152 + a.val * 65536 + w.val * 16
  | .sextb d a w => 67109184 + d.val * 2097152 + a.val * 65536 + w.val * 16
  | .sexth d a w => 67109248 + d.val * 2097152 + a.val * 65536 + w.val * 16
  | .sextw d a w => 67109312 + d.val * 2097152 + a.val * 65536 + w.val * 16
  | .zextb d a w => 67109376 + d.val * 2097152 + a.val * 65536 + w.val * 16
  | .zexth d a w => 67109440 + d.val * 2097152 + a.val * 65536 + w.val * 16
  | .zextw d a w => 67109504 + d.val * 2097152 + a.val * 65536 + w.val * 16
  | .neg d a w => 67109568 + d.val * 2097152 + a.val * 65536 + w.val * 16
  | .not d a w => 67109632 + d.val * 2097152 + a.val * 65536 + w.val * 16
  | .mov d a w => 67109696 + d.val * 2097152 + a.val * 65536 + w.val * 16
  | .mul d a b w => 100663296 + d.val * 2097152 + a.val * 65536 + b.val * 2048 + w.val * 16
  | .mulh d a b w => 100663360 + d.val * 2097152 + a.val * 65536 + b.val * 2048 + w.val * 16
  | .mulhz d a b w => 100663424 + d.val * 2097152 + a.val * 65536 + b.val * 2048 + w.val * 16
  | .mulhsz d a b w => 100663488 + d.val * 2097152 + a.val * 65536 + b.val * 2048 + w.val * 16
  | .div d a b w => 100663552 + d.val * 2097152 + a.val * 65536 + b.val * 2048 + w.val * 16
  | .divz d a b w => 100663616 + d.val * 2097152 + a.val * 65536 + b.val * 2048 + w.val * 16
  | .rem d a b w => 100663680 + d.val * 2097152 + a.val * 65536 + b.val * 2048 + w.val * 16
  | .remz d a b w => 100663744 + d.val * 2097152 + a.val * 65536 + b.val * 2048 + w.val * 16
  | .seq d a b w => 134217728 + d.val * 2097152 + a.val * 65536 + b.val * 2048 + w.val * 16
  | .sne d a b w => 134217792 + d.val * 2097152 + a.val * 65536 + b.val * 2048 + w.val * 16
  | .slt d a b w => 134217856 + d.val * 2097152 + a.val * 65536 + b.val * 2048 + w.val * 16
  | .sge d a b w => 134217920 + d.val * 2097152 + a.val * 65536 + b.val * 2048 + w.val * 16
  | .slo d a b w => 134217984 + d.val * 2097152 + a.val * 65536 + b.val * 2048 + w.val * 16
  | .shs d a b w => 134218048 + d.val * 2097152 + a.val * 65536 + b.val * 2048 + w.val * 16
  | .sel d a b w c => 134218112 + d.val * 2097152 + a.val * 65536 + b.val * 2048 + w.val * 16 + c.val
  | .bfx d a b w => 167772160 + d.val * 2097152 + a.val * 65536 + b.val * 2048 + w.val * 16
  | .bfxs d a b w => 167772224 + d.val * 2097152 + a.val * 65536 + b.val * 2048 + w.val * 16
  | .bfi d a b w => 167772288 + d.val * 2097152 + a.val * 65536 + b.val * 2048 + w.val * 16
  | .addi d a i => 268435456 + d.val * 2097152 + a.val * 65536 + i.val
  | .andi d a i => 301989888 + d.val * 2097152 + a.val * 65536 + i.val
  | .ori d a i => 335544320 + d.val * 2097152 + a.val * 65536 + i.val
  | .xori d a i => 369098752 + d.val * 2097152 + a.val * 65536 + i.val
  | .slli d a w s => 402653184 + d.val * 2097152 + a.val * 65536 + w.val * 256 + s.val
  | .srli d a w s => 402653248 + d.val * 2097152 + a.val * 65536 + w.val * 256 + s.val
  | .srai d a w s => 402653312 + d.val * 2097152 + a.val * 65536 + w.val * 256 + s.val
  | .roli d a w s => 402653376 + d.val * 2097152 + a.val * 65536 + w.val * 256 + s.val
  | .cmpi d a c i => 436207616 + d.val * 2097152 + a.val * 65536 + c.val * 8192 + i.val
  | .li d i => 469762048 + d.val * 2097152 + i.val
  | .getc d n => 536870912 + d.val * 2097152 + n.val
  | .setc a n => 570425344 + a.val * 65536 + n.val
  | .setcLogBase a => 570425536 + a.val * 65536
  | .setcTrace a n => 570425540 + a.val * 65536 + n.val
  | .setcEvRebase a n => 570425440 + a.val * 65536 + n.val
  | .setcEvSpill a => 570425444 + a.val * 65536
  | .setcMxMode a n => 570425409 + a.val * 65536 + n.val * 2
  | .br a b c p => 805306368 + a.val * 1048576 + b.val * 32768 + c.val * 4096 + p.val
  | .jmp p => 838860800 + p.val
  | .call p => 872415232 + p.val
  | .jr a => 905969664 + a.val * 65536
  | .callr a => 905969728 + a.val * 65536
  | .lnest d a => 939524096 + d.val * 2097152 + a.val * 65536
  | .lnext p => 973103104 + p.val
  | .rep n a s t c => 1006632960 + n.val * 4194304 + a.val * 131072 + s.val * 16384 + t.val * 2048 + c.val
  | .repw => 1040187392
  | .wait d a b => 1073741824 + d.val * 2097152 + a.val * 65536 + b.val * 2048
  | .done => 1107296256
  | .yield => 1107296320
  | .trap a => 1107296384 + a.val * 65536
  | .brk => 1107296448
  | .eret => 1107296512
  | .chk => 1107296576
  | .nop => 1107296640
  | .cancel a b => 1107296704 + a.val * 65536 + b.val * 2048
  | .cancelh a b => 1107296768 + a.val * 65536 + b.val * 2048
  | .tlbinv a b => 1107296832 + a.val * 65536 + b.val * 2048
  | .fbflush d a => 1107296896 + d.val * 2097152 + a.val * 65536
  | .halt => 1107296960
  | .ld d a w s c o => 1342177280 + d.val * 2097152 + a.val * 65536 + w.val * 16384 + s.val * 8192 + c.val * 2048 + o.val
  | .st b a w c o => 1375731712 + b.val * 1048576 + a.val * 32768 + w.val * 8192 + c.val * 2048 + o.val
  | .ldx d a b w s c k => 1409286144 + d.val * 2097152 + a.val * 65536 + b.val * 2048 + w.val * 512 + s.val * 256 + c.val * 64 + k.val * 32
  | .stx d a b w c k => 1442840576 + d.val * 2097152 + a.val * 65536 + b.val * 2048 + w.val * 512 + c.val * 64 + k.val * 32
  | .ldAcq d a p w s => 1476395008 + d.val * 2097152 + a.val * 65536 + p.val * 64 + w.val * 16 + s.val * 8
  | .stRel a b p w => 1476395520 + a.val * 65536 + b.val * 2048 + p.val * 64 + w.val * 16
  | .ldSc d a p w s => 1476396032 + d.val * 2097152 + a.val * 65536 + p.val * 64 + w.val * 16 + s.val * 8
  | .stSc a b p w => 1476396544 + a.val * 65536 + b.val * 2048 + p.val * 64 + w.val * 16
  | .amoAdd d a b p o w => 1509949440 + d.val * 2097152 + a.val * 65536 + b.val * 2048 + p.val * 256 + o.val * 64 + w.val
  | .amoAnd d a b p o w => 1509949442 + d.val * 2097152 + a.val * 65536 + b.val * 2048 + p.val * 256 + o.val * 64 + w.val
  | .amoOr d a b p o w => 1509949444 + d.val * 2097152 + a.val * 65536 + b.val * 2048 + p.val * 256 + o.val * 64 + w.val
  | .amoXor d a b p o w => 1509949446 + d.val * 2097152 + a.val * 65536 + b.val * 2048 + p.val * 256 + o.val * 64 + w.val
  | .amoMin d a b p o w => 1509949448 + d.val * 2097152 + a.val * 65536 + b.val * 2048 + p.val * 256 + o.val * 64 + w.val
  | .amoMax d a b p o w => 1509949450 + d.val * 2097152 + a.val * 65536 + b.val * 2048 + p.val * 256 + o.val * 64 + w.val
  | .amoMinz d a b p o w => 1509949452 + d.val * 2097152 + a.val * 65536 + b.val * 2048 + p.val * 256 + o.val * 64 + w.val
  | .amoMaxz d a b p o w => 1509949454 + d.val * 2097152 + a.val * 65536 + b.val * 2048 + p.val * 256 + o.val * 64 + w.val
  | .amoSwap d a b p o w => 1509949456 + d.val * 2097152 + a.val * 65536 + b.val * 2048 + p.val * 256 + o.val * 64 + w.val
  | .amoFadd d a b p o w => 1509949458 + d.val * 2097152 + a.val * 65536 + b.val * 2048 + p.val * 256 + o.val * 64 + w.val
  | .amoIncw d a b p o w => 1509949460 + d.val * 2097152 + a.val * 65536 + b.val * 2048 + p.val * 256 + o.val * 64 + w.val
  | .redAdd a b p w => 1543503872 + a.val * 65536 + b.val * 2048 + p.val * 256 + w.val
  | .redAnd a b p w => 1543503874 + a.val * 65536 + b.val * 2048 + p.val * 256 + w.val
  | .redOr a b p w => 1543503876 + a.val * 65536 + b.val * 2048 + p.val * 256 + w.val
  | .redXor a b p w => 1543503878 + a.val * 65536 + b.val * 2048 + p.val * 256 + w.val
  | .redMin a b p w => 1543503880 + a.val * 65536 + b.val * 2048 + p.val * 256 + w.val
  | .redMax a b p w => 1543503882 + a.val * 65536 + b.val * 2048 + p.val * 256 + w.val
  | .redMinz a b p w => 1543503884 + a.val * 65536 + b.val * 2048 + p.val * 256 + w.val
  | .redMaxz a b p w => 1543503886 + a.val * 65536 + b.val * 2048 + p.val * 256 + w.val
  | .redSwap a b p w => 1543503888 + a.val * 65536 + b.val * 2048 + p.val * 256 + w.val
  | .redFadd a b p w => 1543503890 + a.val * 65536 + b.val * 2048 + p.val * 256 + w.val
  | .cas d a b p o w c => 1577058304 + d.val * 2097152 + a.val * 65536 + b.val * 2048 + p.val * 256 + o.val * 64 + w.val * 32 + c.val
  | .fenceAcq p => 1610612736 + p.val * 8
  | .fenceRel p => 1610612800 + p.val * 8
  | .fenceFull p => 1610612864 + p.val * 8
  | .pf a => 1610612928 + a.val * 65536
  | .l1inv a b => 1610612992 + a.val * 65536 + b.val * 2048
  | .sbind s b => 1644167168 + s.val * 65536 + b.val * 2048
  | .sunbind s => 1644167232 + s.val * 65536
  | .sstat d s => 1644167296 + d.val * 2097152 + s.val * 65536
  | .ejob a => 1677721600 + a.val * 65536
  | .vaddFp d a b t m => 1879048192 + d.val * 2097152 + a.val * 65536 + b.val * 2048 + t.val * 8 + m.val
  | .vsubFp d a b t m => 1879048256 + d.val * 2097152 + a.val * 65536 + b.val * 2048 + t.val * 8 + m.val
  | .vmulFp d a b t m => 1879048320 + d.val * 2097152 + a.val * 65536 + b.val * 2048 + t.val * 8 + m.val
  | .vmlaFp d a b t m => 1879048384 + d.val * 2097152 + a.val * 65536 + b.val * 2048 + t.val * 8 + m.val
  | .vmlsFp d a b t m => 1879048448 + d.val * 2097152 + a.val * 65536 + b.val * 2048 + t.val * 8 + m.val
  | .vminFp d a b t m => 1879048512 + d.val * 2097152 + a.val * 65536 + b.val * 2048 + t.val * 8 + m.val
  | .vmaxFp d a b t m => 1879048576 + d.val * 2097152 + a.val * 65536 + b.val * 2048 + t.val * 8 + m.val
  | .vabsFp d a t m => 1879048640 + d.val * 2097152 + a.val * 65536 + t.val * 8 + m.val
  | .vnegFp d a t m => 1879048704 + d.val * 2097152 + a.val * 65536 + t.val * 8 + m.val
  | .vdiv d a b t m => 1879048768 + d.val * 2097152 + a.val * 65536 + b.val * 2048 + t.val * 8 + m.val
  | .vsqrt d a t m => 1879048832 + d.val * 2097152 + a.val * 65536 + t.val * 8 + m.val
  | .vrcp d a t m => 1879048896 + d.val * 2097152 + a.val * 65536 + t.val * 8 + m.val
  | .vrsq d a t m => 1879048960 + d.val * 2097152 + a.val * 65536 + t.val * 8 + m.val
  | .vaddInt d a b t m => 1912602624 + d.val * 2097152 + a.val * 65536 + b.val * 2048 + t.val * 8 + m.val
  | .vsubInt d a b t m => 1912602688 + d.val * 2097152 + a.val * 65536 + b.val * 2048 + t.val * 8 + m.val
  | .vmulInt d a b t m => 1912602752 + d.val * 2097152 + a.val * 65536 + b.val * 2048 + t.val * 8 + m.val
  | .vmlaInt d a b t m => 1912602816 + d.val * 2097152 + a.val * 65536 + b.val * 2048 + t.val * 8 + m.val
  | .vminInt d a b t m => 1912602880 + d.val * 2097152 + a.val * 65536 + b.val * 2048 + t.val * 8 + m.val
  | .vmaxInt d a b t m => 1912602944 + d.val * 2097152 + a.val * 65536 + b.val * 2048 + t.val * 8 + m.val
  | .vminz d a b t m => 1912603008 + d.val * 2097152 + a.val * 65536 + b.val * 2048 + t.val * 8 + m.val
  | .vmaxz d a b t m => 1912603072 + d.val * 2097152 + a.val * 65536 + b.val * 2048 + t.val * 8 + m.val
  | .vabsInt d a t m => 1912603136 + d.val * 2097152 + a.val * 65536 + t.val * 8 + m.val
  | .vnegInt d a t m => 1912603200 + d.val * 2097152 + a.val * 65536 + t.val * 8 + m.val
  | .vadds d a b t m => 1912603264 + d.val * 2097152 + a.val * 65536 + b.val * 2048 + t.val * 8 + m.val
  | .vsubs d a b t m => 1912603328 + d.val * 2097152 + a.val * 65536 + b.val * 2048 + t.val * 8 + m.val
  | .vaddsz d a b t m => 1912603392 + d.val * 2097152 + a.val * 65536 + b.val * 2048 + t.val * 8 + m.val
  | .vsubsz d a b t m => 1912603456 + d.val * 2097152 + a.val * 65536 + b.val * 2048 + t.val * 8 + m.val
  | .vmulh d a b t m => 1912603520 + d.val * 2097152 + a.val * 65536 + b.val * 2048 + t.val * 8 + m.val
  | .vdot4 d a b t m => 1912603584 + d.val * 2097152 + a.val * 65536 + b.val * 2048 + t.val * 8 + m.val
  | .vdot4z d a b t m => 1912603648 + d.val * 2097152 + a.val * 65536 + b.val * 2048 + t.val * 8 + m.val
  | .vclmul d a b t m => 1912603712 + d.val * 2097152 + a.val * 65536 + b.val * 2048 + t.val * 8 + m.val
  | .vclmulh d a b t m => 1912603776 + d.val * 2097152 + a.val * 65536 + b.val * 2048 + t.val * 8 + m.val
  | .vand d a b t m => 1946157056 + d.val * 2097152 + a.val * 65536 + b.val * 2048 + t.val * 8 + m.val
  | .vor d a b t m => 1946157120 + d.val * 2097152 + a.val * 65536 + b.val * 2048 + t.val * 8 + m.val
  | .vxor d a b t m => 1946157184 + d.val * 2097152 + a.val * 65536 + b.val * 2048 + t.val * 8 + m.val
  | .vandn d a b t m => 1946157248 + d.val * 2097152 + a.val * 65536 + b.val * 2048 + t.val * 8 + m.val
  | .vnot d a t m => 1946157312 + d.val * 2097152 + a.val * 65536 + t.val * 8 + m.val
  | .vshl d a b t m => 1946157376 + d.val * 2097152 + a.val * 65536 + b.val * 2048 + t.val * 8 + m.val
  | .vshr d a b t m => 1946157440 + d.val * 2097152 + a.val * 65536 + b.val * 2048 + t.val * 8 + m.val
  | .vsra d a b t m => 1946157504 + d.val * 2097152 + a.val * 65536 + b.val * 2048 + t.val * 8 + m.val
  | .vpopc d a t m => 1946157568 + d.val * 2097152 + a.val * 65536 + t.val * 8 + m.val
  | .vclz d a t m => 1946157632 + d.val * 2097152 + a.val * 65536 + t.val * 8 + m.val
  | .vshli d a i t m => 1946157696 + d.val * 2097152 + a.val * 65536 + i.val * 2048 + t.val * 8 + m.val
  | .vshri d a i t m => 1946157760 + d.val * 2097152 + a.val * 65536 + i.val * 2048 + t.val * 8 + m.val
  | .vsrai d a i t m => 1946157824 + d.val * 2097152 + a.val * 65536 + i.val * 2048 + t.val * 8 + m.val
  | .veq d a b t m => 1979711488 + d.val * 2097152 + a.val * 65536 + b.val * 2048 + t.val * 8 + m.val
  | .vne d a b t m => 1979711552 + d.val * 2097152 + a.val * 65536 + b.val * 2048 + t.val * 8 + m.val
  | .vlt d a b t m => 1979711616 + d.val * 2097152 + a.val * 65536 + b.val * 2048 + t.val * 8 + m.val
  | .vge d a b t m => 1979711680 + d.val * 2097152 + a.val * 65536 + b.val * 2048 + t.val * 8 + m.val
  | .vlo d a b t m => 1979711744 + d.val * 2097152 + a.val * 65536 + b.val * 2048 + t.val * 8 + m.val
  | .vhs d a b t m => 1979711808 + d.val * 2097152 + a.val * 65536 + b.val * 2048 + t.val * 8 + m.val
  | .vfeq d a b t m => 1979711872 + d.val * 2097152 + a.val * 65536 + b.val * 2048 + t.val * 8 + m.val
  | .vflt d a b t m => 1979711936 + d.val * 2097152 + a.val * 65536 + b.val * 2048 + t.val * 8 + m.val
  | .vfle d a b t m => 1979712000 + d.val * 2097152 + a.val * 65536 + b.val * 2048 + t.val * 8 + m.val
  | .vfun d a b t m => 1979712064 + d.val * 2097152 + a.val * 65536 + b.val * 2048 + t.val * 8 + m.val
  | .mand d a b t => 1979712512 + d.val * 2097152 + a.val * 65536 + b.val * 2048 + t.val * 8
  | .mor d a b t => 1979712576 + d.val * 2097152 + a.val * 65536 + b.val * 2048 + t.val * 8
  | .mxor d a b t => 1979712640 + d.val * 2097152 + a.val * 65536 + b.val * 2048 + t.val * 8
  | .mandn d a b t => 1979712704 + d.val * 2097152 + a.val * 65536 + b.val * 2048 + t.val * 8
  | .mpop d a t => 1979712768 + d.val * 2097152 + a.val * 65536 + t.val * 8
  | .mffs d a t => 1979712832 + d.val * 2097152 + a.val * 65536 + t.val * 8
  | .vsel d a b t m => 1979712896 + d.val * 2097152 + a.val * 65536 + b.val * 2048 + t.val * 8 + m.val
  | .vcvt d a r s t m => 2013265920 + d.val * 2097152 + a.val * 65536 + r.val * 16384 + s.val * 2048 + t.val * 8 + m.val
  | .vf2i d a r s t m => 2013265984 + d.val * 2097152 + a.val * 65536 + r.val * 16384 + s.val * 2048 + t.val * 8 + m.val
  | .vi2f d a r s t m => 2013266048 + d.val * 2097152 + a.val * 65536 + r.val * 16384 + s.val * 2048 + t.val * 8 + m.val
  | .vnarrow d a q s t m => 2013266112 + d.val * 2097152 + a.val * 65536 + q.val * 16384 + s.val * 2048 + t.val * 8 + m.val
  | .vwiden d a h e s t m => 2013266176 + d.val * 2097152 + a.val * 65536 + h.val * 32768 + e.val * 16384 + s.val * 2048 + t.val * 8 + m.val
  | .vperm d a b t m => 2046820352 + d.val * 2097152 + a.val * 65536 + b.val * 2048 + t.val * 8 + m.val
  | .vslideup d a b t m => 2046820416 + d.val * 2097152 + a.val * 65536 + b.val * 2048 + t.val * 8 + m.val
  | .vslidedn d a b t m => 2046820480 + d.val * 2097152 + a.val * 65536 + b.val * 2048 + t.val * 8 + m.val
  | .vcompress d a t m => 2046820544 + d.val * 2097152 + a.val * 65536 + t.val * 8 + m.val
  | .vexpand d a t m => 2046820608 + d.val * 2097152 + a.val * 65536 + t.val * 8 + m.val
  | .vzipLo d a b t m => 2046820672 + d.val * 2097152 + a.val * 65536 + b.val * 2048 + t.val * 8 + m.val
  | .vzipHi d a b t m => 2046820736 + d.val * 2097152 + a.val * 65536 + b.val * 2048 + t.val * 8 + m.val
  | .vuzpEv d a b t m => 2046820800 + d.val * 2097152 + a.val * 65536 + b.val * 2048 + t.val * 8 + m.val
  | .vuzpOd d a b t m => 2046820864 + d.val * 2097152 + a.val * 65536 + b.val * 2048 + t.val * 8 + m.val
  | .vrev d a t m => 2046820928 + d.val * 2097152 + a.val * 65536 + t.val * 8 + m.val
  | .vpack d a b t m => 2046820992 + d.val * 2097152 + a.val * 65536 + b.val * 2048 + t.val * 8 + m.val
  | .vradd d a t m => 2080374784 + d.val * 2097152 + a.val * 65536 + t.val * 8 + m.val
  | .vrmin d a t m => 2080374848 + d.val * 2097152 + a.val * 65536 + t.val * 8 + m.val
  | .vrmax d a t m => 2080374912 + d.val * 2097152 + a.val * 65536 + t.val * 8 + m.val
  | .vrminz d a t m => 2080374976 + d.val * 2097152 + a.val * 65536 + t.val * 8 + m.val
  | .vrmaxz d a t m => 2080375040 + d.val * 2097152 + a.val * 65536 + t.val * 8 + m.val
  | .vrand d a t m => 2080375104 + d.val * 2097152 + a.val * 65536 + t.val * 8 + m.val
  | .vror d a t m => 2080375168 + d.val * 2097152 + a.val * 65536 + t.val * 8 + m.val
  | .vrxor d a t m => 2080375232 + d.val * 2097152 + a.val * 65536 + t.val * 8 + m.val
  | .vrfadd d a t m => 2080375296 + d.val * 2097152 + a.val * 65536 + t.val * 8 + m.val
  | .vscanAdd d a t m => 2080375360 + d.val * 2097152 + a.val * 65536 + t.val * 8 + m.val
  | .vscanXor d a t m => 2080375424 + d.val * 2097152 + a.val * 65536 + t.val * 8 + m.val
  | .vscanMax d a t m => 2080375488 + d.val * 2097152 + a.val * 65536 + t.val * 8 + m.val
  | .vsplat d a t m => 2113929216 + d.val * 2097152 + a.val * 65536 + t.val * 8 + m.val
  | .vext d a b t => 2113929280 + d.val * 2097152 + a.val * 65536 + b.val * 2048 + t.val * 8
  | .vins d a b t => 2113929344 + d.val * 2097152 + a.val * 65536 + b.val * 2048 + t.val * 8
  | .vmov d a t m => 2113929408 + d.val * 2097152 + a.val * 65536 + t.val * 8 + m.val
  | .vidx d t m => 2113929472 + d.val * 2097152 + t.val * 8 + m.val
  | .vbits d a t => 2113929536 + d.val * 2097152 + a.val * 65536 + t.val * 8
  | .vmsk d a t => 2113929600 + d.val * 2097152 + a.val * 65536 + t.val * 8
  | .vld d a z c o => 2147483648 + d.val * 2097152 + a.val * 65536 + z.val * 16384 + c.val * 2048 + o.val
  | .vst b a z c o => 2181038080 + b.val * 1048576 + a.val * 32768 + z.val * 8192 + c.val * 2048 + o.val
  | .vlss d a b t c m => 2214592512 + d.val * 2097152 + a.val * 65536 + b.val * 2048 + t.val * 256 + c.val * 64 + m.val
  | .vsss d a b t c m => 2248146944 + d.val * 2097152 + a.val * 65536 + b.val * 2048 + t.val * 256 + c.val * 64 + m.val
  | .vgth d a b k i e m => 2281701376 + d.val * 2097152 + a.val * 65536 + b.val * 2048 + k.val * 128 + i.val * 32 + e.val * 8 + m.val
  | .vsct d a b k i e m => 2315255808 + d.val * 2097152 + a.val * 65536 + b.val * 2048 + k.val * 128 + i.val * 32 + e.val * 8 + m.val
  | .vldl d a t m => 2348810240 + d.val * 2097152 + a.val * 65536 + t.val * 8 + m.val
  | .vldlx d a t m => 2348810304 + d.val * 2097152 + a.val * 65536 + t.val * 8 + m.val
  | .vstl a b t m => 2348810368 + a.val * 65536 + b.val * 2048 + t.val * 8 + m.val
  | .vstlx a b t m => 2348810432 + a.val * 65536 + b.val * 2048 + t.val * 8 + m.val
  | .tcfg n a b => 2684354560 + n.val * 524288 + a.val * 16384 + b.val * 512
  | .tld n a b => 2684354592 + n.val * 524288 + a.val * 16384 + b.val * 512
  | .tst n a b => 2684354624 + n.val * 524288 + a.val * 16384 + b.val * 512
  | .tfetch n => 2684354656 + n.val * 524288
  | .tevict n => 2684354688 + n.val * 524288
  | .tzero n => 2684354720 + n.val * 524288
  | .tstat n s => 2684354752 + n.val * 524288 + s.val * 16384
  | .tpin n => 2684354784 + n.val * 524288
  | .tunpin n => 2684354816 + n.val * 524288
  | .mwld u => 2717908992 + u.val * 8192
  | .mwldSp u => 2717909008 + u.val * 8192
  | .mmeta s a => 2717909024 + s.val * 1048576 + a.val * 256
  | .mmul t c => 2717909040 + t.val * 131072 + c.val
  | .mmulSc t u a c => 2717909056 + t.val * 131072 + u.val * 8192 + a.val * 256 + c.val
  | .mwsc a => 2717909072 + a.val * 256
  | .mst d => 2717909088 + d.val * 2097152
  | .mld t => 2717909104 + t.val * 131072
  | .mfence => 2717909120
  | .cpush a b s => 2751463424 + a.val * 65536 + b.val * 2048 + s.val
  | .cflush s => 2751463488 + s.val
  | .carm a b s => 2751463552 + a.val * 65536 + b.val * 2048 + s.val
  | .evpop d => 2952790016 + d.val * 2097152
  | .evpay d => 2952790080 + d.val * 2097152
  | .evsend a b n => 2952790144 + a.val * 65536 + b.val * 2048 + n.val
  | .evwinClose a b => 2952790208 + a.val * 65536 + b.val * 2048
  | .evwinOrigin a b => 2952790208 + a.val * 65536 + b.val * 2048
  | .evwinSlots a b => 2952790208 + a.val * 65536 + b.val * 2048
  | .evstat d => 2952790272 + d.val * 2097152
  | .spawn a => 2986344448 + a.val * 65536
  | .dec a => 2986344512 + a.val * 65536
  | .qpush d a b => 2986344576 + d.val * 2097152 + a.val * 65536 + b.val * 2048
  | .qpop d a => 2986344640 + d.val * 2097152 + a.val * 65536
  | .bar d a b => 2986344704 + d.val * 2097152 + a.val * 65536 + b.val * 2048
  | .hntStall g f e d c b a => 4261412864 + g.val * 262144 + f.val * 32768 + e.val * 4096 + d.val * 512 + c.val * 64 + b.val * 8 + a.val
  | .hntImm p => 4263510016 + p.val
  | .hntMod p => 4265607168 + p.val
  | .hntBr p => 4267704320 + p.val
  | .hntNop k p => 4261412864 + k.val * 2097152 + p.val
  | .ylLdFifo n h s => 11 + n.val * 134217728 + h.val * 33554432 + s.val * 32768
  | .ylLdReg h s r => 1073741835 + h.val * 33554432 + s.val * 32768 + r.val * 128
  | .ylPush n s => 4107 + n.val * 134217728 + s.val * 32768
  | .ylBase h t s => 8203 + h.val * 33554432 + t.val * 1048576 + s.val * 32768
  | .ylWait n r => 12299 + n.val * 134217728 + r.val * 128
  | .ylEnd f n => 16395 + f.val * 1073741824 + n.val * 134217728
  | .ylPop n r => 43 + n.val * 134217728 + r.val * 128
  | .ylSt n h s => 4139 + n.val * 134217728 + h.val * 33554432 + s.val * 32768
  | .helperRv32Instr _ op => encodeRv op
  | .helperFence => 0x0000000F
  | .helperEbreak _ => 0x00100073
  | .resultWriteback _ => 0
  | .storePerform _ _ => 0
  | .l1dSectorFill _ => 0
  | .fbEventResend _ _ => 0
  | .faultRetry _ _ _ => 0
  | .tlbinvComplete _ => 0
  | .parityLand _ _ => 0
  | .scrubStep _ => 0
  | .sqmScrubStep _ => 0
  | .epochEnd => 0
  | .bankRetire _ _ => 0
  | .lendClearDone _ => 0
  | .lendEndClearDone _ => 0
  | .squareClearDone _ => 0
  | .cspClearDone _ _ => 0
  | .tileFillLastBeat _ _ => 0
  | .logApplyEntry _ _ => 0
  | .tileDrainDone _ _ => 0
  | .tileTransferFault _ _ => 0
  | .beaconWindow => 0
  | .traceRecordWrite _ => 0
  | .engineJobStart _ _ => 0
  | .engineJobComplete _ _ => 0
  | .engineJobFault _ _ => 0
  | .ownershipGrant _ => 0
  | .revoke _ _ _ => 0
  | .revokeDataReturn _ => 0
  | .dramRefresh _ _ _ => 0
  | .streamFetchReturn _ _ => 0
  | .mxeLatchLoadDone _ => 0
  | .mxeCommandStart _ => 0
  | .mxeRowInject _ => 0
  | .mxeCommandComplete _ => 0
  | .mxeQueueWindowStore _ _ _ => 0
  | .copyQueueWindowStore _ _ _ => 0
  | .coalescerApply _ => 0
  | .coalescerTimeout _ _ => 0
  | .coalescerTwinReady _ _ => 0
  | .eventArrive _ _ _ _ _ => 0
  | .windowStaleTimeout _ => 0
  | .waitWake _ => 0
  | .waitTimeout _ => 0
  | .barRelease _ => 0
  | .taskEnd _ => 0
  | .selectionRound _ => 0
  | .taskBind _ => 0
  | .taskStart _ => 0
  | .agingTick => 0
  | .stealRequest _ => 0
  | .stealReply _ => 0
  | .stealBackoff _ => 0
  | .halfExchange => 0
  | .lanternCircuit => 0
  | .forecastTick => 0
  | .railSettle _ => 0
  | .slewStep _ => 0
  | .nrgUpdate => 0
  | .trqRetry _ => 0
  | .watchdog _ => 0
  | .lockstepMismatch _ => 0
  | .preemptDrainDone _ => 0
  | .jobPtbWrite _ _ _ => 0
  | .cspOwnWrite _ _ _ => 0
  | .spadForceRetire _ _ => 0
  | .jobPartWrite _ _ => 0
  | .jobCtlWrite _ _ => 0
  | .hbwBaseWrite _ _ => 0
  | .fbKill _ _ => 0
  | .preCtlReq _ _ => 0
  | .pwrCapWrite _ => 0
  | .secAtreq _ => 0
  | .secPolWrite _ => 0
  | .ethRouteWrite _ _ _ => 0
  | .registerWrite _ _ => 0
  | .ethFrameReceive _ => 0
  | .roceWrite _ _ _ _ => 0
  | .roceRead _ _ _ _ => 0
  | .roceFetchAdd _ _ _ _ => 0
  | .roceCompareSwap _ _ _ _ _ => 0
  | .place _ _ => 0
  | .hostDec _ _ => 0
  | .hostCancel _ _ => 0
  | .hostCancelh _ _ => 0
  | .ucieModuleFail => 0
  | .thermalThreshold _ _ => 0
  | .memTempChange _ _ => 0
  | .tamperAlarm _ => 0
  | .debugUnlockFail => 0
  | .coldReset _ => 0
  | .bootDatagram _ _ => 0
  | .bootTransferEnd => 0
  | .illegalOpEncoding => 0
  | .instructionFetchFault => 0
  | .loaderReadReturn _ => 0
  | .gptpMessageReceive _ => 0
  | .roceUnsupportedRequest _ => 0
  | .attestationReportDone => 0

/-- The sign extension of the low `n` bits of `v` to 32 bits. -/
def sx (v n : Nat) : BitVec 32 :=
  if v / 2 ^ (n - 1) % 2 = 1 then BitVec.ofNat 32 (v % 2 ^ n + (2 ^ 32 - 2 ^ n)) else BitVec.ofNat 32 (v % 2 ^ n)

/-- The Gwerriris instructions (R376): every field that an instruction does not use must be 0. -/
noncomputable def parseCustom (w : Nat) : Except DecodeError Instr :=
  if w % 32768 = 11 ∧ w / 1048576 % 32 = 0 ∧ w / 1073741824 % 4 = 0 then .ok (.ylLdFifo (fld w 27 3) (fld w 25 2) (fld w 15 5))
  else if w % 128 = 11 ∧ w / 4096 % 8 = 0 ∧ w / 1048576 % 32 = 0 ∧ w / 134217728 % 32 = 8 then .ok (.ylLdReg (fld w 25 2) (fld w 15 5) (fld w 7 5))
  else if w % 32768 = 4107 ∧ w / 1048576 % 128 = 0 ∧ w / 1073741824 % 4 = 0 then .ok (.ylPush (fld w 27 3) (fld w 15 5))
  else if w % 32768 = 8203 ∧ w / 134217728 % 32 = 0 then .ok (.ylBase (fld w 25 2) (fld w 20 5) (fld w 15 5))
  else if w % 128 = 11 ∧ w / 4096 % 32768 = 3 ∧ w / 1073741824 % 4 = 0 then .ok (.ylWait (fld w 27 3) (fld w 7 5))
  else if w % 134217728 = 16395 ∧ w / 2147483648 % 2 = 0 then .ok (.ylEnd (fld w 30 1) (fld w 27 3))
  else if w % 128 = 43 ∧ w / 4096 % 32768 = 0 ∧ w / 1073741824 % 4 = 0 then .ok (.ylPop (fld w 27 3) (fld w 7 5))
  else if w % 32768 = 4139 ∧ w / 1048576 % 32 = 0 ∧ w / 1073741824 % 4 = 0 then .ok (.ylSt (fld w 27 3) (fld w 25 2) (fld w 15 5))
  else .error (.unallocatedCustom (w % 128))

/-- The RV32IM instructions of 32 bits that a helper has (R372). ECALL, FENCE.I, the counter and control-register
instructions and every other extension are rejected. (PRESUMED, unsafe; log 79.) -/
noncomputable def parseRv32 (w : Nat) : Except DecodeError Instr :=
  let op := w % 128
  let rd : Fin 32 := fld w 7 5
  let f3 := w / 4096 % 8
  let r1 : Fin 32 := fld w 15 5
  let r2 : Fin 32 := fld w 20 5
  let f7 := w / 33554432 % 128
  let bad : Except DecodeError Instr := .error (.unsupportedHelperWord op)
  let ok (o : Rv.Op) : Except DecodeError Instr := .ok (.helperRv32Instr false o)
  let immI := sx (w / 1048576) 12
  match op with
  | 0x37 => ok (.lui rd (BitVec.ofNat 32 (w / 4096 * 4096)))
  | 0x17 => ok (.auipc rd (BitVec.ofNat 32 (w / 4096 * 4096)))
  | 0x6F => ok (.jal rd (sx (w / 4096 % 256 * 4096 + w / 1048576 % 2 * 2048 + w / 2097152 % 1024 * 2
      + w / 2147483648 % 2 * 1048576) 21))
  | 0x67 => if f3 = 0 then ok (.jalr rd r1 immI) else bad
  | 0x63 =>
    let off := sx (w / 128 % 2 * 2048 + w / 256 % 16 * 2 + w / 33554432 % 64 * 32 + w / 2147483648 % 2 * 4096) 13
    match f3 with
    | 0 => ok (.branch .beq r1 r2 off)
    | 1 => ok (.branch .bne r1 r2 off)
    | 4 => ok (.branch .blt r1 r2 off)
    | 5 => ok (.branch .bge r1 r2 off)
    | 6 => ok (.branch .bltu r1 r2 off)
    | 7 => ok (.branch .bgeu r1 r2 off)
    | _ => bad
  | 0x03 =>
    match f3 with
    | 0 => ok (.load .lb rd r1 immI)
    | 1 => ok (.load .lh rd r1 immI)
    | 2 => ok (.load .lw rd r1 immI)
    | 4 => ok (.load .lbu rd r1 immI)
    | 5 => ok (.load .lhu rd r1 immI)
    | _ => bad
  | 0x23 =>
    let off := sx (w / 128 % 32 + w / 33554432 % 128 * 32) 12
    match f3 with
    | 0 => ok (.store .sb r1 r2 off)
    | 1 => ok (.store .sh r1 r2 off)
    | 2 => ok (.store .sw r1 r2 off)
    | _ => bad
  | 0x13 =>
    match f3 with
    | 0 => ok (.aluImm .add rd r1 immI)
    | 1 => if f7 = 0 then ok (.aluImm .sll rd r1 (BitVec.ofNat 32 r2.val)) else bad
    | 2 => ok (.aluImm .slt rd r1 immI)
    | 3 => ok (.aluImm .sltu rd r1 immI)
    | 4 => ok (.aluImm .xor rd r1 immI)
    | 5 =>
      if f7 = 0 then ok (.aluImm .srl rd r1 (BitVec.ofNat 32 r2.val))
      else if f7 = 32 then ok (.aluImm .sra rd r1 (BitVec.ofNat 32 r2.val))
      else bad
    | 6 => ok (.aluImm .or rd r1 immI)
    | _ => ok (.aluImm .and rd r1 immI)
  | 0x33 =>
    if f7 = 0 then
      match f3 with
      | 0 => ok (.alu .add rd r1 r2)
      | 1 => ok (.alu .sll rd r1 r2)
      | 2 => ok (.alu .slt rd r1 r2)
      | 3 => ok (.alu .sltu rd r1 r2)
      | 4 => ok (.alu .xor rd r1 r2)
      | 5 => ok (.alu .srl rd r1 r2)
      | 6 => ok (.alu .or rd r1 r2)
      | _ => ok (.alu .and rd r1 r2)
    else if f7 = 32 then
      match f3 with
      | 0 => ok (.alu .sub rd r1 r2)
      | 5 => ok (.alu .sra rd r1 r2)
      | _ => bad
    else if f7 = 1 then
      match f3 with
      | 0 => ok (.alu .mul rd r1 r2)
      | 1 => ok (.alu .mulh rd r1 r2)
      | 2 => ok (.alu .mulhsu rd r1 r2)
      | 3 => ok (.alu .mulhu rd r1 r2)
      | 4 => ok (.alu .div rd r1 r2)
      | 5 => ok (.alu .divu rd r1 r2)
      | 6 => ok (.alu .rem rd r1 r2)
      | _ => ok (.alu .remu rd r1 r2)
    else bad
  | 0x0F => if f3 = 0 then .ok .helperFence else bad
  | 0x73 => if w / 128 = 8192 then .ok (.helperEbreak false) else bad
  | 0x0B => parseCustom w
  | 0x2B => parseCustom w
  | _ => bad

/-- The compressed instructions of RV32C, each as the operation it stands for (R372). Reserved encodings and those of the
absent floating-point extensions are rejected. (PRESUMED, unsafe; log 79.) -/
noncomputable def parseRvc (w : Nat) : Except DecodeError Instr :=
  let bad : Except DecodeError Instr := .error (.unsupportedHelperWord (w % 4))
  let ok (o : Rv.Op) : Except DecodeError Instr := .ok (.helperRv32Instr true o)
  let f3 := w / 8192 % 8
  let rdc : Fin 32 := ⟨8 + w / 4 % 8, by omega⟩
  let rsc : Fin 32 := ⟨8 + w / 128 % 8, by omega⟩
  let rd : Fin 32 := fld w 7 5
  let rs2 : Fin 32 := fld w 2 5
  let imm6 := sx (w / 4 % 32 + w / 4096 % 2 * 32) 6
  let shamt := w / 4 % 32
  let wordOff := w / 64 % 2 * 4 + w / 1024 % 8 * 8 + w / 32 % 2 * 64
  let jOff := sx (w / 8 % 8 * 2 + w / 2048 % 2 * 16 + w / 4 % 2 * 32 + w / 128 % 2 * 64 + w / 64 % 2 * 128
    + w / 512 % 4 * 256 + w / 256 % 2 * 1024 + w / 4096 % 2 * 2048) 12
  let bOff := sx (w / 8 % 4 * 2 + w / 1024 % 4 * 8 + w / 4 % 2 * 32 + w / 32 % 4 * 64 + w / 4096 % 2 * 256) 9
  match w % 4 with
  | 0 =>
    match f3 with
    | 0 =>
      let imm := w / 64 % 2 * 4 + w / 32 % 2 * 8 + w / 2048 % 4 * 16 + w / 128 % 16 * 64
      if imm = 0 then bad else ok (.aluImm .add rdc 2 (BitVec.ofNat 32 imm))
    | 2 => ok (.load .lw rdc rsc (BitVec.ofNat 32 wordOff))
    | 6 => ok (.store .sw rsc rdc (BitVec.ofNat 32 wordOff))
    | _ => bad
  | 1 =>
    match f3 with
    | 0 => ok (.aluImm .add rd rd imm6)
    | 1 => ok (.jal 1 jOff)
    | 2 => ok (.aluImm .add rd 0 imm6)
    | 3 =>
      if rd = 2 then
        let imm := w / 64 % 2 * 16 + w / 4 % 2 * 32 + w / 32 % 2 * 64 + w / 8 % 4 * 128 + w / 4096 % 2 * 512
        if imm = 0 then bad else ok (.aluImm .add 2 2 (sx imm 10))
      else if imm6 = 0 then bad else ok (.lui rd (imm6 <<< 12))
    | 4 =>
      match w / 1024 % 4 with
      | 0 => if w / 4096 % 2 = 1 then bad else ok (.aluImm .srl rsc rsc (BitVec.ofNat 32 shamt))
      | 1 => if w / 4096 % 2 = 1 then bad else ok (.aluImm .sra rsc rsc (BitVec.ofNat 32 shamt))
      | 2 => ok (.aluImm .and rsc rsc imm6)
      | _ =>
        if w / 4096 % 2 = 1 then bad else
        match w / 32 % 4 with
        | 0 => ok (.alu .sub rsc rsc rdc)
        | 1 => ok (.alu .xor rsc rsc rdc)
        | 2 => ok (.alu .or rsc rsc rdc)
        | _ => ok (.alu .and rsc rsc rdc)
    | 5 => ok (.jal 0 jOff)
    | 6 => ok (.branch .beq rsc 0 bOff)
    | _ => ok (.branch .bne rsc 0 bOff)
  | 2 =>
    match f3 with
    | 0 => if w / 4096 % 2 = 1 then bad else ok (.aluImm .sll rd rd (BitVec.ofNat 32 shamt))
    | 2 =>
      if rd = 0 then bad
      else ok (.load .lw rd 2 (BitVec.ofNat 32 (w / 16 % 8 * 4 + w / 4096 % 2 * 32 + w / 4 % 4 * 64)))
    | 4 =>
      if w / 4096 % 2 = 0 then
        if rs2 = 0 then (if rd = 0 then bad else ok (.jalr 0 rd 0)) else ok (.alu .add rd 0 rs2)
      else if rs2 = 0 then (if rd = 0 then .ok (.helperEbreak true) else ok (.jalr 1 rd 0))
      else ok (.alu .add rd rd rs2)
    | 6 => ok (.store .sw 2 rs2 (BitVec.ofNat 32 (w / 512 % 16 * 4 + w / 128 % 4 * 64)))
    | _ => bad
  | _ => bad

/-- The instruction of a helper's word: 32 bits when bits [1:0] are 3, else the low 16 bits (14 R372). -/
noncomputable def helperDecode (w : Nat) : Except DecodeError Instr :=
  if w % 4 = 3 then parseRv32 w else parseRvc (w % 65536)

/-- The instruction that the decoder reads from the bits `w` of a row: a core's word of 32 bits, and where no core
instruction has those bits, a helper's word. Rows without a word have no bits. (DEDUCED, safe; log 12.) -/
noncomputable def decodeTableWord (nbits w : Nat) : Option Instr :=
  if nbits = 0 then none
  else
    match decode (w % 2 ^ nbits) with
    | .ok i => some i
    | .error _ =>
      match helperDecode (w % 2 ^ nbits) with
      | .ok i => some i
      | .error _ => none

end Sys2Proof
end

