-- ==== Sys2Proof/Machine/Fetch.lean ====
section
/-! DEFINITION. Fetching instructions (01 R473, 04 R102, 09 R233, R240 to R244, 14 R373), and which turn comes next. The spec fixes no
order among the agents; the order here is the model's (a log entry says so), and `State.agenda` can ask for any other. -/
namespace Sys2Proof.Machine

/-! ## A core's fetch (R102, R473) -/

/-- The access of a fetch. -/
def fetchAccess (s : State) (c : Nat) (va : Word) : Access := taskAccess s c .fetch va.toNat 4 1

/-- The sector of a piece read at its home, as any access there is served (R103, R148). -/
def readSector (s : State) (a : Access) (p : Piece) : Res (Sector × State) := do
  let back := p.va % 64
  let q := { p with loc := p.loc - back, va := p.va - back, len := 64 }
  let s1 ← served s a .read q
  pure ({ job := a.job, va := q.va, data := BitVec.ofNat 512 (s1.read q.loc 64), way := 0, bad := false }, s1)

/-- The word at an address, through the L1I or the fetch buffer: the L1I keeps what the task's own die holds under C2, as
host-backed pages are not (R102, R103, R112). -/
def fetchWord (s : State) (c : Nat) (va : Word) : Res (Nat × State) := do
  let a := fetchAccess s c va
  let (_, t, s1) ← checkAccess s a
  match t with
  | .bytes (p :: _) =>
    let word := fun (e : Sector) => bits e.data.toNat (p.va % 64 * 8) 32
    let mine := fun (e : Sector) => e.job == a.job && e.va == p.va / 64 * 64
    if p.paged ∧ p.va / 2 ^ 52 = dieOf c ∧ p.cache = 0 ∧ p.hostb = false then
      match lookup s1 c true a.job p.va with
      | (some e, s2) => pure (word e, s2)
      | (none, s2) =>
        let (e, s3) ← readSector s2 a p
        pure (word e, (s3.evCount c 0x07 1).modCore c (fun k =>
          let (l, trees) := installSector 4 64 k.l1i k.l1iTree e
          { k with l1i := l, l1iTree := trees }))
    else
      match (s1.core c).fetchBuf.filter mine with
      | some e => pure (word e, s1)
      | none =>
        let (e, s2) ← readSector s1 a p
        pure (word e, s2.modCore c (fun k => { k with fetchBuf := some e }))
  | _ => raise cWindowDenied va.toNat

/-! ## The capture of a repetition body (R240) -/

/-- The next `n` non-hint instructions from `va`, with the hints that stand before each and the stall counts left behind
them. (DEDUCED, unsafe; log 21.) -/
def captureBody (c : Nat) : Nat → State → Word → Hints → List Nat → Nat → List BodyInstr →
    Res (List BodyInstr × Word × List Nat × State)
  | 0, _, _, _, _, _, _ => raise cIllegalOp
  | fuel + 1, s, va, h, stalls, n, acc =>
    if n = 0 then .ok (acc, va, stalls, s)
    else do
      let (w, s1) ← fetchWord s c va
      if isHint w then
        let (h1, st1) := noteHint h stalls va (hintKind w) (hintPayload w)
        captureBody c fuel s1 (va + 4) h1 st1 n acc
      else if bodyMajor w = false then raise cIllegalOp
      else
        captureBody c fuel s1 (va + 4) Hints.none (stalls.drop 1) (n - 1)
          (acc ++ [{ word := w, va := va, hints := h, stall := stalls.headD 0 }])

/-! ## A helper's fetch (R372, R373) -/

/-- The bits at a helper's program counter: 32, or the 16 of a compressed word. -/
def helperFetch (s : State) (c : Nat) (storer : Bool) : Res (Nat × State) := do
  let pc := (helperOf (s.core c) storer).pc.toNat
  if 0x4000 ≤ pc then raise cNonCanon pc
  let s1 ← portCheck s c (codeLoc c storer + pc) 2 pc false
  let low := s1.read (codeLoc c storer + pc) 2
  if low % 4 = 3 then
    if 0x4000 < pc + 4 then raise cNonCanon (pc + 2)
    let s2 ← portCheck s1 c (codeLoc c storer + pc + 2) 2 pc false
    pure (s2.read (codeLoc c storer + pc) 4, s2)
  else pure (low, s1)

/-! ## Steps of the hardware that stand in `todo` -/

/-- The row of the opcode table that a step under way is. -/
noncomputable def dueInstr : Due → Instr
  | .resultWriteback c => .resultWriteback c
  | .storePerform c => .storePerform c 0
  | .l1dFill c => .l1dSectorFill c
  | .fbResend d e => .fbEventResend d e
  | .tlbinvComplete c => .tlbinvComplete c
  | .parityLand c g => .parityLand c g
  | .scrub c => .scrubStep c
  | .sqmScrub u => .sqmScrubStep u
  | .epochEnd => .epochEnd
  | .bankRetire c b => .bankRetire c b
  | .lendClear c => .lendClearDone c
  | .lendEndClear c => .lendEndClearDone c
  | .squareClear q => .squareClearDone q
  | .cspClear d g => .cspClearDone d g
  | .tileFill c n => .tileFillLastBeat c n
  | .logApply c n => .logApplyEntry c n
  | .tileDrain c n => .tileDrainDone c n
  | .beacon => .beaconWindow
  | .traceWrite c => .traceRecordWrite c
  | .jobStart c i => .engineJobStart c i
  | .jobComplete c i => .engineJobComplete c i
  | .grant c => .ownershipGrant c
  | .revokeReturn b => .revokeDataReturn b
  | .streamFetch c i => .streamFetchReturn c i
  | .latchDone q => .mxeLatchLoadDone q
  | .mxStart q => .mxeCommandStart q
  | .mxDone q => .mxeCommandComplete q
  | .coApply q => .coalescerApply q
  | .coTimeout q i => .coalescerTimeout q i
  | .coTwin q i => .coalescerTwinReady q i
  | .waitWake c => .waitWake c
  | .waitTimeout c => .waitTimeout c
  | .barRelease c => .barRelease c
  | .taskEnd c => .taskEnd c
  | .selection d => .selectionRound d
  | .taskBind c => .taskBind c
  | .taskStart c => .taskStart c
  | .aging => .agingTick
  | .stealRequest c => .stealRequest c
  | .stealReply c => .stealReply c
  | .stealBackoff c => .stealBackoff c
  | .halfExchange => .halfExchange
  | .lantern => .lanternCircuit
  | .forecast => .forecastTick
  | .rail d => .railSettle d
  | .nrg => .nrgUpdate
  | .trqRetry d => .trqRetry d
  | .watchdog c => .watchdog c
  | .preemptDone c => .preemptDrainDone c
  | .loaderReturn c => .loaderReadReturn c
  | .attestDone => .attestationReportDone
  | .faultRetry d e g => .faultRetry d e g

/-- The scrubbers whose step falls in this cycle: each core's every 2^SRATE cycles, at a phase of its own, with its square's where it
is the square's first core (R53, R57, R64), and the chip scratchpads' every 1024 cycles (R65). (DESIGN CHOICE, unsafe; log 57.)
(DESIGN CHOICE, unsafe; log 81.) -/
def scrubDues (s : State) : List Due :=
  let turnOf := fun (c : Nat) =>
    let period := 2 ^ Nat.max 6 (s.core c).spad.srate
    decide (s.cyc % period = 4 * c % period)
  let cores := if s.cyc % 4 = 0 then ((List.range 16).map (fun i => 16 * i + s.cyc / 4 % 16)).filter turnOf else []
  cores.flatMap (fun c =>
    (if (s.core c).spad.soff then [] else [Due.scrub (coreId c)]) ++
    (if squareCore (squareOf c) = c then [.sqmScrub (.square (squareId (squareOf c)))] else [])) ++
  (if s.cyc % 1024 = 2 then [.sqmScrub (.chip 0)] else if s.cyc % 1024 = 514 then [.sqmScrub (.chip 1)] else [])

/-- A microsecond boundary of device time falls in this cycle (R407, R426 to R428). -/
def microsecond (s : State) : Bool := decide (s.time / 1000 ≠ { s with cyc := s.cyc - 1 }.time / 1000)

/-- A selection round of a half has something to do: records wait, or a core of a partition is free and asks nobody (R390, R395). -/
def roundDue (s : State) (die : Nat) : Bool :=
  waitsOn s die || (dieCores die).any (fun c =>
    coreFree s c && (s.core c).steal.isNone && jobsOn s (squareOf c) != [])

/-- Steps that the passing of time sets under way, if they can do anything. -/
def timedDues (s : State) : List Due :=
  let waiting := (readyJobs s) != [] || s.cores.any (fun e => e.2.deque != [] || e.2.spilled != [] || e.2.latched.isSome)
  if s.cyc = 0 then []
  else (if microsecond s then [Due.forecast] else []) ++
    (if s.cyc % 32 = 0 then ([0, 1].filter (fun d => roundDue s d)).map (fun d => Due.selection (dieId d)) else []) ++
    if s.cyc % 256 ≠ 0 then []
  else
    (if waiting then [Due.aging, .halfExchange] else []) ++
    (if phaseJobs s != [] then [.lantern] else []) ++
    (if s.cyc % 1024 = 0 ∧ s.cores.any (fun e => e.2.energy ≠ []) then [.nrg] else []) ++
    (if s.cyc % 2 ^ 30 = 0 then [.epochEnd] else []) ++
    (s.cores.filterMap (fun e =>
      if e.2.mode = .run ∧ (s.die (dieOf e.1)).wdgLim ≠ 0 then some (Due.watchdog (coreId e.1)) else none))

/-! ## The next turn -/

/-- A core is to issue: RUN, not a follower of its gang, its `done` still to come, no `tlbinv` of its unit to complete, and no
pre-emption takes it now (R38, R175, R250, R422). -/
def mayIssue (s : State) (c : Nat) : Bool :=
  let k := s.core c
  k.mode == .run && !s.halted && (k.task.gang == 0 || k.task.brk || k.task.leader == c) &&
    !k.task.ending && (actingMembers s c).all (fun m => (s.core m).tlbWait.isNone) && !(preempting s c && atPoint k && (hardCancelled s c ||
      (freeSlots s k.task.job (dieOf c) (unitMembers s c).length).isSome))

/-- A helper is to issue. -/
def mayHelp (s : State) (c : Nat) (storer : Bool) : Bool :=
  let k := s.core c
  let h := helperOf k storer
  h.running && !s.halted && h.held.isNone && (k.mode == .run || k.mode == .wait || k.mode == .park) && !h.missing

/-- The units that could issue. -/
def runnable (s : State) : List Turn :=
  s.cores.flatMap (fun e =>
    (if mayIssue s e.1 then [Turn.issue (coreId e.1)] else []) ++
    (if mayHelp s e.1 false then [Turn.helper (coreId e.1) false] else []) ++
    (if mayHelp s e.1 true then [Turn.helper (coreId e.1) true] else []))

/-- The place of a unit in the round of turns. -/
def turnPlace : Turn → Nat
  | .issue c => 3 * c.val + 1
  | .helper c storer => 3 * c.val + (if storer then 3 else 2)
  | _ => 0

/-- The unit whose turn comes: the first after the one that had the last turn, in rising order of cores and helpers. -/
def unitInTurn (last : Nat) (rs : List Turn) : Option Turn :=
  match rs.find? (fun t => decide (last < turnPlace t)) with
  | some t => some t
  | none => rs.head?

/-- A core in WAIT or PARK is away from issue for the cycle: the watchdog passes it over (R419), and a cycle in WAIT is counted
(R437). -/
def passAway (s : State) : State :=
  s.cores.foldl (fun t e =>
    if e.2.mode = .wait ∨ e.2.mode = .park then
      (if e.2.mode = .wait then t.evCount e.1 0x0F 1 else t).modCore e.1 (fun k => { k with awayAt := s.cyc })
    else t) s

/-- A cycle passes: the limiters and arrays of the MXEs have had it (R430), accesses of the hardware that wait are tried again (R112), frames leave whose gates have opened (R440), event
windows close (R347, R348), and what its passing
sets under way joins the steps to come. (DESIGN CHOICE, unsafe; log 2.) (DESIGN CHOICE, unsafe; log 4.) -/
def tick (s : State) : State :=
  let s1 := releaseFrames (passAway (hwAgain { beaconCycle s s.cyc with cyc := s.cyc + 1 }))
  let s2 := ((s1.cores.filter (fun e => e.2.holdsTask)).map (·.1)).foldl closeOne s1
  (scrubDues s2 ++ timedDues s2).foldl State.dueOnce s2

/-- A core and its gang turn to the body of a running repetition, or to the integer pipeline, by turns (R211).
(DESIGN CHOICE, unsafe; log 19.) -/
def toBody (s : State) (c : Nat) : State :=
  (actingMembers s c).foldl (fun s m => s.modCore m (fun k =>
    let k := k.leaveBody
    match k.pipe.rep with
    | none => k
    | some r =>
      let k1 := { k with pipe := { k.pipe with rep := some { r with bodyNext := !r.bodyNext } } }
      if r.bodyNext then k1.enterBody else k1)) s

/-- The instruction of a repetition's body that is next, as its repetition staggers it (R241, R242). -/
noncomputable def bodyTurn (s : State) (b : BodyInstr) (r : Rep) : State × Option Instr :=
  match decode (staggered b.word r.stagger (r.step * r.j)) with
  | .ok i => (s, some i)
  | .error _ => (s, some .illegalOpEncoding)

/-- The instruction at the program counter: the state in which it executes, and the instruction, if there is one (R193 to R198,
R233). After an `eret` that skips, its group passes (R253). (DESIGN CHOICE, unsafe; log 22.) -/
noncomputable def fetchTurn (s : State) (c : Nat) : State × Option Instr :=
  let k := s.core c
  let ms := actingMembers s c
  match fetchWord s c k.pipe.pc with
  | .ok (w, s1) =>
    if k.pipe.skip then
      (ms.foldl (fun s m => s.modCore m (fun k => { k with pipe := { k.pipe with pc := k.pipe.pc + 4, skip := isHint w } })) s1, none)
    else match decode w with
      | .ok i => (s1, some i)
      | .error _ => (s1, some .illegalOpEncoding)
  | .error (.trap _) =>
    if k.pipe.skip then
      (s.modCore c (fun k => { k with pipe := { k.pipe with pc := k.pipe.pc + 4, skip := false } }), none)
    else (s, some .instructionFetchFault)
  | .error (.stall reqs) => (waitAtIssue s ms reqs, none)

/-- The instruction that a core's turn brings (R211, R242). -/
noncomputable def coreTurn (s0 : State) (c : Nat) : State × Option Instr :=
  let s := toBody { s0 with actor := { core := coreId c, part := .main } } c
  match (s.core c).bodyInstr, (s.core c).pipe.rep with
  | some b, some r => bodyTurn s b r
  | _, _ => fetchTurn s c

/-- The same for a helper's turn. -/
noncomputable def helperTurn (s0 : State) (c : Nat) (storer : Bool) : State × Option Instr :=
  let s : State := { s0 with actor := { core := coreId c, part := if storer then .storer else .loader } }
  match helperFetch s c storer with
  | .ok (w, s1) =>
    match helperDecode w with
    | .ok i => (s1, some i)
    | .error _ => (s1, some .illegalOpEncoding)
  | .error _ => (s, some .instructionFetchFault)

/-- What goes on when HALT has stopped every core and engine (R454): the host's side, the environment and reset. -/
def survivesHalt : Instr → Bool
  | .ethFrameReceive _ => true
  | .roceWrite _ _ _ _ => true
  | .roceRead _ _ _ _ => true
  | .roceFetchAdd _ _ _ _ => true
  | .roceCompareSwap _ _ _ _ _ => true
  | .place _ _ => true
  | .hostDec _ _ => true
  | .hostCancel _ _ => true
  | .hostCancelh _ _ => true
  | .roceUnsupportedRequest _ => true
  | .ucieModuleFail => true
  | .tamperAlarm _ => true
  | .debugUnlockFail => true
  | .coldReset _ => true
  | .gptpMessageReceive _ => true
  | _ => false

/-- A request of the host that has waited, as it came. -/
noncomputable def heldInstr (conn : Nat) : HostReq → Instr
  | .write rkey va data => .roceWrite conn rkey va data
  | .read rkey va len => .roceRead conn rkey va len
  | .fetchAdd rkey va addend => .roceFetchAdd conn rkey va addend
  | .compareSwap rkey va compare swap => .roceCompareSwap conn rkey va compare swap
  | .place va => .place conn va
  | .dec va => .hostDec conn va
  | .cancel level hard => if hard then .hostCancelh conn level else .hostCancel conn level
  | .unsupported => .roceUnsupportedRequest conn

/-- What a host frame of 32 bytes asks (R446): a frame with another operation, another length or a nonzero zero field is refused. -/
noncomputable def frameInstr (conn : Nat) (frame : List (BitVec 8)) : Instr :=
  let v := ofBytes frame
  let va := BitVec.ofNat 64 (bits v 64 64)
  if frame.length ≠ 32 ∨ bits v 8 56 ≠ 0 ∨ bits v 128 128 ≠ 0 then .roceUnsupportedRequest conn
  else match bits v 0 8 with
    | 0 => .place conn va
    | 1 => .hostDec conn va
    | 2 => .hostCancel conn va
    | 3 => .hostCancelh conn va
    | _ => .roceUnsupportedRequest conn

/-- A turn as the state in which it comes about and its instruction. -/
noncomputable def runTurn (s : State) : Turn → State × Option Instr
  | .issue c =>
    let l := issuer { s with actor := { core := c, part := .main } }
    if mayIssue s l then coreTurn s l else (s, none)
  | .helper c storer => if mayHelp s c.val storer then helperTurn s c.val storer else (s, none)
  | .event i => if s.halted ∧ ¬ survivesHalt i then (s, none) else (s, some i)
  | .bitError e => ({ s with errors := s.errors ++ [e] }, none)
  | .parityError c code job va =>
    let mark := fun (l : List Sector) => l.map (fun e => if e.job = job ∧ e.va = va / 64 * 64 then { e with bad := true } else e)
    (s.modCore c.val (fun k => if code then { k with l1i := mark k.l1i } else { k with l1d := mark k.l1d }), none)
  | .remoteAck c id => (acknowledge s c.val id, none)
  | .send conn frame => (s, some (frameInstr conn frame))
  | .firmwareWrite die pa data => (firmwareWrite s die.val pa data, none)
  | .firmwarePlace va => (firmwarePlace s va.toNat, none)
  | .gateControl port entries =>
    (if entries.length ≤ 64 then { s with eth := { s.eth with gates := Table.set s.eth.gates port.val entries } } else s, none)

/-- The next turn: what the agenda asks for; else a request of the host that waits, a step under way and a unit that could issue by
turns.
(DESIGN CHOICE, unsafe; log 2.) -/
noncomputable def turn (s0 : State) : State × Option Instr :=
  match s0.agenda with
  | t :: rest => runTurn { s0 with agenda := rest } t
  | [] =>
    let s := tick s0
    if s.halted then (s0, none)
    else if s.cyc % 8 = 7 ∧ s.eth.held ≠ [] then
      ({ s with eth := { s.eth with again := true } }, s.eth.held.head?.map (fun e => heldInstr e.1 e.2))
    else match s.todo, unitInTurn s.rotor (runnable s) with
    | d :: rest, none => ({ s with todo := rest }, some (dueInstr d))
    | d :: rest, some t =>
      if s.cyc % 2 = 0 then ({ s with todo := rest }, some (dueInstr d)) else runTurn { s with rotor := turnPlace t } t
    | [], some t => runTurn { s with rotor := turnPlace t } t
    | [], none => (s, none)

end Sys2Proof.Machine
end

