-- ==== Sys2Proof/Machine/Control.lean ====
section
/-! DEFINITION. Branches, loop nests and repetitions (08 R213, 09 R230 to R244). -/
namespace Sys2Proof.Machine

/-! ## Branches, jumps and calls (R213, R230 to R233) -/

/-- The address that a displacement field of `n` bits leads to. -/
def targetOf (va : Word) (n p : Nat) : Word := va + BitVec.ofInt 64 (sint p n * 4)

/-- A branch is predicted taken: `hnt.br` says so, or without it a negative displacement (R204, R213). -/
def predictedTaken (h : Hints) (n p : Nat) : Bool :=
  match bits (h.br.getD 0) 0 2 with
  | 1 => false
  | 2 => true
  | _ => decide (sint p n < 0)

/-- A follower takes the leader's outcome (R175). -/
def followPc (s : State) (c : Nat) : State :=
  let l := s.core (s.core c).task.leader
  s.modCore c (fun k => { k with pipe := { k.pipe with pc := l.pipe.pc, readyAt := l.pipe.readyAt } })

/-- A branch is resolved (R213): where the instruction goes on, and the bubbles. -/
def resolveBranch (s : State) (c : Nat) (h : Hints) (n p : Nat) (taken : Bool) : State :=
  let k := s.core c
  let s1 := if taken then jumpTo s c (targetOf k.pipe.iva n p) else s
  if predictedTaken h n p = taken then (if taken then bubble s1 c 1 else s1)
  else bubble (s1.evCount c 0x16 1) c 3

/-- `br` (R230). -/
def execBr (a b : Fin 32) (c : Fin 8) (p : Fin 4096) (s : State) : Out :=
  issue { srcs := if c.val = 6 then [] else [(.k, a), (.k, b)], use := { br := true } }
    (fun m vs s =>
      if followsLeader s m then .ok (followPc s m)
      else
        let taken := c.val = 6 ∨ condHolds 64 c (arg vs 0).toNat (arg vs 1).toNat
        .ok (resolveBranch s m (s.core m).pipe.hints 12 p taken)) s

/-- `jmp` (R231). -/
def execJmp (p : Fin 33554432) (s : State) : Out :=
  issue {}
    (fun m _ s =>
      if followsLeader s m then .ok (followPc s m)
      else .ok (bubble (jumpTo s m (targetOf (s.core m).pipe.iva 25 p)) m 1)) s

/-- The link register written (R231, R232). -/
def putLink (s : State) (m : Nat) : State :=
  s.modCore m (fun k => k.putFixed .k 7 ((k.pipe.iva + 4).zeroExtend 512) 1)

/-- `call` (R231). -/
def execCall (p : Fin 33554432) (s : State) : Out :=
  issue { dst := some (.k, 7), lat := 1 }
    (fun m _ s =>
      let s1 := putLink s m
      if followsLeader s m then .ok (followPc s1 m)
      else .ok (bubble (jumpTo s1 m (targetOf (s.core m).pipe.iva 25 p)) m 1)) s

/-- The target of a register jump, or MISALIGN (R232). -/
def registerJump (s : State) (m : Nat) (target : Word) : Res State :=
  if followsLeader s m then .ok (followPc s m)
  else if target.toNat % 4 ≠ 0 then raise cMisalign target.toNat
  else .ok (bubble (jumpTo s m target) m 3)

/-- `jr` (R232). -/
def execJr (a : Fin 32) (s : State) : Out :=
  issue { srcs := [(.k, a)] } (fun m vs s => registerJump s m (arg vs 0)) s

/-- `callr` (R232). -/
def execCallr (a : Fin 32) (s : State) : Out :=
  issue { srcs := [(.k, a)], dst := some (.k, 7), lat := 1 }
    (fun m vs s => do
      let s1 ← registerJump s m (arg vs 0)
      pure (putLink s1 m)) s

/-! ## Loop nests (R234 to R239) -/

/-- The number of iterations N. -/
def nestTotal (e : List Nat) : Nat := e.foldl (· * ·) 1

/-- The nest that a descriptor describes, not yet active. -/
def nestOf (v : Nat) : Nest :=
  { active := false, e := (List.range 4).map (fun i => bits v (32 * i) 32), cnt := BitVec.ofNat 64 (bits v 128 64),
    parts := bits v 192 32, minChunk := bits v 224 32, order := bits v 256 8, pos := 0, stop := 0 }

/-- The descriptor is legal (R234, R235). -/
def nestLegal (v : Nat) : Bool :=
  let n := nestOf v
  bits v 264 248 == 0 && (List.range 4).all (fun d => (List.range 4).any (fun p => bits n.order (2 * p) 2 == d)) &&
    decide (nestTotal n.e < 2 ^ 48)

/-- The shared counter stands where it may (R234, R235). (DEDUCED, unsafe; log 48.) -/
def counterCheck (cnt : Nat) : Res Unit :=
  match rowOf cnt with
  | none => raise cNonCanon cnt
  | some r =>
    if cnt % 8 ≠ 0 then raise cMisalign cnt
    else match r.space with
      | .paged _ | .square _ | .chip _ | .ownSquare => .ok ()
      | _ => raise cWindowDenied cnt

/-- What a claim takes of the iterations left (R236). -/
def claimSize (n claimed minChunk parts : Nat) : Nat :=
  let r := n - claimed
  let p := max 1 parts
  min r (max (max 1 minChunk) ((r + p - 1) / p))

/-- One claim at the counter's home (R236): its start, its size and the state. (DEDUCED, unsafe; log 48.) -/
def claimChunk (s : State) (c : Nat) (x : Nest) : Res (Nat × Nat × State) := do
  let a := taskAccess s c .atomic x.cnt.toNat 8 8
  let (_, t, s1) ← checkAccess s a
  match t with
  | .bytes (p :: _) =>
    let s2 ← orderBefore s1 c [p]
    let s3 := commit (l1dInvalidate s2 c a.job a.va 8) c
    let by_ := { a with agent := .engine }
    let claimed := s3.read p.loc 8
    let n := nestTotal x.e
    if n ≤ claimed then
      let s4 ← served s3 by_ .atomic p
      pure (claimed, 0, s4.evCount c 0x11 1)
    else
      let size := claimSize n claimed x.minChunk x.parts
      let (_, s4) ← atomicAt s3 by_ 2 false p { op := 8, operand := claimed + size, expected := none }
      pure (claimed, size, remoteServed (remoteSent (s4.evCount c 0x11 1) c [p]) c [p])
  | _ => raise cWindowDenied a.va

/-- The indices of an iteration, fastest first (R237). -/
def nestIndices (x : Nest) (l : Nat) : List Nat :=
  let step := fun (acc : List (Nat × Nat) × Nat) (p : Nat) =>
    let d := bits x.order (2 * p) 2
    let e := x.e[d]?.getD 1
    (acc.1 ++ [(d, acc.2 % e)], acc.2 / e)
  let got := ((List.range 4).foldl step ([], l)).1
  (List.range 4).map (fun d => ((got.find? (fun e => e.1 = d)).map (·.2)).getD 0)

/-- The indices written to `k8` to `k11` (R237). -/
def putIndices (s : State) (c : Nat) (l : List Nat) : State :=
  (List.range 4).foldl (fun s i =>
    s.modCore c (fun k => k.putFixed .k (8 + i) (BitVec.ofNat 512 (l[i]?.getD 0)) 1)) s

/-- The registers that hold the indices. -/
def indexRegs : List (RegFile × Nat) := [(.k, 8), (.k, 9), (.k, 10), (.k, 11)]

/-- The chunk of a claim taken into the nest, with its indices. -/
def takeChunk (s : State) (c : Nat) (x : Nest) (start size : Nat) : State :=
  if size = 0 then s.modCore c (fun k => { k with nest := { x with active := false } })
  else putIndices (s.modCore c (fun k => { k with nest := { x with active := true, pos := start, stop := start + size } })) c
    (nestIndices x start)

/-- A follower takes the nest as the leader has it, with its indices if the leader wrote them (R239). -/
def followNest (s : State) (c : Nat) : State :=
  let x := (s.core (s.core c).task.leader).nest
  let s1 := s.modCore c (fun k => { k with nest := x })
  if x.active then putIndices s1 c (nestIndices x x.pos) else s1

/-- `lnest` (R235). -/
def execLnest (d : Fin 16) (a : Fin 32) (s : State) : Out :=
  issue { srcs := [(.k, a)], dst := some (.k, d), more := indexRegs }
    (fun m vs s =>
      if followsLeader s m then
        let s1 := followNest s m
        let x := (s1.core m).nest
        putKLater s1 m d (BitVec.ofNat 64 (if x.active then x.stop - x.pos else 0))
      else do
        let (v, s1) ← loadStruct s m (arg vs 0).toNat 64 64
        let x := nestOf v
        counterCheck x.cnt.toNat
        if nestLegal v = false then raise cIllegalOp
        let (start, size, s2) ← claimChunk s1 m x
        putKLater (takeChunk s2 m x start size) m d (BitVec.ofNat 64 size)) s

/-- `lnext` (R238). -/
def execLnext (p : Fin 4096) (s : State) : Out :=
  issue { more := indexRegs, use := { br := true } }
    (fun m _ s =>
      let h := (s.core m).pipe.hints
      let x := (s.core m).nest
      if followsLeader s m then
        .ok (followPc (if x.active then followNest s m else s) m)
      else if x.active = false then .ok (resolveBranch s m h 12 p false)
      else if x.pos + 1 < x.stop then
        .ok (resolveBranch (takeChunk s m x (x.pos + 1) (x.stop - (x.pos + 1))) m h 12 p true)
      else do
        let (start, size, s1) ← claimChunk s m x
        pure (resolveBranch (takeChunk s1 m x start size) m h 12 p (decide (size ≠ 0)))) s

/-! ## Repetitions (R240 to R244) -/

/-- A repetition begins: the integer pipeline goes on after the body, and both count from the `rep` (R211). -/
def beginRep (k : Core) (pc : Word) (stalls : List Nat) (r : Option Rep) : Core :=
  let pend := k.pipe.pend.map (fun (x : Pending) => { x with cross := x.schedAt })
  let rep := r.map (fun (r : Rep) => { r with clock := k.pipe.clock })
  { k with pipe := { k.pipe with pc := pc, stalls := stalls, pend := pend, rep := rep } }

/-- `rep` (R240): the body is captured, and its first repetition is next. (DEDUCED, unsafe; log 21.) -/
def execRep (n : Fin 8) (a : Fin 32) (st t : Fin 8) (c : Fin 2048) (s : State) : Out :=
  issue { srcs := if c.val = 0 then [(.k, a)] else [], alone := true }
    (fun m vs s => do
      let k := s.core m
      if followsLeader s m then
        let l := s.core k.task.leader
        pure (s.modCore m (fun k => beginRep k l.pipe.pc l.pipe.stalls l.pipe.rep))
      else if k.pipe.rep.isSome then raise cIllegalOp
      else
        let (body, after, stalls, s1) ← captureBody m 65536 s k.pipe.pc Hints.none k.pipe.stalls (n + 1) []
        let total := if c.val = 0 then (arg vs 0).toNat else c
        let r : Rep :=
          { n := n + 1, total := total, stagger := st, step := t, body := body, j := 0, pos := 0, after := after, held := none,
            clock := k.pipe.clock, bodyNext := true }
        pure (s1.modCore m (fun k => beginRep k after stalls (if total = 0 then none else some r)))) s

/-- `repw` (R243): it waits until a running repetition has issued in full. -/
def execRepw (s : State) : Out := issue { alone := true } (fun _ _ s => .ok s) s

end Sys2Proof.Machine
end

