-- ==== Sys2Proof/Machine/Wait.lean ====
section
/-! DEFINITION. Waiting: `wait` and the ends of a wait (09 R245 to R248), and the barrier's wait (13 R368, R369). -/
namespace Sys2Proof.Machine

/-! ## Conditions (R246) -/

/-- Descriptor `i`, and the descriptors in use. -/
def waitDesc (desc : Vec) (i : Nat) : Nat := bits desc.toNat (128 * i) 128
def waitCount (ctl : Word) : Nat := field ctl 48 2 + 1

/-- The bits that a kind uses. -/
def waitBits (kind : Nat) : Nat :=
  match kind with
  | 0 => 8
  | 1 => 0
  | 2 => 6
  | 3 | 4 => 120
  | _ => 64

/-- The descriptor's kind and reserved bits are legal. -/
def waitLegal (d : Nat) : Bool :=
  let kind := bits d 124 4
  decide (kind < 7) && bits d (waitBits kind) (124 - waitBits kind) == 0

/-- A word that a condition reads at its home. -/
def waitRead (s : State) (c va len : Nat) : Res (Nat × State) :=
  loadData s { taskAccess s c .read va len 1 with struct := true } none

/-- A descriptor's condition. -/
def condMet (s : State) (c d : Nat) : Res (Bool × State) :=
  match bits d 124 4 with
  | 0 => .ok ((s.core c).ev.ready.any (fun e => bit (bits d 0 8) e.slot), s)
  | 1 => .ok (decide ((s.core c).ev.readyCloses ≠ []), s)
  | 2 => .ok ((s.tile c (bits d 0 6)).state == stReady, s)
  | 3 | 4 => do
    let (v, s1) ← waitRead s c (bits d 0 64) 8
    pure (decide (bits d 64 56 ≤ v), s1)
  | 5 => do
    let (v, s1) ← waitRead s c ((bits d 0 64 + 16) % 2 ^ 64) 16
    pure (decide (bits v 0 64 ≠ bits v 64 64), s1)
  | _ => .ok (decide (bits d 0 64 ≤ s.time), s)

/-- The checks at issue (R246). -/
def waitChecks (s : State) (c : Nat) (desc : Vec) (ctl : Word) : Res State := do
  let ds := (List.range (waitCount ctl)).map (waitDesc desc)
  if field ctl 51 12 ≠ 0 ∨ ds.any (fun d => !waitLegal d) then raise cIllegalOp
  let tiles := (ds.filter (fun d => bits d 124 4 == 2)).map (fun d => bits d 0 6)
  match tiles.find? (fun n => decide (tyTiles (s.core c).task.entry ≤ n) || !(s.tile c n).conf) with
  | some n => raise (if tyTiles (s.core c).task.entry ≤ n then cRegGated else cTileUncfg) 0 (entryInfo n false)
  | none => pure ()
  let words := ds.filter (fun d => bits d 124 4 == 3 || bits d 124 4 == 4 || bits d 124 4 == 5)
  words.foldlM (fun s d => do
    let (_, _, s1) ← checkAccess s { taskAccess s c .read (bits d 0 64) 8 1 with struct := true }
    pure s1) s

/-! ## The evaluation (R247) -/

/-- The task's level or an ancestor is cancelled (R172). -/
def softCancelled (s : State) (c : Nat) : Bool :=
  let t := (s.core c).task
  levelCancelling s t.job (recLaunch t.record)

/-- What the look at the task's levels leaves (R148). -/
def softSeen (s : State) (c : Nat) : State :=
  let t := (s.core c).task
  chainSeen s t.job (recLaunch t.record)

/-- The conditions that hold, as a bitmap; one whose check fails at a later look counts as not held, and one whose read must wait
makes the evaluation wait (R119, R120). (DEDUCED, unsafe; log 44.) -/
def waitHeld (s : State) (c : Nat) (w : WaitSt) : Res (Nat × State) :=
  (List.range (waitCount w.ctl)).foldlM (fun acc i =>
    match condMet acc.2 c (waitDesc w.desc i) with
    | .ok (true, s1) => .ok (acc.1 + 2 ^ i, s1)
    | .ok (false, s1) => .ok (acc.1, s1)
    | .error (.trap _) => .ok acc
    | .error e => .error e) (0, s)

/-- One look at a member's conditions: the result bitmap, and whether it ends the wait. -/
def waitResult (s : State) (c : Nat) (w : WaitSt) : Res (Nat × Bool × State) := do
  let (held, s1) ← waitHeld s c w
  let n := waitCount w.ctl
  let met := if flag w.ctl 50 then held = 2 ^ n - 1 else held ≠ 0
  let late := decide (¬ met ∧ flag w.ctl 63 = false ∧ w.deadline ≤ s.time)
  let gone := softCancelled s c
  pure (held + b2n late * 16 + b2n gone * 32, decide met || late || gone, softSeen s1 c)

/-- The member's bitmap is written and it goes on. -/
def endWait (s : State) (c bitmap : Nat) (w : WaitSt) : Res State := do
  let s1 ← putKLater s c w.d (BitVec.ofNat 64 bitmap)
  pure (s1.modCore c (fun k => { k with mode := .run, waitSt := none }))

/-- The members end their waits in rank order. -/
def endWaits (s : State) : List (Nat × Nat × WaitSt) → Res State
  | [] => .ok s
  | e :: es => do
    let s1 ← endWait s e.1 e.2.1 e.2.2
    endWaits s1 es

/-- The wait is looked at again later. -/
def waitOn (s : State) (c : Nat) : State := (s.dueOnce (.waitWake (coreId c))).dueOnce (.waitTimeout (coreId c))

/-- The members that wait together: a gang goes on when every member is satisfied or timed out (R175). -/
def waitingMembers (s : State) (c : Nat) : List Nat := (actingMembers s c).filter (fun m => (s.core m).waitSt.isSome)

/-- The members looked at: the bitmap of each, and whether the wait ends for all of them. -/
def waitResults (s : State) : List Nat → Res (List (Nat × Nat × WaitSt) × Bool × State)
  | [] => .ok ([], true, s)
  | m :: ms =>
    match (s.core m).waitSt with
    | none => waitResults s ms
    | some w => do
      let (b, fin, s1) ← waitResult s m w
      let (l, all, s2) ← waitResults s1 ms
      pure ((m, b, w) :: l, fin && all, s2)

/-- Every member of the unit is looked at; the wait ends if it ends for each of them. -/
def tryWait (s : State) (c : Nat) : Res State := do
  let (outs, fin, s1) ← waitResults s (waitingMembers s c)
  if fin then endWaits s1 outs else pure (waitOn s1 c)

/-- A trap of the end of a wait is taken at the waiting instruction, once every issued result is written (R199, R210): `again` is
the next look. A fault that parks leaves the unit waiting (R179); else the instruction gives back what it popped (R189). -/
def trapAsleep (s : State) (c : Nat) (t : TrapInfo) (again : State → State) : State :=
  let ms := actingMembers s c
  if ms.any (fun m => (s.core m).awaits) then again s
  else
    let s1 := if classOf t.cause = .entry then ms.foldl (fun s m => giveBack s m (s.core m).pipe.pops) s else s
    takeTrap s1 c t (fun m => (s.core m).pipe.gva)

/-- A look at a wait under way. What keeps its result from being taken makes it wait on. (DEDUCED, unsafe; log 44.) -/
def lookAtWait (s : State) (c : Nat) : State :=
  let k := s.core c
  if k.mode = .wait ∧ k.waitSt.isSome then
    match tryWait s c with
    | .ok s1 => mirrored s1 c
    | .error (.stall reqs) => waitOn (applyReqs s reqs) c
    | .error (.trap t) => trapAsleep s c t (waitOn · c)
  else s

/-- The member enters its wait. -/
def beginWait (s : State) (c d : Nat) (desc : Vec) (ctl : Word) : State :=
  let w : WaitSt := { desc := desc, ctl := ctl, deadline := s.time + field ctl 0 48 * 4, d := d }
  s.modCore c (fun k => { k with mode := .wait, waitSt := some w })

/-- The last of the members that issue together. -/
def lastMember (s : State) (c : Nat) : Bool := (actingMembers s c).getLast? == some c

/-- `wait` (R247). -/
def execWait (d : Fin 16) (a b : Fin 32) (s : State) : Out :=
  issue { srcs := [(.v, a), (.k, b)], dst := some (.k, d), alone := true }
    (fun m vs s => do
      let s1 ← waitChecks s m (argV vs 0) (arg vs 1)
      let s1 ← awaitCheck s1 m d
      let s2 := beginWait s1 m d (argV vs 0) (arg vs 1)
      if lastMember s m then tryWait s2 m else pure s2) s

/-- WAIT_WAKE (R247): a later look at the conditions. -/
def execWaitWake (c : CoreId) (s : State) : Out := .next (lookAtWait s c)

/-- WAIT_TIMEOUT (R247): the deadline is looked at; before it, the conditions are looked at again. -/
def execWaitTimeout (c : CoreId) (s : State) : Out := .next (lookAtWait s c)

/-! ## Barriers (R368, R369) -/

/-- The member's barrier wait ends with its result. -/
def endBarrier (s : State) (c result : Nat) (x : BarSt) : Res State := do
  let s1 ← putKLater s c x.d (BitVec.ofNat 64 result)
  pure (s1.modCore c (fun k => { k with mode := .run, barSt := none }))

def endBarriers (s : State) (result : Nat) : List (Nat × BarSt) → Res State
  | [] => .ok s
  | e :: es => do
    let s1 ← endBarrier s e.1 result e.2
    endBarriers s1 result es

/-- GEN as it stands at its home; none where it cannot be read now: a look whose read fails its check counts GEN as unchanged.
(DEDUCED, unsafe; log 44.) -/
def barGen (s : State) (c : Nat) (x : BarSt) : Option (Nat × State) :=
  match waitRead s c ((x.va.toNat + 8) % 2 ^ 64) 8 with
  | .ok r => some r
  | .error _ => none

/-- The waiting members of the unit go on if GEN has changed or the level is cancelled (R368, R369). A gang's block is the one that
its leader arrived at (R369). -/
def tryBarrier (s : State) (c : Nat) (x : BarSt) : Res State :=
  let gone := softCancelled s c
  let gen := barGen s (if followsLeader s c then (s.core c).task.leader else c) x
  let s1 := softSeen ((gen.map (·.2)).getD s) c
  let changed := (gen.map (fun g => decide (g.1 ≠ x.g.toNat))).getD false
  if changed || gone then
    endBarriers s1 (x.index + b2n gone * 2 ^ 33)
      ((actingMembers s c).filterMap (fun m => (s.core m).barSt.map (fun x => (m, x))))
  else .ok (s1.dueOnce (.barRelease (coreId c)))

/-- A look at a barrier under way. -/
def lookAtBarrier (s : State) (c : Nat) : State :=
  let k := s.core c
  match k.barSt with
  | none => s
  | some x =>
    if k.mode ≠ .wait then s
    else match tryBarrier s c x with
      | .ok s1 => mirrored s1 c
      | .error (.stall reqs) => (applyReqs s reqs).dueOnce (.barRelease (coreId c))
      | .error (.trap t) => trapAsleep s c t (fun s => s.dueOnce (.barRelease (coreId c)))

/-- The arrival at the home (R368): COUNT, GEN and both written as one. -/
def arrive (s : State) (c : Nat) (p : Piece) (parties : Nat) : Res (Nat × Nat × Bool × State) := do
  let s2 ← served s (taskAccess s c .atomic p.va 16 16) .atomic p
  let count := s2.read p.loc 8
  let gen := s2.read (p.loc + 8) 8
  let n := (count + 1) % 2 ^ 64
  let last := decide (parties ≤ n)
  let v := if last then (gen + 1) % 2 ^ 64 * 2 ^ 64 else n + gen * 2 ^ 64
  let s3 := traced (putBytes s2 p.loc 16 v) (taskAccess s2 c .atomic p.va 16 16) 2 p.loc 16
  pure ((n + 2 ^ 64 - 1) % 2 ^ 32, gen, last, remoteServed (remoteSent (s3.evCount c 0x11 1) c [p]) c [p])

/-- The arrival of a barrier instruction: its checks, its release and its place (R368). The index carries `last`. -/
def joinBarrier (s : State) (c d va : Nat) (parties : Word) : Res State := do
  if parties.toNat = 0 ∨ 2 ^ 32 ≤ parties.toNat then raise cIllegalOp
  let a := { taskAccess s c .atomic va 16 16 with struct := true }
  let (_, t, s0) ← checkAccess s a
  let s1 ← awaitCheck s0 c d
  match t with
  | .bytes (p :: _) =>
    let s3 ← settleTask s1 c 0
    let (index, gen, last, s4) ← arrive (commit (l1dInvalidate s3 c a.job va 16) c) c p parties.toNat
    let x : BarSt := { va := BitVec.ofNat 64 va, g := BitVec.ofNat 64 gen, index := index + b2n last * 2 ^ 32, d := d }
    pure (s4.modCore c (fun k => { k with mode := .wait, barSt := some x }))
  | _ => raise cWindowDenied va

/-- A follower of a gang waits with the leader, whose arrival is the gang's (R369). -/
def followBarrier (s : State) (c d : Nat) : State :=
  let x := (s.core (s.core c).task.leader).barSt
  s.modCore c (fun k => { k with mode := .wait, barSt := x.map (fun x => { x with d := d }) })

/-- `bar` (R368). -/
def execBar (d : Fin 16) (a b : Fin 32) (s : State) : Out :=
  issue { srcs := [(.k, a), (.k, b)], dst := some (.k, d), alone := true }
    (fun m vs s => do
      let s1 ← if followsLeader s m then (awaitCheck s m d).map (fun s => followBarrier s m d) else joinBarrier s m d (arg vs 0).toNat (arg vs 1)
      match (s1.core m).barSt with
      | some x => if lastMember s m then tryBarrier s1 m x else pure s1
      | none => pure s1) s

/-- BAR_RELEASE (R368). -/
def execBarRelease (c : CoreId) (s : State) : Out := .next (lookAtBarrier s c)

end Sys2Proof.Machine
end

