-- ==== Sys2Proof/Machine/Finish.lean ====
section
/-! DEFINITION. The ends of tasks by `done` and `halt`, and `yield` (09 R250, R251, R257, 03 R93, 07 R171, 14 R382). -/
namespace Sys2Proof.Machine

/-! ## What `done` waits for -/

/-- The members that one `done` ends: of a broken gang the core alone (R176, R250). -/
def endingMembers (s : State) (c : Nat) : List Nat := if (s.core c).task.brk then [c] else unitMembers s c

/-- An engine job of the task that has not completed (R250, R307). -/
def jobsLeft (s : State) (c : Nat) : Bool :=
  let k := s.core c
  k.jobs.any (fun j => j.engine != 0 && j.engine != 9 && decide (k.task.jobsFrom < j.id)) ||
    k.task.elsewhere.any (fun e => (findJob s e.1 e.2).isSome)

/-- Results, SC operations, engine jobs, matrix commands, contributions and submissions that are still under way. -/
def endBusy (s : State) (c : Nat) : Bool :=
  let k := s.core c
  k.awaits || s.scOps.any (fun o => o.core.val == c) || jobsLeft s c || k.mx.queue != [] || k.mx.window != [] ||
    (s.square (squareOf c)).copyWin.any (fun e => e.2.1.val == c) || k.tiles.any (fun e => e.2.refs != 0) || slotsQueued s c

/-- The tile table at the end (R93): logs are applied and dirty paged tiles drained. `true` while that goes on. -/
def endTile (s : State) (c : Nat) (e : Nat × Tile) : Res (Bool × State) :=
  let t := s.tile c e.1
  if t.conf = false then .ok (false, s)
  else match t.fault with
    | some f => .error (.trap f)
    | none =>
      if t.moving.isSome then .ok (true, s)
      else if t.paged ∧ t.state = stReady ∧ (t.dirty ∨ t.logCnt ≠ 0) then .ok (true, requestEvict s c e.1 byInstr)
      else if t.logCnt ≠ 0 then
        if t.state = stEmpty then
          match (tileDemand s c e.1 byInstr : Res Unit) with
          | .error (.trap f) => .error (.trap f)
          | .error (.stall reqs) => .ok (true, applyReqs s reqs)
          | .ok _ => .ok (true, s)
        else .ok (true, requestKeep s c e.1)
      else .ok (false, s)

def endTiles (s : State) (c : Nat) : List (Nat × Tile) → Res (Bool × State)
  | [] => .ok (false, s)
  | e :: es => do
    let (b1, s1) ← endTile s c e
    let (b2, s2) ← endTiles s1 c es
    pure (b1 || b2, s2)

/-- The helpers at the end (R382): the storer's FIFOs are empty, or its fault is `done`'s. `true` while it still works. -/
def endHelpers (s : State) (c : Nat) : Res Bool := do
  helperFault s c false
  helperFault s c true
  let k := s.core c
  let full := (List.range 8).any (fun i => let x := k.strm i; x.bound && x.mode == mStorer && x.fifo != [])
  pure (k.storer.running && (full || k.storer.held.isSome))

/-- One member's end goes as far as it can; `true` while something holds it. -/
def endMember (s0 : State) (c : Nat) : Res (Bool × State) := do
  let sn ← settleNear s0 c
  let s ← drainAll sn c
  if endBusy s c then pure (true, s)
  else
    let (b, s1) ← endTiles s c (s.core c).tiles
    if b then pure (true, s1)
    else
      let w ← endHelpers s1 c
      pure (w, s1)

def endMembers (s : State) : List Nat → Res (Bool × State)
  | [] => .ok (false, s)
  | c :: cs => do
    let (b1, s1) ← endMember s c
    let (b2, s2) ← endMembers s1 cs
    pure (b1 || b2, s2)

/-! ## The end -/

/-- The core leaves its task; one that executed `halt` takes none again (R257). -/
def leaveTask (s : State) (c : Nat) : State :=
  let halting := (s.core c).task.halting
  let s1 := clearTask s c
  let s2 := if halting then s1.modCore c (fun k => { k with spad := { k.spad with wdrn := true } }) else s1
  idleCore s2 c

/-- The counts of R171, once the last member of the unit ends. -/
def finishUnit (s : State) (c : Nat) (ms : List Nat) : State :=
  let t := (s.core c).task
  let others := (unitMembers s c).filter (fun m => !ms.contains m)
  let s1 := if others = [] then unitFinished s c t.job (recLaunch t.record) false else s
  ms.foldl leaveTask s1

/-- A fault of `done`: the task goes back to it. -/
def endFault (s : State) (c : Nat) (ms : List Nat) (t : TrapInfo) : State :=
  let s1 := ms.foldl (fun s m => s.modCore m (fun k => { k with
    task := { k.task with ending := false, halting := false }
    pipe := { k.pipe with pc := k.pipe.gva, stalls := k.pipe.gstalls } })) s
  takeTrap s1 c t (fun m => (s1.core m).pipe.gva)

/-- `done` goes on (R250). A fault waits for every issued result (R210); a unit whose level is hard-cancelled is discarded at it
(R172). -/
def taskEndStep (s : State) (c : Nat) : State :=
  let k := s.core c
  if ¬ k.holdsTask ∨ k.task.ending = false then s
  else
    let ms := endingMembers s c
    let again := fun (s : State) => s.dueOnce (.taskEnd (coreId c))
    match endMembers s ms with
    | .error (.trap t) =>
      if (unitMembers s c).any (fun m => (s.core m).awaits) then again s
      else if hardCancelled s c then discardUnit s c false
      else endFault s c ms t
    | .error (.stall reqs) => again (applyReqs s reqs)
    | .ok (true, s1) => again s1
    | .ok (false, s1) => finishUnit s1 c ms

/-- TASK_END (R250). -/
def execTaskEnd (c : CoreId) (s : State) : Out := .next (taskEndStep s c)

/-- `done` or `halt` issues (R250, R257, R337, R381). -/
def beginEnd (halt : Bool) (s : State) : Out :=
  issue { sys := halt, alone := true }
    (fun m _ s => do
      helperFault s m false
      helperFault s m true
      let s1 := disarmAll s m
      pure ((s1.modCore m (fun k => { k with
        nest := { k.nest with active := false }
        task := { k.task with ending := true, halting := halt } })).dueOnce
          (.taskEnd (coreId (if (s.core m).task.brk || (s.core m).task.gang == 0 then m else (s.core m).task.leader))))) s

/-- `done` (R250). -/
def execDone (s : State) : Out := beginEnd false s

/-- `halt` (R257). -/
def execHalt (s : State) : Out := beginEnd true s

/-! ## `yield` (R251) -/

/-- A record of the task's priority or a higher one waits on the core's deque or the partition's ready queue, and may bind to this
core (R251). -/
def yieldsTo (s : State) (c : Nat) : Bool :=
  let k := s.core c
  let d := s.die (dieOf c)
  (k.deque ++ k.spilled ++ d.ready ++ d.spill).any (fun r =>
    r.job == k.task.job && selectable s r && !isReserved s r && inPartition s r.job (squareOf c) &&
      decide (k.task.prio ≤ effective s r) && !levelCancelling s r.job (recLaunch r.record) &&
      (match unitCheck s (dieOf c) r with
      | .ok (ty, s1) => decide (bindsTo s1 c r ty ≠ .never)
      | .error _ => false))

/-- `yield` (R251): the gang's leader decides; without a free context slot it is a `nop` (R422). -/
def execYield (s : State) : Out :=
  issue { alone := true }
    (fun m _ s =>
      let k := s.core m
      if followsLeader s m then .ok s
      else if yieldsTo s m && (freeSlots s k.task.job (dieOf m) (unitMembers s m).length).isSome then
        .ok ((s.modCore m (fun k => { k with preempt := some .yield })).dueOnce (.preemptDone (coreId m)))
      else .ok s) s

/-- PREEMPT_DRAIN_DONE (R422). -/
def execPreemptDrainDone (c : CoreId) (s : State) : Out := .next (preemptStep s c)

end Sys2Proof.Machine
end

