-- ==== Sys2Proof/Machine/System.lean ====
section
/-! DEFINITION. The sys group but for the ends of tasks (09 R252 to R256, 01 R38, 16 R411 to R418) and the control registers
(08 R190, R191, 09 R229). -/
namespace Sys2Proof.Machine

/-! ## Traps and returns (R252 to R254) -/

/-- `trap` and `brk` (R252): the trap is taken with SKIP = 1. -/
def softTrap (cause : Nat) (value : Word) : Res State :=
  .error (.trap { mkTrap cause value.toNat with skip := true })

/-- `trap` (R252). -/
def execTrap (a : Fin 32) (s : State) : Out := issue { srcs := [(.k, a)] } (fun _ vs _ => softTrap cSwTrap (arg vs 0)) s

/-- `brk` (R252). -/
def execBrk (s : State) : Out := issue {} (fun _ _ _ => softTrap cBrk 0) s

/-- `eret` (R253). -/
def execEret (s : State) : Out :=
  issue { alone := true }
    (fun m _ s =>
      let k := s.core m
      if flag k.trap.cause 8 = false then raise cIllegalOp
      else if k.awaits then stall
      else .ok (s.modCore m returnFromTrap)) s

/-- `chk` (R254). -/
def execChk (s : State) : Out :=
  issue {}
    (fun m _ s => do
      let s1 ← settleNear (s.modCore m (fun k => { k with pipe := { k.pipe with hints := Hints.none } })) m
      pure (takeCheck s1 m)) s

/-- `nop` (R254). -/
def execNop (s : State) : Out := issue {} (fun _ _ s => .ok s) s

/-! ## Cancellation (R172, R255) -/

/-- The task on a core belongs to the subtree of a level. -/
def inSubtree (s : State) (c job i : Nat) : Bool :=
  let k := s.core c
  k.holdsTask && k.task.job == job && (chainOf s job (recLaunch k.task.record)).contains i

/-- The core at which the hardware handles a unit: its leader, or the core itself. -/
def unitHead (s : State) (c : Nat) : Bool :=
  let t := (s.core c).task
  t.gang == 0 || t.brk || t.leader == c

/-- A cancel performs at a level block (R172). -/
def cancelLevel (s : State) (c job i : Nat) (hard : Bool) : State :=
  let b := readLevel s job i
  if b.status ≠ levelOpen then levelSeen s job i
  else
    let s1 := setCtl (levelSeen s job i) job i { b with can := true, canh := b.canh || hard }
    let s2 := cancelReservations (completeCancelled s1 c job i)
    if hard then
      (((s2.cores.map (·.1)).filter (fun m => inSubtree s2 m job i && unitHead s2 m)).foldl hardCancelAt s2)
    else s2

/-- The block's update is an RC write of the task at its home (R119, R255). -/
def cancelOrder (s : State) (c job i : Nat) : Res State :=
  match checkAccess s (hwAccess c job (levelVa s job i) 32 .write) with
  | .ok (_, .bytes ps, s1) => orderBefore s1 c (ps.map (fun p => { p with order := .rc }))
  | _ => orderBefore s c []

/-- `cancel` and `cancelh` (R255). -/
def cancelWith (hard : Bool) (a b : Fin 32) (s : State) : Out :=
  issue { srcs := [(.k, a), (.k, b)], sys := b.val ≠ 0 }
    (fun m vs s =>
      let t := (s.core m).task
      if 4096 ≤ (arg vs 0).toNat then raise cIllegalOp
      else if t.sys ∧ 256 ≤ (arg vs 1).toNat then raise cIllegalOp
      else do
        let job := if t.sys then (arg vs 1).toNat else t.job
        let s1 ← cancelOrder s m job (arg vs 0).toNat
        pure (cancelLevel s1 m job (arg vs 0).toNat hard)) s

/-- `cancel` (R255). -/
def execCancel (a b : Fin 32) (s : State) : Out := cancelWith false a b s

/-- `cancelh` (R255). -/
def execCancelh (a b : Fin 32) (s : State) : Out := cancelWith true a b s

/-! ## `tlbinv` (R38 to R40) -/

/-- The range that a `tlbinv` names: its first address and the one after its last. -/
def tlbRange (a b : Word) : Nat × Nat :=
  let d := a.toNat / 2 ^ 52 % 2
  let first := a.toNat / 4096 * 4096
  (first, min (first + field b 16 32 * 4096) ((d + 1) * 2 ^ 52))

/-- The translations dropped from a die: entries that overlap the range, and the job's walk-cache entries; none for an empty range.
(DEDUCED, unsafe; log 49.) -/
def dropTranslations (d : Die) (job lo hi : Nat) (all : Bool) : Die :=
  if all = false ∧ hi ≤ lo then d
  else { d with
    tlb := d.tlb.filter (fun e => ¬ (e.job = job ∧ (all ∨ (e.va < hi ∧ lo < e.va + pageSize e.size))))
    walk := d.walk.filter (fun e => e.job ≠ job) }

/-- The type entries of a job dropped from a die (R394). -/
def dropTypes (job : Nat) (d : Die) : Die := { d with typeCache := d.typeCache.filter (fun e => e.1 ≠ job) }

/-- An address of a job lies in the range of a `tlbinv`. -/
def inTargets (job lo hi : Nat) (all : Bool) (j va : Nat) : Bool := decide (j = job ∧ (all ∨ (lo ≤ va ∧ va < hi)))

/-- What a core discards: its sectors in the range (R39, R100, R102), and what it has fetched of paged code while it runs a task of
the job (R38, R473). (DEDUCED, unsafe; log 49.) -/
def dropLines (k : Core) (job lo hi : Nat) (all : Bool) : Core :=
  let hit := fun (e : Sector) => inTargets job lo hi all e.job e.va
  let runs := k.holdsTask && k.task.job == job
  { k with
    l1d := k.l1d.filter (fun e => !hit e), fills := k.fills.filter (fun e => !hit e), l1i := k.l1i.filter (fun e => !hit e)
    fetchBuf := if runs then k.fetchBuf.filter (fun e => 2 ^ 53 ≤ e.va) else k.fetchBuf }

/-- The images of a job that a core's helpers hold go (R375). -/
def dropImages (job : Nat) (k : Core) : Core :=
  let image := fun (x : Option (Nat × Word)) => x.filter (fun i => i.1 ≠ job)
  { k with
    loader := { k.loader with image := image k.loader.image }
    storer := { k.storer with image := image k.storer.image } }

/-- The translations and lines go. (DEDUCED, unsafe; log 49.) -/
def invalidate (s : State) (job : Nat) (a b : Word) : State :=
  let all := flag b 8
  let (lo, hi) := tlbRange a b
  let dies := if all then [0, 1] else [a.toNat / 2 ^ 52 % 2]
  let s1 := dies.foldl (fun s d => s.modDie d (fun k => dropTranslations k job lo hi all)) s
  { s1 with cores := s1.cores.map (fun e => (e.1, dropLines e.2 job lo hi all)) }

/-- `tlbinv` (R38): the issuing core goes on at its completion. -/
def execTlbinv (a b : Fin 32) (s : State) : Out :=
  issue { srcs := [(.k, a), (.k, b)], sys := true }
    (fun m vs s => do
      let va := arg vs 0
      let sel := arg vs 1
      if 2 ^ 53 ≤ va.toNat ∧ flag sel 8 = false then raise cNonCanon va.toNat
      if field sel 9 7 ≠ 0 ∨ field sel 48 16 ≠ 0 then raise cIllegalOp
      let s1 ← settleTask s m 4
      let s2 := invalidate s1 (field sel 0 8) va sel
      let (lo, hi) := tlbRange va sel
      let w : TlbWait := { mark := s2.seq, job := field sel 0 8, lo := lo, hi := hi, all := flag sel 8 }
      pure (({ s2 with seq := s2.seq + 1 }.modCore m (fun k => { k with tlbWait := some w })).dueOnce
        (.tlbinvComplete (coreId m)))) s

/-- No access that was under way when the `tlbinv` issued is left (R38). -/
def tlbSettled (s : State) (mark : Nat) : Bool :=
  s.cores.all (fun e => e.2.near == [] && e.2.sbuf.all (fun b => decide (mark ≤ b.seq))) &&
    s.scOps.all (fun o => decide (mark ≤ o.seq))

/-- What a completed `tlbinv` ends: the ownership of the blocks in its range (R149), the images of the job in the helpers' stores
(R375), and with ALL = 1 the type entries of the job (R394). -/
def targetsGone (s : State) (w : TlbWait) : State :=
  let s1 := (s.cores.map (·.1)).foldl (fun s c => releaseBlocks s c (fun e => inTargets w.job w.lo w.hi w.all e.job e.va)) s
  let s2 : State := { s1 with cores := s1.cores.map (fun e => (e.1, dropImages w.job e.2)) }
  if w.all then (s2.modDie 0 (dropTypes w.job)).modDie 1 (dropTypes w.job) else s2

/-- TLBINV_COMPLETE (R38). -/
def execTlbinvComplete (c : CoreId) (s : State) : Out :=
  match (s.core c).tlbWait with
  | none => .next s
  | some w =>
    if tlbSettled s w.mark then
      .next ((targetsGone s w).modCore c (fun k => { k with tlbWait := none }))
    else .next (s.dueOnce (.tlbinvComplete c))

/-! ## `fbflush` (R256, R417, R418) -/

/-- An entry declared unserviceable that the drain of a dirty square-memory tile of a unit under pre-emption made: the unit ends with
the paging cause (R94, R414). -/
def endDrainFault (s : State) (e : FbEntry) : State :=
  let k := s.core e.core
  let drained := k.tiles.any (fun x => x.2.conf && x.2.paged && x.2.home == 1 && x.2.dirty &&
    decide (x.2.back.toNat ≤ e.va.toNat ∧ e.va.toNat < x.2.back.toNat + x.2.size))
  if e.killed ∧ e.agent = .paging ∧ drained ∧ preempting s e.core ∧ k.holdsTask ∧ k.task.job = e.job then
    endUnit s e.core (mkTrap e.kind e.va.toNat (BitVec.ofNat 64 (e.flag * 16))) k.pipe.pc
  else s

/-- The flush of a die's fault buffer. -/
def flushFaults (s : State) (die : Nat) : State :=
  let d := s.die die
  let gone := d.fb.filter (·.delivered)
  let s1 := s.modDie die (fun d => { d with
    fb := d.fb.filter (fun e => !e.delivered)
    fbGen := (d.fbGen + 1) % 2 ^ 16
    killed := d.killed ++ (gone.filter (·.killed)).map (fun e => e.gen * 512 + e.index) })
  let s2 := gone.foldl (fun s e => s.due (.faultRetry (dieId die) e.index e.gen)) s1
  admitFaults (gone.foldl endDrainFault s2) die

/-- `fbflush` (R256). -/
def execFbflush (d : Fin 16) (a : Fin 32) (s : State) : Out :=
  issue { srcs := [(.k, a)], dst := some (.k, d), sys := true }
    (fun m vs s =>
      if 2 ≤ (arg vs 0).toNat then raise cIllegalOp
      else
        let die := (arg vs 0).toNat
        putKLater (flushFaults s die) m d (BitVec.ofNat 64 (((s.die die).fbGen + 1) % 2 ^ 16))) s

/-- The helpers go on after a retry: code that is missing is copied again, and the loader's reads return (R381, R383). -/
def retryHelpers (s : State) : State :=
  (s.cores.map (·.1)).foldl (fun s c =>
    let again := fun (s : State) (storer : Bool) =>
      let h := helperOf (s.core c) storer
      if h.missing ∧ h.held.isNone ∧ h.fault.isNone then resumeHelper s c storer else s
    let s1 := again (again s false) true
    let h := (s1.core c).loader
    if h.reads ≠ [] ∧ h.held.isNone then s1.dueOnce (.loaderReturn (coreId c)) else s1) s

/-- FAULT_RETRY (R417). -/
def execFaultRetry (die : Fin 2) (entry gen : Nat) (s : State) : Out := .next (retryHelpers (retryFault s die entry gen))

/-! ## Control registers (R190, R191, R229) -/

/-- CORE.ID (R191). (DEDUCED, unsafe; log 76.) -/
def coreIdReg (c : Nat) : Word :=
  BitVec.ofNat 64 (joinFields [(dieOf c, 1), (districtOf (squareOf c), 3), (squareOf c, 6), (c, 8)])

/-- GANG (R174). -/
def gangReg (t : Task) : Word :=
  BitVec.ofNat 64 (joinFields [(t.gang, 2), (0, 3), (b2n t.brk, 1), (if t.gang = 3 then 0 else t.rank, 2)])

/-- TASK.STAT (R174). -/
def taskStat (t : Task) : Word :=
  BitVec.ofNat 64 (joinFields [(t.rq, 16), (recLaunch t.record, 12), (recType t.record, 10), (t.prio, 3), (0, 6),
    (b2n t.commit, 1)])

/-- The value of an allocated register (R190); none for a number that is not allocated. -/
def readReg (s : State) (c n : Nat) : Option Word :=
  let k := s.core c
  match n with
  | 0x000 => some (coreIdReg c)
  | 0x001 => some (BitVec.ofNat 64 s.time)
  | 0x002 => some (BitVec.ofNat 64 (b2n (tyCheck k.task.entry)))
  | 0x010 => some k.trap.cause
  | 0x011 => some k.trap.pc
  | 0x012 => some k.trap.addr
  | 0x013 => some k.trap.info
  | 0x020 => some (streamStat k)
  | 0x040 => some (mxCad s c)
  | 0x041 => some (BitVec.ofNat 64 k.mx.mode)
  | 0x042 => some (mxStat k.mx)
  | 0x043 => some (BitVec.ofNat 64 k.mx.sample)
  | 0x060 => some (BitVec.ofNat 64 k.ev.win)
  | 0x061 => some k.ev.org
  | 0x062 => some (BitVec.ofNat 64 k.ev.wtmo)
  | 0x063 => some (BitVec.ofNat 64 (k.ev.ldrop * 2 ^ 32 + b2n k.ev.lateDrop))
  | 0x064 => some k.ev.spillReg
  | 0x0C0 => some k.pool.base
  | 0x0C1 => some k.pool.stat
  | 0x0C4 => some k.trace.base
  | 0x0C5 => some k.trace.len
  | 0x0C6 => some (BitVec.ofNat 64 k.trace.count)
  | 0x0C8 => some (BitVec.ofNat 64 s.cyc)
  | 0x0D0 => some (gangReg k.task)
  | 0x0D1 => some (taskStat k.task)
  | 0x800 => some (BitVec.ofNat 64 (if dieOf c = 0 then (s.job k.task.job).lost0 else (s.job k.task.job).lost1))
  | 0x801 => some (BitVec.ofNat 64 s.mcCount)
  | n =>
    if 0x080 ≤ n ∧ n < 0x090 then (s.job k.task.job).nrg[n - 0x080]?
    else if 0x090 ≤ n ∧ n < 0x098 then k.evc[n - 0x090]?
    else if 0x098 ≤ n ∧ n < 0x0A0 then k.evcSel[n - 0x098]?
    else none

/-- The registers held outside the core, whose reads take a while (R190). -/
def remoteReg (n : Nat) : Bool := decide (0x040 ≤ n ∧ n ≤ 0x043) || decide (0x080 ≤ n ∧ n < 0x090)

/-- `getc` (R190, R229). The cores of a LOCKSTEP pair read CORE.IDs that differ, so its write-back is a mismatch (R177, R191). -/
def execGetc (d : Fin 16) (n : Fin 4096) (s : State) : Out :=
  let lat := if remoteReg n then 0 else 1
  issue { dst := some (.k, d), lat := lat, sys := 0x800 ≤ n.val }
    (fun m _ s =>
      if n.val = 0 ∧ (s.core m).task.gang = 3 then raise cLockstep
      else match readReg s m n with
      | none => raise cIllegalOp
      | some v => if remoteReg n then putKLater s m d v else putK s m d 1 v) s

/-- A reserved bit of a written value is set (R229). -/
def reserved (v : Word) (allowed : Nat) : Bool := v.toNat &&& allowed != v.toNat

/-- A write to a register that has no row of its own (R229); none where it is ILLEGAL_OP. -/
def writeReg (k : Core) (n : Nat) (v : Word) : Option Core :=
  let ok (allowed : Nat) (k : Core) : Option Core := if reserved v allowed then none else some k
  match n with
  | 0x010 => ok 0x1FF { k with trap := { k.trap with cause := setField k.trap.cause 0 8 (field v 0 8) } }
  | 0x011 => some { k with trap := { k.trap with pc := v } }
  | 0x012 => some { k with trap := { k.trap with addr := v } }
  | 0x013 => ok 0xFFFF000F3F7FFFFF { k with trap := { k.trap with info := setField k.trap.info 0 1 (field v 0 1) } }
  | 0x020 => ok 0xFFFFFF { k with streams := Vector.ofFn (fun i : Fin 8 =>
      let x := k.strm i.val
      { x with endB := x.endB && !flag v i.val, overB := x.overB && !flag v (8 + i.val) }) }
  | 0x042 => ok 0x1FF805 { k with mx := { k.mx with drop := k.mx.drop && !flag v 2, satStat := k.mx.satStat && !flag v 0 } }
  | 0x062 => ok 0xFFFF { k with ev := { k.ev with wtmo := v.toNat } }
  | 0x063 => ok 0xFFFFFFFF00000001 { k with ev := { k.ev with lateDrop := flag v 0 } }
  | n =>
    if 0x090 ≤ n ∧ n < 0x098 then some { k with evc := k.evc.setIfInBounds (n - 0x090) v }
    else if 0x098 ≤ n ∧ n < 0x0A0 then
      if 0x16 < field v 0 8 then none else ok 0x1FF { k with evcSel := k.evcSel.setIfInBounds (n - 0x098) v }
    else none

/-- `setc` of a register without a behaviour of its own (R190, R229). -/
def execSetc (a : Fin 32) (n : Fin 4096) (s : State) : Out :=
  issue { srcs := [(.k, a)], sys := 0x800 ≤ n.val }
    (fun m vs s =>
      match writeReg (s.core m) n (arg vs 0) with
      | none => raise cIllegalOp
      | some k => .ok (s.setCore m k)) s

/-- A range of bytes stays in the task's declared region (R67). -/
def inRegion (t : Task) (lo n : Nat) : Bool := n == 0 || decide (lo + n ≤ t.region)

/-- What a tile with a log makes `setc` of LOG.BASE wait for: its fill and the application of its log (R83). -/
def emptyLogs (s : State) (c : Nat) : List (Nat × Tile) → Res Unit
  | [] => .ok ()
  | e :: es =>
    if e.2.logCnt = 0 then emptyLogs s c es
    else if e.2.state = stEmpty then tileDemand s c e.1 byInstr
    else if e.2.state = stDraining then
      match e.2.fault with
      | some f => .error (.trap f)
      | none => stall [.keep c e.1]
    else stall

/-- SETC_LOG_BASE (R83). -/
def execSetcLogBase (a : Fin 32) (s : State) : Out :=
  issue { srcs := [(.k, a)] }
    (fun m vs s => do
      let v := arg vs 0
      let k := s.core m
      if reserved v 0x1FFF0FFF then raise cIllegalOp
      if 4096 < field v 16 13 ∨ inRegion k.task (field v 0 12 * 64) (field v 16 13 * 16) = false then raise cTileShape
      emptyLogs s m k.tiles
      if k.pool.used ≠ [] then stall
      pure (s.modCore m (fun k => { k with pool := { k.pool with base := v } }))) s

/-- The traced range and the ring are where they may be (R133). -/
def traceLegal (c : Nat) (t : Task) (base len : Word) : Bool :=
  let n := field len 0 16 * 64
  let lo := base.toNat
  let inside := fun (start size : Nat) => decide (start ≤ lo ∧ lo + n ≤ start + size)
  decide (field len 0 16 ≤ 32768) && inRegion t (field len 50 6 * 4096) 4096 &&
    (n == 0 || inside (scratchLoc c) 0x40000 || inside (squareLoc (squareOf c)) 0x200000)

/-- SETC_TRACE (R133): TRACE.BASE and TRACE.LEN; TRACE.STAT cannot be written (R190). -/
def execSetcTrace (a : Fin 32) (n : Fin 2) (s : State) : Out :=
  issue { srcs := [(.k, a)] }
    (fun m vs s =>
      let v := arg vs 0
      let k := s.core m
      let base := if n.val = 0 then v else k.trace.base
      let len := if n.val = 0 then k.trace.len else v
      if reserved v (if n.val = 0 then 0xFFFFFFFFFFFFFFC0 else 0x80FC00000000FFFF) then raise cIllegalOp
      else if traceLegal m k.task base len then
        .ok (s.modCore m (fun k => { k with trace := { k.trace with base := base, len := len } }))
      else raise cWindowDenied) s

/-- SETC_EV_REBASE (R353): EV.WIN or EV.ORG. -/
def execSetcEvRebase (a : Fin 32) (n : Fin 2) (s : State) : Out :=
  issue { srcs := [(.k, a)] }
    (fun m vs s =>
      let v := arg vs 0
      if n.val = 0 ∧ reserved v 0xFFFFFFFF then raise cIllegalOp
      else
        let s1 := s.modEv m (fun q => if n.val = 0 then { q with win := v.toNat } else { q with org := v })
        .ok (rebase s1 m)) s

/-- SETC_EV_SPILL (R344). -/
def execSetcEvSpill (a : Fin 32) (s : State) : Out :=
  issue { srcs := [(.k, a)] }
    (fun m vs s =>
      let v := arg vs 0
      let k := s.core m
      if reserved v 0xFFFFFFFF1FFF0FFF then raise cIllegalOp
      else if 4096 < field v 16 13 ∨ inRegion k.task (field v 0 12 * 64) (field v 16 13 * 16) = false then
        raise cWindowDenied
      else if k.ev.ringUsed ≠ 0 then stall
      else .ok (s.modEv m (fun q => { q with spill := BitVec.ofNat 64 (v.toNat % 2 ^ 32) }))) s

/-- SETC_MX_MODE (R328): MX.MODE or MX.SAMPLE, for commands that enter the queue later. -/
def execSetcMxMode (a : Fin 32) (n : Fin 2) (s : State) : Out :=
  issue { srcs := [(.k, a)] }
    (fun m vs s =>
      let v := (arg vs 0).toNat
      if n.val = 0 then
        if 4 ≤ v then raise cIllegalOp else .ok (s.modMx m (fun x => { x with mode := v }))
      else if 16 < v then raise cIllegalOp
      else .ok (s.modMx m (fun x => { x with sample := v }))) s

end Sys2Proof.Machine
end

