-- ==== Sys2Proof/Machine/Atomic.lean ====
section
/-! DEFINITION. Ordered accesses, atomics, fences, prefetch and L1 invalidation (11 R288 to R294, 05 R116 to R131, 06 R142 to R156),
and the steps of the hardware that finish accesses. -/
namespace Sys2Proof.Machine

/-! ## SC operations (R128 to R131) -/

/-- What an SC operation does: `op` is none for `ld.sc`, some 99 for `st.sc`, some 98 for `cas`, else the operation of R142. -/
structure ScReq where
  op : Option Nat
  width : Nat
  sext : Bool
  operand : Word
  expected : Word
  deriving DecidableEq, Repr

/-- The window that a new SC operation of a core is announced in: the next one, or where four are announced in it already, a
later one (R128). -/
def announceWindow (s : State) (c : Nat) : Nat :=
  let mine := s.scOps.filter (fun o => o.core.val == c)
  let w := mine.foldl (fun w o => Nat.max w o.window) (s.cyc / 32 + 1)
  if 4 ≤ (mine.filter (fun o => o.window == w)).length then w + 1 else w

/-- An SC operation issues (R128): every earlier other access of the task has performed. -/
def scIssue (s : State) (c : Nat) (ps : List Piece) (r : ScReq) (dest : Option Nat) : Res State := do
  let s1 ← drainAll s c
  let o : ScOp :=
    { window := announceWindow s1 c, core := coreId c, seq := s1.seq, pieces := ps, op := r.op, width := r.width, sext := r.sext,
      operand := r.operand, expected := r.expected, dest := dest }
  let s2 := if r.op.isSome then remoteSent s1 c ps else s1
  pure (({ s2 with seq := s2.seq + 1, scOps := s2.scOps ++ [o] }.evCount c 0x15 1).dueOnce .beacon)

/-- The checks and the place of an SC operation: its pieces, after its tile is READY (R74, R155).
(DESIGN CHOICE, unsafe; log 96.) -/
def scTarget (s : State) (a : Access) (write : Bool) : Res (List Piece × State) := do
  let (_, t, s1) ← checkAccess s a
  match t with
  | .bytes ps => pure (ps, s1)
  | .tile n off =>
    let p ← slotReady s1 a n off
    pure ([p], if write then markDirty s1 a.core n else s1)

/-- What an earlier access of the task may still hold an SC operation for (R128). -/
def scWait (s : State) (c scope : Nat) : Res Unit :=
  if (s.core c).near != [] then stall
  else if scope = 4 ∧ remoteCards s c then stall
  else .ok ()

/-- One operation performs at its home (R129): its value. (DESIGN CHOICE, unsafe; log 51.) -/
def scPerform (s : State) (o : ScOp) : Res (Word × State) := do
  let c := o.core.val
  let va := (o.pieces.head?.map (·.va)).getD 0
  let a := { taskAccess s c .atomic va o.width o.width with sys := true }
  match o.op with
  | none =>
    let (v, s1) ← readPieces s a o.pieces
    pure (loaded (b2n o.sext) (8 * o.width) v, s1)
  | some 99 =>
    let s1 ← writePieces s a 0 o.pieces o.operand.toNat
    pure (0, l1dPerformed (remoteServed s1 c o.pieces) c a.job o.pieces)
  | some n =>
    match o.pieces with
    | p :: _ =>
      let op : AtomicOp := { op := n, operand := o.operand.toNat, expected := if n = 98 then some o.expected.toNat else none }
      let (v, s1) ← atomicAt (remoteUnsent s c [p]) a 2 false p op
      pure (BitVec.ofNat 64 v, l1dPerformed s1 c a.job [p])
    | [] => pure (0, s)

/-- The order of R129: window, core, sequence. -/
def scBefore (x y : ScOp) : Bool :=
  decide (x.window < y.window) || (x.window == y.window && (decide (x.core.val < y.core.val) ||
    (x.core == y.core && decide (x.seq < y.seq))))

/-- The first of the operations whose place has come. -/
def scFirst (now : Nat) (l : List ScOp) : Option ScOp :=
  l.foldl (fun b o =>
    if now < 32 * (o.window + 1) + 24 then b
    else match b with
      | some x => if scBefore o x then some o else b
      | none => some o) none

/-- The checkpoint of a LOCKSTEP pair after its SC operation has performed (R177). -/
def scChecked (s : State) (o : ScOp) : State :=
  let c := o.core.val
  if (s.core c).task.gang = 3 ∧ (s.core c).holdsTask ∧ o.op.isSome then mirrored (takeCheck s c) c else s

/-- The operations whose place has come perform in the total order. One that must wait for a clear holds those behind it.
(DESIGN CHOICE, unsafe; log 51.) -/
def scRun : Nat → State → State
  | 0, s => s
  | fuel + 1, s =>
    match scFirst s.cyc s.scOps with
    | none => s
    | some o =>
      let s1 : State := { s with scOps := s.scOps.filter (fun x => x.seq ≠ o.seq) }
      let c := o.core.val
      match scPerform s1 o with
      | .ok (v, s2) => scRun fuel (scChecked (match o.dest with
        | some n => (s2.modCore c (fun k => k.deliver n (v.zeroExtend 512))).due (.resultWriteback o.core)
        | none => s2) o)
      | .error (.trap t) => scRun fuel (if (s1.core c).holdsTask then endUnit s1 c t (s1.core c).pipe.gva else s1)
      | .error (.stall _) => s

/-- BEACON_WINDOW (R129). -/
def execBeaconWindow (s : State) : Out :=
  let s1 := scRun s.scOps.length s
  .next (if s1.scOps = [] then s1 else s1.dueOnce .beacon)

/-! ## Ordered loads and stores (R288) -/

/-- `ld.acq` (R288). -/
def execLdAcq (d : Fin 16) (a : Fin 32) (_p : Fin 8) (w : Fin 4) (x : Fin 2) (s : State) : Out :=
  let n : Nat := 2 ^ w.val
  issue { srcs := [(.k, a)], dst := some (.k, d), cls := 4, use := { scope := true } }
    (fun m vs s => do
      let (v, s1) ← loadData s (taskAccess s m .read (arg vs 0).toNat n n) none
      putKLater s1 m d (loaded x (8 * n) v)) s

/-- What a release waits for besides the stores ahead of it in the buffer (R118, R119 row d). A smaller scope orders no less.
(DESIGN CHOICE, unsafe; log 87.) -/
def releaseWait (s : State) (c scope : Nat) : Res Unit :=
  if s.scOps.any (fun o => o.core.val == c) || (s.core c).near != [] then stall
  else if scope = 4 ∧ remoteCards s c then stall
  else .ok ()

/-- `st.rel` (R288). -/
def execStRel (a b : Fin 32) (p : Fin 8) (w : Fin 4) (s : State) : Out :=
  let n : Nat := 2 ^ w.val
  issue { srcs := [(.k, a), (.k, b)], cls := 4, use := { scope := true } }
    (fun m vs s => do
      releaseWait s m (scopeOf (s.core m).hints p)
      storeData s (taskAccess s m .write (arg vs 0).toNat n n) ((arg vs 1).toNat % 2 ^ (8 * n)) false true) s

/-- `ld.sc` (R288). -/
def execLdSc (d : Fin 16) (a : Fin 32) (p : Fin 8) (w : Fin 4) (x : Fin 2) (s : State) : Out :=
  let n : Nat := 2 ^ w.val
  issue { srcs := [(.k, a)], dst := some (.k, d), cls := 4, use := { scope := true } }
    (fun m vs s => do
      let (ps, s1) ← scTarget s (taskAccess s m .read (arg vs 0).toNat n n) false
      scWait s1 m (scopeOf (s.core m).hints p)
      let (k, s2) ← putAwaited s1 m d
      scIssue s2 m ps { op := none, width := n, sext := x.val == 1, operand := 0, expected := 0 } (some k)) s

/-- `st.sc` (R288). -/
def execStSc (a b : Fin 32) (p : Fin 8) (w : Fin 4) (s : State) : Out :=
  let n : Nat := 2 ^ w.val
  issue { srcs := [(.k, a), (.k, b)], cls := 4, use := { scope := true } }
    (fun m vs s => do
      let acc := taskAccess s m .write (arg vs 0).toNat n n
      let (ps, s1) ← scTarget s acc true
      scWait s1 m (scopeOf (s.core m).hints p)
      let s2 := commit (l1dInvalidate s1 m acc.job acc.va n) m
      scIssue s2 m ps { op := some 99, width := n, sext := false, operand := BitVec.ofNat 64 ((arg vs 1).toNat % 2 ^ (8 * n)),
                        expected := 0 } none) s

/-! ## Atomics (R289 to R291) -/

/-- The bytes of an atomic's width field. -/
def atomicWidth (w : Nat) : Nat := if w = 0 then 8 else 4

/-- The hint fields of atomics. -/
def useAtomic : HintUse := { sc := true, scope := true }

/-- A returning atomic: its result comes at once, with ownership, or with its place in the SC order. `cas` has `expected`. -/
def returningAtomic (op : Nat) (expected : Option Nat) (m d va operand n p o : Nat) (s : State) : Res State := do
  let h := (s.core m).hints
  let acc := taskAccess s m .atomic va n n
  if scWith h then
    let (ps, s1) ← scTarget s acc true
    scWait s1 m 0
    let s2 := commit (l1dInvalidate s1 m acc.job va n) m
    let (k, s3) ← putAwaited s2 m d
    scIssue s3 m ps { op := some (if expected.isSome then 98 else op), width := n, sext := false,
                      operand := BitVec.ofNat 64 operand, expected := BitVec.ofNat 64 (expected.getD 0) } (some k)
  else
    let s1 ← if 2 ≤ o then do
        let _ ← checkAccess s acc
        releaseWait s m (scopeOf h p)
        drainAll s m
      else pure s
    let r ← atomicData s1 acc { op := if expected.isSome then 99 else op, operand := operand, expected := expected } 2 false
      (o % 2 == 1) none
    match r with
    | .done old s2 => putKLater s2 m d (BitVec.ofNat 64 old)
    | .asked s2 =>
      let (k, s3) ← putAwaited s2 m d
      pure (s3.modCore m (fun x => { x with near := x.near.dropLast ++ (x.near.getLast?.map (fun q => { q with dest := some k })).toList }))

/-- `amo` with a sub-operation (R289). -/
def amoWith (op : Nat) (d : Fin 16) (a b : Fin 32) (p : Fin 8) (o : Fin 4) (w : Fin 2) (s : State) : Out :=
  let n := atomicWidth w
  issue { srcs := [(.k, a), (.k, b)], dst := some (.k, d), cls := 4, use := useAtomic }
    (fun m vs s => returningAtomic op none m d (arg vs 0).toNat ((arg vs 1).toNat % 2 ^ (8 * n)) n p o s) s

/-- The log code of a `red`, if it is loggable (R82, R84). -/
def redLog (op n : Nat) : Option Nat :=
  if op ≤ 7 then some (op + 1) else if op = 9 ∧ n = 4 then some 9 else none

/-- `red` with a sub-operation (R289). -/
def redWith (op : Nat) (a b : Fin 32) (_p : Fin 8) (w : Fin 2) (s : State) : Out :=
  let n := atomicWidth w
  issue { srcs := [(.k, a), (.k, b)], cls := 4, use := { scope := true } }
    (fun m vs s => do
      let acc := taskAccess s m .atomic (arg vs 0).toNat n n
      let r ← atomicData s acc { op := op, operand := (arg vs 1).toNat % 2 ^ (8 * n), expected := none } 1 false false
        (redLog op n)
      match r with
      | .done _ s1 => pure s1
      | .asked s1 => pure s1) s

/-- `amo.add` (R289). -/
def execAmoAdd (d : Fin 16) (a b : Fin 32) (p : Fin 8) (o : Fin 4) (w : Fin 2) (s : State) : Out := amoWith 0 d a b p o w s
/-- `amo.and` (R289). -/
def execAmoAnd (d : Fin 16) (a b : Fin 32) (p : Fin 8) (o : Fin 4) (w : Fin 2) (s : State) : Out := amoWith 1 d a b p o w s
/-- `amo.or` (R289). -/
def execAmoOr (d : Fin 16) (a b : Fin 32) (p : Fin 8) (o : Fin 4) (w : Fin 2) (s : State) : Out := amoWith 2 d a b p o w s
/-- `amo.xor` (R289). -/
def execAmoXor (d : Fin 16) (a b : Fin 32) (p : Fin 8) (o : Fin 4) (w : Fin 2) (s : State) : Out := amoWith 3 d a b p o w s
/-- `amo.min` (R289). -/
def execAmoMin (d : Fin 16) (a b : Fin 32) (p : Fin 8) (o : Fin 4) (w : Fin 2) (s : State) : Out := amoWith 4 d a b p o w s
/-- `amo.max` (R289). -/
def execAmoMax (d : Fin 16) (a b : Fin 32) (p : Fin 8) (o : Fin 4) (w : Fin 2) (s : State) : Out := amoWith 5 d a b p o w s
/-- `amo.minz` (R289). -/
def execAmoMinz (d : Fin 16) (a b : Fin 32) (p : Fin 8) (o : Fin 4) (w : Fin 2) (s : State) : Out := amoWith 6 d a b p o w s
/-- `amo.maxz` (R289). -/
def execAmoMaxz (d : Fin 16) (a b : Fin 32) (p : Fin 8) (o : Fin 4) (w : Fin 2) (s : State) : Out := amoWith 7 d a b p o w s
/-- `amo.swap` (R289). -/
def execAmoSwap (d : Fin 16) (a b : Fin 32) (p : Fin 8) (o : Fin 4) (w : Fin 2) (s : State) : Out := amoWith 8 d a b p o w s
/-- `amo.fadd` (R289). -/
def execAmoFadd (d : Fin 16) (a b : Fin 32) (p : Fin 8) (o : Fin 4) (w : Fin 2) (s : State) : Out := amoWith 9 d a b p o w s
/-- `amo.incw` (R289). -/
def execAmoIncw (d : Fin 16) (a b : Fin 32) (p : Fin 8) (o : Fin 4) (w : Fin 2) (s : State) : Out := amoWith 10 d a b p o w s

/-- `red.add` (R289). -/
def execRedAdd (a b : Fin 32) (p : Fin 8) (w : Fin 2) (s : State) : Out := redWith 0 a b p w s
/-- `red.and` (R289). -/
def execRedAnd (a b : Fin 32) (p : Fin 8) (w : Fin 2) (s : State) : Out := redWith 1 a b p w s
/-- `red.or` (R289). -/
def execRedOr (a b : Fin 32) (p : Fin 8) (w : Fin 2) (s : State) : Out := redWith 2 a b p w s
/-- `red.xor` (R289). -/
def execRedXor (a b : Fin 32) (p : Fin 8) (w : Fin 2) (s : State) : Out := redWith 3 a b p w s
/-- `red.min` (R289). -/
def execRedMin (a b : Fin 32) (p : Fin 8) (w : Fin 2) (s : State) : Out := redWith 4 a b p w s
/-- `red.max` (R289). -/
def execRedMax (a b : Fin 32) (p : Fin 8) (w : Fin 2) (s : State) : Out := redWith 5 a b p w s
/-- `red.minz` (R289). -/
def execRedMinz (a b : Fin 32) (p : Fin 8) (w : Fin 2) (s : State) : Out := redWith 6 a b p w s
/-- `red.maxz` (R289). -/
def execRedMaxz (a b : Fin 32) (p : Fin 8) (w : Fin 2) (s : State) : Out := redWith 7 a b p w s
/-- `red.swap` (R289). -/
def execRedSwap (a b : Fin 32) (p : Fin 8) (w : Fin 2) (s : State) : Out := redWith 8 a b p w s
/-- `red.fadd` (R289). -/
def execRedFadd (a b : Fin 32) (p : Fin 8) (w : Fin 2) (s : State) : Out := redWith 9 a b p w s

/-- `cas` (R290): the expected value is in the register that fn names. -/
def execCas (d : Fin 16) (a b : Fin 32) (p : Fin 8) (o : Fin 4) (w : Fin 2) (c : Fin 16) (s : State) : Out :=
  let n := atomicWidth w
  issue { srcs := [(.k, a), (.k, b), (.k, c.val)], dst := some (.k, d), cls := 4, use := useAtomic }
    (fun m vs s =>
      returningAtomic 99 (some ((arg vs 2).toNat % 2 ^ (8 * n))) m d (arg vs 0).toNat ((arg vs 1).toNat % 2 ^ (8 * n)) n p o s) s

/-! ## Fences (R125, R292) -/

/-- `fence.acq` (R125): every load of the task has its value at issue, but for atomics and SC operations under way. -/
def execFenceAcq (_p : Fin 8) (s : State) : Out :=
  issue { cls := 4, use := { scope := true } }
    (fun m _ s =>
      if s.scOps.any (fun o => o.core.val == m) || (s.core m).near != [] then stall else .ok s) s

/-- `fence.rel` (R125). (DEDUCED, unsafe; log 46.) -/
def execFenceRel (p : Fin 8) (s : State) : Out :=
  issue { cls := 4, use := { scope := true } } (fun m _ s => settleTask s m (scopeOf (s.core m).hints p)) s

/-- `fence.full` (R125). (DEDUCED, unsafe; log 46.) -/
def execFenceFull (p : Fin 8) (s : State) : Out :=
  issue { cls := 4, use := { scope := true } } (fun m _ s => settleTask s m (scopeOf (s.core m).hints p)) s

/-! ## Prefetch and L1 invalidation (R293, R294) -/

/-- The sector at an address requested: for the L1D where the policy and its owner allow it, otherwise in the L2 only (R293). -/
def prefetch (s : State) (c va : Nat) : State :=
  let a := taskAccess s c .read (va / 64 * 64) 64 1
  match checkAccess s a with
  | .ok (_, .bytes [p], s1) =>
    if ¬ p.paged then s1
    else match readSector s1 a p with
      | .ok (_, s2) => if p.va / 2 ^ 52 = dieOf c ∧ policy c p 0 = 2 then requestFill1 s2 c a.job p else s2
      | .error (.trap t) => s1.meets (some c) t
      | .error (.stall _) => s1
  | .error (.trap t) => s.meets (some c) t
  | _ => s

/-- `pf` (R293): it never traps. -/
def execPf (a : Fin 32) (s : State) : Out :=
  issue { srcs := [(.k, a)], cls := 4, use := { scope := true } } (fun m vs s => .ok (prefetch s m (arg vs 0).toNat)) s

/-- A block or sector of a job lies in a range. -/
def inRange (job lo n j va : Nat) : Bool := decide (j = job ∧ lo < va + 64 ∧ va < lo + n ∧ n ≠ 0)

/-- The sectors of a range discarded (R294). -/
def discardRange (k : Core) (job lo n : Nat) : Core :=
  let hit := inRange job lo n
  { k with
    l1d := k.l1d.filter (fun e => !hit e.job e.va), fills := k.fills.filter (fun e => !hit e.job e.va) }

/-- `l1inv` (R294). -/
def execL1inv (a b : Fin 32) (s : State) : Out :=
  issue { srcs := [(.k, a), (.k, b)], cls := 4, use := { scope := true } }
    (fun m vs s =>
      let job := (s.core m).task.job
      let s1 := releaseBlocks s m (fun e => inRange job (arg vs 0).toNat (arg vs 1).toNat e.job e.va)
      let k := discardRange (s1.core m) job (arg vs 0).toNat (arg vs 1).toNat
      let busy := Nat.min 256 (((arg vs 1).toNat + 63) / 64)
      .ok (s1.setCore m { k with pipe := { k.pipe with readyAt := k.pipe.readyAt + busy } })) s

/-! ## Steps that finish accesses -/

/-- A result of a core leaves its list. -/
def dropResult (s : State) (c seq : Nat) : State :=
  s.modCore c (fun k => { k with pipe := { k.pipe with pend := k.pipe.pend.filter (fun x => x.seq ≠ seq) } })

/-- The mark of a log found full changes between the instruction at issue and the late push. -/
def swapFull (s : State) (c : Nat) : State :=
  s.modCore c (fun k => { k with pipe := { k.pipe with full := k.pipe.fullPush, fullPush := k.pipe.full } })

/-- The push of a late result to its stream. -/
def pushLate (s : State) (c : Nat) (p : Pending) : Res State := do
  let s1 ← pushStream (swapFull s c) c (p.idx - 12) p.value
  pure (dropResult (s1.modCore c (fun k => { k with pipe := { k.pipe with full := k.pipe.fullPush, fullPush := false } })) c p.seq)

/-- A late result can still be written: its value has to come, or its push does not fault. -/
def canWrite (s : State) (c : Nat) (p : Pending) : Bool :=
  p.landAt == 1 || !p.push || (match pushLate s c p with
    | .error (.trap _) => false
    | _ => true)

/-- Results of a core's unit other than one that faults are still to be written (R210). -/
def resultsLeft (s : State) (c seq : Nat) : Bool :=
  (gangOf s c).any (fun m => (s.core m).pipe.pend.any (fun x => x.wait && (m != c || x.seq != seq) && canWrite s m x))

/-- A delivered result behind one that faults is written meanwhile. -/
def writeBehind (s : State) (c seq : Nat) : State :=
  match oldestWaiting ((s.core c).pipe.pend.filter (fun x => x.seq ≠ seq && canWrite s c x)) with
  | none => s
  | some q =>
    if q.toStream then (match pushLate s c q with
      | .ok s1 => s1
      | .error _ => s)
    else mirrored (s.modCore c (fun k => k.writeResult q)) c

/-- The push of a late result traps (R189, R199), at its instruction, which gives back what it popped. One that parks the unit is
tried again when it goes on (R179); a trap that goes to the entry waits for the results still to come (R210) and for a running
repetition. -/
def lateTrap (s : State) (c : CoreId) (p : Pending) (t : TrapInfo) : State :=
  let at_ := fun (m : Nat) => if m = c.val then p.va else (s.core m).firstUnissued
  if classOf t.cause = .buffer then (takeTrap s c t at_).dueOnce (.resultWriteback c)
  else if (s.core c).repeating || resultsLeft s c p.seq then (writeBehind s c p.seq).dueOnce (.resultWriteback c)
  else takeTrap (giveBack (dropResult s c p.seq) c p.pops) c t at_

/-- RESULT_WRITEBACK (R208): the oldest result whose value has come is written, or pushed to the stream that was bound there when it
issued. -/
def execResultWriteback (c : CoreId) (s : State) : Out :=
  match oldestWaiting (s.core c).pipe.pend with
  | none => .next s
  | some p =>
    if p.toStream ∧ (s.core c).mode = .park then .next (s.dueOnce (.resultWriteback c))
    else if p.toStream then
      match pushLate s c p with
      | .ok s1 => .next s1
      | .error (.stall reqs) => .next ((swapFull (applyReqs (swapFull s c) reqs) c).dueOnce (.resultWriteback c))
      | .error (.trap t) => .next (lateTrap s c p t)
    else .next (mirrored (s.modCore c Core.writeBack) c)

/-- STORE_PERFORM (R283): the next part of a buffered store performs (R280), unless a store before it must perform first. -/
def execStorePerform (c : CoreId) (i : Nat) (s : State) : Out :=
  let l := (s.core c).sbuf
  match l[i]? with
  | none => .next s
  | some b =>
    if mayPerform (l.take i) b then
      match performPart s c b with
      | .ok s1 => .next (if b.pieces.length ≤ 1 then s1 else s1.due (.storePerform c))
      | .error (.trap t) => .next (takeTrap s c t (fun m => (s.core m).pipe.gva))
      | .error (.stall reqs) => .next ((applyReqs s reqs).dueOnce (.storePerform c))
    else .next (s.dueOnce (.storePerform c))

/-- L1D_SECTOR_FILL (R99): the oldest fill under way is installed. (DESIGN CHOICE, unsafe; log 16.) -/
def execL1dSectorFill (c : CoreId) (s : State) : Out :=
  match (s.core c).fills with
  | [] => .next s
  | e :: rest => .next (s.modCore c (fun k =>
      let (l, trees) := installSector 12 256 k.l1d k.l1dTree e
      { k with fills := rest, l1d := l, l1dTree := trees }))

/-- OWNERSHIP_GRANT (R147). -/
def execOwnershipGrant (c : CoreId) (s : State) : Out :=
  match grantOwnership s c with
  | .ok s1 => .next (mirrored s1 c)
  | .error (.trap t) =>
    .next (takeTrap (s.modCore c (fun k => { k with near := k.near.drop 1 })) c t (fun m => (s.core m).pipe.gva))
  | .error (.stall reqs) => .next ((applyReqs s reqs).dueOnce (.grant c))

/-- REVOKE (R148, R150): a revoke reaches the owner of a block, which lets it go; `byOther` tells that another agent's access
caused it. -/
def execRevoke (c : CoreId) (block : Nat) (byOther : Bool) (s : State) : Out :=
  if (s.core c).atoms.any (fun e => e.loc = block) then
    let s1 := revoked s (if byOther then none else some c.val) block 64
    let s2 : State := { s1 with returns := s1.returns ++ [{ block := block, core := c }] }
   .next (s2.due (.revokeReturn block))
  else .next s

/-- REVOKE_DATA_RETURN (R148): the block is at its home again. -/
def execRevokeDataReturn (block : Nat) (s : State) : Out :=
  .next { s with returns := s.returns.filter (fun r => r.block ≠ block) }

end Sys2Proof.Machine
end

