-- ==== Sys2Proof/Machine/Stream.lean ====
section
/-! DEFINITION. The stream group and the return of a stream's fetch (11 R296 to R302). -/
namespace Sys2Proof.Machine

/-- The descriptor allows the binding of stream `i` (R297): its reserved bits, its mode and width, its direction, and the helper
that a LOADER or STORER stream needs. -/
def streamLegal (k : Core) (i d : Nat) : Bool :=
  let mode := bits d 224 2
  let dir := bit d 226
  let ew := bits d 227 3
  bits d 232 24 == 0 && mode != 3 && ew != 7 &&
    !(mode == mLoader && dir) && !(mode == mStorer && !dir) &&
    (if i < 4 then decide (ew ≤ 3) else decide (4 ≤ ew)) &&
    !(mode == mLoader && tyLdProg k.task.entry == 0) && !(mode == mStorer && tyStProg k.task.entry == 0)

/-- Stream `i` is bound to a descriptor (R297). (DEDUCED, unsafe; log 52.) -/
def bindStream (s : State) (c i d : Nat) : State :=
  s.modStrm c i (fun _ => { Strm.reset with bound := true, desc := BitVec.ofNat 256 d })

/-- `sbind` (R297). (DEDUCED, unsafe; log 52.) -/
def execSbind (i : Fin 8) (b : Fin 32) (s : State) : Out :=
  issue { srcs := [(.k, b)], cls := 4, alone := true }
    (fun m vs s => do
      let (d, s1) ← loadStruct s m (arg vs 0).toNat 32 32
      if streamLegal (s.core m) i.val d = false then raise cIllegalOp
      if 4 ≤ i.val ∧ tyVreg (s.core m).task.entry < 2 then raise cRegGated
      streamFault s1 m (bits d 224 2)
      let s2 ← unbindStream s1 m i.val
      let s3 ← settleTask s2 m 0
      let s4 := bindStream s3 m i.val d
      pure (if bits d 224 2 = mAgen ∧ bit d 226 = false then s4.dueOnce (.streamFetch (coreId m) i) else s4)) s

/-- `sunbind` (R300). -/
def execSunbind (i : Fin 8) (s : State) : Out :=
  issue { cls := 4, alone := true } (fun m _ s => unbindStream s m i.val) s

/-- The status of a stream (R301). An unbound stream gives 0. -/
def Strm.status (x : Strm) : Word :=
  if x.bound then
    BitVec.ofNat 64 (joinFields [(0, 16), (x.mode, 2), (b2n x.writes, 1), (1, 1), (b2n x.endB, 1), (b2n x.overB, 1), (0, 5),
      (x.fifo.length, 5), (x.pos, 32)])
  else 0

/-- `sstat` (R301). -/
def execSstat (d : Fin 16) (i : Fin 8) (s : State) : Out :=
  issue { dst := some (.k, d), cls := 4, alone := true } (fun m _ s => putKLater s m d ((s.core m).strm i.val).status) s

/-- STREAM_FETCH_RETURN (R298, R299). -/
def execStreamFetchReturn (c : CoreId) (i : Fin 8) (s : State) : Out := .next (fetchElement s c.val i.val)

end Sys2Proof.Machine
end

