-- ==== Sys2Proof/Machine/EngineInstr.lean ====
section
/-! DEFINITION. Engine job cards as `ejob` and the copy-engine window submit them, and the steps of a job (11 R303 to R307,
05 R136 to R140). -/
namespace Sys2Proof.Machine

/-- The first check of a card that fails, as a trap (R305). -/
def cardTrap (s : State) (c : Nat) (k : Card) : Res Unit :=
  match cardCheck s c k with
  | some (cause, addr) => raise cause addr
  | none => .ok ()

/-- `ejob` (R305). -/
def execEjob (a : Fin 32) (s : State) : Out :=
  issue { srcs := [(.k, a)], cls := 4 }
    (fun m vs s => do
      let (v, s1) ← loadStruct s m (arg vs 0).toNat 64 64
      let k := cardOf v
      cardTrap s1 m k
      let s2 ← settleTask s1 m 0
      match submitCard s2 m k with
      | none => stall
      | some s3 => pure (commit s3 m)) s

/-! ## The copy-engine window (R306, R140) -/

/-- The cards that wait at a square's window are tried again, each core's in order; `seen` lists the cores whose first card still
waits. -/
def retryCopies (q : Nat) : List (BitVec 512 × CoreId × Bool) → List Nat → State → State
  | [], _, s => s
  | (v, c, storer) :: rest, seen, s =>
    let keep := s.modSquare q (fun k => { k with copyWin := k.copyWin ++ [(v, c, storer)] })
    if seen.contains c.val then retryCopies q rest seen keep
    else match submitWindow s c.val (localLoc + 0x1010000) v.toNat storer with
      | .ok s1 => retryCopies q rest seen s1
      | .error (.stall _) => retryCopies q rest (c.val :: seen) keep
      | .error (.trap t) =>
        let s1 :=
          if storer then helperTrap s c.val true t (s.core c.val).storer.pc.toNat
          else takeTrap s c.val t (fun m => (s.core m).firstUnissued)
        retryCopies q rest seen s1

def retryCopyWindow (s : State) (q : Nat) : State :=
  let l := (s.square q).copyWin
  if l = [] then s else retryCopies q l [] (s.modSquare q (fun k => { k with copyWin := [] }))

/-- COPY_QUEUE_WINDOW_STORE (R306): a 64-byte store by a core's task or its storer reaches the copy-engine window.
(DEDUCED, unsafe; log 60.) -/
def execCopyQueueWindowStore (c : CoreId) (byStorer : Bool) (data : BitVec 512) (s : State) : Out :=
  if ¬ (s.core c.val).holdsTask then .next s
  else
    let q := squareOf c.val
    .next (retryCopyWindow (s.modSquare q (fun k => { k with copyWin := k.copyWin ++ [(data, c, byStorer)] })) q)

/-! ## The steps of a job -/

/-- ENGINE_JOB_START (R136). A place in the queue may have come free for a card that waits. -/
def execEngineJobStart (c : CoreId) (id : Nat) (s : State) : Out :=
  .next (retryCopyWindow (startJob s c.val id) (squareOf c.val))

/-- ENGINE_JOB_COMPLETE (R138, R307): the job's accesses perform, and then its counter is incremented. -/
def execEngineJobComplete (c : CoreId) (id : Nat) (s : State) : Out :=
  .next (retryCopyWindow (runJob s c.val id) (squareOf c.val))

/-- The fault that ends a job at its next row or element, if it is no paging fault. -/
def jobFault (s : State) (c : Nat) (j : Job) : Option TrapInfo :=
  let k := cardOf j.card.toNat
  if j.started = false ∨ j.held.isSome ∨ k.rows ≤ j.pos then none
  else match jobUnit s c j k j.pos with
    | .error (.trap t) => if t.cause = cPageAbsent ∨ t.cause = cPagePerm then none else some t
    | _ => none

/-- ENGINE_JOB_FAULT (R307): a fault other than a paging fault ends the job with a trap-queue record. -/
def execEngineJobFault (c : CoreId) (id : Nat) (s : State) : Out :=
  match findJob s c.val id with
  | none => .next s
  | some j =>
    match jobFault s c.val j with
    | none => .next s
    | some t => .next (endJob s c.val j t)

end Sys2Proof.Machine
end

