-- ==== Sys2Proof/Machine/TileInstr.lean ====
section
/-! DEFINITION. The tile instructions and the steps of the paging engine (03 R69 to R91, 12 R327, R330, R331). -/
namespace Sys2Proof.Machine

/-- What the tile instructions on an entry name (R330): an entry beyond the task's demand is gated. -/
def tileSig (n : Nat) (srcs : List (RegFile × Nat)) : Sig := { srcs := srcs, tiles := [n], cls := 4 }

/-! ## `tcfg` (R70, R91) -/

/-- The new configuration breaks a rule of R70; `region` is the bytes of the declared scratchpad region. -/
def shapeWrong (region : Nat) (cfg back : Word) : Bool :=
  let t : Tile := { Tile.reset with cfg := cfg, back := back }
  decide (9 ≤ t.fmt) || field cfg 48 16 != 0 || field cfg 21 3 != 0 || flag cfg 7 || decide (16384 < t.size) ||
    decide (64 < t.logCap) || (t.home == 0 && decide (region < t.place + t.size)) ||
    (t.home == 1 && decide (0x200000 < t.place + t.size)) ||
    (t.paged && (decide (2 ^ 53 ≤ back.toNat) || back.toNat % 256 != 0))

/-- The entry as the new configuration leaves it (R91). -/
def Tile.configured (t : Tile) (cfg back : Word) : Tile :=
  let u : Tile := { t with cfg := cfg, back := back, conf := true, keep := false, wanted := false, fault := none }
  let same := t.paged && t.home == u.home && t.place == u.place && t.back == back
  if u.paged = false then { u with state := stReady, dirty := false }
  else if t.conf ∧ t.state = stReady ∧ same then { u with state := stReady }
  else { u with state := stEmpty, dirty := false }

/-- `tcfg` of one core (R91). A tile whose drain has faulted keeps its log, and `tcfg` waits for the drain that applies it.
(DESIGN CHOICE, unsafe; log 84.) -/
def configure (s : State) (c n : Nat) (cfg back : Word) : Res State := do
  let t := s.tile c n
  if isTwin s c n then raise cTileShape
  match t.fault with
  | some f => .error (.trap f)
  | none =>
    if t.refs ≠ 0 ∨ t.state = stFilling ∨ t.state = stDraining then stall
    if t.logCnt ≠ 0 then (if t.state = stEmpty then tileDemand s c n byInstr else stall)
    if shapeWrong (s.core c).task.region cfg back then raise cTileShape
    let u := t.configured cfg back
    if t.conf ∧ t.state = stReady ∧ t.paged ∧ t.dirty ∧ u.paged ∧ u.state = stEmpty then stall [.evict c n]
    pure (s.modTile c n (fun _ => u))

/-- `tcfg` (R91, R330). (DEDUCED, unsafe; log 53.) -/
def execTcfg (n : Fin 64) (a b : Fin 32) (s : State) : Out :=
  issue (tileSig n [(.k, a), (.k, b)]) (fun m vs s => configure s m n (arg vs 0) (arg vs 1)) s

/-! ## Rows between memory and a tile (R331) -/

/-- The access of the core to a tile's home. -/
def homeAccess (s : State) (c len : Nat) (kind : AccessKind) : Access := taskAccess s c kind localLoc len 1

/-- The address of row `r`. -/
def rowVa (base stride : Word) (r : Nat) : Nat := wrap (base.toInt + r * stride.toInt) 64

/-- One row copied, into the tile or out of it. The page's policy at cp 0 applies, but nothing is allocated in the L1D. -/
def copyRow (s : State) (c n : Nat) (into : Bool) (base stride : Word) (r : Nat) : Res State := do
  let t := s.tile c n
  let rb := t.cols * elemSize t.fmt
  let va := rowVa base stride r
  let home := slotPiece c t va (r * rb) rb
  let a := { taskAccess s c (if into then .read else .write) va rb 1 with struct := true }
  if into then
    let (v, s1) ← loadData s a (some 0) false
    let s2 ← orderBefore s1 c [home]
    homeWrite s2 (homeAccess s c rb .write) home.loc rb v
  else
    let s1 ← orderBefore s c [home]
    let (v, s2) ← readPiece s1 (homeAccess s c rb .read) home
    storeData s2 a v false false

/-- Rows `r` and on, as far as they go: the state they leave and what stopped them. -/
def copyRows (c n : Nat) (into : Bool) (base stride : Word) : Nat → State → Nat → State × Option Stop
  | 0, s, _ => (s, none)
  | k + 1, s, r =>
    match copyRow s c n into base stride r with
    | .ok s1 => copyRows c n into base stride k s1 (r + 1)
    | .error e => (s, some e)

/-- Every row of the tile. (DEDUCED, unsafe; log 56.) -/
def copyTile (s : State) (c n : Nat) (into : Bool) (base stride : Word) : Res State :=
  match copyRows c n into base stride (s.tile c n).rows s 0 with
  | (s1, none) => .ok (if into then markDirty s1 c n else s1)
  | (_, some e) => .error e

/-- What `tld` and `tst` name. -/
def rowSig (n : Fin 64) (a b : Fin 32) : Sig := tileSig n [(.k, a), (.k, b)]

/-- What an instruction waits for that writes a tile (R327): no queued command names it. -/
def writeWaits (s : State) (c n : Nat) : Res Unit := if (s.tile c n).refs ≠ 0 then stall else .ok ()

/-- What `tst` waits for (R327): no queued `mst` names the tile. -/
def storeWaits (s : State) (c n : Nat) : Res Unit :=
  if (s.core c).mx.queue.any (fun cmd => cmd.sub == 6 && cmd.td == n) then stall else .ok ()

/-- The effect of `tld` and `tst` for one member. -/
def rowBody (n : Fin 64) (into : Bool) : Body := fun m vs s => do
  needTile s m n
  if into then writeWaits s m n else storeWaits s m n
  copyTile s m n into (arg vs 0) (arg vs 1)

/-- A fault at a row leaves the earlier rows done (R331): the state with those of the member that faults. -/
def earlierRows (s : State) (n : Fin 64) (into : Bool) (a b : Fin 32) : State :=
  let g := rowSig n a b
  let c := issuer s
  match issueAll g (rowBody n into) (beforePair s c) (actingMembers s c) [] with
  | .trap _ m _ _ =>
    match issueChecks s m g, popOperands (beginIssue s m g) m g.srcs with
    | .ok _, .ok (vs, _) =>
      match (needTile s m n : Res Unit), copyRows m n into (arg vs 0) (arg vs 1) (s.tile m n).rows s 0 with
      | .ok _, (s1, some (.trap _)) => if into then markDirty s1 m n else s1
      | _, _ => s
    | _, _ => s
  | _ => s

/-- `tld` (R331). -/
def execTld (n : Fin 64) (a b : Fin 32) (s : State) : Out :=
  issue (rowSig n a b) (rowBody n true) (earlierRows s n true a b)

/-- `tst` (R331). -/
def execTst (n : Fin 64) (a b : Fin 32) (s : State) : Out :=
  issue (rowSig n a b) (rowBody n false) (earlierRows s n false a b)

/-- `tzero` (R330). -/
def execTzero (n : Fin 64) (s : State) : Out :=
  issue (tileSig n [])
    (fun m _ s => do
      needTile s m n
      writeWaits s m n
      let t := s.tile m n
      let s1 ← orderBefore s m [slotPiece m t localLoc 0 t.size]
      let s2 ← homeWrite s1 (homeAccess s m t.size .write) (tileLoc m t) t.size 0
      pure (markDirty s2 m n)) s

/-! ## Requests of the paging engine (R78) -/

/-- An entry must be configured. -/
def needConf (s : State) (c n : Nat) : Res Unit :=
  if (s.tile c n).conf then .ok () else raise cTileUncfg 0 (entryInfo n false)

/-- `tfetch` of one core (R78, R79, R330): it issues in any tile state; the fill it asks for waits on its own. -/
def fetchTile (s : State) (c n : Nat) : Res State := do
  needConf s c n
  let t := s.tile c n
  if t.paged = false ∨ t.state = stReady ∨ t.state = stFilling then pure s
  else if t.state = stDraining then pure (requestKeep s c n)
  else pure (tryWanted (s.modTile c n (fun t => { t with wanted := true })) c n)

/-- `tfetch` (R78). -/
def execTfetch (n : Fin 64) (s : State) : Out := issue (tileSig n []) (fun m _ s => fetchTile s m n) s

/-- `tevict` of one core (R78). (DEDUCED, unsafe; log 54.) -/
def evictTile (s : State) (c n : Nat) : Res State := do
  needConf s c n
  let t := s.tile c n
  if t.paged = false then pure s
  else if t.refs ≠ 0 ∨ t.state = stFilling then stall
  else
    let s1 := requestEvict s c n byNone
    if t.state = stReady ∧ (s1.tile c n).state = stReady then stall
    else pure (s1.modTile c n (fun t => { t with pinned := false }))

/-- `tevict` (R78). -/
def execTevict (n : Fin 64) (s : State) : Out := issue (tileSig n []) (fun m _ s => evictTile s m n) s

/-- PINNED written (R77). -/
def pinTile (n : Nat) (b : Bool) : Body := fun m _ s => do
  needConf s m n
  pure (s.modTile m n (fun t => { t with pinned := b }))

/-- `tpin` (R77). -/
def execTpin (n : Fin 64) (s : State) : Out := issue (tileSig n []) (pinTile n true) s

/-- `tunpin` (R77). -/
def execTunpin (n : Fin 64) (s : State) : Out := issue (tileSig n []) (pinTile n false) s

/-- `tstat` (R330): TSTAT, TCFG or TBACK of an entry pushed. -/
def execTstat (n : Fin 64) (sel : Fin 32) (s : State) : Out :=
  issue { tileSig n [] with dst := some (.k, 0) }
    (fun m _ s =>
      let t := s.tile m n
      match sel.val with
      | 0 => putKLater s m 0 t.stat
      | 1 => putKLater s m 0 t.cfg
      | 2 => putKLater s m 0 t.back
      | _ => raise cIllegalOp) s

/-! ## The steps of the paging engine -/

/-- TILE_FILL_LAST_BEAT (R76, R80): the fill goes one beat on; the last lands with it. (DESIGN CHOICE, safe; log 9.) -/
def execTileFillLastBeat (c : CoreId) (n : Fin 64) (s : State) : Out := .next (mirrored (runFill s c n) c)

/-- LOG_APPLY_ENTRY (R86). -/
def execLogApplyEntry (c : CoreId) (n : Fin 64) (s : State) : Out :=
  match runApply s c n with
  | .ok s1 => .next (mirrored s1 c)
  | .error (.trap t) => .next (takeTrap s c t (fun m => (s.core m).pipe.gva))
  | .error (.stall reqs) => .next ((applyReqs s reqs).dueOnce (.logApply c n))

/-- TILE_DRAIN_DONE (R76, R80): the drain goes one beat on; it is done with its last. -/
def execTileDrainDone (c : CoreId) (n : Fin 64) (s : State) : Out := .next (mirrored (runDrain s c n) c)

/-- The fault of a transfer under way, if its next beat faults. -/
def moveFault (s : State) (c n : Nat) : Option (TileMove × TrapInfo) :=
  let t := s.tile c n
  match t.moving with
  | none => none
  | some m =>
    if m.landed then none
    else match (if m.fill then fillBeat s c t m.pos else drainBeat s c t m.pos) with
      | .error (.trap f) => some (m, f)
      | _ => none

/-- TILE_TRANSFER_FAULT (R81). -/
def execTileTransferFault (c : CoreId) (n : Fin 64) (s : State) : Out :=
  match moveFault s c n with
  | some (m, f) => .next (mirrored (transferFault s c n m f) c)
  | none => .next s

end Sys2Proof.Machine
end

