-- ==== Sys2Proof/Machine/Matrix.lean ====
section
/-! DEFINITION. The matrix instructions and the steps of the matrix engine (12 R311 to R329, 05 R137, R139). -/
namespace Sys2Proof.Machine

/-- A matrix instruction that enters the queue (R315): its tiles, its scalar operand, and the command it makes. It submits as a
release of the task (R137). -/
def matrix (tiles : List Nat) (srcs : List (RegFile × Nat)) (req : Word → MxReq) (s : State) : Out :=
  issue { srcs := srcs, tiles := tiles, cls := 5, alone := true }
    (fun m vs s => mxSubmit s m (req (arg vs 0))) s

/-- `mwld` (R317). -/
def execMwld (u : Fin 16) (s : State) : Out :=
  matrix [u.val] [] (fun _ => { sub := 0, td := 0, ta := 0, tb := u.val, flags := 0, arg := 0 }) s

/-- `mwld.sp` (R319). -/
def execMwldSp (u : Fin 16) (s : State) : Out :=
  matrix [u.val] [] (fun _ => { sub := 1, td := 0, ta := 0, tb := u.val, flags := 0, arg := 0 }) s

/-- `mmeta` (R318). -/
def execMmeta (sel a : Fin 32) (s : State) : Out :=
  issue { srcs := [(.v, a)], cls := 5, alone := true }
    (fun m vs s =>
      if sparsePending s m then stall
      else .ok (s.modMx m (fun x => stageCodes x sel.val (argV vs 0).toNat))) s

/-- `mmul` (R320). -/
def execMmul (t : Fin 16) (clr : Fin 2) (s : State) : Out :=
  matrix [t.val] [] (fun _ => { sub := 3, td := 0, ta := t.val, tb := 0, flags := clr.val, arg := 0 }) s

/-- `mmul.sc` (R321). -/
def execMmulSc (t u : Fin 16) (a : Fin 32) (clr : Fin 2) (s : State) : Out :=
  matrix [t.val, u.val] [(.k, a)] (fun x => { sub := 4, td := 0, ta := t.val, tb := u.val, flags := clr.val, arg := x }) s

/-- `mwsc` (R321). -/
def execMwsc (a : Fin 32) (s : State) : Out :=
  matrix [] [(.k, a)] (fun x => { sub := 5, td := 0, ta := 0, tb := 0, flags := 0, arg := x }) s

/-- `mst` (R324). -/
def execMst (d : Fin 16) (s : State) : Out :=
  matrix [d.val] [] (fun _ => { sub := 6, td := d.val, ta := 0, tb := 0, flags := 0, arg := 0 }) s

/-- `mld` (R325). -/
def execMld (t : Fin 16) (s : State) : Out :=
  matrix [t.val] [] (fun _ => { sub := 7, td := 0, ta := t.val, tb := 0, flags := 0, arg := 0 }) s

/-- `mfence` (R326, R139). -/
def execMfence (s : State) : Out :=
  issue { cls := 5, alone := true } (fun m _ s => if (s.core m).mx.queue ≠ [] then stall else .ok s) s

/-! ## The steps of the engine -/

/-- LOCKSTEP checkers in a square follow their primaries (R177). -/
def mirrorSquare (s : State) (q : Nat) : State := (squareCores q).foldl mirrored s

/-- MXE_LATCH_LOAD_DONE (R312). -/
def execMxeLatchLoadDone (q : SquareId) (s : State) : Out := .next (latchLoaded s q.val)

/-- MXE_COMMAND_START (R312): commands that wait at a window enter if there is room, and the array starts one if it is free. -/
def execMxeCommandStart (q : SquareId) (s : State) : Out :=
  let s1 := (squareCores q.val).foldl (fun s c => retryWindow c ((s.core c).mx.window.length + 1) s) s
  .next (mirrorSquare (startCommand s1 q.val) q.val)

/-- MXE_ROW_INJECT (R313, R431): the row whose cycle this is. Each cycle brings it for every array that draws (`beaconCycle`). -/
def execMxeRowInject (q : SquareId) (s : State) : Out := .next (injectRow s q.val s.cyc)

/-- MXE_COMMAND_COMPLETE (R313). A command that meets an uncorrectable error ends its task (R410). (DESIGN CHOICE, unsafe; log 29.) -/
def execMxeCommandComplete (q : SquareId) (s : State) : Out :=
  match commandDone s q.val with
  | (s1, none) => .next (mirrorSquare s1 q.val)
  | (s1, some (c, t)) => .next (mirrorSquare (takeTrap s1 c t (fun m => (s1.core m).firstUnissued)) q.val)

/-- MXE_QUEUE_WINDOW_STORE (R316): a 64-byte store by a core's task or its storer reaches the queue window. A task's store that
must wait has not reached it yet. (DEDUCED, unsafe; log 60.) -/
def execMxeQueueWindowStore (c : CoreId) (byStorer : Bool) (data : BitVec 512) (s : State) : Out :=
  if ¬ (s.core c.val).holdsTask then .next s
  else match storeCommand s c.val data.toNat byStorer with
    | .ok s1 => .next (mirrored s1 c.val)
    | .error (.trap t) => .next (takeTrap s c.val t (fun m => (s.core m).firstUnissued))
    | .error (.stall reqs) => .next (applyReqs s reqs)

end Sys2Proof.Machine
end

