-- ==== Sys2Proof/Machine/CoalescerInstr.lean ====
section
/-! DEFINITION. The coalescer instructions and the steps of a coalescer (12 R332 to R337). -/
namespace Sys2Proof.Machine

/-! ## Arming (R334) -/

/-- The twins may serve a slot (R334); `named` says that the template's `ta` names one of them. -/
def twinsFit (k : Core) (ta tb : Nat) (named : Bool) : Bool :=
  let t := k.tile ta
  let u := k.tile tb
  ta != tb && t.conf && u.conf && t.home == 1 && u.home == 1 && !t.paged && !u.paged && t.rows == u.rows && t.cols == u.cols &&
    t.fmt == u.fmt && (t.fmt == 2 || t.fmt == 3 || t.fmt == 4 || t.fmt == 7) && !t.overlaps u &&
    (!named || decide (ta < 16 ∧ tb < 16))

/-- The template names a twin in `ta`. -/
def namesTwin (v ta tb : Nat) : Bool :=
  let sub := bits v 0 4
  (sub == 3 || sub == 4 || sub == 7) && (bits v 12 4 == ta || bits v 12 4 == tb)

/-- The template of a slot, if there is one: 64 bytes that make a command (R316, R334). -/
def readTemplate (s : State) (c va : Nat) : Res (Option (BitVec 512) × State) :=
  if va = 0 then .ok (none, s)
  else do
    let (v, s1) ← loadStruct s c va 64 64
    match parseCommand v with
    | none => raise cIllegalOp
    | some _ => pure (some (BitVec.ofNat 512 v), s1)

/-- The slot is armed by another core's task (R334). -/
def ownedByOther (x : CoSlot) (c : Nat) : Bool := x.armed && x.owner.val != c

/-- `carm` with a descriptor (R334). -/
def armSlot (s : State) (c i desc templ : Nat) : Res State := do
  let (d, s1) ← loadStruct s c desc 64 64
  let (v, s2) ← readTemplate s1 c templ
  match slotDesc d with
  | none => raise cIllegalOp
  | some x =>
    tileGate s2 c x.ta
    tileGate s2 c x.tb
    let q := squareOf c
    let old := s2.slot q i
    if ownedByOther old c then raise cWindowDenied
    if twinsFit (s2.core c) x.ta x.tb ((v.map (fun w => namesTwin w.toNat x.ta x.tb)).getD false) = false then raise cTileShape
    if old.armed then stall [.disarm c i]
    if (s2.square q).coq.any (CoEntry.names i) then stall
    let s3 := s2.modSlot q i (fun _ => { x with
      armed := true, owner := coreId c, job := (s2.core c).task.job, gathering := x.ta, template := v, waiting := true })
    pure (commit (takeTwin s3 q i) c)

/-- `carm` with ka = 0 (R334). -/
def disarmSlot (s : State) (c i : Nat) : Res State :=
  let q := squareOf c
  let x := s.slot q i
  if ownedByOther x c then raise cWindowDenied
  else .ok (commit (if x.armed then disarm s q i else s) c)

/-- `carm` (R334). (DEDUCED, unsafe; log 59.) -/
def execCarm (a b : Fin 32) (i : Fin 8) (s : State) : Out :=
  issue { srcs := [(.k, a), (.k, b)], cls := 5 }
    (fun m vs s =>
      if arg vs 0 = 0 then disarmSlot s m i.val else armSlot s m i.val (arg vs 0).toNat (arg vs 1).toNat) s

/-! ## Contributions (R335) -/

/-- The slot takes contributions of the core's task. -/
def slotOpen (s : State) (c : Nat) (x : CoSlot) : Res Unit :=
  if x.armed ∧ x.job ≠ (s.core c).task.job then raise cWindowDenied
  else if x.armed = false then raise cTileUncfg
  else .ok ()

/-- An entry joins the input queue, which has room for 8. -/
def enterQueue (s : State) (c : Nat) (e : CoEntry) : Res State :=
  let q := squareOf c
  if 8 ≤ queuedEntries (s.square q).coq then stall
  else .ok (commit ((s.modSquare q (fun k => { k with coq := k.coq ++ [e] })).dueOnce (.coApply (squareId q))) c)

/-- `cpush` (R335). (DEDUCED, unsafe; log 59.) -/
def execCpush (a b : Fin 32) (i : Fin 8) (s : State) : Out :=
  issue { srcs := [(.k, a), (.k, b)], cls := 5 }
    (fun m vs s => do
      let x := s.slot (squareOf m) i.val
      slotOpen s m x
      let t := s.tile x.owner.val x.ta
      let row := field (arg vs 1) 0 16
      let col := field (arg vs 1) 16 16
      if t.rows ≤ row ∨ t.cols ≤ col then raise cTileShape
      enterQueue s m (.push i.val (arg vs 0) row col (coreId m) s.cyc)) s

/-- `cflush` (R335). -/
def execCflush (i : Fin 8) (s : State) : Out :=
  issue { cls := 5 }
    (fun m _ s => do
      slotOpen s m (s.slot (squareOf m) i.val)
      enterQueue s m (.flush i.val s.cyc)) s

/-! ## The steps of a coalescer -/

/-- COALESCER_APPLY (R335). -/
def execCoalescerApply (q : SquareId) (s : State) : Out := .next (mirrorSquare (coStep s q.val) q.val)

/-- COALESCER_TIMEOUT (R336). -/
def execCoalescerTimeout (q : SquareId) (i : Fin 8) (s : State) : Out := .next (mirrorSquare (coTimedOut s q.val i.val) q.val)

/-- COALESCER_TWIN_READY (R336). -/
def execCoalescerTwinReady (q : SquareId) (i : Fin 8) (s : State) : Out := .next (mirrorSquare (takeTwin s q.val i.val) q.val)

end Sys2Proof.Machine
end

