-- ==== Sys2Proof/Machine/EventInstr.lean ====
section
/-! DEFINITION. The event instructions, and the arrival of events (13 R340 to R359, 16 R417). -/
namespace Sys2Proof.Machine

/-! ## Reading the queue (R355, R356, R359) -/

/-- `evpop` (R355). -/
def execEvpop (d : Fin 16) (s : State) : Out :=
  issue { dst := some (.k, d), cls := 6 }
    (fun m _ s =>
      let (h, s1) := popEvent (commit s m) m
      putKLater s1 m d h) s

/-- `evpay` (R356). -/
def execEvpay (d : Fin 16) (s : State) : Out :=
  issue { dst := some (.k, d), cls := 6 }
    (fun m _ s => putKLater s m d (BitVec.ofNat 64 (field (s.core m).ev.evh 64 64))) s

/-- `evstat` (R359). -/
def execEvstat (d : Fin 16) (s : State) : Out :=
  issue { dst := some (.k, d), cls := 6 }
    (fun m _ s => putKLater s m d (s.core m).ev.stat) s

/-! ## Sending (R357) -/

/-- An event leaves a core and reaches the queue of another, or of the sender itself. -/
def sendEvent (s : State) (c dest slot : Nat) (hdr pay : Word) : State :=
  receivedAt (arriveEvent (sentAt s c) dest slot hdr pay (.core (coreId c))).2 dest

/-- `evsend` (R357): an RC write, ordered behind the task's acquires and SC operations (R119, R140). -/
def execEvsend (a b : Fin 32) (now : Fin 2) (s : State) : Out :=
  issue { srcs := [(.k, a), (.k, b)], cls := 6 }
    (fun m vs s =>
      let route := arg vs 0
      let src := field route 16 8
      let dest := field route 0 8
      let slot := field route 8 3
      let buoy := flag route 31
      if field route 11 5 ≠ 0 ∨ field route 24 7 ≠ 0 ∨ field route 32 32 ≠ 0 ∨ src < 128 then raise cIllegalOp
      else if holdsSquare s (s.core m).task.job (squareOf dest) = false then raise cWindowDenied
      else
        let ts := if now.val = 1 then s.time % 2 ^ 48 else field (s.core m).ev.evh 0 48
        do
          orderWait s m []
          pure (sendEvent (commit s m) m dest slot (hdrOf (if buoy then kBuoy else kLayer) src ts) (if buoy then 0 else arg vs 1))) s

/-! ## The window operations (R358) -/

/-- `evwin` acts by the operation in ka. -/
def windowOp (s : State) (c : Nat) (op value : Word) : Res State :=
  if 3 ≤ op.toNat then raise cIllegalOp
  else match op.toNat with
    | 0 => if value ≠ 0 then raise cIllegalOp else .ok (closeNow s c)
    | 1 => .ok (rebase (s.modEv c (fun q => { q with org := value })) c)
    | _ => if 256 ≤ value.toNat then raise cIllegalOp else .ok (enableSlots s c value.toNat)

/-- `evwin` (R358). -/
def evwin (a b : Fin 32) (s : State) : Out :=
  issue { srcs := [(.k, a), (.k, b)], cls := 6 } (fun m vs s => windowOp s m (arg vs 0) (arg vs 1)) s

/-- `evwin` (R358); the operation is a value, so each of its rows is the whole instruction. (DEDUCED, safe; log 11.) -/
def execEvwinClose (a b : Fin 32) (s : State) : Out := evwin a b s

/-- `evwin` (R358). (DEDUCED, safe; log 11.) -/
def execEvwinOrigin (a b : Fin 32) (s : State) : Out := evwin a b s

/-- `evwin` (R358). -/
def execEvwinSlots (a b : Fin 32) (s : State) : Out := evwin a b s

/-! ## Arrivals -/

/-- EVENT_ARRIVE (R342): an event reaches a core's queue. One that a core has sent counts as received there (R404). -/
def execEventArrive (c : CoreId) (slot : Fin 8) (header payload : BitVec 64) (origin : EventOrigin) (s : State) : Out :=
  let s1 := (arriveEvent s c.val slot.val (setField header 60 4 0) payload origin).2
  match origin with
  | .core _ => .next (receivedAt s1 c.val)
  | _ => .next s1

/-- WINDOW_STALE_TIMEOUT (R348): the window closes if its time has run out, as every cycle closes it. -/
def execWindowStaleTimeout (c : CoreId) (s : State) : Out :=
  if (s.core c.val).holdsTask then .next (closeOne s c.val) else .next s

/-- An entry of a fault buffer sends its event to the handler, and again while it is refused (R417). -/
def sendFault (s : State) (die index : Nat) : State :=
  match (s.die die).fb.find? (fun e => e.index = index) with
  | none => s
  | some e =>
    if e.accepted ∨ e.delivered then s
    else
      let route := (s.die die).fbRoute
      let (hdr, pay) := fbEvent s die e
      let (ok, s1) := arriveEvent s (field route 0 8) (field route 8 3) hdr pay (.faultBuffer (dieId die) index)
      if ok then
        s1.modDie die (fun d => { d with fb := d.fb.map (fun x => if x.index = index then { x with accepted := true } else x) })
      else s1.dueOnce (.fbResend (dieId die) index)

/-- FB_EVENT_RESEND (R417): the event of an entry is sent, or sent again. -/
def execFbEventResend (die : Fin 2) (entry : Nat) (s : State) : Out := .next (sendFault s die.val entry)

end Sys2Proof.Machine
end

