-- ==== Sys2Proof/Machine/TaskInstr.lean ====
section
/-! DEFINITION. Spawning, dependence and the hardware queues (13 R361 to R367, 15 R399). -/
namespace Sys2Proof.Machine

/-! ## Addresses in paged memory -/

/-- The checks of an address that must be aligned and lie in the job's paged memory (R362, R366). -/
def needPaged (va align : Nat) : Res Unit :=
  match rowOf va with
  | none => raise cNonCanon va
  | some _ =>
    if va % align ≠ 0 then raise cMisalign va
    else if 2 ^ 53 ≤ va then raise cWindowDenied va
    else .ok ()

/-- The address, length and form of a record operand (R362): a descriptor where bit 0 is set. -/
def recordBase (ka : Nat) : Nat := ka - ka % 2
def recordBytes (ka : Nat) : Nat := if ka % 2 = 1 then 64 else 16

/-! ## `spawn` (R363) -/

/-- A record or a descriptor may be spawned or placed: its reserved bits are 0 (R363). -/
def recordLegal (ka v : Nat) : Bool :=
  bits v 120 8 == 0 && (if ka % 2 = 1 then bits v 176 336 == 0 else true)

/-- A counted item reaches the half of a die, for a job (R404, R405). -/
def halfReceives (s : State) (die job : Nat) : State :=
  s.modDie die (fun d => { d with
    halfCount := Table.set d.halfCount job (Table.getD d.halfCount job 0 - 1)
    halfBlack := if d.halfBlack.contains job then d.halfBlack else job :: d.halfBlack })

/-- Steps 4 and 5 of R363 for a task: the record goes to the deque of the core. (DEDUCED, unsafe; log 58.) -/
def spawnAt (s : State) (c job ka v : Nat) : State := placeAt s c job ka v 0 true

/-- `spawn` (R363). -/
def execSpawn (a : Fin 32) (s : State) : Out :=
  issue { srcs := [(.k, a)], cls := 6 }
    (fun m vs s => do
      let ka := (arg vs 0).toNat
      needPaged (recordBase ka) (recordBytes ka)
      let (v, s1) ← loadStruct s m (recordBase ka) (recordBytes ka) (recordBytes ka)
      if recordLegal ka v = false then raise cIllegalOp
      let s2 ← settleTask s1 m 0
      let job := (s.core m).task.job
      pure (halfReceives (spawnAt (sentAt (commit s2 m) m) m job ka v) (dieOf m) job)) s

/-! ## `dec` (R364) -/

/-- The access to the DEP word of a record. -/
def depAccess (s : State) (c ka : Nat) : Access := taskAccess s c .atomic (recordBase ka + 8) 8 8

/-- `dec` (R364). -/
def execDec (a : Fin 32) (s : State) : Out :=
  issue { srcs := [(.k, a)], cls := 6 }
    (fun m vs s => do
      let ka := (arg vs 0).toNat
      needPaged (recordBase ka) (recordBytes ka)
      let (_, t, s1) ← checkAccess s (depAccess s m ka)
      let s2 ← settleTask s1 m 0
      decRecord (revoked (commit s2 m) none (locOf t) 8) m (s.core m).task.job ka) s

/-! ## Hardware queues (R365 to R367) -/

/-- The access to a queue's descriptor. -/
def queueAccess (s : State) (c va : Nat) (kind : AccessKind) : Access :=
  { taskAccess s c kind va 64 64 with struct := true }

/-- The descriptor of a queue read and checked: where it stands (R366). -/
def openQueue (s : State) (c va : Nat) : Res (Nat × State) := do
  needPaged va 64
  let (v, s1) ← loadStruct s c va 64 64
  if (qDesc va v).ok = false then raise cIllegalOp
  let (_, t, s2) ← checkAccess s1 (queueAccess s1 c va .read)
  pure (locOf t, s2)

/-- The core at which the hardware handles a core's unit. -/
def headOf (s : State) (c : Nat) : Nat :=
  let t := (s.core c).task
  if t.gang ≠ 0 ∧ t.brk = false then t.leader else c

/-- A producer that has found HIGH is descheduled (R367), unless it is a system task or persistent. (DEDUCED, unsafe; log 63.) -/
def deschedule (s : State) (c va : Nat) : State :=
  let t := (s.core c).task
  if t.job = 0 ∨ tyPersist t.entry then s
  else
    let h := headOf s c
    (s.modCore h (fun k => { k with preempt := some (.watermark (BitVec.ofNat 64 va)) })).dueOnce (.preemptDone (coreId h))

/-- HIGH of a queue has cleared (R399): its held records become candidates, and a producer still to be saved is not held. -/
def releaseHolds (s : State) (job va : Nat) : State :=
  let q := BitVec.ofNat 64 va
  let free := fun (r : Ready) => if r.hold = some q ∧ r.job = job then { r with hold := none } else r
  let s1 : State := { s with
    dies := s.dies.map (fun e => (e.1, { e.2 with ready := e.2.ready.map free, spill := e.2.spill.map free }))
    cores := s.cores.map (fun e =>
      if e.2.preempt = some (.watermark q) ∧ e.2.task.job = job then (e.1, { e.2 with preempt := some .request }) else e) }
  (s1.dueOnce (.selection 0)).dueOnce (.selection 1)

/-- The task's access to the ring entry that a push or a pop takes is ordered as an access of its page's kind (R119, R140). -/
def ringOrder (s : State) (c va loc : Nat) (kind : AccessKind) : Res State :=
  let q := qDesc va (s.read loc 64)
  match checkAccess s (ringAccess (queueAccess s c va kind) q (if kind = .write then q.head else q.tail) kind) with
  | .ok (_, .bytes ps, s1) => orderBefore s1 c ps
  | _ => .ok s

/-- `qpush` of one core. -/
def pushEntry (s : State) (c va data : Nat) : Res (Nat × State) := do
  let (loc, s1) ← openQueue s c va
  let s1 ← ringOrder s1 c va loc .write
  let s2 := receivedAt (sentAt (commit s1 c) c) c
  let (r, s3) ← queuePush s2 (queueAccess s2 c va .write) loc data
  pure (r, if 2 ≤ r then deschedule s3 c va else s3)

/-- `qpop` of one core. -/
def popEntry (s : State) (c va : Nat) : Res (Nat × State) := do
  let (loc, s1) ← openQueue s c va
  let s1 ← ringOrder s1 c va loc .read
  let s2 := commit s1 c
  let (v, clears, s3) ← queuePop s2 (queueAccess s2 c va .read) loc
  pure (v, if clears then releaseHolds s3 (s.core c).task.job va else s3)

/-- A fault of the ring finds the task committed (R366): the state with the commit of the member that meets one. -/
def ringCommit (g : Sig) (body : Body) (s : State) : State :=
  let c := issuer s
  match issueAll g body (beforePair s c) (actingMembers s c) [] with
  | .trap _ m _ _ =>
    match issueChecks s m g, popOperands (beginIssue s m g) m g.srcs with
    | .ok _, .ok (vs, _) =>
      match openQueue s m (arg vs 0).toNat with
      | .ok _ => commit s m
      | .error _ => s
    | _, _ => s
  | _ => s

/-- `qpush` (R366). -/
def execQpush (d : Fin 16) (a b : Fin 32) (s : State) : Out :=
  let g : Sig := { srcs := [(.k, a), (.v, b)], dst := some (.k, d), cls := 6 }
  let body : Body := fun m vs s => do
    let (r, s1) ← pushEntry s m (arg vs 0).toNat (argV vs 1).toNat
    putKLater s1 m d (BitVec.ofNat 64 r)
  issue g body (ringCommit g body s)

/-- `qpop` (R366). -/
def execQpop (d : Fin 16) (a : Fin 32) (s : State) : Out :=
  let g : Sig := { srcs := [(.k, a)], dst := some (.v, d), cls := 6 }
  let body : Body := fun m vs s => do
    let (v, s1) ← popEntry s m (arg vs 0).toNat
    putVariable s1 m .v d (BitVec.ofNat 512 v)
  issue g body (ringCommit g body s)

end Sys2Proof.Machine
end

