-- ==== Sys2Proof/Machine/Distributor.lean ====
section
/-! DEFINITION. The steps of the distributor and of lending (15 R384 to R407, 07 R161, R167, R177, 14 R375, 02 R60). -/
namespace Sys2Proof.Machine

/-- SELECTION_ROUND (R390). While records wait on the die another round follows. -/
def execSelectionRound (die : Fin 2) (s : State) : Out :=
  let s1 := selectionStep s die.val
  .next (if waitsOn s1 die.val then s1.dueOnce (.selection die) else s1)

/-- TASK_BIND (R394). A unit waits for the clear of its square (R67). -/
def execTaskBind (c : CoreId) (s : State) : Out :=
  let s1 := bindTask s c.val
  let k := s1.core c.val
  .next (if k.latched.isSome ∧ k.binding = false then s1.dueOnce (.taskBind c) else s1)

/-- TASK_START (R375). (DESIGN CHOICE, safe; log 9.) -/
def execTaskStart (c : CoreId) (s : State) : Out := .next (startUnit s c.val)

/-- AGING_TICK (R161). -/
def execAgingTick (s : State) : Out := .next (ageRecords s)

/-- STEAL_REQUEST (R396). -/
def execStealRequest (thief : CoreId) (s : State) : Out := .next (stealAt s thief.val)

/-- STEAL_REPLY (R396). -/
def execStealReply (thief : CoreId) (s : State) : Out := .next (stealBack s thief.val)

/-- STEAL_BACKOFF (R395). -/
def execStealBackoff (c : CoreId) (s : State) : Out := .next (stealAgain s c.val)

/-- HALF_EXCHANGE (R398). -/
def execHalfExchange (s : State) : Out := .next (exchangeHalves s)

/-- LANTERN_CIRCUIT (R406). -/
def execLanternCircuit (s : State) : Out := .next (lanternStep s)

/-- LEND_CLEAR_DONE (R60). -/
def execLendClearDone (c : CoreId) (s : State) : Out := .next (lendingBegins s c.val)

/-- LEND_END_CLEAR_DONE (R60). -/
def execLendEndClearDone (c : CoreId) (s : State) : Out := .next (lendingOver s c.val)

/-- LOCKSTEP_MISMATCH (R177). -/
def execLockstepMismatch (c : CoreId) (s : State) : Out := .next (mismatchAt s c.val)

end Sys2Proof.Machine
end

