-- ==== Sys2Proof/Machine/Hardware.lean ====
section
/-! DEFINITION. Steps of the memories and of their monitors, and writes of device registers by system software (02 R49 to R67,
04 R111, 05 R134, 16 R415, R419, 01 R13, R24). -/
namespace Sys2Proof.Machine

/-! ## Scratchpads (R49 to R57) -/

/-- PARITY_LAND (R49): the oldest entry lands, and the next lands after it. -/
def execParityLand (c : CoreId) (g : Fin 4) (s : State) : Out :=
  let s1 := landParity s c.val g.val
  .next (if (s1.core c.val).spad.parity.any (fun e => e.group = g.val) then s1.dueOnce (.parityLand c g) else s1)

/-- The five banks of a group, each with its number and its row's place (R53). -/
def groupRows (c g w : Nat) : List (Nat × Nat) :=
  (List.range 4).map (fun i => (4 * g + i, spadRowNo c (4 * g + i) w)) ++ [(16 + g, parityLoc c g w / 16)]

/-- An uncorrectable error that the scrubber finds retires the bank (R54). -/
def scrubRetire (s : State) (c b : Nat) : State :=
  if retired (s.core c).spad b ∨ (s.core c).spad.retiring.any (fun e => e.1 = b) then s
  else
    (s.modCore c (fun k => { k with spad := { k.spad with retiring := k.spad.retiring ++ [(b, 1)] } })).dueOnce
      (.bankRetire (coreId c) ⟨b % 20, Nat.mod_lt _ (by decide)⟩)

/-- The parity of a row is made to match its data banks (R53). -/
def scrubParity (s : State) (c g w : Nat) : State :=
  let data := (List.range 4).foldl (fun x i => x ^^^ s.read (spadRowNo c (4 * g + i) w * 16) 16) 0
  if s.read (parityLoc c g w) 16 = data then s
  else telemetry (s.write (parityLoc c g w) 16 data) (dieOf c) 3 c (s.core c).task.job (g + w * 2 ^ 16)

/-- Four words of the lane slices, scrubbed with a step of the scratchpad (R46, R53). An uncorrectable one is left as it is.
(DESIGN CHOICE, unsafe; log 57.) (DESIGN CHOICE, unsafe; log 82.) -/
def scrubLane (s : State) (c i : Nat) : State :=
  (unitsIn 4 (laneLoc c 0 + 16 * i) 16).foldl (fun s at_ =>
    if unitCorr s 4 at_ && !unitBad s 4 at_ then eccRecord (unitMended s 4 at_) c at_ else s) s

/-- One step of a core's scrubber (R53). -/
def scrubStep (s0 : State) (c : Nat) : State :=
  let i := (s0.core c).spad.scrub
  if (s0.core c).spad.soff then s0
  else
    let g := i / 1024 % 4
    let w := i % 1024
    let s1 := landGroup s0 c g
    let live := (groupRows c g w).filter (fun e => !retired (s1.core c).spad e.1)
    let s2 := live.foldl (fun s e => if rowCorr s e.2 && !rowBad s e.2 then countError (rowMended s e.2) c e.1 else s) s1
    let bad := live.filter (fun e => rowBad s2 e.2)
    let s3 := bad.foldl (fun s e => scrubRetire s c e.1) s2
    let s4 := if bad = [] ∧ degraded (s3.core c).spad g = false then scrubParity s3 c g w else s3
    (scrubLane s4 c i).modCore c (fun k => { k with spad := { k.spad with
      scrub := (i + 1) % 4096
      pass := if i + 1 = 4096 then (k.spad.pass + 1) % 2 ^ 16 else k.spad.pass } })

/-- SCRUB_STEP (R53). -/
def execScrubStep (c : CoreId) (s : State) : Out := .next (scrubStep s c.val)

/-- EPOCH_END (R54). -/
def execEpochEnd (s : State) : Out :=
  .next { s with cores := s.cores.map (fun e => (e.1, { e.2 with spad := { e.2.spad with ce := List.replicate 20 0 } })) }

/-- BANK_RETIRE (R54). -/
def execBankRetire (c : CoreId) (bank : Fin 20) (s : State) : Out :=
  match (s.core c.val).spad.retiring.find? (fun e => e.1 = bank.val) with
  | some e => .next (retireBank s c.val e.1 e.2)
  | none => .next s

/-! ## Square memory and chip scratchpad (R64 to R67) -/

/-- The bytes that a scrubber walks, and the core that its records name. (DESIGN CHOICE, unsafe; log 32.) -/
def scrubbed : ScrubUnit → Nat × Nat × Nat
  | .square q => (squareLoc q.val, 0x200000, squareCore q.val)
  | .chip d => (chipLoc d.val, 0x2000000, 128 * d.val)

/-- A step of a square's or a chip scratchpad's scrubber at a row with an error, if there is one (R64, R65).
(DESIGN CHOICE, unsafe; log 57.) -/
def sqmScrub (s : State) (u : ScrubUnit) : State :=
  let (lo, n, c) := scrubbed u
  match s.errors.find? (fun e => lo ≤ e.loc ∧ e.loc < lo + n) with
  | none => s
  | some e =>
    let at_ := e.loc / 16 * 16
    let bad := unitBad s 16 at_
    let s1 := eccRecord (unitMended s 16 at_) c at_
    if ¬ bad ∨ s1.poison.contains at_ then s1 else { s1 with poison := s1.poison ++ [at_] }

/-- SQM_SCRUB_STEP (R64, R65). -/
def execSqmScrubStep (u : ScrubUnit) (s : State) : Out := .next (sqmScrub s u)

/-- SQUARE_CLEAR_DONE (R67). -/
def execSquareClearDone (q : SquareId) (s : State) : Out :=
  if (s.square q.val).clearing then
    .next ((clearSquare s q.val).dueOnce (.selection (dieId (squareDie q.val))))
  else .next s

/-- A segment's clear is over (R66). (DESIGN CHOICE, unsafe; log 95.) -/
def clearSegment (s : State) (die seg : Nat) : State :=
  (s.clearRange (chipLoc die + seg * 0x100000) (chipLoc die + (seg + 1) * 0x100000)).modDie die (fun d => { d with
    cspClear := d.cspClear.filter (· ≠ seg) })

/-- CSP_CLEAR_DONE (R66). -/
def execCspClearDone (die : Fin 2) (seg : Fin 32) (s : State) : Out :=
  if (s.die die.val).cspClear.contains seg.val then .next (clearSegment s die.val seg.val) else .next s

/-! ## Memory channels (R111) -/

/-- DRAM_REFRESH (R111): the bank's last refresh is noted; a refresh changes nothing that is stored. -/
def execDramRefresh (die : Fin 2) (ch : Fin 24) (bank : Fin 16) (s : State) : Out :=
  .next (s.modDie die.val (fun d => { d with refresh := Table.set d.refresh (ch.val * 16 + bank.val) s.cyc }))

/-- MEM_TEMP_CHANGE (R111). -/
def execMemTempChange (die : Fin 2) (hot : Bool) (s : State) : Out := .next (s.modDie die.val (fun d => { d with hot := hot }))

/-! ## Traces and trap queues (R134, R415) -/

/-- TRACE_RECORD_WRITE (R134). -/
def execTraceRecordWrite (c : CoreId) (s : State) : Out := .next (traceFlush s c.val)

/-- The held trap-queue records of a die pushed in their order (R415); one that cannot be keeps back the later ones of its job
alone. `stay` are those that stay held. -/
def retryRecordsHeld (die : Nat) : State → List TrapRec → List TrapRec → State
  | s, _, [] => s
  | s, stay, r :: rest =>
    if stay.any (fun x => x.job == r.job) then retryRecordsHeld die s (stay ++ [r]) rest
    else match trqPush s r with
      | (true, s1) => retryRecordsHeld die (s1.modDie die (fun d => { d with trq := stay ++ rest })) stay rest
      | (false, s1) => retryRecordsHeld die s1 (stay ++ [r]) rest

/-- TRQ_RETRY (R415). -/
def execTrqRetry (die : Fin 2) (s : State) : Out :=
  let s1 := retryRecordsHeld die.val s [] (s.die die.val).trq
  .next (if (s1.die die.val).trq = [] then s1 else s1.dueOnce (.trqRetry die))

/-! ## The watchdog (R419) -/

/-- WATCHDOG (R419): a task in RUN that has issued nothing for WDG.LIM ticks of 4 ns, WAIT and PARK not counted, ends. -/
def execWatchdog (c : CoreId) (s : State) : Out :=
  let k := s.core c.val
  let lim := (s.die (dieOf c.val)).wdgLim.toNat
  let idle := (s.cyc - k.quietFrom) * 10 / 23
  if k.mode = .run ∧ lim ≠ 0 ∧ 4 * lim ≤ idle then
    .next (endUnit s c.val (mkTrap cWatchdog 0) k.firstUnissued)
  else .next s

/-! ## Device registers written by system software (R13) -/

/-- JOB_PTB_WRITE (R24). -/
def execJobPtbWrite (job : JobId) (die : Fin 2) (value : BitVec 64) (s : State) : Out :=
  .next (writeDevReg s (.jobWord job.val die.val) value)

/-- CSP_OWN_WRITE (R66). -/
def execCspOwnWrite (die : Fin 2) (n : Fin 32) (value : BitVec 64) (s : State) : Out :=
  .next (writeDevReg s (.cspOwn die.val n.val) value)

/-- SPAD_FORCE_RETIRE (R54, R57). -/
def execSpadForceRetire (c : CoreId) (value : BitVec 64) (s : State) : Out := .next (writeDevReg s (.spadCtl c.val) value)

/-- JOB_PART_WRITE (R168). -/
def execJobPartWrite (job : JobId) (value : BitVec 64) (s : State) : Out := .next (writeDevReg s (.jobWord job.val 5) value)

/-- JOB_CTL_WRITE (R168). -/
def execJobCtlWrite (job : JobId) (value : BitVec 64) (s : State) : Out := .next (writeDevReg s (.jobWord job.val 6) value)

/-- HBW_BASE_WRITE (R114). -/
def execHbwBaseWrite (die : Fin 2) (value : BitVec 64) (s : State) : Out := .next (writeDevReg s (.hbwBase die.val) value)

/-- FB_KILL (R418). -/
def execFbKill (die : Fin 2) (value : BitVec 64) (s : State) : Out := .next (writeDevReg s (.fb die.val 3) value)

/-- PRE_CTL_REQ (R422). -/
def execPreCtlReq (c : CoreId) (value : BitVec 64) (s : State) : Out := .next (writeDevReg s (.preCtl c.val) value)

/-- PWR_CAP_WRITE (R428). -/
def execPwrCapWrite (value : BitVec 64) (s : State) : Out := .next (writeDevReg s .pwrCap value)

/-- SEC_ATREQ (R453). -/
def execSecAtreq (value : BitVec 64) (s : State) : Out := .next (writeDevReg s .secAtreq value)

/-- SEC_POL_WRITE (R455). -/
def execSecPolWrite (value : BitVec 64) (s : State) : Out := .next (writeDevReg s .secPol value)

/-- ETH_ROUTE_WRITE (R442). -/
def execEthRouteWrite (stream : Fin 64) (second : Bool) (value : BitVec 64) (s : State) : Out :=
  .next (writeDevReg s (.route stream.val second) value)

/-- REGISTER_WRITE (R13): a write of the register at an address of the device-register window; at any other address there is no
register. -/
def execRegisterWrite (address value : BitVec 64) (s : State) : Out :=
  match rowOf address.toNat with
  | some r =>
    if r.space = .device then .next (writeDevReg s (devReg (address.toNat - r.base)) value) else .next s
  | none => .next s

end Sys2Proof.Machine
end

