-- ==== Sys2Proof/Machine/Helper.lean ====
section
/-! DEFINITION. The helpers' instructions, their faults, and the fetches and words that no instruction serves (14 R372 to R381,
07 R233, 08 R193). -/
namespace Sys2Proof.Machine

/-! ## An instruction of a helper (R372) -/

/-- x0 reads as zero. -/
def Helper.get (h : Helper) (i : Nat) : BitVec 32 := if i = 0 then 0 else (h.x[i]?).getD 0
/-- A write of x0 is discarded. -/
def Helper.put (h : Helper) (i : Nat) (v : BitVec 32) : Helper := if i = 0 then h else { h with x := h.x.setIfInBounds i v }

/-- What an instruction of a helper does: `len` is its bytes, unless `goes` names where it goes. -/
structure HelperStep where
  after : State
  goes : Option (BitVec 32)
  deriving DecidableEq, Repr

/-- An instruction of `len` bytes issues on the actor's helper: it executes, waits in place, or faults there (R372, R381). An
executed instruction counts for the task (R434). -/
def helperIssue (len : Nat) (body : Nat → Bool → State → Res HelperStep) (s : State) : Out :=
  let c := s.actor.core.val
  let storer := s.actor.part == CoreUnit.storer
  let h := helperOf (s.core c) storer
  if s.actor.part = .main ∨ h.running = false then .fault (.helperNotRunning s.actor.core)
  else match body c storer s with
    | .ok r => .next ((r.after.modHelper c storer (fun h => { h with
        pc := r.goes.getD (h.pc + BitVec.ofNat 32 len) })).modCore c (fun k =>
          k.charge k.task.job (tyNrg k.task.entry) 7 1))
    | .error (.trap t) => .next (helperTrap s c storer t h.pc.toNat)
    | .error (.stall reqs) => .next (applyReqs s reqs)

/-- The common case: no jump. -/
def HelperStep.on (s : State) : HelperStep := { after := s, goes := none }

/-- A result in a register. -/
def helperPut (s : State) (c : Nat) (storer : Bool) (r v : Nat) : HelperStep :=
  .on (s.modHelper c storer (fun h => h.put r (BitVec.ofNat 32 v)))

/-! ## RV32IM (R372, R373) -/

/-- The operations of RV32I and M. Division by zero and overflow are as the ISA states. -/
def rvAlu (f : Rv.Alu) (x y : BitVec 32) : BitVec 32 :=
  let sh := y.toNat % 32
  match f with
  | .add => x + y
  | .sub => x - y
  | .sll => x <<< sh
  | .slt => BitVec.ofNat 32 (b2n (decide (x.toInt < y.toInt)))
  | .sltu => BitVec.ofNat 32 (b2n (decide (x.toNat < y.toNat)))
  | .xor => x ^^^ y
  | .srl => x >>> sh
  | .sra => x.sshiftRight sh
  | .or => x ||| y
  | .and => x &&& y
  | .mul => x * y
  | .mulh => BitVec.ofInt 32 (x.toInt * y.toInt / 2 ^ 32)
  | .mulhsu => BitVec.ofInt 32 (x.toInt * y.toNat / 2 ^ 32)
  | .mulhu => BitVec.ofNat 32 (x.toNat * y.toNat / 2 ^ 32)
  | .div => if y = 0 then BitVec.allOnes 32 else BitVec.ofInt 32 (x.toInt.tdiv y.toInt)
  | .divu => if y = 0 then BitVec.allOnes 32 else BitVec.ofNat 32 (x.toNat / y.toNat)
  | .rem => if y = 0 then x else BitVec.ofInt 32 (x.toInt.tmod y.toInt)
  | .remu => if y = 0 then x else BitVec.ofNat 32 (x.toNat % y.toNat)

/-- The condition of a branch. -/
def rvTaken (f : Rv.Cond) (x y : BitVec 32) : Bool :=
  match f with
  | .beq => x == y
  | .bne => x != y
  | .blt => decide (x.toInt < y.toInt)
  | .bge => decide (y.toInt ≤ x.toInt)
  | .bltu => decide (x.toNat < y.toNat)
  | .bgeu => decide (y.toNat ≤ x.toNat)

/-- The bytes of a load. -/
def rvLoadLen : Rv.Load → Nat
  | .lb => 1
  | .lbu => 1
  | .lh => 2
  | .lhu => 2
  | .lw => 4

/-- What a load puts into its register. -/
def rvLoaded (k : Rv.Load) (v : Nat) : Nat :=
  match k with
  | .lb => wrap (sint v 8) 32
  | .lh => wrap (sint v 16) 32
  | .lbu => v
  | .lhu => v
  | .lw => v

/-- The bytes of a store. -/
def rvStoreLen : Rv.Store → Nat
  | .sb => 1
  | .sh => 2
  | .sw => 4

/-- An address of the helper's data memory (R373): the alignment is checked first. (DESIGN CHOICE, unsafe; log 104.) -/
def dataCheck (s : State) (c : Nat) (storer : Bool) (addr len : Nat) (write : Bool) : Res State := do
  if addr % len ≠ 0 then raise cMisalign addr
  if 0x4000 ≤ addr then raise cWindowDenied addr
  portCheck s c (dataLoc c storer + addr) len addr write

/-- An RV32IM operation of a word of `len` bytes. -/
def rvStep (len : Nat) (op : Rv.Op) (c : Nat) (storer : Bool) (s : State) : Res HelperStep :=
  let h := helperOf (s.core c) storer
  let set := fun (rd : Fin 32) (v : BitVec 32) => s.modHelper c storer (fun h => h.put rd.val v)
  let link := h.pc + BitVec.ofNat 32 len
  match op with
  | .lui rd imm => .ok (.on (set rd imm))
  | .auipc rd imm => .ok (.on (set rd (h.pc + imm)))
  | .jal rd off => .ok { after := set rd link, goes := some (h.pc + off) }
  | .jalr rd r1 off => .ok { after := set rd link, goes := some ((h.get r1.val + off) &&& ~~~ 1#32) }
  | .branch f r1 r2 off =>
    .ok { after := s, goes := if rvTaken f (h.get r1.val) (h.get r2.val) then some (h.pc + off) else none }
  | .load k rd r1 off => do
    let addr := (h.get r1.val + off).toNat
    let s1 ← dataCheck s c storer addr (rvLoadLen k) false
    pure (helperPut s1 c storer rd.val (rvLoaded k (s1.read (dataLoc c storer + addr) (rvLoadLen k))))
  | .store k r1 r2 off => do
    let addr := (h.get r1.val + off).toNat
    let n := rvStoreLen k
    let s1 ← dataCheck s c storer addr n true
    pure (.on (s1.write (dataLoc c storer + addr) n ((h.get r2.val).toNat % 2 ^ (8 * n))))
  | .aluImm f rd r1 imm => .ok (.on (set rd (rvAlu f (h.get r1.val) imm)))
  | .alu f rd r1 r2 => .ok (.on (set rd (rvAlu f (h.get r1.val) (h.get r2.val))))

/-- HELPER_RV32_INSTR (R372). -/
def execHelperRv32Instr (compressed : Bool) (op : Rv.Op) (s : State) : Out :=
  let len := if compressed then 2 else 4
  helperIssue len (rvStep len op) s

/-- Some read of the loader has not returned. -/
def readsInFlight (k : Core) : Bool := k.loader.reads.any (·.value.isNone)

/-- Device accesses of the helper that must be ordered behind its reads wait for them (R119, R380). -/
def behindReads (s : State) (c : Nat) (storer : Bool) : Res Unit :=
  if storer = false ∧ readsInFlight (s.core c) then stall [.due (.loaderReturn (coreId c))] else .ok ()

/-- HELPER_FENCE (R372): as `fence.full` over the helper's own device accesses. -/
def execHelperFence (s : State) : Out :=
  helperIssue 4 (fun c storer s => do
    behindReads s c storer
    if storer && (s.core c).mx.window.any (fun e => e.2 == .storer) then stall
    pure (.on s)) s

/-- HELPER_EBREAK (R372). -/
def execHelperEbreak (compressed : Bool) (s : State) : Out :=
  helperIssue (if compressed then 2 else 4) (fun _ _ _ => .error (.trap { mkTrap cBrk 0 with skip := true })) s

/-! ## The custom instructions (R376 to R379) -/

/-- `A` (R376). -/
def helperAddr (h : Helper) (b r : Nat) : Nat := ((h.hb[b]?).getD 0 + (h.get r).setWidth 64).toNat

/-- The other helper's instruction is illegal. -/
def onlyOn (want storer : Bool) : Res Unit := if storer = want then .ok () else raise cIllegalOp

/-- The stream that is bound in the helper's mode, or a wait for it. -/
def helperStream (s : State) (c : Nat) (storer : Bool) (n : Nat) : Res Strm :=
  let x := (s.core c).strm n
  if x.bound ∧ x.mode = (if storer then mStorer else mLoader) then .ok x else stall

/-- `yl.ld` to a FIFO (R376, R377). Its read is checked at issue and performs at its return. -/
def execYlLdFifo (n : Fin 8) (h : Fin 4) (r : Fin 32) (s : State) : Out :=
  helperIssue 4 (fun c storer s => do
    onlyOn false storer
    let x ← helperStream s c storer n.val
    let k := s.core c
    if 8 ≤ (k.loader.reads.filter (·.value.isNone)).length ∨ 8 ≤ placesTaken k n.val then
      stall [.due (.loaderReturn (coreId c))]
    let va := helperAddr k.loader h.val r.val
    let (_, _, s1) ← checkAccess s (helperAccess s c false .read va x.ew)
    let read : LdRead := { fifo := n.val, va := va, pc := k.loader.pc.toNat, value := none }
    pure (.on ((s1.modHelper c false (fun h => { h with reads := h.reads ++ [read] })).dueOnce (.loaderReturn (coreId c))))) s

/-- `yl.ld` to a register (R376). -/
def execYlLdReg (h : Fin 4) (r d : Fin 32) (s : State) : Out :=
  helperIssue 4 (fun c storer s => do
    behindReads s c storer
    let a := helperAccess s c storer .read (helperAddr (helperOf (s.core c) storer) h.val r.val) 4
    let (v, s1) ← helperLoad s a
    pure (helperPut s1 c storer d.val v)) s

/-- `yl.push` (R377, R380): a release over the loader's earlier accesses. The last part of an element brings it into its FIFO, and
with it the elements read meanwhile for the places behind. -/
def execYlPush (n : Fin 8) (r : Fin 32) (s : State) : Out :=
  helperIssue 4 (fun c storer s => do
    onlyOn false storer
    let x ← helperStream s c storer n.val
    let k := s.core c
    behindReads s c storer
    if x.parts = 0 ∧ 8 ≤ placesTaken k n.val then stall
    let v := (k.loader.get r.val).toNat
    let whole := if x.ew < 4 then v % 2 ^ (8 * x.ew) else x.part.toNat + v * 2 ^ (32 * x.parts)
    if x.ew ≤ 4 * (x.parts + 1) then
      let (mine, others) := k.loader.reads.partition (fun r => r.fifo = n.val)
      let got := BitVec.ofNat 512 whole :: mine.filterMap (·.value)
      pure (.on ((s.modStrm c n.val (fun x => { x with fifo := x.fifo ++ got, part := 0, parts := 0 })).modHelper c false
        (fun h => { h with reads := others })))
    else pure (.on (s.modStrm c n.val (fun x => { x with part := BitVec.ofNat 512 whole, parts := x.parts + 1 })))) s

/-- `yl.base` (R376). -/
def execYlBase (b : Fin 4) (t r : Fin 32) (s : State) : Out :=
  helperIssue 4 (fun c storer s =>
    .ok (.on (s.modHelper c storer (fun h => { h with hb := h.hb.setIfInBounds b.val (h.get t.val ++ h.get r.val) })))) s

/-- DONE of a bound stream (R378). -/
def streamDone (x : Strm) (storer : Bool) : Bool :=
  (decide (x.total ≤ x.pos) || x.endMark) && (!storer || x.fifo == [])

/-- `yl.wait` (R378). -/
def execYlWait (n : Fin 8) (d : Fin 32) (s : State) : Out :=
  helperIssue 4 (fun c storer s => do
    let x ← helperStream s c storer n.val
    let ready := if storer then x.fifo != [] else decide (placesTaken (s.core c) n.val < 8)
    let done := streamDone x storer
    if ready || done then
      pure (helperPut s c storer d.val (b2n done * 2 ^ 5 + 2 ^ 4 + x.fifo.length))
    else stall) s

/-- `yl.end` (R379). -/
def execYlEnd (f : Fin 2) (n : Fin 8) (s : State) : Out :=
  helperIssue 4 (fun c storer s => do
    let _ ← helperStream s c storer n.val
    if (s.core c).loader.reads.any (fun r => r.fifo == n.val && r.value.isNone) then stall [.due (.loaderReturn (coreId c))]
    let s1 := s.modStrm c n.val (fun x =>
      if storer then { x with endMark := true, fifo := [], part := 0, parts := 0 } else { x with endMark := true })
    pure (.on (if f.val = 1 then s1.modHelper c storer (fun h => { h with running := false, ended := true }) else s1))) s

/-- `yl.pop` (R377): the next part of the oldest element, which leaves with its last part. An empty FIFO gives 0 once DONE holds. -/
def execYlPop (n : Fin 8) (d : Fin 32) (s : State) : Out :=
  helperIssue 4 (fun c storer s => do
    onlyOn true storer
    let x ← helperStream s c storer n.val
    match x.fifo with
    | [] => if streamDone x storer then pure (helperPut s c storer d.val 0) else stall
    | v :: rest =>
      let got := if x.ew < 4 then bits v.toNat 0 (8 * x.ew) else bits v.toNat (32 * x.parts) 32
      let s1 := s.modStrm c n.val (fun x =>
        if x.ew ≤ 4 * (x.parts + 1) then { x with fifo := rest, parts := 0 } else { x with parts := x.parts + 1 })
      pure (helperPut s1 c storer d.val got)) s

/-- `yl.st` (R376, R377): the whole oldest element, whatever parts of it were popped. With DONE and an empty FIFO it does
nothing. -/
def execYlSt (n : Fin 8) (h : Fin 4) (r : Fin 32) (s : State) : Out :=
  helperIssue 4 (fun c storer s => do
    onlyOn true storer
    let x ← helperStream s c storer n.val
    match x.fifo with
    | [] => if streamDone x storer then pure (.on s) else stall
    | v :: rest =>
      let va := helperAddr (s.core c).storer h.val r.val
      let s1 ← storeHelper s (helperAccess s c true .write va x.ew) (v.toNat % 2 ^ (8 * x.ew))
      pure (.on (s1.modStrm c n.val (fun x => { x with fifo := rest, parts := 0 })))) s

/-- LOADER_READ_RETURN (R377). -/
def execLoaderReadReturn (c : CoreId) (s : State) : Out := .next (loaderReturn s c.val)

/-! ## Words that are no instruction (R193, R233, R372) -/

/-- The trap is taken by the instruction at the actor's program counter: the core's (R233, R410) or the helper's (R381). -/
def trapHere (t : TrapInfo) (s : State) : Out :=
  if s.actor.part = .main then
    let c := issuer s
    if (s.core c).mode = .run then .next (mirrored (trapAtIssue s s c (actingMembers s c) [] t) c)
    else .fault (.coreNotRunning (coreId c))
  else helperIssue 4 (fun _ _ _ => .error (.trap t)) s

/-- ILLEGAL_OP_ENCODING (R193, R376). -/
def execIllegalOpEncoding (s : State) : Out := trapHere (mkTrap cIllegalOp 0) s

/-- What the fetch at the actor's program counter ends in. -/
def fetchHere (s : State) : Res State := do
  let c := issuer s
  match s.actor.part with
  | .main => let (_, s1) ← fetchWord s c (s.core c).pipe.pc; pure s1
  | .loader => let (_, s1) ← helperFetch s c false; pure s1
  | .storer => let (_, s1) ← helperFetch s c true; pure s1

/-- INSTRUCTION_FETCH_FAULT (R233, R373): the fault of the fetch is taken. A fetch that succeeds faults nothing. -/
def execInstructionFetchFault (s : State) : Out :=
  match fetchHere s with
  | .error (.trap t) => trapHere t s
  | _ => .next s

end Sys2Proof.Machine
end

