-- ==== Sys2Proof/Machine/Hint.lean ====
section
/-! DEFINITION. The hints as words of the instruction stream (08 R200 to R205). -/
namespace Sys2Proof.Machine

/-- A hint passes: it takes no issue cycle, and its unit's members go on behind it with what it gives their next instruction
(R200). -/
def passHint (kind payload : Nat) (s : State) : Out :=
  let c := issuer s
  if (s.core c).mode = .run then
    .next (mirrored ((actingMembers s c).foldl (fun s m => s.modCore m (fun k =>
      let (h, st) := noteHint k.pipe.hints k.pipe.stalls k.pipe.pc kind payload
      { k with pipe := { k.pipe with hints := h, stalls := st, pc := k.pipe.pc + 4 } })) s) c)
  else .fault (.coreNotRunning (coreId c))

/-- `hnt.stall` (R201): count `i` lies in payload bits `3i + 2` to `3i`; field `a` is the lowest. -/
def execHntStall (g f e d c b a : Fin 8) (s : State) : Out :=
  passHint 0 (joinFields [(g.val, 3), (f.val, 3), (e.val, 3), (d.val, 3), (c.val, 3), (b.val, 3), (a.val, 3)]) s

/-- `hnt.imm` (R202). -/
def execHntImm (p : Fin 2097152) (s : State) : Out := passHint 1 p.val s

/-- `hnt.mod` (R203). -/
def execHntMod (p : Fin 2097152) (s : State) : Out := passHint 2 p.val s

/-- `hnt.br` (R204). -/
def execHntBr (p : Fin 2097152) (s : State) : Out := passHint 3 p.val s

/-- Hint kinds 4 to 15 (R205). (DEDUCED, unsafe; log 67.) -/
def execHntNop (_k : Fin 16) (p : Fin 2097152) (s : State) : Out := passHint 4 p.val s

end Sys2Proof.Machine
end

