-- ==== Sys2Proof/Machine/Crypto.lean ====
section
/-! DEFINITION. The two standard functions that boot and identity name (18 R450, R453): SHA-512, and Ed25519 as RFC 8032 states it. -/
namespace Sys2Proof.Machine

/-! ## SHA-512 -/

/-- The round constants 0 to 19. -/
def shaK0 : List Word :=
  [0x428A2F98D728AE22, 0x7137449123EF65CD, 0xB5C0FBCFEC4D3B2F, 0xE9B5DBA58189DBBC, 0x3956C25BF348B538,
   0x59F111F1B605D019, 0x923F82A4AF194F9B, 0xAB1C5ED5DA6D8118, 0xD807AA98A3030242, 0x12835B0145706FBE,
   0x243185BE4EE4B28C, 0x550C7DC3D5FFB4E2, 0x72BE5D74F27B896F, 0x80DEB1FE3B1696B1, 0x9BDC06A725C71235,
   0xC19BF174CF692694, 0xE49B69C19EF14AD2, 0xEFBE4786384F25E3, 0x0FC19DC68B8CD5B5, 0x240CA1CC77AC9C65]

/-- The round constants 20 to 39. -/
def shaK1 : List Word :=
  [0x2DE92C6F592B0275, 0x4A7484AA6EA6E483, 0x5CB0A9DCBD41FBD4, 0x76F988DA831153B5, 0x983E5152EE66DFAB,
   0xA831C66D2DB43210, 0xB00327C898FB213F, 0xBF597FC7BEEF0EE4, 0xC6E00BF33DA88FC2, 0xD5A79147930AA725,
   0x06CA6351E003826F, 0x142929670A0E6E70, 0x27B70A8546D22FFC, 0x2E1B21385C26C926, 0x4D2C6DFC5AC42AED,
   0x53380D139D95B3DF, 0x650A73548BAF63DE, 0x766A0ABB3C77B2A8, 0x81C2C92E47EDAEE6, 0x92722C851482353B]

/-- The round constants 40 to 59. -/
def shaK2 : List Word :=
  [0xA2BFE8A14CF10364, 0xA81A664BBC423001, 0xC24B8B70D0F89791, 0xC76C51A30654BE30, 0xD192E819D6EF5218,
   0xD69906245565A910, 0xF40E35855771202A, 0x106AA07032BBD1B8, 0x19A4C116B8D2D0C8, 0x1E376C085141AB53,
   0x2748774CDF8EEB99, 0x34B0BCB5E19B48A8, 0x391C0CB3C5C95A63, 0x4ED8AA4AE3418ACB, 0x5B9CCA4F7763E373,
   0x682E6FF3D6B2B8A3, 0x748F82EE5DEFB2FC, 0x78A5636F43172F60, 0x84C87814A1F0AB72, 0x8CC702081A6439EC]

/-- The round constants 60 to 79. -/
def shaK3 : List Word :=
  [0x90BEFFFA23631E28, 0xA4506CEBDE82BDE9, 0xBEF9A3F7B2C67915, 0xC67178F2E372532B, 0xCA273ECEEA26619C,
   0xD186B8C721C0C207, 0xEADA7DD6CDE0EB1E, 0xF57D4F7FEE6ED178, 0x06F067AA72176FBA, 0x0A637DC5A2C898A6,
   0x113F9804BEF90DAE, 0x1B710B35131C471B, 0x28DB77F523047D84, 0x32CAAB7B40C72493, 0x3C9EBE0A15C9BEBC,
   0x431D67C49C100D4C, 0x4CC5D4BECB3E42B6, 0x597F299CFC657E2A, 0x5FCB6FAB3AD6FAEC, 0x6C44198C4A475817]

/-- The 80 round constants. -/
def shaK : List Word := shaK0 ++ shaK1 ++ shaK2 ++ shaK3

/-- The hash value before the first block. -/
def shaStart : List Word :=
  [0x6A09E667F3BCC908, 0xBB67AE8584CAA73B, 0x3C6EF372FE94F82B, 0xA54FF53A5F1D36F1, 0x510E527FADE682D1,
   0x9B05688C2B3E6C1F, 0x1F83D9ABFB41BD6B, 0x5BE0CD19137E2179]

/-- A word rotated right, by less than its width. -/
def shaRotr (x : Word) (n : Nat) : Word := x >>> n ||| x <<< (64 - n)

/-- A number's `n` low bytes, the most significant first, and back. -/
def bigBytes (n v : Nat) : List Byte := (toBytes n v).reverse
def ofBigBytes (l : List Byte) : Nat := ofBytes l.reverse

/-- The message with its padding: whole blocks of 128 bytes. -/
def shaPadded (m : List Byte) : List Byte :=
  m ++ 0x80 :: (List.replicate ((239 - m.length % 128) % 128) 0 ++ bigBytes 16 (8 * m.length))

/-- The next words of a block's schedule in front of those that are there, the newest first. -/
def shaExtend : Nat → List Word → List Word
  | 0, l => l
  | n + 1, l =>
    let w := fun (i : Nat) => l.getD i 0
    let s0 := shaRotr (w 14) 1 ^^^ shaRotr (w 14) 8 ^^^ w 14 >>> 7
    let s1 := shaRotr (w 1) 19 ^^^ shaRotr (w 1) 61 ^^^ w 1 >>> 6
    shaExtend n ((s1 + w 6 + s0 + w 15) :: l)

/-- The 80 words of a block's schedule. -/
def shaSchedule (block : List Byte) : List Word :=
  (shaExtend 64 ((List.range 16).map (fun i => BitVec.ofNat 64 (ofBigBytes ((block.drop (8 * i)).take 8)))).reverse).reverse

/-- One round on the eight working words. -/
def shaRound (v : List Word) (kw : Word × Word) : List Word :=
  match v with
  | [a, b, c, d, e, f, g, h] =>
    let s1 := shaRotr e 14 ^^^ shaRotr e 18 ^^^ shaRotr e 41
    let t1 := h + s1 + ((e &&& f) ^^^ (~~~e &&& g)) + kw.1 + kw.2
    let s0 := shaRotr a 28 ^^^ shaRotr a 34 ^^^ shaRotr a 39
    [t1 + s0 + ((a &&& b) ^^^ (a &&& c) ^^^ (b &&& c)), a, b, c, d + t1, e, f, g]
  | _ => v

/-- The hash value after a block. -/
def shaBlock (h : List Word) (block : List Byte) : List Word :=
  List.zipWith (· + ·) h ((shaK.zip (shaSchedule block)).foldl shaRound h)

/-- The hash value after the first `n` blocks of padded bytes. -/
def shaBlocks : Nat → List Word → List Byte → List Word
  | 0, h, _ => h
  | n + 1, h, m => shaBlocks n (shaBlock h (m.take 128)) (m.drop 128)

/-- SHA-512: the digest's 64 bytes. -/
def sha512 (m : List Byte) : List Byte :=
  let p := shaPadded m
  (shaBlocks (p.length / 128) shaStart p).flatMap (fun w => bigBytes 8 w.toNat)

/-! ## Ed25519 (RFC 8032) -/

/-- The prime of the field, the order of the base point, and the curve's constant. -/
def edP : Nat := 2 ^ 255 - 19
def edL : Nat := 2 ^ 252 + 0x14DEF9DEA2F79CD65812631A5CF5D3ED
def edD : Nat := 0x52036CEE2B6FFE738CC740797779E89800700A4D4141D8AB75EB4DCA135978A3

/-- A difference in the field. -/
def edSub (a b : Nat) : Nat := (a + edP - b % edP) % edP

/-- `a` to the power whose `n` bits `e` has, in the field. -/
def edPow (a e : Nat) : Nat → Nat
  | 0 => 1
  | n + 1 =>
    let r := edPow a (e / 2) n
    let q := r * r % edP
    if e % 2 = 1 then q * a % edP else q

/-- The inverse in the field. -/
def edInv (a : Nat) : Nat := edPow a (edP - 2) 255

/-- A point in extended coordinates. -/
structure EdPoint where
  x : Nat
  y : Nat
  z : Nat
  t : Nat
  deriving DecidableEq, Repr

def edZero : EdPoint := ⟨0, 1, 1, 0⟩

def edAdd (p q : EdPoint) : EdPoint :=
  let a := edSub p.y p.x * edSub q.y q.x % edP
  let b := (p.y + p.x) * (q.y + q.x) % edP
  let c := 2 * p.t * q.t * edD % edP
  let d := 2 * p.z * q.z % edP
  let e := edSub b a
  let f := edSub d c
  let g := (d + c) % edP
  let h := (b + a) % edP
  ⟨e * f % edP, g * h % edP, f * g % edP, e * h % edP⟩

/-- `k` times a point, over the `n` low bits of `k`. -/
def edMul (p : EdPoint) (k : Nat) : Nat → EdPoint
  | 0 => edZero
  | n + 1 =>
    let r := edMul p (k / 2) n
    let d := edAdd r r
    if k % 2 = 1 then edAdd d p else d

/-- Two points are the same. -/
def edSame (p q : EdPoint) : Bool := p.x * q.z % edP == q.x * p.z % edP && p.y * q.z % edP == q.y * p.z % edP

/-- The x of a point from its y and the low bit of x: none where no point of the curve has them. -/
def edRecover (y sign : Nat) : Option Nat :=
  if edP ≤ y then none
  else
    let u := edSub (y * y) 1
    let v := (edD * (y * y % edP) + 1) % edP
    let x2 := u * edInv v % edP
    if x2 = 0 then (if sign = 1 then none else some 0)
    else
      let x := edPow x2 ((edP + 3) / 8) 255
      let x' := if x * x % edP = x2 then x else x * edPow 2 ((edP - 1) / 4) 255 % edP
      if x' * x' % edP ≠ x2 then none
      else some (if x' % 2 = sign then x' else edP - x')

/-- The base point. -/
def edBase : EdPoint :=
  let y := 4 * edInv 5 % edP
  let x := (edRecover y 0).getD 0
  ⟨x, y, 1, x * y % edP⟩

/-- A point as 32 bytes, and back. -/
def edEncode (p : EdPoint) : List Byte :=
  let i := edInv p.z
  toBytes 32 (p.y * i % edP + p.x * i % edP % 2 * 2 ^ 255)
def edDecode (l : List Byte) : Option EdPoint :=
  let v := ofBytes l
  (edRecover (v % 2 ^ 255) (v / 2 ^ 255 % 2)).map (fun x => ⟨x, v % 2 ^ 255, 1, x * (v % 2 ^ 255) % edP⟩)

/-- The secret scalar of a seed, and the prefix of its signatures. -/
def edExpand (seed : List Byte) : Nat × List Byte :=
  let h := sha512 seed
  let a := ofBytes (h.take 32)
  (a % 2 ^ 254 / 8 * 8 + 2 ^ 254, h.drop 32)

/-- The public key of a seed. -/
def ed25519Public (seed : List Byte) : List Byte := edEncode (edMul edBase (edExpand seed).1 255)

/-- The signature of a message under a seed. -/
def ed25519Sign (seed message : List Byte) : List Byte :=
  let (a, prefix_) := edExpand seed
  let pub := ed25519Public seed
  let r := ofBytes (sha512 (prefix_ ++ message)) % edL
  let rs := edEncode (edMul edBase r 253)
  let k := ofBytes (sha512 (rs ++ pub ++ message)) % edL
  rs ++ toBytes 32 ((r + k * a) % edL)

/-- A signature verifies. The group equation is the one without the cofactor, which RFC 8032 calls sufficient.
(DESIGN CHOICE, unsafe; log 73.) -/
def ed25519Verify (pub message sig : List Byte) : Bool :=
  match edDecode pub, edDecode (sig.take 32) with
  | some a, some r =>
    let s := ofBytes (sig.drop 32)
    let k := ofBytes (sha512 (sig.take 32 ++ pub ++ message)) % edL
    decide (sig.length = 64 ∧ pub.length = 32 ∧ s < edL) && edSame (edMul edBase s 253) (edAdd r (edMul a k 253))
  | _, _ => false

end Sys2Proof.Machine
end

