-- ==== Sys2Proof/Machine/Host.lean ====
section
/-! DEFINITION. What reaches the device from outside: Ethernet frames, the RoCE connections, host frames, the die link, alarms, boot
and attestation (18 R440 to R455). -/
namespace Sys2Proof.Machine

/-! ## Event frames (R440 to R442) -/

/-- The entry that an incoming packet's queue pair names: the first valid one with it (R444). -/
def connIndex (s : State) (conn : Nat) : Option Nat :=
  (List.range (connCount s)).find? (fun i => match connAt s i with
    | some k => k.valid && k.qpn == conn
    | none => false)

/-- An answer on a connection leaves by its port; on none, by port 0 (R443, R444). -/
def transmit (s : State) (conn : Nat) (o : HostOut) : State :=
  let port := if s.eth.gates = [] then 0
    else (((connIndex s conn).bind (connAt s)).map (fun k => k.peer.port)).getD 0
  transmitAt s port o

/-- The stream whose valid entry a frame matches: the lowest. -/
def streamFor (s : State) (dmac vid : Nat) : Option Nat :=
  (List.range 64).find? (fun n =>
    let a := Table.getD s.eth.rta n 0
    flag (Table.getD s.eth.rtb n 0) 63 && field a 0 48 == dmac && field a 48 12 == vid)

/-- The tokens of a stream's meter, in hundredths of a bit, at the present time. -/
def meterTokens (s : State) (n cir : Nat) : Nat :=
  let full := Config.meterBurst * 100
  match Table.get? s.eth.meters n with
  | some (t, at_) => min full (t + (s.time - at_) * cir)
  | none => full

/-- The frame is dropped and counted. -/
def dropFrame (s : State) : State := { s with eth := { s.eth with drop := satAdd s.eth.drop 1 (2 ^ 32 - 1) } }

/-- The meter lets a frame of `size` bytes through; CIR = 0 is no meter. -/
def metered (s : State) (n cir size : Nat) : Bool × State :=
  if cir = 0 then (true, s)
  else
    let have_ := meterTokens s n cir
    let ok := decide (size * 800 ≤ have_)
    let left := if ok then have_ - size * 800 else have_
    (ok, { s with eth := { s.eth with meters := Table.set s.eth.meters n (left, s.time) } })

/-- The events of a frame in their order, at the queue its stream's entry names. -/
def deliverFrame (s : State) (n : Nat) (rtb : Word) (events : List (Word × Word)) : State :=
  events.foldl (fun s e =>
    (arriveEvent s (field rtb 8 8) (field rtb 16 3) (setField (setField e.1 48 8 n) 60 4 0) e.2 .external).2) s

/-- 802.1CB: the frame's sequence number is among the last 32 of its stream. (DESIGN CHOICE, unsafe; log 69.) -/
def duplicateFrame (s : State) (n : Nat) (rtb : Word) (seq : Nat) : Bool :=
  flag rtb 61 && (Table.getD s.eth.history n []).contains seq

/-- The sequence number is remembered. -/
def rememberFrame (s : State) (n : Nat) (rtb : Word) (seq : Nat) : State :=
  if flag rtb 61 then
    let l := (seq :: Table.getD s.eth.history n []).take 32
    { s with eth := { s.eth with history := Table.set s.eth.history n l } }
  else s

/-- ETH_FRAME_RECEIVE (R441). A frame of another EtherType, or with no or more than 64 events, is no event frame.
(DESIGN CHOICE, unsafe; log 69.) -/
def execEthFrameReceive (f : EthFrame) (s : State) : Out :=
  if f.etype ≠ field s.eth.cfg 0 16 ∨ f.events = [] ∨ 64 < f.events.length then .next s
  else match streamFor s f.dmac f.vid with
    | none => .next (dropFrame s)
    | some n =>
      let rtb := Table.getD s.eth.rtb n 0
      if duplicateFrame s n rtb f.seq then
        .next { s with eth := { s.eth with dup := satAdd s.eth.dup 1 (2 ^ 32 - 1) } }
      else
        let s1 := rememberFrame s n rtb f.seq
        if field rtb 40 16 < f.size then .next (dropFrame s1)
        else
          let (ok, s2) := metered s1 n (field rtb 24 16) f.size
          .next (if ok then deliverFrame s2 n rtb f.events else dropFrame s2)

/-- GPTP_MESSAGE_RECEIVE (R440, R6): device time is set to the grandmaster's. (DESIGN CHOICE, unsafe; log 75.) -/
def execGptpMessageReceive (grandmaster : Nat) (s : State) : Out :=
  let passed := s.cyc * 10 / 23 % 2 ^ 64
  .next { s with timeBase := (grandmaster + (2 ^ 64 - passed)) % 2 ^ 64 }

/-! ## RoCE requests (R443 to R445, R154) -/

def rightRead : Nat := 0
def rightWrite : Nat := 1
def rightAtomic : Nat := 2
def rightSend : Nat := 3

/-- The valid entry of a connection that grants a right. -/
def connGrants (s : State) (conn right : Nat) : Option Conn :=
  match (connIndex s conn).bind (connAt s) with
  | some k => if k.valid ∧ bit k.rights right then some k else none
  | none => none

/-- The checks before translation: entry, key, right. -/
def requestConn (s : State) (conn : Nat) (rkey : BitVec 32) (right : Nat) : Option Conn :=
  match connGrants s conn right with
  | some k => if k.rkey = rkey.toNat then some k else none
  | none => none

/-- The access of a request on a connection: SYSTEM rights only with WIN (R444). -/
def hostAccess (k : Conn) (kind : AccessKind) (va len : Nat) : Access :=
  { core := 0, job := k.job, sys := bit k.rights 4, agent := .host, kind := kind, va := va, len := len, align := 1, struct := false }

/-- A VA that a RoCE READ or WRITE may name: paged memory, or a global fixed window over a connection with WIN (R445). -/
def hostReaches (k : Conn) (va : Nat) : Bool :=
  if va / 2 ^ 56 = 0xFE then bit k.rights 4 && k.job == 0 && decide (va < localLoc) else true

/-- The request at hand of a connection is refused. -/
def refuse {α : Type} : Res α := raise cWindowDenied

/-- A request on a connection. It is taken up behind the requests of the connection that wait, its entry is read, and it ends: it
performs, it is refused and changes nothing, or it waits for a clear of what it names, and those behind it with it (R447).
(DESIGN CHOICE, unsafe; log 70.) -/
def hostRequest (conn : Nat) (i : HostReq) (s : State) (f : State → Res State) : Out :=
  let mine := s.eth.held.filter (fun e => e.1 = conn)
  let others := s.eth.held.filter (fun e => e.1 ≠ conn)
  if s.eth.again = false ∧ mine ≠ [] then .next { s with eth := { s.eth with held := s.eth.held ++ [(conn, i)] } }
  else
    let s0 : State := if s.eth.again then { s with eth := { s.eth with again := false, held := mine.drop 1 ++ others } } else s
    let s1 := match connIndex s0 conn with
      | some n => connSeen s0 n
      | none => s0
    match f s1 with
    | .ok s2 => .next s2
    | .error (.stall _) => .next { s1 with eth := { s1.eth with held := others ++ (conn, i) :: mine.drop 1 } }
    | .error (.trap _) => .next (transmit s1 conn (.refuse conn))

/-- The entry that a request with a key needs. -/
def needConn (s : State) (conn : Nat) (rkey : BitVec 32) (right : Nat) : Res Conn :=
  match requestConn s conn rkey right with
  | some k => pure k
  | none => refuse

/-- ROCE_WRITE (R444, R445). -/
def execRoceWrite (conn : Nat) (rkey : BitVec 32) (va : BitVec 64) (data : List (BitVec 8)) (s : State) : Out :=
  hostRequest conn (.write rkey va data) s (fun s => do
    let k ← needConn s conn rkey rightWrite
    if hostReaches k va.toNat = false then refuse
    let n := data.length
    let s1 ← writeRange s (hostAccess k .write va.toNat n) (rangeFuel n) va.toNat n (ofBytes data)
    pure (transmit s1 conn (.ack conn)))

/-- ROCE_READ (R444, R445). -/
def execRoceRead (conn : Nat) (rkey : BitVec 32) (va : BitVec 64) (len : Nat) (s : State) : Out :=
  hostRequest conn (.read rkey va len) s (fun s => do
    let k ← needConn s conn rkey rightRead
    if hostReaches k va.toNat = false then refuse
    let (v, s1) ← readRange s (hostAccess k .read va.toNat len) (rangeFuel len) va.toNat len
    pure (transmit s1 conn (.data conn (toBytes len v))))

/-- An 8-byte atomic of the host, on a page with AMO = SYS only (R154). -/
def hostAtomic (s : State) (k : Conn) (va : Nat) (o : AtomicOp) : Res (Nat × State) := do
  let a := { hostAccess k .atomic va 8 with align := 8 }
  if va / 2 ^ 56 = 0xFE then refuse
  let (_, t, s1) ← checkAccess s a
  match t with
  | .bytes (p :: _) => if p.paged ∧ p.amo = 3 then atomicAt s1 a 2 false p o else raise cWindowDenied va
  | _ => raise cWindowDenied va

/-- A RoCE atomic: the old value goes back. -/
def roceAtomic (conn : Nat) (rkey : BitVec 32) (va : BitVec 64) (o : AtomicOp) (i : HostReq) (s : State) : Out :=
  hostRequest conn i s (fun s => do
    let k ← needConn s conn rkey rightAtomic
    let (v, s1) ← hostAtomic s k va.toNat o
    pure (transmit s1 conn (.value conn (BitVec.ofNat 64 v))))

/-- ROCE_FETCH_ADD (R154). -/
def execRoceFetchAdd (conn : Nat) (rkey : BitVec 32) (va addend : BitVec 64) (s : State) : Out :=
  roceAtomic conn rkey va { op := 0, operand := addend.toNat, expected := none } (.fetchAdd rkey va addend) s

/-- ROCE_COMPARE_SWAP (R154). -/
def execRoceCompareSwap (conn : Nat) (rkey : BitVec 32) (va compare swap : BitVec 64) (s : State) : Out :=
  roceAtomic conn rkey va { op := 0, operand := swap.toNat, expected := some compare.toNat }
    (.compareSwap rkey va compare swap) s

/-- ROCE_UNSUPPORTED_REQUEST (R443, R446). -/
def execRoceUnsupportedRequest (conn : Nat) (s : State) : Out :=
  hostRequest conn .unsupported s (fun _ => refuse)

/-! ## Host frames (R446, R384) -/

/-- A frame's record operand passes R362 (with its descriptor or record readable) and R446: the record's bits.
(DESIGN CHOICE, unsafe; log 70.) -/
def frameRecord (s : State) (k : Conn) (ka : Nat) : Res (Nat × State) := do
  let base := recordBase ka
  let n := recordBytes ka
  needPaged base n
  let (v, s1) ← readRange s (hostAccess k .read base n) (rangeFuel n) base n
  if recordLegal ka v = false ∨ (k.job ≠ 0 ∧ bit v 15) then raise cIllegalOp base
  pure (v, s1)

/-- The core whose square's lane takes a host frame's record: the lowest square of the partition on the VA's die, else on the
other. -/
def frameCore (s : State) (job ka : Nat) : Option Nat :=
  let die := ka / 2 ^ 52 % 2
  ((firstSquare s job die).orElse (fun _ => firstSquare s job (1 - die))).map squareCore

/-- The placement of R363 from step 4, for the host. -/
def hostPlace (s : State) (c job ka v : Nat) : State := placeAt s c job ka v 4 false

/-- The entry that a frame needs, with the core that stands for its lane. -/
def needFrame (s : State) (conn : Nat) : Res Conn :=
  match connGrants s conn rightSend with
  | some k => pure k
  | none => refuse

/-- The core that stands for a record's lane; a frame of a job whose partition is empty is refused (R384). -/
def needLane (s : State) (k : Conn) (ka : Nat) : Res Nat :=
  match frameCore s k.job ka with
  | some c => pure c
  | none => refuse

/-- PLACE (R446). -/
def execPlace (conn : Nat) (va : BitVec 64) (s : State) : Out :=
  hostRequest conn (.place va) s (fun s => do
    let k ← needFrame s conn
    let c ← needLane s k va.toNat
    let (v, s1) ← frameRecord s k va.toNat
    pure (transmit (hostPlace s1 c k.job va.toNat v) conn (.ack conn)))

/-- The DEC of a frame: the record is legal, the counter may be written, and the `dec` performs. -/
def hostDecAt (s : State) (k : Conn) (c ka : Nat) : Res State := do
  let (_, s1) ← frameRecord s k ka
  let (_, _, s2) ← checkAccess s1 { hostAccess k .atomic (recordBase ka + 8) 8 with align := 8 }
  decRecord s2 c k.job ka

/-- HOST_DEC (R446). -/
def execHostDec (conn : Nat) (va : BitVec 64) (s : State) : Out :=
  hostRequest conn (.dec va) s (fun s => do
    let k ← needFrame s conn
    let c ← needLane s k va.toNat
    let s1 ← hostDecAt s k c va.toNat
    pure (transmit s1 conn (.ack conn)))

/-- A cancel frame (R446, R172): the level's index stands in [11:0], and the bits above must be 0. -/
def hostCancelWith (hard : Bool) (conn : Nat) (level : BitVec 64) (s : State) : Out :=
  hostRequest conn (.cancel level hard) s (fun s => do
    let k ← needFrame s conn
    if 4096 ≤ level.toNat then refuse
    pure (transmit (cancelLevel s 0 k.job level.toNat hard) conn (.ack conn)))

/-- HOST_CANCEL (R446). -/
def execHostCancel (conn : Nat) (level : BitVec 64) (s : State) : Out :=
  hostCancelWith false conn level s

/-- HOST_CANCELH (R446). -/
def execHostCancelh (conn : Nat) (level : BitVec 64) (s : State) : Out :=
  hostCancelWith true conn level s

/-! ## Alarms (R449, R454, R455) -/

/-- Where SEC.POL holds a source's action. -/
def alarmField : AlarmSource → Nat
  | .volt => 2
  | .clk => 4
  | .temp => 6
  | .case => 8
  | .dbg => 10
  | .link => 12

/-- HALT: every core and engine stops, and Ethernet transmit. -/
def haltDevice (s : State) : State := { s with halted := true, eth := { s.eth with stopped := true } }

/-- ERASE: the volatile key store is zeroed. -/
def eraseKeys (s : State) : State := { s with sec := { s.sec with keyStore := false, noKey := true } }

/-- An alarm source raises: the action of SEC.POL, each of which logs. (DESIGN CHOICE, unsafe; log 72.) -/
def raiseAlarm (s : State) (x : AlarmSource) : State :=
  let act := field s.sec.pol (alarmField x) 2
  let s1 := telemetry s 0 7 0 0 (Config.alarmCode (alarmField x) % 256 + act * 2 ^ 8)
  match act with
  | 0 => s1
  | 1 => haltDevice s1
  | 2 => eraseKeys s1
  | _ =>
    let s2 := haltDevice (eraseKeys s1)
    { s2 with sec := { s2.sec with kdis := true } }

/-- TAMPER_ALARM (R454). -/
def execTamperAlarm (source : AlarmSource) (s : State) : Out := .next (raiseAlarm s source)

/-- DEBUG_UNLOCK_FAIL (R455): the eighth consecutive failure raises DBG. -/
def execDebugUnlockFail (s : State) : Out :=
  let n := s.sec.unlockFails + 1
  let s1 : State := { s with sec := { s.sec with unlockFails := n } }
  .next (if n = 8 then raiseAlarm s1 .dbg else s1)

/-- UCIE_MODULE_FAIL (R449): the record has the thermal kind, sensor 0xFF and the count of modules left. -/
def execUcieModuleFail (s : State) : Out :=
  if s.modules = 0 then .next s
  else
    let n := s.modules - 1
    let s1 := telemetry { s with modules := n } 0 6 0 0 (0xFF + n * 2 ^ 16)
    .next (if n = 0 then raiseAlarm s1 .link else s1)

/-! ## Boot (R450 to R452) -/

/-- A field of an image; bytes that it does not have read 0. -/
def imageField (image : List Byte) (lo n : Nat) : List Byte := (List.range n).map (fun i => (image[lo + i]?).getD 0)
/-- Its body, LEN bytes from 128. -/
def imageBody (image : List Byte) : List Byte := (image.drop 128).take (ofBytes (imageField image 12 4))

/-- SHA-512 of bytes 0 to 47 and the body, as bytes. -/
def imageDigest (image : List Byte) : List Byte := sha512 (imageField image 0 48 ++ imageBody image)

/-- The ROM accepts an image (R450). (DESIGN CHOICE, unsafe; log 73.) -/
def imageAccepted (antiRollback : Word) (image : List Byte) : Bool :=
  decide (128 + ofBytes (imageField image 12 4) ≤ image.length) &&
    ofBytes (imageField image 0 8) == 0x4F424C4659324159 &&
    ofBytes (imageField image 112 16) == 0 &&
    sha512 (imageField image 16 32) == toBytes 64 Config.vendorKeyHash.toNat &&
    decide (popcount 64 antiRollback.toNat ≤ ofBytes (imageField image 8 4)) &&
    ed25519Verify (imageField image 16 32) (imageDigest image) (imageField image 48 64)

/-- The firmware has been verified, or the ROM waits for an image on the management port (R451). -/
def bootWith (s : State) (image : List Byte) : State :=
  if imageAccepted s.sec.antiRollback image then
    { s with sec := { s.sec with booted := true, romWait := false, received := [], image := image } }
  else { s with sec := { s.sec with booted := false, romWait := true, received := [] } }

/-- COLD_RESET (R450, R452): the state after reset, with the fuses as they stand and the identity derived again unless its fuse is
blown (R453, R454). What the environment does next stays as it is. (DESIGN CHOICE, unsafe; log 73.) -/
def execColdReset (flash : List (BitVec 8)) (s : State) : Out :=
  let r := State.reset
  let s1 : State := { r with
    free := s.free
    agenda := s.agenda
    sec := { r.sec with
      kdis := s.sec.kdis
      noKey := s.sec.kdis
      keyStore := !s.sec.kdis
      antiRollback := s.sec.antiRollback } }
  .next (bootWith s1 flash)

/-- The image received so far: its bytes up to the last that came, those that did not come 0. -/
def receivedImage (t : Table Byte) : List Byte :=
  (List.range (t.foldl (fun m e => max m (e.1 + 1)) 0)).map (fun i => Table.getD t i 0)

/-- BOOT_TRANSFER_END (R451). -/
def execBootTransferEnd (s : State) : Out :=
  if s.sec.romWait then .next (bootWith s (receivedImage s.sec.received)) else .next s

/-- BOOT_DATAGRAM (R451): up to 1,024 bytes of the image at an offset, while the ROM waits for one. -/
def execBootDatagram (offset : Nat) (data : List (BitVec 8)) (s : State) : Out :=
  if s.sec.romWait = false ∨ 1024 < data.length then .next s
  else if offset = 0xFFFFFFFF then execBootTransferEnd s
  else
    let t := (List.range data.length).foldl (fun t i => Table.set t (offset + i) ((data[i]?).getD 0)) s.sec.received
    .next { s with sec := { s.sec with received := t } }

/-! ## Attestation (R453) -/

/-- The seed of the identity: the low 256 bits of the digest, its first 32 bytes. (DEDUCED, unsafe; log 73.) -/
def identitySeed : List Byte :=
  (sha512 (Config.fusedSecret ++ [0x59, 0x46, 0x32, 0x34, 0x34, 0x30, 0x2D, 0x49, 0x44])).take 32

/-- The report of 256 bytes. Without a key the signature is 0 and the public key is a value left open. -/
def attestationReport (s : State) (nonce : List Byte) : List Byte :=
  let none_ := (List.range 4).flatMap (fun i => toBytes 8 (Config.freeWord (s.free + i)).toNat)
  let pub := if s.sec.noKey then none_ else ed25519Public identitySeed
  let body := nonce ++ pub ++ imageDigest s.sec.image ++ imageField s.sec.image 8 4 ++
    toBytes 4 (popcount 64 s.sec.antiRollback.toNat) ++ toBytes 8 s.sec.pol.toNat ++ toBytes 48 0
  body ++ (if s.sec.noKey then toBytes 64 0 else ed25519Sign identitySeed body)

/-- The report written into job 0's memory at an aligned address of its paged memory. -/
def writeReport (s : State) (va : Nat) : Res State := do
  needPaged va 256
  let (v, s1) ← readRange s (hwAccess 0 0 va 32 .read) (rangeFuel 32) va 32
  let report := attestationReport s1 (toBytes 32 v)
  writeRange { s1 with free := s1.free + 4 } (hwAccess 0 0 va 256 .write) (rangeFuel 256) va 256 (ofBytes (report.take 256))

/-- ATTESTATION_REPORT_DONE (R453). A buffer that cannot be written leaves nothing done. -/
def execAttestationReportDone (s : State) : Out :=
  match s.sec.atreq with
  | none => .next s
  | some va =>
    let s0 : State := { s with sec := { s.sec with atreq := none } }
    match writeReport s0 va.toNat with
    | .ok s1 => .next { s1 with sec := { s1.sec with done := true } }
    | .error _ => .next s0

end Sys2Proof.Machine
end

