-- ==== Sys2Proof/Machine/Power.lean ====
section
/-! DEFINITION. Forecasts, operating points, rails, the cap, the slew limiter, energy counts and the thermal records
(15 R407, 17 R425 to R439). -/
namespace Sys2Proof.Machine

/-! ## Operating points and rails (R425 to R427) -/

/-- The voltage that a point needs, in mV (R425). -/
def pointMv (p : Nat) : Nat :=
  match p with
  | 0 => 580
  | 1 => 600
  | 2 => 640
  | 3 => 680
  | 4 => 720
  | 5 => 760
  | 6 => 800
  | _ => 850

/-- A square's request (R426): the highest of its cores' requests. -/
def squareRequest (s : State) (q : Nat) : Nat := (squareCores q).foldl (fun m c => max m ((s.core c).af * 8 / 256)) 0

/-- A square's target set (R426, R427): a lower one lowers its clock at once. -/
def setTarget (s : State) (q : Nat) : State :=
  let t := squareRequest s q - (s.square q).lowered
  if (s.square q).target = t ∧ (s.square q).point ≤ t then s
  else s.modSquare q (fun k => { k with target := t, point := min k.point t })

/-- A raise in the district has not taken effect yet. -/
def raising (s : State) (d : Nat) : Bool :=
  (districtSquares d).any (fun q => decide ((s.square q).point < (s.square q).target))

/-- The highest voltage that a district's targets need. -/
def neededMv (s : State) (d : Nat) : Nat :=
  (districtSquares d).foldl (fun m q => max m (pointMv (s.square q).target)) 0

/-- A rail's move of 10 mV toward a voltage. -/
def railToward (rail goal : Nat) : Nat := if rail < goal then min goal (rail + 10) else max goal (rail - 10)

/-- One microsecond of a district's rail (R427): a higher need extends the ramp, a lower one waits until the ramp is over and no raise
is under way. -/
def railStep (s : State) (d : Nat) : State :=
  let k := s.district d
  let need := neededMv s d
  let ramp : Option Nat :=
    match k.ramp with
    | some g => some (max g need)
    | none =>
      if k.rail < need then some need
      else if need < k.rail ∧ raising s d = false then some need
      else none
  match ramp with
  | none => if raising s d then s.dueOnce (.rail ⟨d % 8, Nat.mod_lt _ (by decide)⟩) else s
  | some g =>
    let rail := railToward k.rail g
    let s1 := (s.districtCount d 0xC2 1).modDistrict d (fun k => { k with rail := rail, ramp := if rail = g then none else some g })
    if rail = g then s1.dueOnce (.rail ⟨d % 8, Nat.mod_lt _ (by decide)⟩) else s1

/-- RAIL_SETTLE (R427): where the rail has settled, raised clocks switch. -/
def execRailSettle (district : Fin 8) (s : State) : Out :=
  let d := district.val
  if (s.district d).ramp.isSome then .next s
  else .next ((districtSquares d).foldl (fun s q =>
    let k := s.square q
    if k.point < k.target ∧ pointMv k.target ≤ (s.district d).rail then s.modSquare q (fun k => { k with point := k.target }) else s) s)

/-! ## The cap (R428) -/

/-- The job whose partition holds a square. -/
def squareJob (s : State) (q : Nat) : Option Nat := (List.range 256).find? (fun j => flag (s.job j).part q)

/-- The square's partition is estimated above its guaranteed floor. -/
def aboveFloor (s : State) (n q : Nat) : Bool :=
  match squareJob s q with
  | some j => decide (field (s.job j).pwr 0 16 < Config.partitionEstimate n j)
  | none => false

/-- The square that the cap lowers next: the highest request above its floor, the lowest id among equals. -/
def capVictim (s : State) (n : Nat) : Option Nat :=
  ((List.range 64).filter (aboveFloor s n)).foldl (fun b q => match b with
    | none => some q
    | some p => if squareRequest s p < squareRequest s q then some q else b) none

/-- The mean of the estimates of the last 100 µs. -/
def meanPower (l : List Nat) : Nat := l.foldl (· + ·) 0 / max 1 l.length

/-- A new MIN for a square's limiter, at its next step (R433). -/
def setMin (s : State) (q m : Nat) : State :=
  s.modMxe q (fun e => { e with pendMin := some m })

/-- MIN as it will stand at the next step. -/
def nextMin (e : Mxe) : Nat := e.pendMin.getD e.minCad

/-- The square is lowered by one point, or at point 0 its MIN is doubled. -/
def lowerSquare (s : State) (q : Nat) : State :=
  let k := s.square q
  if squareRequest s q ≤ k.lowered then setMin s q (min 16 (2 * nextMin k.mxe))
  else s.modSquare q (fun k => { k with lowered := k.lowered + 1 })

/-- The squares are released by one point: one whose MIN was doubled has it halved first. -/
def releaseSquares (s : State) : State :=
  (List.range 64).foldl (fun s q =>
    let k := s.square q
    if 1 < nextMin k.mxe then setMin s q (nextMin k.mxe / 2)
    else if 0 < k.lowered then s.modSquare q (fun k => { k with lowered := k.lowered - 1 })
    else s) s

/-- A microsecond of the power manager's cap. -/
def capStep (s : State) : State :=
  let n := s.free
  let l := (Config.packageEstimate n :: s.power.estimates).take 100
  let mean := meanPower l
  let s1 : State := { s.fresh with power := { s.power with estimates := l } }
  if s.power.eff ≠ 0 ∧ s.power.eff < mean then
    match capVictim s1 n with
    | some q => lowerSquare s1 q
    | none => s1
  else if s.power.eff = 0 ∨ 100 * mean ≤ 95 * s.power.eff then releaseSquares s1
  else s1

/-- FORECAST_TICK (R407, R426): the forecasts are written, and then the power manager sets targets and moves the rails. -/
def execForecastTick (s : State) : Out :=
  let s1 := capStep (forecastStep s)
  .next ((List.range 8).foldl railStep ((List.range 64).foldl setTarget s1))

/-- SLEW_STEP (R431, R432): the boundary of the present step. Each step's first cycle brings it for every district whose arrays draw or
wait (`beaconCycle`). -/
def execSlewStep (district : Fin 8) (s : State) : Out := .next (slewStep s district.val (s.cyc / 4))

/-! ## Energy (R434, R435) -/

/-- The counts of one core turned into energy and charged to jobs. (DESIGN CHOICE, unsafe; log 43.) -/
def chargeEnergy (s : State) (c : Nat) : State :=
  let s1 := (s.core c).energy.foldl (fun s e =>
    let cls := e.1 % 64
    let idx := e.1 / 64 % 16
    let job := e.1 / 1024
    s.modJob job (fun j =>
      let v := (j.nrg[idx]?).getD 0 + BitVec.ofNat 64 (Config.energyCoefficient cls * e.2)
      { j with nrg := j.nrg.setIfInBounds idx v })) s
  s1.modCore c (fun k => { k with energy := [] })

/-- NRG_UPDATE (R435). -/
def execNrgUpdate (s : State) : Out :=
  .next ((s.cores.filter (fun e => e.2.energy ≠ [])).foldl (fun s e => chargeEnergy s e.1) s)

/-! ## Thermal records (R439) -/

/-- THERMAL_THRESHOLD (R439): a record when a sensor reaches 95 °C, and one when it has then returned below 90 °C.
(DESIGN CHOICE, unsafe; log 61.) -/
def execThermalThreshold (sensor : Fin 256) (celsius : Int) (s : State) : Out :=
  let n := sensor.val
  let hot := s.thermal.contains n
  let record := fun (s : State) => telemetry s (dieOf n) 6 n (s.core n).task.job (n + wrap celsius 16 * 2 ^ 16)
  if 95 ≤ celsius ∧ hot = false then .next (record { s with thermal := n :: s.thermal })
  else if celsius < 90 ∧ hot then .next (record { s with thermal := s.thermal.filter (· ≠ n) })
  else .next s

end Sys2Proof.Machine
end

