-- ==== Sys2Proof/Machine/Scalar.lean ====
section
/-! DEFINITION. The scalar instructions of majors 0x01 to 0x05 and 0x08 to 0x0E (09 R219 to R228). -/
namespace Sys2Proof.Machine

/-! ## Forms (R219) -/

/-- The operation width of a width field: 64 bits, or 32 for `.w`. -/
def widthOf (w : Nat) : Nat := if w = 0 then 64 else 32

/-- `op kd, ka, kb`: a function of the width and of the operands' low bits, sign-extended to 64 bits. -/
def scalar2 (lat : Nat) (f : Nat → Nat → Nat → Nat) (d : Fin 16) (a b : Fin 32) (w : Fin 4) (s : State) : Out :=
  let n := widthOf w
  issue { srcs := [(.k, a), (.k, b)], dst := some (.k, d), lat := lat }
    (fun c vs s => putK s c d lat (sext64 (f n ((arg vs 0).toNat % 2 ^ n) ((arg vs 1).toNat % 2 ^ n)) n)) s

/-- `op kd, ka`. -/
def scalar1 (f : Nat → Nat → Nat) (d : Fin 16) (a : Fin 32) (w : Fin 4) (s : State) : Out :=
  let n := widthOf w
  issue { srcs := [(.k, a)], dst := some (.k, d), lat := 1 }
    (fun c vs s => putK s c d 1 (sext64 (f n ((arg vs 0).toNat % 2 ^ n)) n)) s

/-- The divider is taken: the division begins once it is free, and holds it for its time (R223). -/
def takeDivider (s : State) (c n : Nat) : State :=
  s.modCore c (fun k =>
    let at_ := max k.pipe.lastIssue k.pipe.divFree
    { k with pipe := { k.pipe with lastIssue := at_, readyAt := at_ + 1, divFree := at_ + (if n = 64 then 34 else 18) } })

/-- A division or remainder, whose result comes later (R208, R223). -/
def scalarDiv (f : Nat → Nat → Nat → Nat) (d : Fin 16) (a b : Fin 32) (w : Fin 4) (s : State) : Out :=
  let n := widthOf w
  issue { srcs := [(.k, a), (.k, b)], dst := some (.k, d), lat := 0, cls := 1 }
    (fun c vs s => putKLater (takeDivider s c n) c d
      (sext64 (f n ((arg vs 0).toNat % 2 ^ n) ((arg vs 1).toNat % 2 ^ n)) n)) s

/-- A comparison of the low bits: 1 or 0 (R224). -/
def scalarCmp (code : Nat) (d : Fin 16) (a b : Fin 32) (w : Fin 4) (s : State) : Out :=
  issue { srcs := [(.k, a), (.k, b)], dst := some (.k, d), lat := 1 }
    (fun c vs s => putK s c d 1 (BitVec.ofNat 64 (b2n (condHolds (widthOf w) code (arg vs 0).toNat (arg vs 1).toNat)))) s

/-- `op kd, ka, i` on 64 bits; `signed` tells how the field is extended without hints (R194, R202, R226). -/
def scalarImm (signed : Bool) (f : Nat → Nat → Nat) (d : Fin 16) (a : Fin 32) (i : Fin 65536) (s : State) : Out :=
  issue { srcs := [(.k, a)], dst := some (.k, d), lat := 1, use := { imm := 16 } }
    (fun c vs s => putK s c d 1
      (BitVec.ofNat 64 (f (arg vs 0).toNat (wrap (immOf (s.core c).hints 16 i signed) 64)))) s

/-- A shift by an immediate amount (R227). -/
def scalarShift (f : Nat → Nat → Nat → Nat) (d : Fin 16) (a : Fin 32) (w : Fin 2) (sh : Fin 64) (s : State) : Out :=
  let n := widthOf w
  issue { srcs := [(.k, a)], dst := some (.k, d), lat := 1 }
    (fun c vs s => putK s c d 1 (sext64 (f n ((arg vs 0).toNat % 2 ^ n) sh) n)) s

/-- A bit field of the operand: its position and its length clipped at the width (R225). -/
def fieldAt (n spec : Nat) : Nat × Nat :=
  let pos := bits spec 0 6
  (pos, if n ≤ pos then 0 else min (bits spec 8 6 + 1) (n - pos))

/-! ## What the operations compute (R220 to R225) -/

/-- All ones of the width. -/
def ones (n : Nat) : Nat := 2 ^ n - 1
def shl (n x y : Nat) : Nat := x <<< (y % n) % 2 ^ n
def shr (n x y : Nat) : Nat := x >>> (y % n)
def sar (n x y : Nat) : Nat := wrap (sint x n / (2 ^ (y % n) : Nat)) n
def rotl (n x y : Nat) : Nat := (x <<< (y % n) ||| x >>> (n - y % n)) % 2 ^ n
def rotr (n x y : Nat) : Nat := (x >>> (y % n) ||| x <<< (n - y % n)) % 2 ^ n
/-- The product's high half, the factors as the two readings give them. -/
def mulHigh (n : Nat) (x y : Int) : Nat := wrap (x * y / (2 ^ n : Nat)) n
def divSigned (n x y : Nat) : Nat := if y = 0 then ones n else wrap (Int.tdiv (sint x n) (sint y n)) n
def remSigned (n x y : Nat) : Nat := if y = 0 then x else wrap (Int.tmod (sint x n) (sint y n)) n
def byteSwap (n x : Nat) : Nat := ofBytes (toBytes (n / 8) x).reverse

/-! ## Major 0x01 (R220) -/

/-- `add` (R220). -/
def execAdd (d : Fin 16) (a b : Fin 32) (w : Fin 4) (s : State) : Out :=
  scalar2 1 (fun _ x y => x + y) d a b w s

/-- `sub` (R220). -/
def execSub (d : Fin 16) (a b : Fin 32) (w : Fin 4) (s : State) : Out :=
  scalar2 1 (fun n x y => x + (2 ^ n - y)) d a b w s

/-- `and` (R220). -/
def execAnd (d : Fin 16) (a b : Fin 32) (w : Fin 4) (s : State) : Out :=
  scalar2 1 (fun _ x y => x &&& y) d a b w s

/-- `or` (R220). -/
def execOr (d : Fin 16) (a b : Fin 32) (w : Fin 4) (s : State) : Out :=
  scalar2 1 (fun _ x y => x ||| y) d a b w s

/-- `xor` (R220). -/
def execXor (d : Fin 16) (a b : Fin 32) (w : Fin 4) (s : State) : Out :=
  scalar2 1 (fun _ x y => x ^^^ y) d a b w s

/-- `andn` (R220). -/
def execAndn (d : Fin 16) (a b : Fin 32) (w : Fin 4) (s : State) : Out :=
  scalar2 1 (fun n x y => x &&& (ones n ^^^ y)) d a b w s

/-- `orn` (R220). -/
def execOrn (d : Fin 16) (a b : Fin 32) (w : Fin 4) (s : State) : Out :=
  scalar2 1 (fun n x y => x ||| (ones n ^^^ y)) d a b w s

/-- `sll` (R220). -/
def execSll (d : Fin 16) (a b : Fin 32) (w : Fin 4) (s : State) : Out :=
  scalar2 1 shl d a b w s

/-- `srl` (R220). -/
def execSrl (d : Fin 16) (a b : Fin 32) (w : Fin 4) (s : State) : Out :=
  scalar2 1 shr d a b w s

/-- `sra` (R220). -/
def execSra (d : Fin 16) (a b : Fin 32) (w : Fin 4) (s : State) : Out :=
  scalar2 1 sar d a b w s

/-- `rol` (R220). -/
def execRol (d : Fin 16) (a b : Fin 32) (w : Fin 4) (s : State) : Out :=
  scalar2 1 rotl d a b w s

/-- `ror` (R220). -/
def execRor (d : Fin 16) (a b : Fin 32) (w : Fin 4) (s : State) : Out :=
  scalar2 1 rotr d a b w s

/-- `min`: the signed minimum (R220). -/
def execMin (d : Fin 16) (a b : Fin 32) (w : Fin 4) (s : State) : Out :=
  scalar2 1 (fun n x y => if sint x n < sint y n then x else y) d a b w s

/-- `max`: the signed maximum (R220). -/
def execMax (d : Fin 16) (a b : Fin 32) (w : Fin 4) (s : State) : Out :=
  scalar2 1 (fun n x y => if sint x n < sint y n then y else x) d a b w s

/-- `minz`: the unsigned minimum (R220). -/
def execMinz (d : Fin 16) (a b : Fin 32) (w : Fin 4) (s : State) : Out :=
  scalar2 1 (fun _ x y => if x < y then x else y) d a b w s

/-- `maxz`: the unsigned maximum (R220). -/
def execMaxz (d : Fin 16) (a b : Fin 32) (w : Fin 4) (s : State) : Out :=
  scalar2 1 (fun _ x y => if x < y then y else x) d a b w s

/-- `addx2` (R220). -/
def execAddx2 (d : Fin 16) (a b : Fin 32) (w : Fin 4) (s : State) : Out :=
  scalar2 1 (fun _ x y => x * 2 + y) d a b w s

/-- `addx4` (R220). -/
def execAddx4 (d : Fin 16) (a b : Fin 32) (w : Fin 4) (s : State) : Out :=
  scalar2 1 (fun _ x y => x * 4 + y) d a b w s

/-- `addx8` (R220). -/
def execAddx8 (d : Fin 16) (a b : Fin 32) (w : Fin 4) (s : State) : Out :=
  scalar2 1 (fun _ x y => x * 8 + y) d a b w s

/-- `addx16` (R220). -/
def execAddx16 (d : Fin 16) (a b : Fin 32) (w : Fin 4) (s : State) : Out :=
  scalar2 1 (fun _ x y => x * 16 + y) d a b w s

/-- `clmul`: the low half of the carry-less product (R220). -/
def execClmul (d : Fin 16) (a b : Fin 32) (w : Fin 4) (s : State) : Out :=
  scalar2 1 (fun n x y => clmulNat n x y) d a b w s

/-- `clmulh`: its high half (R220). -/
def execClmulh (d : Fin 16) (a b : Fin 32) (w : Fin 4) (s : State) : Out :=
  scalar2 1 (fun n x y => clmulNat n x y >>> n) d a b w s

/-! ## Major 0x02 (R221) -/

/-- `clz` (R221). -/
def execClz (d : Fin 16) (a : Fin 32) (w : Fin 4) (s : State) : Out :=
  scalar1 (leadingZeros) d a w s

/-- `ctz` (R221). -/
def execCtz (d : Fin 16) (a : Fin 32) (w : Fin 4) (s : State) : Out :=
  scalar1 (trailingZeros) d a w s

/-- `pop` (R221). -/
def execPop (d : Fin 16) (a : Fin 32) (w : Fin 4) (s : State) : Out :=
  scalar1 (popcount) d a w s

/-- `brev` (R221). -/
def execBrev (d : Fin 16) (a : Fin 32) (w : Fin 4) (s : State) : Out :=
  scalar1 (reverseBits) d a w s

/-- `bswap` (R221). -/
def execBswap (d : Fin 16) (a : Fin 32) (w : Fin 4) (s : State) : Out :=
  scalar1 (byteSwap) d a w s

/-- `sextb` (R221). -/
def execSextb (d : Fin 16) (a : Fin 32) (w : Fin 4) (s : State) : Out :=
  scalar1 (fun n x => wrap (sint x 8) n) d a w s

/-- `sexth` (R221). -/
def execSexth (d : Fin 16) (a : Fin 32) (w : Fin 4) (s : State) : Out :=
  scalar1 (fun n x => wrap (sint x 16) n) d a w s

/-- `sextw` (R221). -/
def execSextw (d : Fin 16) (a : Fin 32) (w : Fin 4) (s : State) : Out :=
  scalar1 (fun n x => wrap (sint x 32) n) d a w s

/-- `zextb` (R221). -/
def execZextb (d : Fin 16) (a : Fin 32) (w : Fin 4) (s : State) : Out :=
  scalar1 (fun _ x => x % 2 ^ 8) d a w s

/-- `zexth` (R221). -/
def execZexth (d : Fin 16) (a : Fin 32) (w : Fin 4) (s : State) : Out :=
  scalar1 (fun _ x => x % 2 ^ 16) d a w s

/-- `zextw` (R221). -/
def execZextw (d : Fin 16) (a : Fin 32) (w : Fin 4) (s : State) : Out :=
  scalar1 (fun _ x => x % 2 ^ 32) d a w s

/-- `neg` (R221). -/
def execNeg (d : Fin 16) (a : Fin 32) (w : Fin 4) (s : State) : Out :=
  scalar1 (fun n x => 2 ^ n - x) d a w s

/-- `not` (R221). -/
def execNot (d : Fin 16) (a : Fin 32) (w : Fin 4) (s : State) : Out :=
  scalar1 (fun n x => ones n ^^^ x) d a w s

/-- `mov` (R221). -/
def execMov (d : Fin 16) (a : Fin 32) (w : Fin 4) (s : State) : Out :=
  scalar1 (fun _ x => x) d a w s

/-! ## Major 0x03 (R222, R223) -/

/-- `mul` (R222). -/
def execMul (d : Fin 16) (a b : Fin 32) (w : Fin 4) (s : State) : Out :=
  scalar2 3 (fun _ x y => x * y) d a b w s

/-- `mulh` (R222). -/
def execMulh (d : Fin 16) (a b : Fin 32) (w : Fin 4) (s : State) : Out :=
  scalar2 3 (fun n x y => mulHigh n (sint x n) (sint y n)) d a b w s

/-- `mulhz` (R222). -/
def execMulhz (d : Fin 16) (a b : Fin 32) (w : Fin 4) (s : State) : Out :=
  scalar2 3 (fun n x y => mulHigh n x y) d a b w s

/-- `mulhsz` (R222). -/
def execMulhsz (d : Fin 16) (a b : Fin 32) (w : Fin 4) (s : State) : Out :=
  scalar2 3 (fun n x y => mulHigh n (sint x n) y) d a b w s

/-- `div` (R222). -/
def execDiv (d : Fin 16) (a b : Fin 32) (w : Fin 4) (s : State) : Out :=
  scalarDiv divSigned d a b w s

/-- `divz` (R222). -/
def execDivz (d : Fin 16) (a b : Fin 32) (w : Fin 4) (s : State) : Out :=
  scalarDiv (fun n x y => if y = 0 then ones n else x / y) d a b w s

/-- `rem` (R222). -/
def execRem (d : Fin 16) (a b : Fin 32) (w : Fin 4) (s : State) : Out :=
  scalarDiv remSigned d a b w s

/-- `remz` (R222). -/
def execRemz (d : Fin 16) (a b : Fin 32) (w : Fin 4) (s : State) : Out :=
  scalarDiv (fun _ x y => if y = 0 then x else x % y) d a b w s

/-! ## Major 0x04 (R224) -/

/-- `seq`: 1 if equal (R224). -/
def execSeq (d : Fin 16) (a b : Fin 32) (w : Fin 4) (s : State) : Out :=
  scalarCmp 0 d a b w s

/-- `sne`: 1 if not equal (R224). -/
def execSne (d : Fin 16) (a b : Fin 32) (w : Fin 4) (s : State) : Out :=
  scalarCmp 1 d a b w s

/-- `slt`: 1 if signed less (R224). -/
def execSlt (d : Fin 16) (a b : Fin 32) (w : Fin 4) (s : State) : Out :=
  scalarCmp 2 d a b w s

/-- `sge`: 1 if signed greater or equal (R224). -/
def execSge (d : Fin 16) (a b : Fin 32) (w : Fin 4) (s : State) : Out :=
  scalarCmp 3 d a b w s

/-- `slo`: 1 if unsigned lower (R224). -/
def execSlo (d : Fin 16) (a b : Fin 32) (w : Fin 4) (s : State) : Out :=
  scalarCmp 4 d a b w s

/-- `shs`: 1 if unsigned higher or same (R224). -/
def execShs (d : Fin 16) (a b : Fin 32) (w : Fin 4) (s : State) : Out :=
  scalarCmp 5 d a b w s

/-- `sel`: ka or kb by whether kc is nonzero (R224). -/
def execSel (d : Fin 16) (a b : Fin 32) (w : Fin 4) (kc : Fin 16) (s : State) : Out :=
  issue { srcs := [(.k, a), (.k, b), (.k, kc)], dst := some (.k, d), lat := 1 }
    (fun c vs s => putK s c d 1 (sext64 (if arg vs 2 ≠ 0 then arg vs 0 else arg vs 1).toNat (widthOf w))) s

/-! ## Major 0x05 (R225) -/

/-- `bfx` (R225). -/
def execBfx (d : Fin 16) (a b : Fin 32) (w : Fin 4) (s : State) : Out :=
  let n := widthOf w
  issue { srcs := [(.k, a), (.k, b)], dst := some (.k, d), lat := 1 }
    (fun c vs s =>
      let (pos, len) := fieldAt n (arg vs 1).toNat
      putK s c d 1 (sext64 (bits (arg vs 0).toNat pos len) n)) s

/-- `bfxs` (R225). -/
def execBfxs (d : Fin 16) (a b : Fin 32) (w : Fin 4) (s : State) : Out :=
  let n := widthOf w
  issue { srcs := [(.k, a), (.k, b)], dst := some (.k, d), lat := 1 }
    (fun c vs s =>
      let (pos, len) := fieldAt n (arg vs 1).toNat
      putK s c d 1 (sext64 (wrap (sint (bits (arg vs 0).toNat pos len) len) n) n)) s

/-- `bfi`, which reads kd as well (R225). -/
def execBfi (d : Fin 16) (a b : Fin 32) (w : Fin 4) (s : State) : Out :=
  let n := widthOf w
  issue { srcs := [(.k, a), (.k, b)], also := [(.k, d)], dst := some (.k, d), lat := 1 }
    (fun c vs s =>
      let (pos, len) := fieldAt n (arg vs 1).toNat
      let old := ((s.core c).read .k d).toNat % 2 ^ n
      putK s c d 1 (sext64 (old - bits old pos len * 2 ^ pos + (arg vs 0).toNat % 2 ^ len * 2 ^ pos) n)) s

/-! ## Immediate forms (R226 to R228) -/

/-- `addi` (R226). -/
def execAddi (d : Fin 16) (a : Fin 32) (i : Fin 65536) (s : State) : Out :=
  scalarImm true (fun x i => x + i) d a i s

/-- `andi` (R226). -/
def execAndi (d : Fin 16) (a : Fin 32) (i : Fin 65536) (s : State) : Out :=
  scalarImm false (fun x i => x &&& i) d a i s

/-- `ori` (R226). -/
def execOri (d : Fin 16) (a : Fin 32) (i : Fin 65536) (s : State) : Out :=
  scalarImm false (fun x i => x ||| i) d a i s

/-- `xori` (R226). -/
def execXori (d : Fin 16) (a : Fin 32) (i : Fin 65536) (s : State) : Out :=
  scalarImm false (fun x i => x ^^^ i) d a i s

/-- `slli` (R227). -/
def execSlli (d : Fin 16) (a : Fin 32) (w : Fin 2) (sh : Fin 64) (s : State) : Out :=
  scalarShift shl d a w sh s

/-- `srli` (R227). -/
def execSrli (d : Fin 16) (a : Fin 32) (w : Fin 2) (sh : Fin 64) (s : State) : Out :=
  scalarShift shr d a w sh s

/-- `srai` (R227). -/
def execSrai (d : Fin 16) (a : Fin 32) (w : Fin 2) (sh : Fin 64) (s : State) : Out :=
  scalarShift sar d a w sh s

/-- `roli` (R227). -/
def execRoli (d : Fin 16) (a : Fin 32) (w : Fin 2) (sh : Fin 64) (s : State) : Out :=
  scalarShift rotl d a w sh s

/-- `cmpi` (R228). -/
def execCmpi (d : Fin 16) (a : Fin 32) (code : Fin 8) (i : Fin 8192) (s : State) : Out :=
  issue { srcs := [(.k, a)], dst := some (.k, d), lat := 1, use := { imm := 13 } }
    (fun c vs s => putK s c d 1
      (BitVec.ofNat 64 (b2n (condHolds 64 code (arg vs 0).toNat (wrap (immOf (s.core c).hints 13 i true) 64))))) s

/-- `li` (R226). -/
def execLi (d : Fin 16) (i : Fin 65536) (s : State) : Out :=
  issue { dst := some (.k, d), lat := 1, use := { imm := 16 } }
    (fun c _ s => putK s c d 1 (BitVec.ofInt 64 (immOf (s.core c).hints 16 i true))) s

end Sys2Proof.Machine
end

