-- ==== Sys2Proof/Machine/Dispatch.lean ====
section
/-! DEFINITION. What each instruction does: one arm for each constructor, each a direct call of its meaning. -/
namespace Sys2Proof.Machine

/-- The outcome of one instruction or step of the opcode table in a state. -/
def exec (i : Instr) (s : State) : Host.Outcome State Fault Refusal :=
  match i with
  | .add d a b w => Sys2Proof.Machine.execAdd d a b w s
  | .sub d a b w => Sys2Proof.Machine.execSub d a b w s
  | .and d a b w => Sys2Proof.Machine.execAnd d a b w s
  | .or d a b w => Sys2Proof.Machine.execOr d a b w s
  | .xor d a b w => Sys2Proof.Machine.execXor d a b w s
  | .andn d a b w => Sys2Proof.Machine.execAndn d a b w s
  | .orn d a b w => Sys2Proof.Machine.execOrn d a b w s
  | .sll d a b w => Sys2Proof.Machine.execSll d a b w s
  | .srl d a b w => Sys2Proof.Machine.execSrl d a b w s
  | .sra d a b w => Sys2Proof.Machine.execSra d a b w s
  | .rol d a b w => Sys2Proof.Machine.execRol d a b w s
  | .ror d a b w => Sys2Proof.Machine.execRor d a b w s
  | .min d a b w => Sys2Proof.Machine.execMin d a b w s
  | .max d a b w => Sys2Proof.Machine.execMax d a b w s
  | .minz d a b w => Sys2Proof.Machine.execMinz d a b w s
  | .maxz d a b w => Sys2Proof.Machine.execMaxz d a b w s
  | .addx2 d a b w => Sys2Proof.Machine.execAddx2 d a b w s
  | .addx4 d a b w => Sys2Proof.Machine.execAddx4 d a b w s
  | .addx8 d a b w => Sys2Proof.Machine.execAddx8 d a b w s
  | .addx16 d a b w => Sys2Proof.Machine.execAddx16 d a b w s
  | .clmul d a b w => Sys2Proof.Machine.execClmul d a b w s
  | .clmulh d a b w => Sys2Proof.Machine.execClmulh d a b w s
  | .clz d a w => Sys2Proof.Machine.execClz d a w s
  | .ctz d a w => Sys2Proof.Machine.execCtz d a w s
  | .pop d a w => Sys2Proof.Machine.execPop d a w s
  | .brev d a w => Sys2Proof.Machine.execBrev d a w s
  | .bswap d a w => Sys2Proof.Machine.execBswap d a w s
  | .sextb d a w => Sys2Proof.Machine.execSextb d a w s
  | .sexth d a w => Sys2Proof.Machine.execSexth d a w s
  | .sextw d a w => Sys2Proof.Machine.execSextw d a w s
  | .zextb d a w => Sys2Proof.Machine.execZextb d a w s
  | .zexth d a w => Sys2Proof.Machine.execZexth d a w s
  | .zextw d a w => Sys2Proof.Machine.execZextw d a w s
  | .neg d a w => Sys2Proof.Machine.execNeg d a w s
  | .not d a w => Sys2Proof.Machine.execNot d a w s
  | .mov d a w => Sys2Proof.Machine.execMov d a w s
  | .mul d a b w => Sys2Proof.Machine.execMul d a b w s
  | .mulh d a b w => Sys2Proof.Machine.execMulh d a b w s
  | .mulhz d a b w => Sys2Proof.Machine.execMulhz d a b w s
  | .mulhsz d a b w => Sys2Proof.Machine.execMulhsz d a b w s
  | .div d a b w => Sys2Proof.Machine.execDiv d a b w s
  | .divz d a b w => Sys2Proof.Machine.execDivz d a b w s
  | .rem d a b w => Sys2Proof.Machine.execRem d a b w s
  | .remz d a b w => Sys2Proof.Machine.execRemz d a b w s
  | .seq d a b w => Sys2Proof.Machine.execSeq d a b w s
  | .sne d a b w => Sys2Proof.Machine.execSne d a b w s
  | .slt d a b w => Sys2Proof.Machine.execSlt d a b w s
  | .sge d a b w => Sys2Proof.Machine.execSge d a b w s
  | .slo d a b w => Sys2Proof.Machine.execSlo d a b w s
  | .shs d a b w => Sys2Proof.Machine.execShs d a b w s
  | .sel d a b w c => Sys2Proof.Machine.execSel d a b w c s
  | .bfx d a b w => Sys2Proof.Machine.execBfx d a b w s
  | .bfxs d a b w => Sys2Proof.Machine.execBfxs d a b w s
  | .bfi d a b w => Sys2Proof.Machine.execBfi d a b w s
  | .addi d a i0 => Sys2Proof.Machine.execAddi d a i0 s
  | .andi d a i0 => Sys2Proof.Machine.execAndi d a i0 s
  | .ori d a i0 => Sys2Proof.Machine.execOri d a i0 s
  | .xori d a i0 => Sys2Proof.Machine.execXori d a i0 s
  | .slli d a w s0 => Sys2Proof.Machine.execSlli d a w s0 s
  | .srli d a w s0 => Sys2Proof.Machine.execSrli d a w s0 s
  | .srai d a w s0 => Sys2Proof.Machine.execSrai d a w s0 s
  | .roli d a w s0 => Sys2Proof.Machine.execRoli d a w s0 s
  | .cmpi d a c i0 => Sys2Proof.Machine.execCmpi d a c i0 s
  | .li d i0 => Sys2Proof.Machine.execLi d i0 s
  | .getc d n => Sys2Proof.Machine.execGetc d n s
  | .setc a n => Sys2Proof.Machine.execSetc a n s
  | .setcLogBase a => Sys2Proof.Machine.execSetcLogBase a s
  | .setcTrace a n => Sys2Proof.Machine.execSetcTrace a n s
  | .setcEvRebase a n => Sys2Proof.Machine.execSetcEvRebase a n s
  | .setcEvSpill a => Sys2Proof.Machine.execSetcEvSpill a s
  | .setcMxMode a n => Sys2Proof.Machine.execSetcMxMode a n s
  | .br a b c p => Sys2Proof.Machine.execBr a b c p s
  | .jmp p => Sys2Proof.Machine.execJmp p s
  | .call p => Sys2Proof.Machine.execCall p s
  | .jr a => Sys2Proof.Machine.execJr a s
  | .callr a => Sys2Proof.Machine.execCallr a s
  | .lnest d a => Sys2Proof.Machine.execLnest d a s
  | .lnext p => Sys2Proof.Machine.execLnext p s
  | .rep n a s0 t c => Sys2Proof.Machine.execRep n a s0 t c s
  | .repw => Sys2Proof.Machine.execRepw s
  | .wait d a b => Sys2Proof.Machine.execWait d a b s
  | .done => Sys2Proof.Machine.execDone s
  | .yield => Sys2Proof.Machine.execYield s
  | .trap a => Sys2Proof.Machine.execTrap a s
  | .brk => Sys2Proof.Machine.execBrk s
  | .eret => Sys2Proof.Machine.execEret s
  | .chk => Sys2Proof.Machine.execChk s
  | .nop => Sys2Proof.Machine.execNop s
  | .cancel a b => Sys2Proof.Machine.execCancel a b s
  | .cancelh a b => Sys2Proof.Machine.execCancelh a b s
  | .tlbinv a b => Sys2Proof.Machine.execTlbinv a b s
  | .fbflush d a => Sys2Proof.Machine.execFbflush d a s
  | .halt => Sys2Proof.Machine.execHalt s
  | .ld d a w s0 c o => Sys2Proof.Machine.execLd d a w s0 c o s
  | .st b a w c o => Sys2Proof.Machine.execSt b a w c o s
  | .ldx d a b w s0 c k => Sys2Proof.Machine.execLdx d a b w s0 c k s
  | .stx d a b w c k => Sys2Proof.Machine.execStx d a b w c k s
  | .ldAcq d a p w s0 => Sys2Proof.Machine.execLdAcq d a p w s0 s
  | .stRel a b p w => Sys2Proof.Machine.execStRel a b p w s
  | .ldSc d a p w s0 => Sys2Proof.Machine.execLdSc d a p w s0 s
  | .stSc a b p w => Sys2Proof.Machine.execStSc a b p w s
  | .amoAdd d a b p o w => Sys2Proof.Machine.execAmoAdd d a b p o w s
  | .amoAnd d a b p o w => Sys2Proof.Machine.execAmoAnd d a b p o w s
  | .amoOr d a b p o w => Sys2Proof.Machine.execAmoOr d a b p o w s
  | .amoXor d a b p o w => Sys2Proof.Machine.execAmoXor d a b p o w s
  | .amoMin d a b p o w => Sys2Proof.Machine.execAmoMin d a b p o w s
  | .amoMax d a b p o w => Sys2Proof.Machine.execAmoMax d a b p o w s
  | .amoMinz d a b p o w => Sys2Proof.Machine.execAmoMinz d a b p o w s
  | .amoMaxz d a b p o w => Sys2Proof.Machine.execAmoMaxz d a b p o w s
  | .amoSwap d a b p o w => Sys2Proof.Machine.execAmoSwap d a b p o w s
  | .amoFadd d a b p o w => Sys2Proof.Machine.execAmoFadd d a b p o w s
  | .amoIncw d a b p o w => Sys2Proof.Machine.execAmoIncw d a b p o w s
  | .redAdd a b p w => Sys2Proof.Machine.execRedAdd a b p w s
  | .redAnd a b p w => Sys2Proof.Machine.execRedAnd a b p w s
  | .redOr a b p w => Sys2Proof.Machine.execRedOr a b p w s
  | .redXor a b p w => Sys2Proof.Machine.execRedXor a b p w s
  | .redMin a b p w => Sys2Proof.Machine.execRedMin a b p w s
  | .redMax a b p w => Sys2Proof.Machine.execRedMax a b p w s
  | .redMinz a b p w => Sys2Proof.Machine.execRedMinz a b p w s
  | .redMaxz a b p w => Sys2Proof.Machine.execRedMaxz a b p w s
  | .redSwap a b p w => Sys2Proof.Machine.execRedSwap a b p w s
  | .redFadd a b p w => Sys2Proof.Machine.execRedFadd a b p w s
  | .cas d a b p o w c => Sys2Proof.Machine.execCas d a b p o w c s
  | .fenceAcq p => Sys2Proof.Machine.execFenceAcq p s
  | .fenceRel p => Sys2Proof.Machine.execFenceRel p s
  | .fenceFull p => Sys2Proof.Machine.execFenceFull p s
  | .pf a => Sys2Proof.Machine.execPf a s
  | .l1inv a b => Sys2Proof.Machine.execL1inv a b s
  | .sbind s0 b => Sys2Proof.Machine.execSbind s0 b s
  | .sunbind s0 => Sys2Proof.Machine.execSunbind s0 s
  | .sstat d s0 => Sys2Proof.Machine.execSstat d s0 s
  | .ejob a => Sys2Proof.Machine.execEjob a s
  | .vaddFp d a b t m => Sys2Proof.Machine.execVaddFp d a b t m s
  | .vsubFp d a b t m => Sys2Proof.Machine.execVsubFp d a b t m s
  | .vmulFp d a b t m => Sys2Proof.Machine.execVmulFp d a b t m s
  | .vmlaFp d a b t m => Sys2Proof.Machine.execVmlaFp d a b t m s
  | .vmlsFp d a b t m => Sys2Proof.Machine.execVmlsFp d a b t m s
  | .vminFp d a b t m => Sys2Proof.Machine.execVminFp d a b t m s
  | .vmaxFp d a b t m => Sys2Proof.Machine.execVmaxFp d a b t m s
  | .vabsFp d a t m => Sys2Proof.Machine.execVabsFp d a t m s
  | .vnegFp d a t m => Sys2Proof.Machine.execVnegFp d a t m s
  | .vdiv d a b t m => Sys2Proof.Machine.execVdiv d a b t m s
  | .vsqrt d a t m => Sys2Proof.Machine.execVsqrt d a t m s
  | .vrcp d a t m => Sys2Proof.Machine.execVrcp d a t m s
  | .vrsq d a t m => Sys2Proof.Machine.execVrsq d a t m s
  | .vaddInt d a b t m => Sys2Proof.Machine.execVaddInt d a b t m s
  | .vsubInt d a b t m => Sys2Proof.Machine.execVsubInt d a b t m s
  | .vmulInt d a b t m => Sys2Proof.Machine.execVmulInt d a b t m s
  | .vmlaInt d a b t m => Sys2Proof.Machine.execVmlaInt d a b t m s
  | .vminInt d a b t m => Sys2Proof.Machine.execVminInt d a b t m s
  | .vmaxInt d a b t m => Sys2Proof.Machine.execVmaxInt d a b t m s
  | .vminz d a b t m => Sys2Proof.Machine.execVminz d a b t m s
  | .vmaxz d a b t m => Sys2Proof.Machine.execVmaxz d a b t m s
  | .vabsInt d a t m => Sys2Proof.Machine.execVabsInt d a t m s
  | .vnegInt d a t m => Sys2Proof.Machine.execVnegInt d a t m s
  | .vadds d a b t m => Sys2Proof.Machine.execVadds d a b t m s
  | .vsubs d a b t m => Sys2Proof.Machine.execVsubs d a b t m s
  | .vaddsz d a b t m => Sys2Proof.Machine.execVaddsz d a b t m s
  | .vsubsz d a b t m => Sys2Proof.Machine.execVsubsz d a b t m s
  | .vmulh d a b t m => Sys2Proof.Machine.execVmulh d a b t m s
  | .vdot4 d a b t m => Sys2Proof.Machine.execVdot4 d a b t m s
  | .vdot4z d a b t m => Sys2Proof.Machine.execVdot4z d a b t m s
  | .vclmul d a b t m => Sys2Proof.Machine.execVclmul d a b t m s
  | .vclmulh d a b t m => Sys2Proof.Machine.execVclmulh d a b t m s
  | .vand d a b t m => Sys2Proof.Machine.execVand d a b t m s
  | .vor d a b t m => Sys2Proof.Machine.execVor d a b t m s
  | .vxor d a b t m => Sys2Proof.Machine.execVxor d a b t m s
  | .vandn d a b t m => Sys2Proof.Machine.execVandn d a b t m s
  | .vnot d a t m => Sys2Proof.Machine.execVnot d a t m s
  | .vshl d a b t m => Sys2Proof.Machine.execVshl d a b t m s
  | .vshr d a b t m => Sys2Proof.Machine.execVshr d a b t m s
  | .vsra d a b t m => Sys2Proof.Machine.execVsra d a b t m s
  | .vpopc d a t m => Sys2Proof.Machine.execVpopc d a t m s
  | .vclz d a t m => Sys2Proof.Machine.execVclz d a t m s
  | .vshli d a i0 t m => Sys2Proof.Machine.execVshli d a i0 t m s
  | .vshri d a i0 t m => Sys2Proof.Machine.execVshri d a i0 t m s
  | .vsrai d a i0 t m => Sys2Proof.Machine.execVsrai d a i0 t m s
  | .veq d a b t m => Sys2Proof.Machine.execVeq d a b t m s
  | .vne d a b t m => Sys2Proof.Machine.execVne d a b t m s
  | .vlt d a b t m => Sys2Proof.Machine.execVlt d a b t m s
  | .vge d a b t m => Sys2Proof.Machine.execVge d a b t m s
  | .vlo d a b t m => Sys2Proof.Machine.execVlo d a b t m s
  | .vhs d a b t m => Sys2Proof.Machine.execVhs d a b t m s
  | .vfeq d a b t m => Sys2Proof.Machine.execVfeq d a b t m s
  | .vflt d a b t m => Sys2Proof.Machine.execVflt d a b t m s
  | .vfle d a b t m => Sys2Proof.Machine.execVfle d a b t m s
  | .vfun d a b t m => Sys2Proof.Machine.execVfun d a b t m s
  | .mand d a b t => Sys2Proof.Machine.execMand d a b t s
  | .mor d a b t => Sys2Proof.Machine.execMor d a b t s
  | .mxor d a b t => Sys2Proof.Machine.execMxor d a b t s
  | .mandn d a b t => Sys2Proof.Machine.execMandn d a b t s
  | .mpop d a t => Sys2Proof.Machine.execMpop d a t s
  | .mffs d a t => Sys2Proof.Machine.execMffs d a t s
  | .vsel d a b t m => Sys2Proof.Machine.execVsel d a b t m s
  | .vcvt d a r s0 t m => Sys2Proof.Machine.execVcvt d a r s0 t m s
  | .vf2i d a r s0 t m => Sys2Proof.Machine.execVf2i d a r s0 t m s
  | .vi2f d a r s0 t m => Sys2Proof.Machine.execVi2f d a r s0 t m s
  | .vnarrow d a q s0 t m => Sys2Proof.Machine.execVnarrow d a q s0 t m s
  | .vwiden d a h e s0 t m => Sys2Proof.Machine.execVwiden d a h e s0 t m s
  | .vperm d a b t m => Sys2Proof.Machine.execVperm d a b t m s
  | .vslideup d a b t m => Sys2Proof.Machine.execVslideup d a b t m s
  | .vslidedn d a b t m => Sys2Proof.Machine.execVslidedn d a b t m s
  | .vcompress d a t m => Sys2Proof.Machine.execVcompress d a t m s
  | .vexpand d a t m => Sys2Proof.Machine.execVexpand d a t m s
  | .vzipLo d a b t m => Sys2Proof.Machine.execVzipLo d a b t m s
  | .vzipHi d a b t m => Sys2Proof.Machine.execVzipHi d a b t m s
  | .vuzpEv d a b t m => Sys2Proof.Machine.execVuzpEv d a b t m s
  | .vuzpOd d a b t m => Sys2Proof.Machine.execVuzpOd d a b t m s
  | .vrev d a t m => Sys2Proof.Machine.execVrev d a t m s
  | .vpack d a b t m => Sys2Proof.Machine.execVpack d a b t m s
  | .vradd d a t m => Sys2Proof.Machine.execVradd d a t m s
  | .vrmin d a t m => Sys2Proof.Machine.execVrmin d a t m s
  | .vrmax d a t m => Sys2Proof.Machine.execVrmax d a t m s
  | .vrminz d a t m => Sys2Proof.Machine.execVrminz d a t m s
  | .vrmaxz d a t m => Sys2Proof.Machine.execVrmaxz d a t m s
  | .vrand d a t m => Sys2Proof.Machine.execVrand d a t m s
  | .vror d a t m => Sys2Proof.Machine.execVror d a t m s
  | .vrxor d a t m => Sys2Proof.Machine.execVrxor d a t m s
  | .vrfadd d a t m => Sys2Proof.Machine.execVrfadd d a t m s
  | .vscanAdd d a t m => Sys2Proof.Machine.execVscanAdd d a t m s
  | .vscanXor d a t m => Sys2Proof.Machine.execVscanXor d a t m s
  | .vscanMax d a t m => Sys2Proof.Machine.execVscanMax d a t m s
  | .vsplat d a t m => Sys2Proof.Machine.execVsplat d a t m s
  | .vext d a b t => Sys2Proof.Machine.execVext d a b t s
  | .vins d a b t => Sys2Proof.Machine.execVins d a b t s
  | .vmov d a t m => Sys2Proof.Machine.execVmov d a t m s
  | .vidx d t m => Sys2Proof.Machine.execVidx d t m s
  | .vbits d a t => Sys2Proof.Machine.execVbits d a t s
  | .vmsk d a t => Sys2Proof.Machine.execVmsk d a t s
  | .vld d a z c o => Sys2Proof.Machine.execVld d a z c o s
  | .vst b a z c o => Sys2Proof.Machine.execVst b a z c o s
  | .vlss d a b t c m => Sys2Proof.Machine.execVlss d a b t c m s
  | .vsss d a b t c m => Sys2Proof.Machine.execVsss d a b t c m s
  | .vgth d a b k i0 e m => Sys2Proof.Machine.execVgth d a b k i0 e m s
  | .vsct d a b k i0 e m => Sys2Proof.Machine.execVsct d a b k i0 e m s
  | .vldl d a t m => Sys2Proof.Machine.execVldl d a t m s
  | .vldlx d a t m => Sys2Proof.Machine.execVldlx d a t m s
  | .vstl a b t m => Sys2Proof.Machine.execVstl a b t m s
  | .vstlx a b t m => Sys2Proof.Machine.execVstlx a b t m s
  | .tcfg n a b => Sys2Proof.Machine.execTcfg n a b s
  | .tld n a b => Sys2Proof.Machine.execTld n a b s
  | .tst n a b => Sys2Proof.Machine.execTst n a b s
  | .tfetch n => Sys2Proof.Machine.execTfetch n s
  | .tevict n => Sys2Proof.Machine.execTevict n s
  | .tzero n => Sys2Proof.Machine.execTzero n s
  | .tstat n s0 => Sys2Proof.Machine.execTstat n s0 s
  | .tpin n => Sys2Proof.Machine.execTpin n s
  | .tunpin n => Sys2Proof.Machine.execTunpin n s
  | .mwld u => Sys2Proof.Machine.execMwld u s
  | .mwldSp u => Sys2Proof.Machine.execMwldSp u s
  | .mmeta s0 a => Sys2Proof.Machine.execMmeta s0 a s
  | .mmul t c => Sys2Proof.Machine.execMmul t c s
  | .mmulSc t u a c => Sys2Proof.Machine.execMmulSc t u a c s
  | .mwsc a => Sys2Proof.Machine.execMwsc a s
  | .mst d => Sys2Proof.Machine.execMst d s
  | .mld t => Sys2Proof.Machine.execMld t s
  | .mfence => Sys2Proof.Machine.execMfence s
  | .cpush a b s0 => Sys2Proof.Machine.execCpush a b s0 s
  | .cflush s0 => Sys2Proof.Machine.execCflush s0 s
  | .carm a b s0 => Sys2Proof.Machine.execCarm a b s0 s
  | .evpop d => Sys2Proof.Machine.execEvpop d s
  | .evpay d => Sys2Proof.Machine.execEvpay d s
  | .evsend a b n => Sys2Proof.Machine.execEvsend a b n s
  | .evwinClose a b => Sys2Proof.Machine.execEvwinClose a b s
  | .evwinOrigin a b => Sys2Proof.Machine.execEvwinOrigin a b s
  | .evwinSlots a b => Sys2Proof.Machine.execEvwinSlots a b s
  | .evstat d => Sys2Proof.Machine.execEvstat d s
  | .spawn a => Sys2Proof.Machine.execSpawn a s
  | .dec a => Sys2Proof.Machine.execDec a s
  | .qpush d a b => Sys2Proof.Machine.execQpush d a b s
  | .qpop d a => Sys2Proof.Machine.execQpop d a s
  | .bar d a b => Sys2Proof.Machine.execBar d a b s
  | .hntStall g f e d c b a => Sys2Proof.Machine.execHntStall g f e d c b a s
  | .hntImm p => Sys2Proof.Machine.execHntImm p s
  | .hntMod p => Sys2Proof.Machine.execHntMod p s
  | .hntBr p => Sys2Proof.Machine.execHntBr p s
  | .hntNop k p => Sys2Proof.Machine.execHntNop k p s
  | .ylLdFifo n h s0 => Sys2Proof.Machine.execYlLdFifo n h s0 s
  | .ylLdReg h s0 r => Sys2Proof.Machine.execYlLdReg h s0 r s
  | .ylPush n s0 => Sys2Proof.Machine.execYlPush n s0 s
  | .ylBase h t s0 => Sys2Proof.Machine.execYlBase h t s0 s
  | .ylWait n r => Sys2Proof.Machine.execYlWait n r s
  | .ylEnd f n => Sys2Proof.Machine.execYlEnd f n s
  | .ylPop n r => Sys2Proof.Machine.execYlPop n r s
  | .ylSt n h s0 => Sys2Proof.Machine.execYlSt n h s0 s
  | .helperRv32Instr compressed op => Sys2Proof.Machine.execHelperRv32Instr compressed op s
  | .helperFence => Sys2Proof.Machine.execHelperFence s
  | .helperEbreak compressed => Sys2Proof.Machine.execHelperEbreak compressed s
  | .resultWriteback c => Sys2Proof.Machine.execResultWriteback c s
  | .storePerform c i0 => Sys2Proof.Machine.execStorePerform c i0 s
  | .l1dSectorFill c => Sys2Proof.Machine.execL1dSectorFill c s
  | .fbEventResend die entry => Sys2Proof.Machine.execFbEventResend die entry s
  | .faultRetry die entry gen => Sys2Proof.Machine.execFaultRetry die entry gen s
  | .tlbinvComplete c => Sys2Proof.Machine.execTlbinvComplete c s
  | .parityLand c g => Sys2Proof.Machine.execParityLand c g s
  | .scrubStep c => Sys2Proof.Machine.execScrubStep c s
  | .sqmScrubStep u => Sys2Proof.Machine.execSqmScrubStep u s
  | .epochEnd => Sys2Proof.Machine.execEpochEnd s
  | .bankRetire c bank => Sys2Proof.Machine.execBankRetire c bank s
  | .lendClearDone c => Sys2Proof.Machine.execLendClearDone c s
  | .lendEndClearDone c => Sys2Proof.Machine.execLendEndClearDone c s
  | .squareClearDone sq => Sys2Proof.Machine.execSquareClearDone sq s
  | .cspClearDone die seg => Sys2Proof.Machine.execCspClearDone die seg s
  | .tileFillLastBeat c n => Sys2Proof.Machine.execTileFillLastBeat c n s
  | .logApplyEntry c n => Sys2Proof.Machine.execLogApplyEntry c n s
  | .tileDrainDone c n => Sys2Proof.Machine.execTileDrainDone c n s
  | .tileTransferFault c n => Sys2Proof.Machine.execTileTransferFault c n s
  | .beaconWindow => Sys2Proof.Machine.execBeaconWindow s
  | .traceRecordWrite c => Sys2Proof.Machine.execTraceRecordWrite c s
  | .engineJobStart c id => Sys2Proof.Machine.execEngineJobStart c id s
  | .engineJobComplete c id => Sys2Proof.Machine.execEngineJobComplete c id s
  | .engineJobFault c id => Sys2Proof.Machine.execEngineJobFault c id s
  | .ownershipGrant c => Sys2Proof.Machine.execOwnershipGrant c s
  | .revoke c block byOther => Sys2Proof.Machine.execRevoke c block byOther s
  | .revokeDataReturn block => Sys2Proof.Machine.execRevokeDataReturn block s
  | .dramRefresh die ch bank => Sys2Proof.Machine.execDramRefresh die ch bank s
  | .streamFetchReturn c s0 => Sys2Proof.Machine.execStreamFetchReturn c s0 s
  | .mxeLatchLoadDone sq => Sys2Proof.Machine.execMxeLatchLoadDone sq s
  | .mxeCommandStart sq => Sys2Proof.Machine.execMxeCommandStart sq s
  | .mxeRowInject sq => Sys2Proof.Machine.execMxeRowInject sq s
  | .mxeCommandComplete sq => Sys2Proof.Machine.execMxeCommandComplete sq s
  | .mxeQueueWindowStore c byStorer data => Sys2Proof.Machine.execMxeQueueWindowStore c byStorer data s
  | .copyQueueWindowStore c byStorer data => Sys2Proof.Machine.execCopyQueueWindowStore c byStorer data s
  | .coalescerApply sq => Sys2Proof.Machine.execCoalescerApply sq s
  | .coalescerTimeout sq slot => Sys2Proof.Machine.execCoalescerTimeout sq slot s
  | .coalescerTwinReady sq slot => Sys2Proof.Machine.execCoalescerTwinReady sq slot s
  | .eventArrive c slot header payload origin => Sys2Proof.Machine.execEventArrive c slot header payload origin s
  | .windowStaleTimeout c => Sys2Proof.Machine.execWindowStaleTimeout c s
  | .waitWake c => Sys2Proof.Machine.execWaitWake c s
  | .waitTimeout c => Sys2Proof.Machine.execWaitTimeout c s
  | .barRelease c => Sys2Proof.Machine.execBarRelease c s
  | .taskEnd c => Sys2Proof.Machine.execTaskEnd c s
  | .selectionRound die => Sys2Proof.Machine.execSelectionRound die s
  | .taskBind c => Sys2Proof.Machine.execTaskBind c s
  | .taskStart c => Sys2Proof.Machine.execTaskStart c s
  | .agingTick => Sys2Proof.Machine.execAgingTick s
  | .stealRequest thief => Sys2Proof.Machine.execStealRequest thief s
  | .stealReply thief => Sys2Proof.Machine.execStealReply thief s
  | .stealBackoff c => Sys2Proof.Machine.execStealBackoff c s
  | .halfExchange => Sys2Proof.Machine.execHalfExchange s
  | .lanternCircuit => Sys2Proof.Machine.execLanternCircuit s
  | .forecastTick => Sys2Proof.Machine.execForecastTick s
  | .railSettle district => Sys2Proof.Machine.execRailSettle district s
  | .slewStep district => Sys2Proof.Machine.execSlewStep district s
  | .nrgUpdate => Sys2Proof.Machine.execNrgUpdate s
  | .trqRetry die => Sys2Proof.Machine.execTrqRetry die s
  | .watchdog c => Sys2Proof.Machine.execWatchdog c s
  | .lockstepMismatch c => Sys2Proof.Machine.execLockstepMismatch c s
  | .preemptDrainDone c => Sys2Proof.Machine.execPreemptDrainDone c s
  | .jobPtbWrite job die value => Sys2Proof.Machine.execJobPtbWrite job die value s
  | .cspOwnWrite die n value => Sys2Proof.Machine.execCspOwnWrite die n value s
  | .spadForceRetire c value => Sys2Proof.Machine.execSpadForceRetire c value s
  | .jobPartWrite job value => Sys2Proof.Machine.execJobPartWrite job value s
  | .jobCtlWrite job value => Sys2Proof.Machine.execJobCtlWrite job value s
  | .hbwBaseWrite die value => Sys2Proof.Machine.execHbwBaseWrite die value s
  | .fbKill die value => Sys2Proof.Machine.execFbKill die value s
  | .preCtlReq c value => Sys2Proof.Machine.execPreCtlReq c value s
  | .pwrCapWrite value => Sys2Proof.Machine.execPwrCapWrite value s
  | .secAtreq value => Sys2Proof.Machine.execSecAtreq value s
  | .secPolWrite value => Sys2Proof.Machine.execSecPolWrite value s
  | .ethRouteWrite stream second value => Sys2Proof.Machine.execEthRouteWrite stream second value s
  | .registerWrite address value => Sys2Proof.Machine.execRegisterWrite address value s
  | .ethFrameReceive frame => Sys2Proof.Machine.execEthFrameReceive frame s
  | .roceWrite conn rkey va data => Sys2Proof.Machine.execRoceWrite conn rkey va data s
  | .roceRead conn rkey va len => Sys2Proof.Machine.execRoceRead conn rkey va len s
  | .roceFetchAdd conn rkey va addend => Sys2Proof.Machine.execRoceFetchAdd conn rkey va addend s
  | .roceCompareSwap conn rkey va compare swap => Sys2Proof.Machine.execRoceCompareSwap conn rkey va compare swap s
  | .place conn va => Sys2Proof.Machine.execPlace conn va s
  | .hostDec conn va => Sys2Proof.Machine.execHostDec conn va s
  | .hostCancel conn level => Sys2Proof.Machine.execHostCancel conn level s
  | .hostCancelh conn level => Sys2Proof.Machine.execHostCancelh conn level s
  | .ucieModuleFail => Sys2Proof.Machine.execUcieModuleFail s
  | .thermalThreshold sensor celsius => Sys2Proof.Machine.execThermalThreshold sensor celsius s
  | .memTempChange die hot => Sys2Proof.Machine.execMemTempChange die hot s
  | .tamperAlarm source => Sys2Proof.Machine.execTamperAlarm source s
  | .debugUnlockFail => Sys2Proof.Machine.execDebugUnlockFail s
  | .coldReset flash => Sys2Proof.Machine.execColdReset flash s
  | .bootDatagram offset data => Sys2Proof.Machine.execBootDatagram offset data s
  | .bootTransferEnd => Sys2Proof.Machine.execBootTransferEnd s
  | .illegalOpEncoding => Sys2Proof.Machine.execIllegalOpEncoding s
  | .instructionFetchFault => Sys2Proof.Machine.execInstructionFetchFault s
  | .loaderReadReturn c => Sys2Proof.Machine.execLoaderReadReturn c s
  | .gptpMessageReceive grandmaster => Sys2Proof.Machine.execGptpMessageReceive grandmaster s
  | .roceUnsupportedRequest conn => Sys2Proof.Machine.execRoceUnsupportedRequest conn s
  | .attestationReportDone => Sys2Proof.Machine.execAttestationReportDone s

end Sys2Proof.Machine
end

