-- ==== Sys2Proof/Machine/Step.lean ====
section
/-! DEFINITION. One step of the machine: the next turn comes about, and its instruction, if it has one, is executed. -/
namespace Sys2Proof.Machine

/-- One step. -/
noncomputable def step (s : State) : Host.Outcome State Fault Refusal :=
  match turn s with
  | (s1, some i) => exec i s1
  | (s1, none) => .next s1

/-- Where the host places an instruction: the first bytes of core 0's own scratchpad, or of a helper's instruction store. -/
def placedVa : Word := BitVec.ofNat 64 localLoc

/-- The state with a core's word stored where core 0 fetches next, core 0 being in RUN there and its square's first clear over.
(DESIGN CHOICE, unsafe; log 8.) -/
def placedCore (s : State) (nbytes w : Nat) : State :=
  let s1 := (s.write (scratchLoc 0) nbytes w).modSquare 0 (fun q => { q with clearing := false })
  let s2 := s1.modCore 0 (fun k => { k with
    mode := .run
    fetchBuf := none
    preempt := none
    tlbWait := none
    task := { k.task with ending := false, gang := 0 }
    pipe := { k.pipe with pc := placedVa, hints := Hints.none, skip := false, rep := none } })
  { s2 with agenda := .issue 0 :: s2.agenda, actor := { core := 0, part := .main } }

/-- The state with a helper's word stored where a helper of core 0 fetches next, both running. -/
def placedHelper (s : State) (storer : Bool) (nbytes w : Nat) : State :=
  let s1 := (s.write (codeLoc 0 storer) nbytes w).modSquare 0 (fun q => { q with clearing := false })
  let s2 := (s1.modCore 0 (fun k => { k with mode := .run })).modHelper 0 storer (fun h => { h with
    running := true, missing := false, fault := none, held := none, pc := 0 })
  { s2 with agenda := .helper 0 storer :: s2.agenda, actor := { core := 0, part := if storer then .storer else .loader } }

/-- The word's instruction is one that only the storer has. -/
def storerOnly : Instr → Bool
  | .ylPop _ _ => true
  | .ylSt _ _ _ => true
  | _ => false

/-- The state with an instruction, given as the opcode table numbers its bits, placed so that the next step runs it: a core's
word for core 0; else a helper's word for the helper of core 0 that has it. (DESIGN CHOICE, unsafe; log 8.)
(DEDUCED, safe; log 12.) -/
noncomputable def State.withFetchWord (s : State) (nbits w : Nat) : State :=
  let n := (nbits + 7) / 8
  match decode (w % 2 ^ nbits) with
  | .ok _ => placedCore s (max 4 n) (w % 2 ^ nbits)
  | .error _ =>
    match helperDecode (w % 2 ^ nbits) with
    | .ok i => placedHelper s (storerOnly i) (max 4 n) (w % 2 ^ nbits)
    | .error _ => placedCore s (max 4 n) (w % 2 ^ nbits)

end Sys2Proof.Machine
end

