-- ==== Sys2Proof/Safety.lean ====
section
/-! DEFINITION. What counts as a safe run of the machine, and the words in which claims about it are made. -/
namespace Sys2Proof

/-- A state that a run may not reach: the machine itself stopped there. The part has no such state; each of the model's own
stops names an instruction that `step` never asks for. -/
def stopsAt (s : Machine.State) : Prop := ∀ t, Machine.step s ≠ .next t

namespace Machine

/-- What every reachable state keeps: the memory in its canonical form. -/
def State.Inv (s : State) : Prop := Mem.wf s.mem = true

/-! ## What stays as it was -/

/-- Nothing but core `c` differs: not memory, not another core, no device register, no step under way. -/
structure OnlyCore (s t : State) (c : Nat) : Prop where
  device : t = { s with cores := t.cores }
  others : ∀ m, m ≠ c → t.core m = s.core m

/-- A core differs at most in its registers, its pipe, its event counters and the activity charged to it. -/
def RegistersOnly (k k' : Core) : Prop :=
  k' = { k with regs := k'.regs, pipe := k'.pipe, evc := k'.evc, energy := k'.energy }

/-- Every byte of memory reads as before. -/
def SameBytes (s t : State) : Prop := ∀ a, t.read a 1 = s.read a 1

/-! ## An instruction that issues (R199) -/

/-- The actor is a core in RUN whose task is no gang. -/
structure Alone (s : State) (c : Nat) : Prop where
  actor : s.actor.core.val = c
  run : (s.core c).mode = .run
  solo : (s.core c).task.gang = 0

/-- The instruction passes the checks of R199 on core `c`, and its operand fields give `vs`; `s1` is the state when its effect
begins. -/
structure Issues (s : State) (c : Nat) (g : Sig) (vs : List Vec) (s1 : State) : Prop where
  alone : Alone s c
  checks : issueChecks s c g = .ok ()
  operands : popOperands (beginIssue s c g) c g.srcs = .ok (vs, s1)

/-- No operand field and no result of the instruction is a stream. -/
structure Streamless (s : State) (c : Nat) (g : Sig) : Prop where
  reads : ∀ e ∈ g.srcs, (s.core c).boundAt (operand e.1 e.2) = none
  dest : ∀ r, destReg g.dst = some r → (s.core c).boundAt r = none

/-- The state that an instruction leaves whose effect leaves `s2`. -/
def finished (s : State) (c : Nat) (s2 : State) : State := endIssue s2 c (s.core c).bodyInstr.isSome

/-- Where the next instruction stands: after the one that issued, or, inside a repetition, where it stood. -/
def nextPc (k : Core) : Word := if k.bodyInstr.isSome then k.pipe.pc else k.pipe.pc + 4

/-- The registers with a result written: `k0` and `v0` name a push (R186). -/
def withResult (r : Regs) (f : RegFile) (d : Nat) (v : Vec) : Regs :=
  match destReg (some (f, d)) with
  | some (f', i) => r.put f' i v
  | none => r.push (queueOf f) v

/-- The result of an instruction of fixed latency stands in register `d` of file `f`, the program counter has advanced, and
all else is as it was. -/
structure Wrote (s t : State) (c : Nat) (f : RegFile) (d : Nat) (v : Vec) : Prop where
  regs : (t.core c).regs = withResult (s.core c).regs f d v
  pc : (t.core c).pipe.pc = nextPc (s.core c)
  core : RegistersOnly (s.core c) (t.core c)
  rest : OnlyCore s t c
  bytes : SameBytes s t

/-- Where the instruction issues, it completes with the value `val` of its operands: where neither an operand nor the result is
a stream, in the state that `Wrote` says; else in the state that the stream's taking the value leaves (R189). The inactive lanes of
a vector pushed to a stream are 0, which is the model's choice (log entry 47). -/
def Writes (i : Instr) (s : State) (c : Nat) (g : Sig) (val : List Vec → State → Vec) : Prop :=
  ∀ vs s1 f d, g.dst = some (f, d) → Issues s c g vs s1 →
    (Streamless s c g → ∃ t, exec i s = .next t ∧ Wrote s t c f d (val vs s1)) ∧
    (∀ s2, putResult s1 c f d g.lat (val vs s1) = .ok s2 → exec i s = .next (finished s c s2))

/-- A result that comes later is under way: its register is waited for, its write-back is a step to come, and all else but the
program counter is as it was. -/
structure Awaits (s t : State) (c : Nat) (f : RegFile) (d : Nat) (v : Vec) : Prop where
  pend : ∃ p rest, (t.core c).pipe.pend = p :: rest ∧ p.wait = true ∧ p.landAt = 0 ∧ p.value = v ∧
    (match destReg (some (f, d)) with
      | some (f', i) => p.file = f' ∧ p.idx = i
      | none => p.file = queueOf f ∧ p.idx = 0)
  regs : (t.core c).regs = match destReg (some (f, d)) with
    | some _ => (s.core c).regs
    | none => (s.core c).regs.push (queueOf f) ((s.core c).regs.raw (queueOf f) 15)
  pc : (t.core c).pipe.pc = nextPc (s.core c)
  core : RegistersOnly (s.core c) (t.core c)
  others : ∀ m, m ≠ c → t.core m = s.core m
  device : t = { s with cores := t.cores, todo := s.todo ++ [.resultWriteback (coreId c)] }
  bytes : SameBytes s t

/-- Where the instruction issues, it completes with the value `val` of its operands on its way to its destination. -/
def WritesLater (i : Instr) (s : State) (c : Nat) (g : Sig) (val : List Vec → State → Vec) : Prop :=
  ∀ vs s1 f d, g.dst = some (f, d) → Issues s c g vs s1 → Streamless s c g →
    ∃ t, exec i s = .next t ∧ Awaits s t c f d (val vs s1)

/-- A scalar value as a register of 512 bits holds it. -/
def scalar (v : Word) : Vec := v.zeroExtend 512

/-- A result of two operands at the width of a width field, 64 bits or 32: of 32 bits it is sign-extended (R219). -/
def atWidth (w : Nat) (f : (n : Nat) → BitVec n → BitVec n → BitVec n) (x y : Word) : Word :=
  if w = 0 then f 64 x y else (f 32 (x.setWidth 32) (y.setWidth 32)).signExtend 64

/-- Where the instruction issues and the effect named comes about, it completes with the state that the effect leaves. -/
def Effects (i : Instr) (s : State) (c : Nat) (g : Sig) (eff : List Vec → State → Res State) : Prop :=
  ∀ vs s1 s2, Issues s c g vs s1 → eff vs s1 = .ok s2 → exec i s = .next (finished s c s2)

/-- Where the instruction issues on operands that are `ok`, it completes: the program counter and the registers are as given, and
but for the core's pipe, event counters and fetch buffer all is as it was when the effect began. -/
def Goes (i : Instr) (s : State) (c : Nat) (g : Sig) (ok : List Vec → Prop) (pc : List Vec → State → Word)
    (regs : State → Regs) : Prop :=
  ∀ vs s1, Issues s c g vs s1 → ok vs → ∃ t, exec i s = .next t ∧ (t.core c).pipe.pc = pc vs s1 ∧
    (t.core c).regs = regs s1 ∧ OnlyCore s1 t c ∧
    t.core c = { s1.core c with
      regs := (t.core c).regs, pipe := (t.core c).pipe, evc := (t.core c).evc, fetchBuf := (t.core c).fetchBuf }

/-- A core has entered its trap entry (R412): the TRAP registers, the program counter and the mode as the rules say, the issued
results written, the task's own place in its command window left, and all else of the machine as it was. -/
structure Trapped (s t : State) (c : Nat) (cause : Nat) (pc addr info : Word) : Prop where
  cause : (t.core c).trap.cause = BitVec.ofNat 64 (256 + cause)
  pc : (t.core c).trap.pc = pc
  addr : (t.core c).trap.addr = addr
  info : (t.core c).trap.info = info
  entry : (t.core c).pipe.pc = tyTrapPc (s.core c).task.entry
  mode : (t.core c).mode = .run
  regs : (t.core c).regs = (s.core c).settle.regs
  tiles : (t.core c).tiles = (s.core c).tiles.map (fun e => (e.1, { e.2 with fault := none }))
  streams : (t.core c).streams = (s.core c).streams.map (fun x => { x with fault := none })
  window : (t.core c).mx.window = (s.core c).mx.window.filter (fun e => e.2 ≠ .task)
  core : t.core c = { s.core c with
    regs := (t.core c).regs, pipe := (t.core c).pipe, trap := (t.core c).trap, mode := .run, fetchBuf := none, waitSt := none,
    barSt := none, tiles := (t.core c).tiles, streams := (t.core c).streams
    mx := { (s.core c).mx with window := (t.core c).mx.window } }
  rest : OnlyCore s t c

/-- The task may enter a trap entry: it has one, it is not in it, no issued result is still awaited, and no repetition runs beside
the integer pipeline (R210, R211). -/
structure CanTrap (s : State) (c : Nat) : Prop where
  entry : tyTrapPc (s.core c).task.entry ≠ 0
  idle : flag (s.core c).trap.cause 8 = false
  settled : (s.core c).trapWaits = false

/-- The hint fields that an instruction of the core's word takes (R202, R203, R205): the width of the immediate that it extends, the
SC and SCOPE fields, the saturation, the rounding mode and the branch hint. A hint takes none, and is itself not checked. -/
def hintsOf (i : Instr) : Option HintUse :=
  match i with
  | .hntStall _ _ _ _ _ _ _ | .hntImm _ | .hntMod _ | .hntBr _ | .hntNop _ _ => none
  | .addi _ _ _ | .andi _ _ _ | .ori _ _ _ | .xori _ _ _ | .li _ _ => some { imm := 16 }
  | .cmpi _ _ _ _ => some { imm := 13 }
  | .ld _ _ _ _ _ _ | .st _ _ _ _ _ | .vld _ _ _ _ _ | .vst _ _ _ _ _ => some { imm := 11 }
  | .br _ _ _ _ | .lnext _ => some { br := true }
  | .ldAcq _ _ _ _ _ | .stRel _ _ _ _ | .ldSc _ _ _ _ _ | .stSc _ _ _ _ | .redAdd _ _ _ _ | .redAnd _ _ _ _
  | .redOr _ _ _ _ | .redXor _ _ _ _ | .redMin _ _ _ _ | .redMax _ _ _ _ | .redMinz _ _ _ _ | .redMaxz _ _ _ _
  | .redSwap _ _ _ _ | .redFadd _ _ _ _ | .fenceAcq _ | .fenceRel _ | .fenceFull _ | .pf _ | .l1inv _ _ => some { scope := true }
  | .amoAdd _ _ _ _ _ _ | .amoAnd _ _ _ _ _ _ | .amoOr _ _ _ _ _ _ | .amoXor _ _ _ _ _ _ | .amoMin _ _ _ _ _ _
  | .amoMax _ _ _ _ _ _ | .amoMinz _ _ _ _ _ _ | .amoMaxz _ _ _ _ _ _ | .amoSwap _ _ _ _ _ _ | .amoFadd _ _ _ _ _ _
  | .amoIncw _ _ _ _ _ _ | .cas _ _ _ _ _ _ _ => some { sc := true, scope := true }
  | .vaddFp _ _ _ _ _ | .vsubFp _ _ _ _ _ | .vmulFp _ _ _ _ _ | .vmlaFp _ _ _ _ _ | .vmlsFp _ _ _ _ _ | .vminFp _ _ _ _ _
  | .vmaxFp _ _ _ _ _ | .vabsFp _ _ _ _ | .vnegFp _ _ _ _ | .vdiv _ _ _ _ _ | .vsqrt _ _ _ _ | .vrcp _ _ _ _
  | .vrsq _ _ _ _ | .vradd _ _ _ _ | .vrfadd _ _ _ _ => some { rm := true }
  | .vaddInt _ _ _ _ _ | .vsubInt _ _ _ _ _ | .vmulInt _ _ _ _ _ | .vnarrow _ _ _ _ _ _ | .vwiden _ _ _ _ _ _ _ => some { sat := true }
  | .vcvt _ _ _ _ _ _ | .vf2i _ _ _ _ _ _ | .vi2f _ _ _ _ _ _ => some { rm := true, sat := true }
  | i => if i.isCoreWord then some {} else none

/-! ## The walk of the page tables (R26 to R30) -/

/-- What R30 says of a leaf at level 1 or 0: the cause and the flag of its fault, or nothing. -/
def leafFault (inst level pte : Nat) : Option (Nat × Nat) :=
  let size := pte / 2 ^ 5 % 16
  let pa := pte / 2 ^ 12 % 2 ^ 40 * 4096
  let bytes := 4096 * 4 ^ size
  if (if level = 1 then size < 5 ∨ 9 < size else 4 < size) ∨ pa % bytes ≠ 0 then some (cPagePerm, 1)
  else if pte / 2 ^ 9 % 4 = 3 ∨ pte / 2 ^ 52 % 4 = 3 ∨ pte.testBit 11 then some (cPagePerm, 2)
  else if inst < pa + bytes then some (cPagePerm, 3)
  else none

/-- The leaf that the tables give for an address, from the table of a level down, or the cause and the flag of the fault: `word` is the
8 bytes at a PA of the die, `inst` its installed memory. -/
def pageWalk (word : Nat → Nat) (inst va : Nat) : Nat → Nat → Except (Nat × Nat) Nat
  | 0, table =>
    let pte := word (table + va / 2 ^ 12 % 2 ^ 10 * 8)
    if pte % 2 = 0 then .error (cPageAbsent, 0)
    else if pte / 2 % 8 = 0 then .error (cPagePerm, 1)
    else match leafFault inst 0 pte with
      | some e => .error e
      | none => .ok pte
  | level + 1, table =>
    let pte := word (table + va / 2 ^ (12 + 10 * (level + 1)) % 2 ^ 10 * 8)
    if pte % 2 = 0 then .error (cPageAbsent, 0)
    else if pte / 2 % 8 = 0 then
      let next := pte / 2 ^ 13 % 2 ^ 39 * 8192
      if inst < next + 8192 then .error (cPagePerm, 3) else pageWalk word inst va level next
    else if level = 0 then
      match leafFault inst 1 pte with
      | some e => .error e
      | none => .ok pte
    else .error (cPagePerm, 1)

/-- A page's rights allow an access (R31): a load needs R, a store W, a fetch X, an atomic R and W, and a TASK-mode access no S. -/
def rightsAllow (kind : AccessKind) (sys : Bool) (pte : Nat) : Prop :=
  (match kind with
    | .read => pte.testBit 1
    | .write => pte.testBit 2
    | .fetch => pte.testBit 3
    | .atomic => pte.testBit 1 && pte.testBit 2) = true ∧ (pte.testBit 4 = true → sys = true)

/-! ## Lanes (R185, R259) -/

/-- Lane `i` of `e` bits. -/
def laneOf (e : Nat) (v : Vec) (i : Nat) : BitVec e := v.extractLsb' (e * i) e

/-- The vector whose lanes of `e` bits these are. -/
def vecOf (e : Nat) (f : Nat → BitVec e) : Vec :=
  (List.range (512 / e)).foldr (fun i v => v <<< e ||| (f i).setWidth 512) 0

/-- The mask, or the vector of single bits, whose first `n` bits these are. -/
def bitsOf (n : Nat) (f : Nat → Bool) : Vec := (List.range n).foldr (fun i v => v <<< 1 ||| if f i then 1 else 0) 0

/-- Lane `i` is active under mask field `m`. -/
def active (s1 : State) (c m i : Nat) : Bool := (maskOf (s1.core c) m).testBit i

/-- The new lanes where the mask is 1, and what inactive lanes hold elsewhere (R185). -/
def masked (s1 : State) (c d m e : Nat) (f : Nat → BitVec e) : Vec :=
  vecOf e (fun i => if active s1 c m i then f i else laneOf e (oldVec s1 c d) i)

/-- The active lanes below lane `n`, lane 0 first. -/
def activeOf (s1 : State) (c m e n : Nat) (v : Vec) : List (BitVec e) :=
  ((List.range n).filter (active s1 c m)).map (laneOf e v)

/-- The carry-less product, 2n bits wide (R220). -/
def carryless (n : Nat) (x y : BitVec n) : BitVec (2 * n) :=
  (List.range n).foldl (fun p i => if y.getLsbD i then p ^^^ (x.setWidth (2 * n) <<< i) else p) 0

/-- An exact number clamped to the signed range of `e` bits, and to the unsigned one. -/
def clampS (e : Nat) (x : Int) : BitVec e := BitVec.ofInt e (max (-(2 ^ (e - 1) : Nat)) (min x ((2 ^ (e - 1) : Nat) - 1)))
def clampU (e : Nat) (x : Int) : BitVec e := BitVec.ofInt e (max 0 (min x ((2 ^ e : Nat) - 1)))

/-! ## Memory of the task's own scratchpad -/

/-- Nothing stands in the way of the core's accesses to its own scratchpad: no error, no retired bank, no clear, no buffered
store, no SC operation or NEAR atomic under way, no atomic buffer, no trace. -/
structure Undisturbed (s : State) (c : Nat) : Prop where
  core : c < 256
  errors : s.errors = []
  ret : (s.core c).spad.ret = 0
  retiring : (s.core c).spad.retiring = []
  clearing : (s.square (squareOf c)).clearing = false
  sbuf : (s.core c).sbuf = []
  near : (s.core c).near = []
  scOps : s.scOps = []
  atoms : ∀ e ∈ s.cores, e.2.atoms = []
  trace : ∀ o, flag (s.core o).trace.len 63 = false
  solo : (s.core c).task.gang = 0

/-! ## Helpers (R372) -/

/-- A helper of core `c` is the actor and runs: the storer, or the loader. -/
structure HelperRuns (s : State) (c : Nat) (storer : Bool) : Prop where
  actor : s.actor.core.val = c
  part : s.actor.part = if storer then .storer else .loader
  running : (helperOf (s.core c) storer).running = true

/-- The state that a helper's instruction leaves whose effect leaves `s2`: it counts for the task (R434), and `pc` is next. -/
def helperDone (s2 : State) (c : Nat) (storer : Bool) (pc : BitVec 32) : State :=
  (s2.modHelper c storer (fun h => { h with pc := pc })).modCore c (fun k =>
    k.charge k.task.job (tyNrg k.task.entry) 7 1)

/-- What the operations of RV32I and M give (R372); a division by zero and an overflow as the ISA states. -/
def rvResult (f : Rv.Alu) (x y : BitVec 32) : BitVec 32 :=
  let high := fun (p : Int) => BitVec.ofInt 32 (p / 2 ^ 32)
  match f with
  | .add => x + y
  | .sub => x - y
  | .sll => x <<< (y &&& 31#32)
  | .slt => if x.slt y then 1 else 0
  | .sltu => if x.ult y then 1 else 0
  | .xor => x ^^^ y
  | .srl => x >>> (y &&& 31#32)
  | .sra => x.sshiftRight' (y &&& 31#32)
  | .or => x ||| y
  | .and => x &&& y
  | .mul => x * y
  | .mulh => high (x.toInt * y.toInt)
  | .mulhsu => high (x.toInt * (y.toNat : Int))
  | .mulhu => high ((x.toNat : Int) * (y.toNat : Int))
  | .div => if y = 0 then -1 else x.sdiv y
  | .divu => if y = 0 then -1 else x.udiv y
  | .rem => if y = 0 then x else x.srem y
  | .remu => if y = 0 then x else x.umod y

/-- A branch is taken. -/
def rvGoes (f : Rv.Cond) (x y : BitVec 32) : Bool :=
  match f with
  | .beq => decide (x = y)
  | .bne => decide (x ≠ y)
  | .blt => x.slt y
  | .bge => y.sle x
  | .bltu => x.ult y
  | .bgeu => y.ule x

/-- What a load puts into its register: the bytes sign- or zero-extended. -/
def rvExtended (k : Rv.Load) (v : Nat) : BitVec 32 :=
  match k with
  | .lb => (BitVec.ofNat 8 v).signExtend 32
  | .lh => (BitVec.ofNat 16 v).signExtend 32
  | .lbu => (BitVec.ofNat 8 v).zeroExtend 32
  | .lhu => (BitVec.ofNat 16 v).zeroExtend 32
  | .lw => BitVec.ofNat 32 v

end Machine
end Sys2Proof
end

