-- ==== Sys2Proof/Certificates/Slice0/Obligations.lean ====
section
/-! DEFINITION. The statements about the machine. -/
open Sys2Proof Sys2Proof.Machine

/-- R192 to R198, R372, R376: decoding gives back every well-formed instruction that has a word, each field at every value its
encoding admits. -/
def Obligations.DecodingInvertsEncoding : Prop :=
  ∀ i : Instr, i.wf = true → i.canonical = true →
    (i.isCoreWord = true → decode (encode i) = .ok i) ∧ (i.isHelperWord = true → helperDecode (encode i) = .ok i)

/-- R192 to R197, R372, R376: words written out from the encodings decode to the instructions that they stand for. The one RV32 word
among them is encoded as the RV32I ISA has it, which the spec names and does not spell out (PRESUMED; log entry 79). -/
def Obligations.WordsDecode : Prop :=
  decode 0x02642810 = .ok (.add 3 4 5 1) ∧
  decode 0x04F00000 = .ok (.clz 7 16 0) ∧
  decode 0x08221984 = .ok (.sel 1 2 3 0 4) ∧
  decode 0x1043FFFF = .ok (.addi 2 3 0xFFFF) ∧
  decode 0x30113FFF = .ok (.br 1 2 3 0xFFF) ∧
  decode 0x33FFFFFF = .ok (.jmp 0x1FFFFFF) ∧
  decode 0x3C81C864 = .ok (.rep 2 0 7 1 100) ∧
  decode 0x42090080 = .ok (.trap 9) ∧
  decode 0x5085BFFF = .ok (.ld 4 5 2 1 3 0x7FF) ∧
  decode 0x5263E801 = .ok (.st 6 7 3 1 1) ∧
  decode 0x5A221C95 = .ok (.amoIncw 1 2 3 4 2 1) ∧
  decode 0x600000A0 = .ok (.fenceFull 4) ∧
  decode 0x70221825 = .ok (.vaddFp 1 2 3 4 5) ∧
  decode 0x7A221801 = .ok (.vperm 1 2 3 0 1) ∧
  decode 0xA1F84400 = .ok (.tcfg 63 1 2) ∧
  decode 0xA2068541 = .ok (.mmulSc 3 4 5 1) ∧
  decode 0xA4011007 = .ok (.cpush 1 2 7) ∧
  decode 0xB0011081 = .ok (.evsend 1 2 1) ∧
  decode 0xB2221880 = .ok (.qpush 1 2 3) ∧
  decode 0xFE3FFFFF = .ok (.hntImm 0x1FFFFF) ∧
  helperDecode 0x2E02800B = .ok (.ylLdFifo 5 3 5) ∧
  helperDecode 0x00A58533 = .ok (.helperRv32Instr false (.alu .add 10 11 10)) ∧
  decode 0 = .error (.unallocatedMajor 0)

/-- R192 to R198, R211, R233, R242, R372, R373: a step runs the decoded instruction. Where a core's turn comes, its task issues the
word fetched at its program counter, or the body word of a repetition that runs beside it (that the two take turns is the model's
choice, log entry 19); a word that decodes to nothing and a fetch that faults are steps of their own; a helper's turn likewise; a
step of the hardware or of the outside world is executed as it stands. The fetch in the core's own scratchpad reads the word that
stands there. -/
def Obligations.StepRunsTheDecodedInstruction : Prop :=
  ∀ (s : State) (c : CoreId) (storer : Bool) (rest : List Turn),
    (s.agenda = .issue c :: rest → (s.core c).task.gang = 0 → mayIssue { s with agenda := rest } c = true →
      let s0 : State := toBody { s with agenda := rest, actor := { core := c, part := .main } } c
      ((s.core c).pipe.rep = none → (s.core c).pipe.inBody = false → s0.core c = s.core c) ∧
      (∀ r, (s.core c).pipe.rep = some r → r.held = none → (s0.core c).pipe.inBody = r.bodyNext ∧
        ∃ x, (s0.core c).pipe.rep = some { r with clock := x, bodyNext := !r.bodyNext }) ∧
      OnlyCore { s with agenda := rest, actor := { core := c, part := .main } } s0 c ∧
      ((s0.core c).bodyInstr = none → (s0.core c).pipe.skip = false →
        (∀ w t, fetchWord s0 c (s0.core c).pipe.pc = .ok (w, t) →
          (∀ i, decode w = .ok i → i.wf = true ∧ step s = exec i t) ∧
          (∀ e, decode w = .error e → step s = exec .illegalOpEncoding t)) ∧
        (∀ f, fetchWord s0 c (s0.core c).pipe.pc = .error (.trap f) → step s = exec .instructionFetchFault s0)) ∧
      (∀ b r i, (s0.core c).bodyInstr = some b → (s0.core c).pipe.rep = some r →
        decode (staggered b.word r.stagger (r.step * r.j)) = .ok i → step s = exec i s0)) ∧
    (s.agenda = .helper c storer :: rest → mayHelp { s with agenda := rest } c storer = true →
      let s0 : State := { s with agenda := rest, actor := { core := c, part := if storer then .storer else .loader } }
      (∀ w t, helperFetch s0 c storer = .ok (w, t) →
        (∀ i, helperDecode w = .ok i → step s = exec i t) ∧
        (∀ e, helperDecode w = .error e → step s = exec .illegalOpEncoding t)) ∧
      (∀ f, helperFetch s0 c storer = .error (.trap f) → step s = exec .instructionFetchFault s0)) ∧
    (∀ i, s.agenda = .event i :: rest → s.halted = false → step s = exec i { s with agenda := rest }) ∧
    (∀ d ds, s.agenda = [] → (tick s).halted = false → (tick s).todo = d :: ds → runnable (tick s) = [] →
      step s = exec (dueInstr d) { tick s with todo := ds }) ∧
    (∀ off, Undisturbed s c → off % 4 = 0 → off + 4 ≤ 0x40000 → (s.core c).fetchBuf = none → ∃ t,
      fetchWord s c (BitVec.ofNat 64 (localLoc + off)) = .ok (s.read (scratchLoc c + off) 4, t) ∧ OnlyCore s t c ∧
        t.core c = { s.core c with fetchBuf := (t.core c).fetchBuf, energy := (t.core c).energy })

/-- R49, R54, R57, R67, R127, R168, R395, R411, R429, R433, R455: what the spec gives of the state after device reset; the memory,
which lists nothing (the model's choice, log entry 1), is in its canonical form, and the cores are IDLE (the model's choice, log
entry 3). -/
def Obligations.StateAfterReset : Prop :=
  let s := State.reset
  s.Inv ∧ s.cyc = 0 ∧ s.mcCount = 0 ∧ s.halted = false ∧
  (∀ c, (s.core c).mode = .idle ∧ (s.core c).stealGen = 0x8000 + c ∧ (s.core c).spad.srate = 10 ∧ (s.core c).spad.soff = false ∧
    (s.core c).spad.ret = 0 ∧ (s.core c).spad.dead = 0 ∧ (s.core c).spad.wdrn = false ∧ (s.core c).trap.pc = 0 ∧
    (s.core c).trap.addr = 0 ∧ (s.core c).trap.cause = 0 ∧ (s.core c).trap.info = 0) ∧
  (∀ q, (s.square q).mxe.cur = 8 ∧ (s.square q).mxe.minCad = 1) ∧
  (∀ q, q < 64 → ((s.square q).clearing = true ↔ q = 0 ∨ q = 32)) ∧
  (∀ j, (s.job j).ctl = if j = 0 then 1 else 0) ∧ (∀ j, (s.job j).part = if j = 0 then 0x100000001 else 0) ∧
  s.power.cap = 200 ∧ s.power.eff = 200 ∧ s.sec.pol = 0x1000

/-- The bytes of memory: a read gives what was written, the least significant byte first (R14), other bytes stand, a cleared range
reads zero, every such change keeps the canonical form, and memories of one content are equal. The last two are the model's
own form (log entry 1). -/
def Obligations.MemoryKeepsBytesAndForm : Prop :=
  ∀ (s t : State) (a n v lo hi : Nat),
    (s.write a n v).read a n = v % 2 ^ (8 * n) ∧
    (∀ i, i < n → (s.write a n v).read (a + i) 1 = v / 2 ^ (8 * i) % 256) ∧
    (∀ b, ¬ (a ≤ b ∧ b < a + n) → (s.write a n v).read b 1 = s.read b 1) ∧
    (∀ b, (s.clearRange lo hi).read b 1 = if lo ≤ b ∧ b < hi then 0 else s.read b 1) ∧
    (s.Inv → (s.write a n v).Inv ∧ (s.clearRange lo hi).Inv) ∧
    (s.Inv → t.Inv → SameBytes s t → s.mem = t.mem)

/-- The canonical form of the memory, which is the model's own (log entry 1), is kept by every step from every state that has it:
whatever a core, a helper, the hardware or the outside world does, no location is listed twice or out of order. -/
def Obligations.EveryStepKeepsTheMemoryForm : Prop := ∀ s t : State, s.Inv → step s = .next t → t.Inv

/-- R220: `add`, `sub`, the logic operations, the shifts and rotates, the extrema, the shift-and-add operations and the carry-less
products of two scalar operands complete with their results, of 64 bits, or of 32 sign-extended. -/
def Obligations.ScalarTwoOperandResults : Prop :=
  ∀ (d : Fin 16) (a b : Fin 32) (w : Fin 4) (s : State) (c : Nat), w.val < 2 →
    let is := fun (i : Instr) (f : (n : Nat) → BitVec n → BitVec n → BitVec n) =>
      Writes i s c { srcs := [(.k, a), (.k, b)], dst := some (.k, d), lat := 1 }
        (fun vs _ => scalar (atWidth w f (arg vs 0) (arg vs 1)))
    is (.add d a b w) (fun _ x y => x + y) ∧
    is (.sub d a b w) (fun _ x y => x - y) ∧
    is (.and d a b w) (fun _ x y => x &&& y) ∧
    is (.or d a b w) (fun _ x y => x ||| y) ∧
    is (.xor d a b w) (fun _ x y => x ^^^ y) ∧
    is (.andn d a b w) (fun _ x y => x &&& ~~~y) ∧
    is (.orn d a b w) (fun _ x y => x ||| ~~~y) ∧
    is (.sll d a b w) (fun n x y => x <<< (y.toNat % n)) ∧
    is (.srl d a b w) (fun n x y => x >>> (y.toNat % n)) ∧
    is (.sra d a b w) (fun n x y => x.sshiftRight (y.toNat % n)) ∧
    is (.rol d a b w) (fun n x y => x.rotateLeft (y.toNat % n)) ∧
    is (.ror d a b w) (fun n x y => x.rotateRight (y.toNat % n)) ∧
    is (.min d a b w) (fun _ x y => if x.slt y then x else y) ∧
    is (.max d a b w) (fun _ x y => if x.slt y then y else x) ∧
    is (.minz d a b w) (fun _ x y => if x.ult y then x else y) ∧
    is (.maxz d a b w) (fun _ x y => if x.ult y then y else x) ∧
    is (.addx2 d a b w) (fun _ x y => x * 2 + y) ∧
    is (.addx4 d a b w) (fun _ x y => x * 4 + y) ∧
    is (.addx8 d a b w) (fun _ x y => x * 8 + y) ∧
    is (.addx16 d a b w) (fun _ x y => x * 16 + y) ∧
    is (.clmul d a b w) (fun n x y => (carryless n x y).setWidth n) ∧
    is (.clmulh d a b w) (fun n x y => (carryless n x y >>> n).setWidth n)

/-- R221: the operations of one scalar operand complete with their results. -/
def Obligations.ScalarOneOperandResults : Prop :=
  ∀ (d : Fin 16) (a : Fin 32) (w : Fin 4) (s : State) (c : Nat),
    let is := fun (i : Instr) (f : (n : Nat) → BitVec n → BitVec n) =>
      Writes i s c { srcs := [(.k, a)], dst := some (.k, d), lat := 1 }
        (fun vs _ => scalar (atWidth w (fun n x _ => f n x) (arg vs 0) 0))
    (w.val < 2 →
      is (.clz d a w) (fun _ x => x.clz) ∧
      is (.ctz d a w) (fun _ x => x.ctz) ∧
      is (.pop d a w) (fun _ x => x.cpop) ∧
      is (.brev d a w) (fun _ x => x.reverse) ∧
      is (.bswap d a w) (fun n x => (List.range (n / 8)).foldl
        (fun r j => r ||| (x >>> (8 * j) &&& 0xFF) <<< (n - 8 - 8 * j)) 0) ∧
      is (.neg d a w) (fun _ x => -x) ∧
      is (.not d a w) (fun _ x => ~~~x) ∧
      is (.mov d a w) (fun _ x => x)) ∧
    (w.val = 0 →
      is (.sextb d a w) (fun n x => (x.setWidth 8).signExtend n) ∧
      is (.sexth d a w) (fun n x => (x.setWidth 16).signExtend n) ∧
      is (.sextw d a w) (fun n x => (x.setWidth 32).signExtend n) ∧
      is (.zextb d a w) (fun _ x => x &&& 0xFF) ∧
      is (.zexth d a w) (fun _ x => x &&& 0xFFFF) ∧
      is (.zextw d a w) (fun _ x => x &&& 0xFFFFFFFF))

/-- R222: the multiplies complete with the low or the high half of the exact product; the divisions and remainders complete, by zero
and of the most negative number by −1 too, and their results come later. -/
def Obligations.MultiplyAndDivisionResults : Prop :=
  ∀ (d : Fin 16) (a b : Fin 32) (w : Fin 4) (s : State) (c : Nat), w.val < 2 →
    let multiplies := fun (i : Instr) (f : (n : Nat) → BitVec n → BitVec n → Int) =>
      Writes i s c { srcs := [(.k, a), (.k, b)], dst := some (.k, d), lat := 3 }
        (fun vs _ => scalar (atWidth w (fun n x y => BitVec.ofInt n (f n x y)) (arg vs 0) (arg vs 1)))
    let divides := fun (i : Instr) (f : (n : Nat) → BitVec n → BitVec n → BitVec n) =>
      WritesLater i s c { srcs := [(.k, a), (.k, b)], dst := some (.k, d), cls := 1 }
        (fun vs _ => scalar (atWidth w f (arg vs 0) (arg vs 1)))
    multiplies (.mul d a b w) (fun _ x y => x.toNat * y.toNat) ∧
    multiplies (.mulh d a b w) (fun n x y => (x.toInt * y.toInt) / 2 ^ n) ∧
    multiplies (.mulhz d a b w) (fun n x y => ((x.toNat * y.toNat : Nat) : Int) / 2 ^ n) ∧
    multiplies (.mulhsz d a b w) (fun n x y => (x.toInt * y.toNat) / 2 ^ n) ∧
    divides (.div d a b w) (fun n x y => if y = 0 then BitVec.allOnes n else x.sdiv y) ∧
    divides (.divz d a b w) (fun n x y => if y = 0 then BitVec.allOnes n else x.udiv y) ∧
    divides (.rem d a b w) (fun _ x y => if y = 0 then x else x.srem y) ∧
    divides (.remz d a b w) (fun _ x y => if y = 0 then x else x.umod y)

/-- R224, R228: the comparisons write 1 where their relation holds and 0 elsewhere, and `sel` chooses an operand. -/
def Obligations.ComparisonResults : Prop :=
  ∀ (d : Fin 16) (a b : Fin 32) (w : Fin 4) (kc : Fin 16) (code : Fin 8) (i : Fin 8192) (s : State) (c : Nat),
    let truth := fun (p : Bool) => scalar (if p then 1 else 0)
    let at_ := fun (x : Word) => if w.val = 0 then x else (x.setWidth 32).signExtend 64
    let is := fun (i : Instr) (r : Word → Word → Bool) =>
      Writes i s c { srcs := [(.k, a), (.k, b)], dst := some (.k, d), lat := 1 }
        (fun vs _ => truth (r (at_ (arg vs 0)) (at_ (arg vs 1))))
    (w.val < 2 →
      is (.seq d a b w) (fun x y => x == y) ∧
      is (.sne d a b w) (fun x y => x != y) ∧
      is (.slt d a b w) (fun x y => x.slt y) ∧
      is (.sge d a b w) (fun x y => y.sle x) ∧
      is (.slo d a b w) (fun x y => x.ult y) ∧
      is (.shs d a b w) (fun x y => y.ule x) ∧
      Writes (.sel d a b w kc) s c { srcs := [(.k, a), (.k, b), (.k, kc)], dst := some (.k, d), lat := 1 }
        (fun vs _ => scalar (at_ (if arg vs 2 ≠ 0 then arg vs 0 else arg vs 1)))) ∧
    (code.val < 6 → Writes (.cmpi d a code i) s c { srcs := [(.k, a)], dst := some (.k, d), lat := 1, use := { imm := 13 } }
      (fun vs s1 =>
        let x := arg vs 0
        let y := BitVec.ofInt 64 (immOf (s1.core c).hints 13 i true)
        truth (match code.val with
          | 0 => x == y
          | 1 => x != y
          | 2 => x.slt y
          | 3 => y.sle x
          | 4 => x.ult y
          | _ => y.ule x)))

/-- R225: the bit-field instructions complete; position and length come from the second operand, clipped at the width. -/
def Obligations.BitFieldResults : Prop :=
  ∀ (d : Fin 16) (a b : Fin 32) (w : Fin 4) (s : State) (c : Nat), w.val < 2 →
    let g : Sig := { srcs := [(.k, a), (.k, b)], dst := some (.k, d), lat := 1 }
    let pos := fun (y : Word) => y.toNat % 64
    let len := fun (n : Nat) (y : Word) => min (y.toNat / 256 % 64 + 1) (n - pos y)
    let is := fun (i : Instr) (g : Sig) (f : (n : Nat) → BitVec n → Word → State → BitVec n) => Writes i s c g
      (fun vs s1 => scalar (if w.val = 0 then f 64 (arg vs 0) (arg vs 1) s1
        else (f 32 ((arg vs 0).setWidth 32) (arg vs 1) s1).signExtend 64))
    is (.bfx d a b w) g (fun n x y _ => (x >>> pos y) &&& BitVec.ofNat n (2 ^ len n y - 1)) ∧
    is (.bfxs d a b w) g (fun n x y _ => ((x >>> pos y) <<< (n - len n y)).sshiftRight (n - len n y)) ∧
    is (.bfi d a b w) { g with also := [(.k, d)] } (fun n x y s1 =>
      let m : BitVec n := BitVec.ofNat n (2 ^ len n y - 1) <<< pos y
      (((s1.core c).read .k d).setWidth n &&& ~~~m) ||| ((x <<< pos y) &&& m))

/-- R226, R227: the immediate forms complete; the immediate is the field as the hints extend it (R202). -/
def Obligations.ScalarImmediateResults : Prop :=
  ∀ (d : Fin 16) (a : Fin 32) (w : Fin 2) (sh : Fin 64) (i : Fin 65536) (s : State) (c : Nat),
    let is := fun (i : Instr) (f : Word → State → Word) =>
      Writes i s c { srcs := [(.k, a)], dst := some (.k, d), lat := 1, use := { imm := 16 } }
        (fun vs s1 => scalar (f (arg vs 0) s1))
    let shifts := fun (i : Instr) (f : (n : Nat) → BitVec n → Nat → BitVec n) =>
      Writes i s c { srcs := [(.k, a)], dst := some (.k, d), lat := 1 }
        (fun vs _ => scalar (atWidth w (fun n x _ => f n x sh) (arg vs 0) 0))
    let imm := fun (s1 : State) (signed : Bool) => BitVec.ofInt 64 (immOf (s1.core c).hints 16 i signed)
    is (.addi d a i) (fun x s1 => x + imm s1 true) ∧
    is (.andi d a i) (fun x s1 => x &&& imm s1 false) ∧
    is (.ori d a i) (fun x s1 => x ||| imm s1 false) ∧
    is (.xori d a i) (fun x s1 => x ^^^ imm s1 false) ∧
    Writes (.li d i) s c { dst := some (.k, d), lat := 1, use := { imm := 16 } } (fun _ s1 => scalar (imm s1 true)) ∧
    (w.val = 0 ∨ sh.val < 32 →
      shifts (.slli d a w sh) (fun _ x j => x <<< j) ∧
      shifts (.srli d a w sh) (fun _ x j => x >>> j) ∧
      shifts (.srai d a w sh) (fun _ x j => x.sshiftRight j) ∧
      shifts (.roli d a w sh) (fun _ x j => x.rotateLeft j))

/-- R24, R26 to R32, R281, R282, R284: a load issues, its access at its effective address is made under its cache request, and its value,
zero- or sign-extended, comes later. A paged access of an address that nothing has translated yet walks the job's tables: the leaf that
they give places it in the die's memory, a load giving the bytes that stand there; and a job without tables, a fault of the walk and a
missing right raise the cause and the flag of theirs at the address. -/
def Obligations.LoadsComplete : Prop :=
  (∀ (d : Fin 16) (a b : Fin 32) (w z cp : Fin 4) (x k : Fin 2) (o : Fin 2048) (s : State) (c : Nat),
    let n : Nat := 2 ^ w.val
    let loads := fun (i : Instr) (g : Sig) (f : RegFile) (va : List Vec → State → Nat) (len : Nat) (val : Nat → Vec) =>
      Effects i s c g (fun vs s1 => do
        let (v, s2) ← loadData s1 (taskAccess s1 c .read (va vs s1) len 1) (some cp)
        putVariable s2 c f d (val v))
    let extended := fun (v : Nat) => scalar (if x = 1 then (BitVec.ofNat (8 * n) v).signExtend 64 else BitVec.ofNat 64 v)
    loads (.ld d a w x cp o) { srcs := [(.k, a)], dst := some (.k, d), cls := 4, use := { imm := 11 } } .k
      (fun vs s1 => (arg vs 0 + BitVec.ofInt 64 (immOf (s1.core c).hints 11 o true * n)).toNat) n extended ∧
    loads (.ldx d a b w x cp k) { srcs := [(.k, a), (.k, b)], dst := some (.k, d), cls := 4 } .k
      (fun vs _ => (arg vs 0 + arg vs 1 * (if k = 1 then BitVec.ofNat 64 n else 1)).toNat) n extended ∧
    (z.val < 3 → loads (.vld d a z cp o) { srcs := [(.k, a)], dst := some (.v, d), cls := 4, use := { imm := 11 } } .v
      (fun vs s1 => (arg vs 0 + BitVec.ofInt 64 (immOf (s1.core c).hints 11 o true * 64)).toNat) (64 / 2 ^ z.val)
      (fun v => BitVec.ofNat 512 v))) ∧
  ∀ (s : State) (a : Access), let die := a.va / 2 ^ 52
    a.va < 2 ^ 53 → a.va + a.len ≤ 2 ^ 53 → a.va % a.align = 0 → s.errors = [] → s.poison = [] →
    (s.die die).tlb = [] → (s.die die).walk = [] → (s.die die).hbPol = 0 →
    let inst := installed s die
    let fails := fun (cause flag : Nat) => ∃ t, checkAccess s a = .error (.trap t) ∧ t.cause = cause ∧ t.flag = flag ∧ t.die = die ∧
      t.addr = BitVec.ofNat 64 a.va
    (rootOf s die a.job = none → fails cPageAbsent 0) ∧
    ∀ root, rootOf s die a.job = some root →
      (inst < root + 8192 → fails cPagePerm 3) ∧
      (root + 8192 ≤ inst → let walk := pageWalk (fun x => s.read (pagedLoc die x) 8) inst a.va 3 root
        (∀ cause flag, walk = .error (cause, flag) → fails cause flag) ∧
        ∀ pte, walk = .ok pte → let size := 4096 * 4 ^ (pte / 2 ^ 5 % 16)
          let at_ := pagedLoc die (pte / 2 ^ 12 % 2 ^ 40 * 4096 + a.va % size)
          (¬ rightsAllow a.kind a.sys pte → fails cPagePerm 4) ∧
          (rightsAllow a.kind a.sys pte → a.va % size + a.len ≤ size →
            (∃ r p t, checkAccess s a = .ok (r, .bytes (accessParts a [p]), t) ∧ SameBytes s t ∧
              p.loc = at_ ∧ p.len = a.len ∧ p.off = 0 ∧ p.va = a.va) ∧
            (∀ cp, a.agent = .task → a.kind = .read → naturallyAligned a = true → let k := s.core a.core
              k.l1d = [] → k.fills = [] → k.sbuf = [] → k.near = [] → k.task.gang = 0 → s.scOps = [] →
              ∃ t, loadData s a (some cp) = .ok (s.read at_ a.len, t) ∧ SameBytes s t)))

/-- R281, R282, R284: a store issues, and the low bytes of its data are stored at its effective address under its cache request. -/
def Obligations.StoresComplete : Prop :=
  ∀ (d : Fin 16) (a b : Fin 32) (w z cp : Fin 4) (k : Fin 2) (o : Fin 2048) (s : State) (c : Nat),
    let n : Nat := 2 ^ w.val
    let stores := fun (i : Instr) (g : Sig) (va : List Vec → State → Nat) (len : Nat) (data : List Vec → Nat) (plain : Bool) =>
      Effects i s c g (fun vs s1 =>
        storeData s1 { taskAccess s1 c .write (va vs s1) len 1 with cp := cp.val } (data vs % 2 ^ (8 * len)) plain false)
    stores (.st b a w cp o) { srcs := [(.k, a), (.k, b)], cls := 4, use := { imm := 11 } }
      (fun vs s1 => (arg vs 0 + BitVec.ofInt 64 (immOf (s1.core c).hints 11 o true * n)).toNat) n
      (fun vs => (arg vs 1).toNat) true ∧
    stores (.stx d a b w cp k) { srcs := [(.k, a), (.k, b), (.k, d.val)], cls := 4 }
      (fun vs _ => (arg vs 0 + arg vs 1 * (if k = 1 then BitVec.ofNat 64 n else 1)).toNat) n
      (fun vs => (arg vs 2).toNat) true ∧
    (z.val < 3 → stores (.vst b a z cp o) { srcs := [(.k, a), (.v, b)], cls := 4, use := { imm := 11 } }
      (fun vs s1 => (arg vs 0 + BitVec.ofInt 64 (immOf (s1.core c).hints 11 o true * 64)).toNat) (64 / 2 ^ z.val)
      (fun vs => (argV vs 1).toNat) false)

/-- R15 to R17, R281, R283: a load of the core's own scratchpad through its local window gives the bytes that stand there, the
least significant first, and changes nothing but the activity that is charged for it. -/
def Obligations.ScratchpadLoad : Prop :=
  ∀ (s : State) (c off n cp : Nat), Undisturbed s c → 1 ≤ n → n ≤ 64 → off + n ≤ 0x40000 →
    ∃ t, loadData s (taskAccess s c .read (localLoc + off) n 1) (some cp) = .ok (s.read (scratchLoc c + off) n, t) ∧
      OnlyCore s t c ∧ t.core c = { s.core c with energy := (t.core c).energy }

/-- R119, R280, R283: a store to the core's own scratchpad through its local window is buffered: no byte of memory changes yet, and
the newest entry of the store buffer holds the parts that its alignment splits it into, the length and the data. One step performs its
first part and no other byte; when all of it has performed, the low bytes of its data stand at its address, and every other byte of the
device's memories is as before. -/
def Obligations.ScratchpadStoreIsBufferedAndPerforms : Prop :=
  ∀ (s : State) (c off n data : Nat) (plain release : Bool), Undisturbed s c → 1 ≤ n → n ≤ 64 → off + n ≤ 0x40000 →
    ∃ t, storeData s (taskAccess s c .write (localLoc + off) n 1) data plain release = .ok t ∧
      SameBytes s t ∧ t.todo = s.todo ++ [.storePerform (coreId c)] ∧
      (∃ b, (t.core c).sbuf = [b] ∧ b.len = n ∧ b.data = data ∧ b.release = release ∧
        (∃ p, b.pieces = accessParts (taskAccess s c .write (localLoc + off) n 1) [p] ∧ p.loc = scratchLoc c + off ∧ p.len = n) ∧
        ∃ q rest u, b.pieces = q :: rest ∧ exec (.storePerform (coreId c) 0) t = .next u ∧
          (u.core c).sbuf = (if rest = [] then [] else [{ b with pieces := rest }]) ∧
          u.read q.loc q.len = data / 2 ^ (8 * q.off) % 2 ^ (8 * q.len) ∧
          (∀ x, x < 2 ^ 66 → ¬ (q.loc ≤ x ∧ x < q.loc + q.len) → u.read x 1 = s.read x 1)) ∧
      ∃ u, drainAll t c = .ok u ∧ (u.core c).sbuf = [] ∧
        u.read (scratchLoc c + off) n = data % 2 ^ (8 * n) ∧
        ∀ x, x < 2 ^ 66 → ¬ (scratchLoc c + off ≤ x ∧ x < scratchLoc c + off + n) → u.read x 1 = s.read x 1

/-- R108, R285, R286: strided loads and stores, gathers and scatters access memory once for each lane that is active and, in a gather
or scatter, not dropped; every element of a gather, a scatter or a strided store passes its checks before any performs; the
inactive lanes of a load keep what the destination held, and dropped lanes are 0. Where a lane is dropped the mask is written, the
bits above the lanes 0 (DEDUCED; log entry 68), and each access is counted (DESIGN CHOICE; log entry 42). -/
def Obligations.StridedAndIndexedAccessesComplete : Prop :=
  ∀ (d : Fin 16) (a b : Fin 32) (t m : Fin 8) (cp : Fin 4) (kb : Fin 16) (i e : Fin 4) (s : State) (c : Nat),
    let w := laneBits t
    let lanes := fun (s1 : State) => activeLanes (512 / w) (maskOf (s1.core c) m)
    let at_ := fun (vs : List Vec) (l : Nat) => (arg vs 0 + BitVec.ofNat 64 l * arg vs 1).toNat
    let plan := fun (vs : List Vec) (s1 : State) =>
      gatherPlan i e (arg vs 0) (argV vs 1) (boundOf kb (arg vs 2)) (maskOf (s1.core c) m)
    let ew := 16 * 2 ^ e.val
    let n := 512 / Nat.max (16 * 2 ^ i.val) ew
    (t.val < 4 → Effects (.vlss d a b t cp m) s c
      { srcs := [(.k, a), (.k, b)], also := maskReg m, dst := some (.v, d), cls := 4 } (fun vs s1 => do
        let (l, s2) ← loadEach s1 (some cp) ((lanes s1).map (fun j => taskAccess s1 c .read (at_ vs j) (w / 8) 1))
        putLanes s2 c d 0 w (maskOf (s1.core c) m) (atLanes (512 / w) (lanes s1) l))) ∧
    (t.val < 4 → Effects (.vsss d a b t cp m) s c
      { srcs := [(.k, a), (.k, b), (.v, d.val)], also := maskReg m, cls := 4 } (fun vs s1 =>
        storeMany s1 ((lanes s1).map (fun j => ({ taskAccess s1 c .write (at_ vs j) (w / 8) 1 with cp := cp.val }, lane w (argV vs 2) j))))) ∧
    Effects (.vgth d a b kb i e m) s c
      { srcs := (RegFile.k, a.val) :: (RegFile.v, b.val) :: boundSrc kb, also := maskReg m, dst := some (.v, d), cls := 4 }
      (fun vs s1 => do
        let accesses := (plan vs s1).2.map (fun x => taskAccess s1 c .read x.2 (ew / 8) (ew / 8))
        let s0 ← elementsReady s1 accesses
        let (l, s2) ← loadEach (accesses.foldl gatherCounted s0) none accesses
        let s3 ← putLanes s2 c d 0 ew (maskOf (s1.core c) m % 2 ^ n + (2 ^ (512 / ew) - 2 ^ n))
          (atLanes (512 / ew) ((plan vs s1).2.map (·.1)) l)
        clearDropped s3 c m n (maskOf (s1.core c) m) (plan vs s1).1) ∧
    Effects (.vsct d a b kb i e m) s c
      { srcs := (RegFile.k, a.val) :: (RegFile.v, b.val) :: (boundSrc kb ++ [(RegFile.v, d.val)]), also := maskReg m, cls := 4 }
      (fun vs s1 => do
        let stores := (plan vs s1).2.map (fun x =>
          (taskAccess s1 c .write x.2 (ew / 8) (ew / 8), lane ew (vs.getLast?.getD 0) x.1))
        let s2 ← storeMany s1 stores
        clearDropped ((stores.map (·.1)).foldl gatherCounted s2) c m n (maskOf (s1.core c) m) (plan vs s1).1)

/-- R45, R287: the lane-slice instructions reach the sixteen 4 KiB slices of the core: the uniform forms one offset of each slice,
an aligned one below 4,096, the indexed forms an offset for each lane. -/
def Obligations.LaneSliceAccessesComplete : Prop :=
  ∀ (d : Fin 16) (a b : Fin 32) (t m : Fin 8) (s : State) (c : Nat), t.val < 4 →
    let e := laneBits t
    let lanes := fun (s1 : State) => activeLanes (512 / e) (maskOf (s1.core c) m)
    let at_ := fun (vs : List Vec) => (arg vs 0).toNat
    let legal := fun (vs : List Vec) => at_ vs % 4 = 0 ∧ at_ vs < 4096
    (∀ vs s1 v s2 s3, Issues s c { srcs := [(.k, a)], also := maskReg m, dst := some (.v, d), cls := 4 } vs s1 → legal vs →
      readUniform s1 c (at_ vs) e (maskOf (s1.core c) m) (List.range 16) = .ok (v, s2) →
      putLanes s2 c d 0 e (maskOf (s1.core c) m) ((List.range (512 / e)).map (fun j => v / 2 ^ (e * j) % 2 ^ e)) = .ok s3 →
      exec (.vldl d a t m) s = .next (finished s c s3)) ∧
    (∀ vs s1 l s2 s3, Issues s c { srcs := [(.v, a)], also := maskReg m, dst := some (.v, d), cls := 4 } vs s1 →
      readLanes s1 c e (argV vs 0) (lanes s1) = .ok (l, s2) →
      putLanes s2 c d 0 e (maskOf (s1.core c) m) (atLanes (512 / e) (lanes s1) l) = .ok s3 →
      exec (.vldlx d a t m) s = .next (finished s c s3)) ∧
    (∀ vs s1 s2, Issues s c { srcs := [(.k, a), (.v, b)], also := maskReg m, cls := 4 } vs s1 → legal vs →
      writeUniform s1 c (at_ vs) e (maskOf (s1.core c) m) (argV vs 1) (List.range 16) = .ok s2 →
      exec (.vstl a b t m) s = .next (finished s c s2)) ∧
    (∀ vs s1 s2, Issues s c { srcs := [(.v, a), (.v, b)], also := maskReg m, cls := 4 } vs s1 →
      writeLanes s1 c e (argV vs 0) (argV vs 1) (lanes s1) = .ok s2 →
      exec (.vstlx a b t m) s = .next (finished s c s2))

/-- R116, R128, R288: the ordered loads and stores. An acquire load reads at the home; a release store waits for what the scope
orders and is buffered as a release; an SC operation is announced in a beacon window after every earlier access of the task. -/
def Obligations.OrderedAccessesComplete : Prop :=
  ∀ (d : Fin 16) (a b : Fin 32) (p : Fin 8) (w : Fin 4) (x : Fin 2) (s : State) (c : Nat),
    let n : Nat := 2 ^ w.val
    let gl : Sig := { srcs := [(.k, a)], dst := some (.k, d), cls := 4, use := { scope := true } }
    let gs : Sig := { srcs := [(.k, a), (.k, b)], cls := 4, use := { scope := true } }
    let at_ := fun (s1 : State) (k : AccessKind) (vs : List Vec) => taskAccess s1 c k (arg vs 0).toNat n n
    let extended := fun (v : Nat) => scalar (if x = 1 then (BitVec.ofNat (8 * n) v).signExtend 64 else BitVec.ofNat 64 v)
    Effects (.ldAcq d a p w x) s c gl (fun vs s1 => do
      let (v, s2) ← loadData s1 (at_ s1 .read vs) none
      putVariable s2 c .k d (extended v)) ∧
    Effects (.stRel a b p w) s c gs (fun vs s1 => do
      releaseWait s1 c (scopeOf (s1.core c).hints p)
      storeData s1 (at_ s1 .write vs) ((arg vs 1).toNat % 2 ^ (8 * n)) false true) ∧
    Effects (.ldSc d a p w x) s c gl (fun vs s1 => do
      let (ps, s2) ← scTarget s1 (at_ s1 .read vs) false
      scWait s2 c (scopeOf (s1.core c).hints p)
      let (k, s3) ← putAwaited s2 c d
      scIssue s3 c ps { op := none, width := n, sext := x.val == 1, operand := 0, expected := 0 } (some k)) ∧
    Effects (.stSc a b p w) s c gs (fun vs s1 => do
      let (ps, s2) ← scTarget s1 (at_ s1 .write vs) true
      scWait s2 c (scopeOf (s1.core c).hints p)
      scIssue (commit (l1dInvalidate s2 c (s1.core c).task.job (arg vs 0).toNat n) c) c ps
        { op := some 99, width := n, sext := false, operand := BitVec.ofNat 64 ((arg vs 1).toNat % 2 ^ (8 * n)), expected := 0 }
        none)

/-- R142, R143: what each atomic operation writes, for an old value and an operand of 32 or 64 bits; `fadd`, of 32 bits, the sum of two
FP32 numbers rounded to nearest, the canonical NaN, an exact zero positive unless both are negative zeros. -/
def Obligations.AtomicOperations : Prop :=
  ∀ (n : Nat) (old v desired : BitVec n), n = 32 ∨ n = 64 →
    let new := fun (op : Nat) => BitVec.ofNat n (atomicNew n op old.toNat v.toNat)
    new 0 = old + v ∧ new 1 = old &&& v ∧ new 2 = old ||| v ∧ new 3 = old ^^^ v ∧
    new 4 = (if v.slt old then v else old) ∧ new 5 = (if old.slt v then v else old) ∧
    new 6 = (if v.ult old then v else old) ∧ new 7 = (if old.ult v then v else old) ∧ new 8 = v ∧
    new 10 = (if v.ule old then 0 else old + 1) ∧
    (n = 32 →
      new 9 = BitVec.ofNat n (fp32.round .rne false (Fp.add .rne (fp32.unpack old.toNat) (fp32.unpack v.toNat))) ∧
      (0x7F800000 < old.toNat % 2 ^ 31 ∨ 0x7F800000 < v.toNat % 2 ^ 31 → new 9 = 0x7FC00000) ∧
      (old ≠ v → old.toNat % 2 ^ 31 = v.toNat % 2 ^ 31 → old.toNat % 2 ^ 31 < 0x7F800000 → new 9 = 0) ∧
      (old ≠ v → old.toNat % 2 ^ 31 = v.toNat % 2 ^ 31 → old.toNat % 2 ^ 31 = 0x7F800000 → new 9 = 0x7FC00000) ∧
      (old = 0x80000000 → v = 0x80000000 → new 9 = 0x80000000)) ∧
    BitVec.ofNat n (casNew v.toNat desired.toNat old.toNat) = if old = v then desired else old

/-- R289, R290: the returning atomics. Each performs once where its block stands, with a place in the SC order or by ownership
as its hints and its page ask, and its old value comes later. -/
def Obligations.ReturningAtomicsComplete : Prop :=
  ∀ (d : Fin 16) (a b : Fin 32) (p : Fin 8) (o : Fin 4) (w : Fin 2) (e : Fin 16) (s : State) (c : Nat),
    let n := if w.val = 0 then 8 else 4
    let use : HintUse := { sc := true, scope := true }
    let amo := fun (i : Instr) (op : Nat) =>
      Effects i s c { srcs := [(.k, a), (.k, b)], dst := some (.k, d), cls := 4, use := use } (fun vs s1 =>
        returningAtomic op none c d (arg vs 0).toNat ((arg vs 1).toNat % 2 ^ (8 * n)) n p o s1)
    amo (.amoAdd d a b p o w) 0 ∧ amo (.amoAnd d a b p o w) 1 ∧ amo (.amoOr d a b p o w) 2 ∧
    amo (.amoXor d a b p o w) 3 ∧ amo (.amoMin d a b p o w) 4 ∧ amo (.amoMax d a b p o w) 5 ∧
    amo (.amoMinz d a b p o w) 6 ∧ amo (.amoMaxz d a b p o w) 7 ∧ amo (.amoSwap d a b p o w) 8 ∧
    amo (.amoFadd d a b p o w) 9 ∧ amo (.amoIncw d a b p o w) 10 ∧
    Effects (.cas d a b p o w e) s c
      { srcs := [(.k, a), (.k, b), (.k, e.val)], dst := some (.k, d), cls := 4, use := use } (fun vs s1 =>
        returningAtomic 99 (some ((arg vs 2).toNat % 2 ^ (8 * n))) c d (arg vs 0).toNat
          ((arg vs 1).toNat % 2 ^ (8 * n)) n p o s1)

/-- R82, R142, R289: the atomics without a result. Each performs where its block stands, asks for its block, or is logged at a
paged tile that is not READY. -/
def Obligations.ReductionsToMemoryComplete : Prop :=
  ∀ (a b : Fin 32) (p : Fin 8) (w : Fin 2) (s : State) (c : Nat),
    let n := if w.val = 0 then 8 else 4
    let red := fun (i : Instr) (op : Nat) (log : Option Nat) => ∀ vs s1 r,
      Issues s c { srcs := [(.k, a), (.k, b)], cls := 4, use := { scope := true } } vs s1 →
      atomicData s1 (taskAccess s1 c .atomic (arg vs 0).toNat n n)
        { op := op, operand := (arg vs 1).toNat % 2 ^ (8 * n), expected := none } 1 false false log = .ok r →
      exec i s = .next (finished s c (match r with
        | .done _ s2 => s2
        | .asked s2 => s2))
    red (.redAdd a b p w) 0 (some 1) ∧ red (.redAnd a b p w) 1 (some 2) ∧ red (.redOr a b p w) 2 (some 3) ∧
    red (.redXor a b p w) 3 (some 4) ∧ red (.redMin a b p w) 4 (some 5) ∧ red (.redMax a b p w) 5 (some 6) ∧
    red (.redMinz a b p w) 6 (some 7) ∧ red (.redMaxz a b p w) 7 (some 8) ∧ red (.redSwap a b p w) 8 none ∧
    red (.redFadd a b p w) 9 (if n = 4 then some 9 else none)

/-- R145, R289: an atomic on the core's own scratchpad through its local window performs at once: its result is the old value,
the new value stands at its address, and every byte outside it is as before. -/
def Obligations.ScratchpadAtomic : Prop :=
  ∀ (op : Nat) (s : State) (c off n v : Nat), Undisturbed s c → n = 4 ∨ n = 8 → off % n = 0 → off + n ≤ 0x40000 →
    ∃ t, atomicData s (taskAccess s c .atomic (localLoc + off) n n) { op := op, operand := v, expected := none } 2 false false
        none = .ok (.done (s.read (scratchLoc c + off) n) t) ∧
      t.read (scratchLoc c + off) n = atomicNew (8 * n) op (s.read (scratchLoc c + off) n) v % 2 ^ (8 * n) ∧
      (∀ x, x < 2 ^ 66 → ¬ (scratchLoc c + off ≤ x ∧ x < scratchLoc c + off + n) → t.read x 1 = s.read x 1) ∧
      (t.core c).task.commit = true

/-- R125, R292 to R294: the fences complete once the accesses they order are over; a prefetch completes whatever its address and
traps never; `l1inv` takes the range's sectors and atomic-buffer entries of its job out of the core's caches. -/
def Obligations.FencesAndCacheControlComplete : Prop :=
  ∀ (a b : Fin 32) (p : Fin 8) (s : State) (c : Nat),
    let gf : Sig := { cls := 4, use := { scope := true } }
    (∀ vs s1, Issues s c gf vs s1 → (∀ o ∈ s1.scOps, o.core.val ≠ c) → (s1.core c).near = [] →
      exec (.fenceAcq p) s = .next (finished s c s1)) ∧
    (∀ i, i = .fenceRel p ∨ i = .fenceFull p →
      Effects i s c gf (fun _ s1 => settleTask s1 c (scopeOf (s1.core c).hints p))) ∧
    Effects (.pf a) s c { gf with srcs := [(.k, a)] } (fun vs s1 => .ok (prefetch s1 c (arg vs 0).toNat)) ∧
    (∀ vs s1, Issues s c { gf with srcs := [(.k, a), (.k, b)] } vs s1 → ∃ t,
      exec (.l1inv a b) s = .next t ∧ SameBytes s1 t ∧
        let out := fun (job va : Nat) => job = (s1.core c).task.job →
          ¬ (arg vs 1 ≠ 0 ∧ (arg vs 0).toNat < va + 64 ∧ va < (arg vs 0).toNat + (arg vs 1).toNat)
        (∀ e, (e ∈ (t.core c).l1d ∨ e ∈ (t.core c).fills) → out e.job e.va) ∧ ∀ e ∈ (t.core c).atoms, out e.job e.va)

/-- R190, R191, R229, R302, R352, R411, R436, R437: a read of an allocated control register completes: at once for one held in the core, later for the matrix
registers and the energy counters of the job. -/
def Obligations.ControlRegisterReads : Prop :=
  ∀ (d : Fin 16) (s : State) (c : Nat),
    let num := fun (n : Nat) => BitVec.ofNat 64 n
    let local_ : List (Fin 4096 × (State → Word)) := [
      (0x000, fun _ => num (c + 2 ^ 8 * squareOf c + 2 ^ 14 * districtOf (squareOf c) + 2 ^ 17 * dieOf c)),
      (0x001, fun s1 => num s1.time),
      (0x002, fun s1 => if tyCheck (s1.core c).task.entry then 1 else 0),
      (0x010, fun s1 => (s1.core c).trap.cause), (0x011, fun s1 => (s1.core c).trap.pc),
      (0x012, fun s1 => (s1.core c).trap.addr), (0x013, fun s1 => (s1.core c).trap.info),
      (0x020, fun s1 => streamStat (s1.core c)),
      (0x060, fun s1 => num (s1.core c).ev.win), (0x061, fun s1 => (s1.core c).ev.org),
      (0x062, fun s1 => num (s1.core c).ev.wtmo),
      (0x063, fun s1 => num ((s1.core c).ev.ldrop * 2 ^ 32 + if (s1.core c).ev.lateDrop then 1 else 0)),
      (0x064, fun s1 => (s1.core c).ev.spillReg),
      (0x0C0, fun s1 => (s1.core c).pool.base), (0x0C1, fun s1 => (s1.core c).pool.stat),
      (0x0C4, fun s1 => (s1.core c).trace.base), (0x0C5, fun s1 => (s1.core c).trace.len),
      (0x0C6, fun s1 => num (s1.core c).trace.count), (0x0C8, fun s1 => num s1.cyc),
      (0x0D0, fun s1 => gangReg (s1.core c).task), (0x0D1, fun s1 => taskStat (s1.core c).task)]
    let remote : List (Fin 4096 × (State → Word)) := [
      (0x040, fun s1 => mxCad s1 c), (0x041, fun s1 => num (s1.core c).mx.mode), (0x042, fun s1 => mxStat (s1.core c).mx),
      (0x043, fun s1 => num (s1.core c).mx.sample)]
    (∀ e ∈ local_, Writes (.getc d e.1) s c { dst := some (.k, d), lat := 1 } (fun _ s1 => scalar (e.2 s1))) ∧
    (∀ e ∈ remote, WritesLater (.getc d e.1) s c { dst := some (.k, d) } (fun _ s1 => scalar (e.2 s1))) ∧
    (∀ n : Fin 16, WritesLater (.getc d ⟨0x080 + n, by omega⟩) s c { dst := some (.k, d) }
      (fun _ s1 => scalar (s1.job (s1.core c).task.job).nrg[n])) ∧
    (∀ n : Fin 8,
      Writes (.getc d ⟨0x090 + n, by omega⟩) s c { dst := some (.k, d), lat := 1 } (fun _ s1 => scalar (s1.core c).evc[n]) ∧
      Writes (.getc d ⟨0x098 + n, by omega⟩) s c { dst := some (.k, d), lat := 1 } (fun _ s1 => scalar (s1.core c).evcSel[n])) ∧
    Writes (.getc d 0x800) s c { dst := some (.k, d), lat := 1, sys := true } (fun _ s1 => scalar (num
      (if dieOf c = 0 then (s1.job (s1.core c).task.job).lost0 else (s1.job (s1.core c).task.job).lost1))) ∧
    Writes (.getc d 0x801) s c { dst := some (.k, d), lat := 1, sys := true } (fun _ s1 => scalar (num s1.mcCount))

/-- R83, R133, R190, R229, R302, R328, R344, R352, R353, R411, R436, R437: a write of a control register that sets no reserved bit completes; read-only fields
keep their values. -/
def Obligations.ControlRegisterWrites : Prop :=
  ∀ (a : Fin 32) (s : State) (c : Nat),
    let g : Sig := { srcs := [(.k, a)] }
    let sets := fun (i : Instr) (allowed : Word) (f : Word → State → State) => ∀ vs s1, Issues s c g vs s1 →
      arg vs 0 &&& ~~~allowed = 0 → exec i s = .next (finished s c (f (arg vs 0) s1))
    let core := fun (f : Word → Core → Core) (v : Word) (s1 : State) => s1.modCore c (f v)
    let w1c := fun (old v : Bool) => old && !v
    sets (.setc a 0x010) 0x1FF (core (fun v k => { k with trap := { k.trap with
      cause := setField k.trap.cause 0 8 (v.toNat % 256) } })) ∧
    sets (.setc a 0x011) (BitVec.allOnes 64) (core (fun v k => { k with trap := { k.trap with pc := v } })) ∧
    sets (.setc a 0x012) (BitVec.allOnes 64) (core (fun v k => { k with trap := { k.trap with addr := v } })) ∧
    sets (.setc a 0x013) 0xFFFF000F3F7FFFFF (core (fun v k => { k with trap := { k.trap with
      info := setField k.trap.info 0 1 (v.toNat % 2) } })) ∧
    sets (.setc a 0x042) 0x1FF805 (core (fun v k => { k with mx := { k.mx with
      drop := w1c k.mx.drop (v.getLsbD 2), satStat := w1c k.mx.satStat (v.getLsbD 0) } })) ∧
    sets (.setc a 0x063) 0xFFFFFFFF00000001 (core (fun v k => { k with ev := { k.ev with lateDrop := v.getLsbD 0 } })) ∧
    sets (.setc a 0x062) 0xFFFF (core (fun v k => { k with ev := { k.ev with wtmo := v.toNat } })) ∧
    (∀ n : Fin 8, sets (.setc a ⟨0x090 + n, by omega⟩) (BitVec.allOnes 64) (core (fun v k => { k with evc := k.evc.set n v }))) ∧
    (∀ (n : Fin 8) vs s1, Issues s c g vs s1 → arg vs 0 &&& ~~~0x1FF = 0 → (arg vs 0).toNat % 256 ≤ 0x16 →
      exec (.setc a ⟨0x098 + n, by omega⟩) s =
        .next (finished s c (s1.modCore c (fun k => { k with evcSel := k.evcSel.set n (arg vs 0) })))) ∧
    (∀ vs s1, Issues s c g vs s1 → arg vs 0 &&& ~~~0xFFFFFF = 0 → ∃ t, exec (.setc a 0x020) s = .next t ∧ SameBytes s1 t ∧
      ∀ n : Fin 8, (t.core c).strm n = { (s1.core c).strm n with
        endB := w1c ((s1.core c).strm n).endB ((arg vs 0).getLsbD n)
        overB := w1c ((s1.core c).strm n).overB ((arg vs 0).getLsbD (8 + n)) }) ∧
    (∀ vs s1, Issues s c g vs s1 → (arg vs 0).toNat < 4 →
      exec (.setcMxMode a 0) s = .next (finished s c (s1.modMx c (fun x => { x with mode := (arg vs 0).toNat })))) ∧
    (∀ vs s1, Issues s c g vs s1 → (arg vs 0).toNat ≤ 16 →
      exec (.setcMxMode a 1) s = .next (finished s c (s1.modMx c (fun x => { x with sample := (arg vs 0).toNat })))) ∧
    sets (.setcEvRebase a 0) 0xFFFFFFFF (fun v s1 => rebase (s1.modEv c (fun q => { q with win := v.toNat })) c) ∧
    sets (.setcEvRebase a 1) (BitVec.allOnes 64) (fun v s1 => rebase (s1.modEv c (fun q => { q with org := v })) c) ∧
    (∀ vs s1, Issues s c g vs s1 → arg vs 0 &&& ~~~0xFFFFFFFF1FFF0FFF = 0 → field (arg vs 0) 16 13 ≤ 4096 →
      field (arg vs 0) 0 12 * 64 + field (arg vs 0) 16 13 * 16 ≤ (s1.core c).task.region → (s1.core c).ev.ringUsed = 0 →
      exec (.setcEvSpill a) s = .next (finished s c (s1.modEv c (fun q =>
        { q with spill := (arg vs 0).setWidth 32 |>.setWidth 64 })))) ∧
    (∀ vs s1, Issues s c g vs s1 → arg vs 0 &&& ~~~0x1FFF0FFF = 0 → field (arg vs 0) 16 13 ≤ 4096 →
      field (arg vs 0) 0 12 * 64 + field (arg vs 0) 16 13 * 16 ≤ (s1.core c).task.region →
      (s1.core c).pool.used = [] → (∀ e ∈ (s1.core c).tiles, e.2.logCnt = 0) →
      exec (.setcLogBase a) s = .next (finished s c (s1.modCore c (fun k => { k with pool := { k.pool with base := arg vs 0 } })))) ∧
    (∀ (n : Fin 2) vs s1, Issues s c g vs s1 →
      arg vs 0 &&& ~~~(if n.val = 0 then 0xFFFFFFFFFFFFFFC0 else 0x80FC00000000FFFF) = 0 →
      let base := if n.val = 0 then arg vs 0 else (s1.core c).trace.base
      let len := if n.val = 0 then (s1.core c).trace.len else arg vs 0
      traceLegal c (s1.core c).task base len = true →
      exec (.setcTrace a n) s = .next (finished s c (s1.modCore c (fun k =>
        { k with trace := { k.trace with base := base, len := len } }))))

/-- R230 to R232: branches, jumps and calls go on where the rules say, and a call leaves its link in `k7`. -/
def Obligations.BranchesAndJumpsComplete : Prop :=
  ∀ (a b : Fin 32) (code : Fin 8) (p : Fin 4096) (q : Fin 33554432) (s : State) (c : Nat),
    let va := (s.core c).instrVa
    let same := fun (s1 : State) => (s1.core c).regs
    let link := fun (s1 : State) => (s1.core c).regs.put .k 7 (scalar (va + 4))
    let near := va + (BitVec.ofNat 12 p).signExtend 64 * 4
    let far := va + (BitVec.ofNat 25 q).signExtend 64 * 4
    let holds := fun (x y : Word) => match code.val with
      | 0 => x == y
      | 1 => x != y
      | 2 => x.slt y
      | 3 => y.sle x
      | 4 => x.ult y
      | _ => y.ule x
    (code.val < 6 → Goes (.br a b code p) s c { srcs := [(.k, a), (.k, b)], use := { br := true } } (fun _ => True)
      (fun vs s1 => if holds (arg vs 0) (arg vs 1) then near else (s1.core c).pipe.pc) same) ∧
    (code.val = 6 → Goes (.br a b code p) s c { use := { br := true } } (fun _ => True) (fun _ _ => near) same) ∧
    Goes (.jmp q) s c {} (fun _ => True) (fun _ _ => far) same ∧
    Goes (.call q) s c { dst := some (.k, 7), lat := 1 } (fun _ => True) (fun _ _ => far) link ∧
    Goes (.jr a) s c { srcs := [(.k, a)] } (fun vs => arg vs 0 &&& 3 = 0) (fun vs _ => arg vs 0) same ∧
    Goes (.callr a) s c { srcs := [(.k, a)], dst := some (.k, 7), lat := 1 } (fun vs => arg vs 0 &&& 3 = 0)
      (fun vs _ => arg vs 0) link

/-- R235, R236, R238: `lnest` claims a chunk of its nest's iterations and takes its first iteration; `lnext` goes on to the next
iteration of the chunk, claims another chunk after the last, and falls through when none is left or no nest is active. -/
def Obligations.LoopNestsComplete : Prop :=
  ∀ (d : Fin 16) (a : Fin 32) (p : Fin 4096) (s : State) (c : Nat),
    let gn : Sig := { more := [(.k, 8), (.k, 9), (.k, 10), (.k, 11)], use := { br := true } }
    let back := (s.core c).instrVa + (BitVec.ofNat 12 p).signExtend 64 * 4
    (∀ vs s1 v s2 start size s3 s4,
      Issues s c { srcs := [(.k, a)], dst := some (.k, d), more := [(.k, 8), (.k, 9), (.k, 10), (.k, 11)] } vs s1 →
      loadStruct s1 c (arg vs 0).toNat 64 64 = .ok (v, s2) → counterCheck (nestOf v).cnt.toNat = .ok () → nestLegal v = true →
      claimChunk s2 c (nestOf v) = .ok (start, size, s3) →
      putKLater (takeChunk s3 c (nestOf v) start size) c d (BitVec.ofNat 64 size) = .ok s4 →
      exec (.lnest d a) s = .next (finished s c s4)) ∧
    (∀ vs s1, Issues s c gn vs s1 →
      let x := (s1.core c).nest
      (x.active = false → ∃ t, exec (.lnext p) s = .next t ∧ (t.core c).pipe.pc = (s1.core c).pipe.pc ∧
        (t.core c).regs = (s1.core c).regs ∧ (t.core c).nest = x ∧ OnlyCore s1 t c) ∧
      (x.active = true → x.pos + 1 < x.stop → ∃ t, exec (.lnext p) s = .next t ∧ (t.core c).pipe.pc = back ∧
        (t.core c).nest = { x with pos := x.pos + 1 } ∧
        (∀ i : Fin 4, (t.core c).read .k (8 + i) = scalar (BitVec.ofNat 64 ((nestIndices x (x.pos + 1))[i.val]?.getD 0))) ∧
        (∀ i, i < 8 ∨ 12 ≤ i → (t.core c).regs.k[i]? = (s1.core c).regs.k[i]?) ∧ OnlyCore s1 t c) ∧
      (∀ start size s2, x.active = true → x.stop ≤ x.pos + 1 → claimChunk s1 c x = .ok (start, size, s2) →
        exec (.lnext p) s = .next (finished s c
          (resolveBranch (takeChunk s2 c x start size) c (s1.core c).pipe.hints 12 p (decide (size ≠ 0))))))

/-- R236, R237: the indices of an iteration lie in their extents, and number the iteration with the first dimension of ORDER fastest;
a claim takes at least the least chunk, a share of what is left, and never more than is left. -/
def Obligations.NestIndicesAndChunks : Prop :=
  (∀ (x : Nest) (l : Nat), x.e.length = 4 →
      let dim := fun (p : Nat) => x.order / 4 ^ p % 4
      let e := fun (p : Nat) => x.e[dim p]?.getD 1
      let i := fun (p : Nat) => (nestIndices x l)[dim p]?.getD 0
      [dim 0, dim 1, dim 2, dim 3].Nodup → l < e 0 * e 1 * e 2 * e 3 →
        (nestIndices x l).length = 4 ∧ (∀ p, p < 4 → i p < e p) ∧ l = i 0 + e 0 * (i 1 + e 1 * (i 2 + e 2 * i 3))) ∧
  (∀ (n claimed least parts : Nat), claimed < n →
      let size := claimSize n claimed least parts
      let left := n - claimed
      1 ≤ size ∧ claimed + size ≤ n ∧ (min left (max 1 least) ≤ size) ∧ left ≤ max 1 parts * size ∧
        (size = left ∨ size ≤ max (max 1 least) ((left + max 1 parts - 1) / max 1 parts)))

/-- R211, R240 to R243: `rep` takes the words after it as its body, with their hints, and the integer pipeline goes on at the word
after the body while the body, unless the count is 0, issues beside it; `repw` completes once no repetition runs. That the body takes the
first turn is the model's choice (log entry 19). -/
def Obligations.RepetitionsComplete : Prop :=
  ∀ (n : Fin 8) (a : Fin 32) (st t : Fin 8) (count : Fin 2048) (s : State) (c : Nat),
    let g : Sig := { srcs := if count.val = 0 then [(.k, a)] else [], alone := true }
    (∀ vs s1 body after stalls s2, Issues s c g vs s1 → (s1.core c).pipe.rep = none →
      captureBody c 65536 s1 (s1.core c).pipe.pc Hints.none (s1.core c).pipe.stalls (n + 1) [] = .ok (body, after, stalls, s2) →
      let total := if count.val = 0 then (arg vs 0).toNat else count.val
      let r : Rep := {
        n := n + 1, total := total, stagger := st, step := t, body := body, j := 0, pos := 0, after := after, held := none
        clock := (s2.core c).pipe.clock, bodyNext := true }
      exec (.rep n a st t count) s = .next (finished s c (s2.modCore c (fun k => { k with pipe := { k.pipe with
        pc := after, stalls := stalls, rep := if total = 0 then none else some r
        pend := k.pipe.pend.map (fun p => { p with cross := p.schedAt }) } })))) ∧
    Effects .repw s c { alone := true } (fun _ s1 => .ok s1)

/-- R246, R247, R368: a wait and a barrier complete; each ends at once where its condition holds already, and waits on where it
does not. A wait for one point of time that has come ends at once, with the bitmap 1, in a task whose level is not cancelled. An arrival at
a barrier in the core's own scratchpad counts up COUNT, or, being the last, clears it and counts up GEN; its result is the index of its
arrival and whether it was the last, and it comes once GEN differs from what the arrival found. -/
def Obligations.WaitsAndBarriersComplete : Prop :=
  (∀ (d : Fin 16) (a b : Fin 32) (s : State) (c : Nat),
      Effects (.wait d a b) s c { srcs := [(.v, a), (.k, b)], dst := some (.k, d), alone := true } (fun vs s1 => do
        let s2 ← waitChecks s1 c (argV vs 0) (arg vs 1)
        let s3 ← awaitCheck s2 c d
        tryWait (beginWait s3 c d (argV vs 0) (arg vs 1)) c) ∧
      (∀ vs s1 s2 x, Issues s c { srcs := [(.k, a), (.k, b)], dst := some (.k, d), alone := true } vs s1 →
        joinBarrier s1 c d (arg vs 0).toNat (arg vs 1) = .ok s2 → (s2.core c).barSt = some x →
        ∀ s3, tryBarrier s2 c x = .ok s3 → exec (.bar d a b) s = .next (finished s c s3))) ∧
  (∀ (d : Fin 16) (a b : Fin 32) (s : State) (c : Nat) (vs : List Vec) (s1 : State) (at_ : Nat),
      let g : Sig := { srcs := [(.v, a), (.k, b)], dst := some (.k, d), alone := true }
      Issues s c g vs s1 → Streamless s c g → at_ < 2 ^ 64 → argV vs 0 = BitVec.ofNat 512 (6 * 2 ^ 124 + at_) →
      field (arg vs 1) 48 2 = 0 → field (arg vs 1) 51 12 = 0 → at_ ≤ s1.time → (s.core c).waitSt = none →
        let s2 := beginWait s1 c d (argV vs 0) (arg vs 1)
        softCancelled s2 c = false →
          (∀ s3, putKLater (softSeen s2 c) c d 1 = .ok s3 → exec (.wait d a b) s =
            .next (finished s c (s3.modCore c (fun k => { k with mode := .run, waitSt := none })))) ∧
          (softSeen s2 c = s2 → ∃ t, exec (.wait d a b) s = .next t ∧ Awaits s t c .k d 1)) ∧
  (∀ (d : Fin 16) (s : State) (c off : Nat) (parties : Word),
      Undisturbed s c → off % 16 = 0 → off + 16 ≤ 0x40000 → 1 ≤ parties.toNat → parties.toNat < 2 ^ 32 →
      (destReg (some (.k, d))).bind (s.core c).boundAt = none →
        let at_ := scratchLoc c + off
        let count := s.read at_ 8
        let gen := s.read (at_ + 8) 8
        let n := (count + 1) % 2 ^ 64
        ∃ t x, joinBarrier s c d (localLoc + off) parties = .ok t ∧ (t.core c).mode = .wait ∧ (t.core c).barSt = some x ∧
          x.va = BitVec.ofNat 64 (localLoc + off) ∧ x.g.toNat = gen ∧ x.d = d ∧
          (parties.toNat ≤ n → x.index = count % 2 ^ 32 + 2 ^ 32 ∧ t.read at_ 8 = 0 ∧ t.read (at_ + 8) 8 = (gen + 1) % 2 ^ 64) ∧
          (n < parties.toNat → x.index = count % 2 ^ 32 ∧ t.read at_ 8 = n ∧ t.read (at_ + 8) 8 = gen) ∧
          ∀ y, y < 2 ^ 66 → ¬ (at_ ≤ y ∧ y < at_ + 16) → t.read y 1 = s.read y 1) ∧
  (∀ (s : State) (c off : Nat) (x : BarSt), Undisturbed s c → off % 16 = 0 → off + 16 ≤ 0x40000 →
      (s.core c).barSt = some x → x.va.toNat = localLoc + off → softCancelled s c = false →
        ∃ u, OnlyCore s u c ∧ u.core c = { s.core c with energy := (u.core c).energy } ∧
          (s.read (scratchLoc c + off + 8) 8 = x.g.toNat →
            tryBarrier s c x = .ok ((softSeen u c).dueOnce (.barRelease (coreId c)))) ∧
          (s.read (scratchLoc c + off + 8) 8 ≠ x.g.toNat →
            ∀ t, putKLater (softSeen u c) c x.d (BitVec.ofNat 64 x.index) = .ok t →
              tryBarrier s c x = .ok (t.modCore c (fun k => { k with mode := .run, barSt := none }))))

/-- R250, R251, R257: `done` and `halt` let the task end, its nest and its coalescers over; `yield` completes, and makes way only
where a record waits and a context slot is free. -/
def Obligations.TaskEndsBegin : Prop :=
  ∀ (s : State) (c : Nat),
    (∀ i halt vs s1, (i = .done ∧ halt = false) ∨ (i = .halt ∧ halt = true) → Issues s c { sys := halt, alone := true } vs s1 →
      (s1.core c).loader.fault = none → (s1.core c).storer.fault = none → ∃ t, exec i s = .next t ∧
        let s2 := disarmAll s1 c
        (t.core c).task = { (s2.core c).task with ending := true, halting := halt } ∧ (t.core c).nest.active = false ∧
        (t.core c).regs = (s2.core c).regs ∧ .taskEnd (coreId c) ∈ t.todo ∧ SameBytes s2 t) ∧
    (∀ vs s1, Issues s c { alone := true } vs s1 → ∃ t, exec .yield s = .next t ∧ SameBytes s1 t ∧ (t.core c).regs = (s1.core c).regs ∧
      if yieldsTo s1 c && (freeSlots s1 (s1.core c).task.job (dieOf c) (unitMembers s1 c).length).isSome then
        (t.core c).preempt = some .yield ∧ .preemptDone (coreId c) ∈ t.todo
      else t = finished s c s1)

/-- R252, R412: `trap` and `brk` enter the trap entry, with the group's address, the operand as ADDR and SKIP set. -/
def Obligations.SoftwareTrapsTaken : Prop :=
  ∀ (a : Fin 32) (s : State) (c : Nat) (vs : List Vec) (s1 : State), CanTrap s c →
    (Issues s c { srcs := [(.k, a)] } vs s1 → ∃ t, exec (.trap a) s = .next t ∧
      Trapped s t c cSwTrap (s.core c).groupVa (arg vs 0) 1) ∧
    (Issues s c {} vs s1 → ∃ t, exec .brk s = .next t ∧ Trapped s t c cBrk (s.core c).groupVa 0 1)

/-- R193, R199, R202, R203, R205, R232, R233, R253, R412: a privileged instruction in TASK mode, a hint that its target may not carry, a
register jump or call to no word's address, an `eret` outside a trap entry, a word that is no instruction and a fetch that faults enter the trap entry with
their causes, and do nothing else. -/
def Obligations.FaultingInstructionsTrap : Prop :=
  ∀ (d : Fin 16) (a b : Fin 32) (s : State) (c : Nat), Alone s c → CanTrap s c →
    let traps := fun (i : Instr) (cause : Nat) (addr : Word) => ∃ t, exec i s = .next t ∧
      Trapped s t c cause (s.core c).groupVa addr 0
    ((s.core c).task.sys = false → hintsIllegal (s.core c).hints {} = false →
      traps .halt cPriv 0 ∧ traps (.tlbinv a b) cPriv 0 ∧ traps (.fbflush d a) cPriv 0 ∧ traps (.getc d 0x801) cPriv 0 ∧
        (b.val ≠ 0 → traps (.cancel a b) cPriv 0 ∧ traps (.cancelh a b) cPriv 0)) ∧
    (∀ i u, hintsOf i = some u → hintsIllegal (s.core c).hints u = true → traps i cIllegalOp 0) ∧
    (∀ vs s1, Issues s c { srcs := [(.k, a)] } vs s1 → arg vs 0 &&& 3 ≠ 0 → traps (.jr a) cMisalign (arg vs 0)) ∧
    (∀ vs s1, Issues s c { srcs := [(.k, a)], dst := some (.k, 7), lat := 1 } vs s1 → arg vs 0 &&& 3 ≠ 0 →
      traps (.callr a) cMisalign (arg vs 0)) ∧
    (∀ vs s1, Issues s c { alone := true } vs s1 → traps .eret cIllegalOp 0) ∧
    (s.actor.part = .main → traps .illegalOpEncoding cIllegalOp 0 ∧
      ∀ f, fetchHere s = .error (.trap f) → classOf f.cause = .entry → f.info = 0 → f.skip = false → f.met = [] →
        traps .instructionFetchFault f.cause f.addr)

/-- R179, R413, R414, R416: a trap of the Entry class without a trap entry, or within one, ends the unit: its core holds no task any more.
So it is for a breakpoint, a software trap, a word that is no instruction, a fetch that faults, a privileged instruction in TASK mode, a
jump to no word's address and an `eret` outside a trap entry. A page fault of a load or a store aborts a unit that has not passed its
commit point, its record going back to the ready queue with the fault; one that has passed it parks at its instruction with the fault,
its registers and its TRAP registers as they were. -/
def Obligations.UnhandledTrapEndsTheUnit : Prop :=
  ∀ (d : Fin 16) (a b : Fin 32) (w cp : Fin 4) (o : Fin 2048) (s : State) (c : Nat) (vs : List Vec) (s1 : State),
    Alone s c → (s.core c).trapWaits = false → c < 256 →
    let k := s.core c
    let ends := fun (i : Instr) => ∃ t, exec i s = .next t ∧ (t.core c).holdsTask = false
    (tyTrapPc k.task.entry = 0 ∨ flag k.trap.cause 8 = true →
      (Issues s c {} vs s1 → ends .brk) ∧
      (Issues s c { srcs := [(.k, a)] } vs s1 → ends (.trap a) ∧ (arg vs 0 &&& 3 ≠ 0 → ends (.jr a))) ∧
      (k.task.sys = false → hintsIllegal k.hints {} = false → ends .halt ∧ ends (.tlbinv a b)) ∧
      (flag k.trap.cause 8 = false → Issues s c { alone := true } vs s1 → ends .eret) ∧
      (s.actor.part = .main → ends .illegalOpEncoding ∧
        ∀ f, fetchHere s = .error (.trap f) → classOf f.cause = .entry → f.info = 0 → ends .instructionFetchFault)) ∧
    (∀ i f, f.cause = cPageAbsent ∨ f.cause = cPagePerm → f.info.getLsbD 63 = false → f.access ≠ .fetch → k.pipe.inBody = false →
      (∃ m : Fin 2, i = .ld d a w m cp o ∧ Issues s c { srcs := [(.k, a)], dst := some (.k, d), cls := 4, use := { imm := 11 } } vs s1 ∧
        loadData s1 (taskAccess s1 c .read (arg vs 0 + BitVec.ofInt 64 (immOf (s1.core c).hints 11 o true * 2 ^ w.val)).toNat
          (2 ^ w.val) 1) (some cp) = .error (.trap f)) ∨
      (i = .st b a w cp o ∧ Issues s c { srcs := [(.k, a), (.k, b)], cls := 4, use := { imm := 11 } } vs s1 ∧
        storeData s1 { taskAccess s1 c .write (arg vs 0 + BitVec.ofInt 64 (immOf (s1.core c).hints 11 o true * 2 ^ w.val)).toNat
          (2 ^ w.val) 1 with cp := cp.val } ((arg vs 1).toNat % 2 ^ (8 * 2 ^ w.val)) true false = .error (.trap f)) →
      let held := fun (h : HeldFault) => h.core = c ∧ h.job = k.task.job ∧ h.trap.cause = f.cause ∧ h.va = f.addr
      (k.task.commit = true → ∃ t h, exec i s = .next t ∧ (t.core c).mode = .park ∧ (t.core c).fault = some h ∧ held h ∧
        (t.core c).regs = k.regs ∧ (t.core c).trap = k.trap ∧ (t.core c).pipe.pc = k.pipe.hints.va.getD k.pipe.pc) ∧
      (k.task.commit = false → ∃ t r h, exec i s = .next t ∧ (t.core c).holdsTask = false ∧
        (r ∈ (t.die (dieOf c)).ready ∨ r ∈ (t.die (dieOf c)).spill) ∧ r.record = k.task.record ∧ r.job = k.task.job ∧
        r.fault = some h ∧ held h))

/-- R253, R244: `eret` leaves the trap entry: ACT is clear, the task goes on at TRAP.PC, past one group where SKIP is set, and a
repetition that the trap held goes on. -/
def Obligations.TrapReturn : Prop :=
  ∀ (s : State) (c : Nat) (vs : List Vec) (s1 : State), Issues s c { alone := true } vs s1 → flag (s.core c).trap.cause 8 = true →
    (s1.core c).awaits = false → (s.core c).pipe.inBody = false → ∃ t, exec .eret s = .next t ∧ OnlyCore s1 t c ∧
      (t.core c).trap = { (s1.core c).trap with cause := (s1.core c).trap.cause &&& ~~~0x100 } ∧
      (t.core c).regs = (s1.core c).settle.regs ∧ (t.core c).nest = (s1.core c).nest ∧ (t.core c).mode = .run ∧
      ((s1.core c).pipe.rep = none → (t.core c).pipe.pc = (s1.core c).trap.pc ∧
        (t.core c).pipe.skip = flag (s1.core c).trap.info 0 ∧ (t.core c).pipe.rep = none) ∧
      (∀ r, (s1.core c).pipe.rep = some r → r.held = some (s1.core c).trap.pc → (t.core c).pipe.pc = r.after ∧
        (t.core c).pipe.rep =
          if flag (s1.core c).trap.info 0 then Rep.next { r with held := none } else some { r with held := none })

/-- R38, R125, R190, R229, R254, R255, R256, R292 to R294, R328, R344, R353: `nop`, `chk`, `cancel`, `cancelh`, `tlbinv` and
`fbflush` complete, and with them each control-register access, fence and cache-control instruction, with what it leaves. Which cached
walks a `tlbinv` drops is read from the rules by inference (DEDUCED; log entry 49). -/
def Obligations.SystemInstructionsComplete : Prop :=
  ∀ (d : Fin 16) (a b : Fin 32) (p : Fin 8) (half : Fin 2) (s : State) (c : Nat),
    let gs : Sig := { srcs := [(.k, a)] }
    let gd : Sig := { dst := some (.k, d), lat := 1 }
    let gf : Sig := { cls := 4, use := { scope := true } }
    let quiet := fun (s1 : State) => (∀ o ∈ s1.scOps, o.core.val ≠ c) ∧ (s1.core c).near = []
    let setOn := fun (i : Instr) (ok : Word → State → Prop) (held : Core → Word → Prop) => ∀ vs s1, Issues s c gs vs s1 →
      ok (arg vs 0) s1 → ∃ t, exec i s = .next t ∧ ((s1.core c).ev.ringUsed = 0 → SameBytes s1 t) ∧ (t.core c).regs = (s1.core c).regs ∧
        (t.core c).pipe.pc = nextPc (s.core c) ∧ held (t.core c) (arg vs 0)
    (∀ vs s1, Issues s c gd vs s1 → Streamless s c gd →
      (∀ n : Fin 4096, n.val ∈ [0x000, 0x001, 0x002, 0x020, 0x060, 0x061, 0x062, 0x063, 0x064, 0x0C0, 0x0C1, 0x0C4, 0x0C5, 0x0C6,
          0x0C8, 0x0D0, 0x0D1] ∨ (0x010 ≤ n.val ∧ n.val ≤ 0x013) ∨ (0x090 ≤ n.val ∧ n.val ≤ 0x09F) →
        ∃ v t, exec (.getc d n) s = .next t ∧ Wrote s t c .k d v)) ∧
    (∀ vs s1, Issues s c { gd with lat := 0 } vs s1 → Streamless s c { gd with lat := 0 } →
      (∀ n : Fin 4096, (0x040 ≤ n.val ∧ n.val ≤ 0x043) ∨ (0x080 ≤ n.val ∧ n.val ≤ 0x08F) →
        ∃ v t, exec (.getc d n) s = .next t ∧ Awaits s t c .k d v)) ∧
    setOn (.setc a 0x011) (fun _ _ => True) (fun k v => k.trap.pc = v) ∧
    setOn (.setc a 0x012) (fun _ _ => True) (fun k v => k.trap.addr = v) ∧
    (∀ n : Fin 8, setOn (.setc a ⟨0x090 + n, by omega⟩) (fun _ _ => True) (fun k v => k.evc[n] = v)) ∧
    setOn (.setcMxMode a 0) (fun v _ => v.toNat < 4) (fun k v => k.mx.mode = v.toNat) ∧
    setOn (.setcMxMode a 1) (fun v _ => v.toNat ≤ 16) (fun k v => k.mx.sample = v.toNat) ∧
    setOn (.setcEvRebase a 0) (fun v _ => v.toNat < 2 ^ 32) (fun k v => k.ev.win = v.toNat) ∧
    setOn (.setcEvRebase a 1) (fun _ _ => True) (fun k v => k.ev.org = v) ∧
    setOn (.setcEvSpill a) (fun v s1 => v.toNat < 2 ^ 12 ∧ (s1.core c).ev.ringUsed = 0)
      (fun k v => k.ev.spill = v) ∧
    setOn (.setcLogBase a) (fun v s1 => v.toNat < 2 ^ 12 ∧ (s1.core c).pool.used = [] ∧ ∀ e ∈ (s1.core c).tiles, e.2.logCnt = 0)
      (fun k v => k.pool.base = v) ∧
    setOn (.setcTrace a half) (fun v s1 => v &&& ~~~(if half.val = 0 then 0xFFFFFFFFFFFFFFC0 else 0x80FC00000000FFFF) = 0 ∧
        let tr := (s1.core c).trace
        traceLegal c (s1.core c).task (if half.val = 0 then v else tr.base) (if half.val = 0 then tr.len else v) = true)
      (fun k v => (if half.val = 0 then k.trace.base else k.trace.len) = v) ∧
    (∀ vs s1, Issues s c gf vs s1 → quiet s1 →
      exec (.fenceAcq p) s = .next (finished s c s1) ∧
      ((s1.core c).sbuf = [] → remoteCards s1 c = false →
        exec (.fenceRel p) s = .next (finished s c s1) ∧ exec (.fenceFull p) s = .next (finished s c s1))) ∧
    (∀ vs s1, Issues s c { gf with srcs := [(.k, a)] } vs s1 →
      exec (.pf a) s = .next (finished s c (prefetch s1 c (arg vs 0).toNat))) ∧
    (∀ vs s1, Issues s c { gf with srcs := [(.k, a), (.k, b)] } vs s1 → ∃ t, exec (.l1inv a b) s = .next t ∧ SameBytes s1 t ∧
      (t.core c).l1d = (discardRange (s1.core c) (s1.core c).task.job (arg vs 0).toNat (arg vs 1).toNat).l1d ∧
      (t.core c).atoms = (s1.core c).atoms.filter (fun e =>
        !inRange (s1.core c).task.job (arg vs 0).toNat (arg vs 1).toNat e.job e.va)) ∧
    Effects .nop s c {} (fun _ s1 => .ok s1) ∧
    (∀ vs s1, Issues s c {} vs s1 → (s1.core c).near = [] → ∃ t, exec .chk s = .next t ∧ OnlyCore s1 t c ∧
      (t.core c).regs = (s1.core c).regs ∧ (t.core c).pipe.pc = (s1.core c).pipe.pc) ∧
    (∀ i hard vs s1, (i = .cancel a b ∧ hard = false) ∨ (i = .cancelh a b ∧ hard = true) →
      Issues s c { srcs := [(.k, a), (.k, b)], sys := b.val ≠ 0 } vs s1 → (arg vs 0).toNat < 4096 →
      ∀ s2, let job := if (s1.core c).task.sys then (arg vs 1).toNat else (s1.core c).task.job
        ((s1.core c).task.sys = true → (arg vs 1).toNat < 256) → cancelOrder s1 c job (arg vs 0).toNat = .ok s2 →
        exec i s = .next (finished s c (cancelLevel s2 c job (arg vs 0).toNat hard))) ∧
    (∀ vs s1 s2, Issues s c { srcs := [(.k, a), (.k, b)], sys := true } vs s1 →
      (arg vs 0).toNat < 2 ^ 53 ∨ flag (arg vs 1) 8 = true → field (arg vs 1) 9 7 = 0 → field (arg vs 1) 48 16 = 0 →
      settleTask s1 c 4 = .ok s2 → ∃ t, exec (.tlbinv a b) s = .next t ∧ SameBytes s2 t ∧
        (t.core c).tlbWait = some { mark := s2.seq, job := field (arg vs 1) 0 8, lo := (tlbRange (arg vs 0) (arg vs 1)).1
                                    hi := (tlbRange (arg vs 0) (arg vs 1)).2, all := flag (arg vs 1) 8 } ∧
        .tlbinvComplete (coreId c) ∈ t.todo ∧ t.dies = (invalidate s2 (field (arg vs 1) 0 8) (arg vs 0) (arg vs 1)).dies) ∧
    (∀ vs s1 s2, Issues s c { srcs := [(.k, a)], dst := some (.k, d), sys := true } vs s1 → (arg vs 0).toNat < 2 →
      putKLater (flushFaults s1 (arg vs 0).toNat) c d (BitVec.ofNat 64 (((s1.die (arg vs 0).toNat).fbGen + 1) % 2 ^ 16)) = .ok s2 →
      exec (.fbflush d a) s = .next (finished s c s2))

/-- R262 to R265: the floating-point vector instructions complete; each active lane is the exact result rounded once. -/
def Obligations.VectorFloatResults : Prop :=
  ∀ (d : Fin 16) (a b : Fin 32) (t m : Fin 8) (s : State) (c : Nat), 2 ≤ t.val → t.val ≤ 4 →
    let fm := fmtFormat t
    let e := fm.width
    let g : Sig := { srcs := [(.v, a), (.v, b)], also := maskReg m, dst := some (.v, d), lat := 4, cls := 3, use := { rm := true } }
    let g1 : Sig := { g with srcs := [(.v, a)] }
    let rm := fun (s1 : State) => rmWith (s1.core c).hints .rne
    let at_ := fun (x : BitVec e) => fm.unpack x.toNat
    let rounded := fun (s1 : State) (x : Fp) => BitVec.ofNat e (fm.round (rm s1) false x)
    let approx := fun (s1 : State) (x : Fp) => BitVec.ofNat e
      (if t.val = 4 then fp32.pack (roundFp 13 fp32 8191 115 (rm s1) false x) else fm.round (rm s1) false x)
    let two := fun (i : Instr) (g : Sig) (f : State → BitVec e → BitVec e → BitVec e) => Writes i s c g
      (fun vs s1 => masked s1 c d m e (fun i => f s1 (laneOf e (argV vs 0) i) (laneOf e (argV vs 1) i)))
    let one := fun (i : Instr) (f : State → BitVec e → BitVec e) => Writes i s c g1
      (fun vs s1 => masked s1 c d m e (fun i => f s1 (laneOf e (argV vs 0) i)))
    let three := fun (i : Instr) (f : State → BitVec e → BitVec e → BitVec e → BitVec e) =>
      Writes i s c { g with also := (.v, d.val) :: maskReg m } (fun vs s1 => masked s1 c d m e (fun i =>
        f s1 (laneOf e ((s1.core c).read .v d) i) (laneOf e (argV vs 0) i) (laneOf e (argV vs 1) i)))
    let picked := fun (first : Fp → Fp → Bool) (x y : BitVec e) =>
      if (at_ x).isNan ∧ (at_ y).isNan then BitVec.ofNat e fm.canonical
      else if (at_ x).isNan then y else if (at_ y).isNan then x else if first (at_ x) (at_ y) then x else y
    two (.vaddFp d a b t m) g (fun s1 x y => rounded s1 (Fp.add (rm s1) (at_ x) (at_ y))) ∧
    two (.vsubFp d a b t m) g (fun s1 x y => rounded s1 (Fp.add (rm s1) (at_ x) (at_ y).neg)) ∧
    two (.vmulFp d a b t m) g (fun s1 x y => rounded s1 (Fp.mul (at_ x) (at_ y))) ∧
    three (.vmlaFp d a b t m) (fun s1 z x y => rounded s1 (Fp.add (rm s1) (at_ z) (Fp.mul (at_ x) (at_ y)))) ∧
    three (.vmlsFp d a b t m) (fun s1 z x y => rounded s1 (Fp.add (rm s1) (at_ z) (Fp.mul (at_ x) (at_ y)).neg)) ∧
    two (.vminFp d a b t m) g (fun _ => picked Fp.below) ∧
    two (.vmaxFp d a b t m) g (fun _ => picked (fun x y => Fp.below y x)) ∧
    one (.vabsFp d a t m) (fun _ x => x &&& ~~~((1 : BitVec e) <<< (e - 1))) ∧
    one (.vnegFp d a t m) (fun _ x => x ^^^ ((1 : BitVec e) <<< (e - 1))) ∧
    one (.vrcp d a t m) (fun s1 x => approx s1 (Fp.div (.num false 1 0) (at_ x))) ∧
    one (.vrsq d a t m) (fun s1 x => approx s1 (Fp.rsqrt (at_ x))) ∧
    (t.val = 4 →
      WritesLater (.vdiv d a b t m) s c { g with lat := 0, divides := true } (fun vs s1 => masked s1 c d m e (fun i =>
        rounded s1 (Fp.div (at_ (laneOf e (argV vs 0) i)) (at_ (laneOf e (argV vs 1) i))))) ∧
      WritesLater (.vsqrt d a t m) s c { g1 with lat := 0, divides := true } (fun vs s1 => masked s1 c d m e (fun i =>
        rounded s1 (Fp.sqrt (at_ (laneOf e (argV vs 0) i))))))

/-- R262, R263: a sum and a product of finite numbers are exact, in units of a power of two that divides both; and rounding to nearest
gives a nonzero finite result within half of its own unit of the exact value, a tie going to the even significand, with no more
significant bits than the format. -/
def Obligations.ExactThenRoundedToNearest : Prop :=
  (∀ (fm : Format) (neg n : Bool) (m q : Nat) (e u : Int), 0 < m →
      roundFp (fm.fracBits + 1) fm fm.maxM fm.maxE .rne false (.num neg m e) = .num n q u →
        let low := if e < u then e else u
        let exact : Int := m * 2 ^ (e - low).toNat
        let got : Int := q * 2 ^ (u - low).toNat
        let unit : Int := 2 ^ (u - low).toNat
        n = neg ∧ q ≤ 2 ^ (fm.fracBits + 1) ∧ fm.emin - fm.fracBits ≤ u ∧
          2 * (got - exact).natAbs ≤ unit.natAbs ∧ (2 * (got - exact).natAbs = unit.natAbs → got ≠ exact → q % 2 = 0) ∧
          (got ≠ exact → u ≤ max (e + Nat.log2 m) fm.emin - fm.fracBits)) ∧
  (∀ (rm : Rm) (x y : Bool) (m n : Nat) (e f : Int), 0 < m → 0 < n →
      let value := fun (neg : Bool) (m : Nat) (e u : Int) => scaled neg m e u
      Fp.mul (.num x m e) (.num y n f) = .num (x != y) (m * n) (e + f) ∧
      (∀ z k g, Fp.add rm (.num x m e) (.num y n f) = .num z k g →
        g ≤ e ∧ g ≤ f ∧ value z k g g = value x m e g + value y n f g ∧ 0 < k) ∧
      (∀ z, Fp.add rm (.num x m e) (.num y n f) = .zero z →
        z = (rm == .dn) ∧ value x m e (min e f) + value y n f (min e f) = 0) ∧
      Fp.add rm (.num x m e) (.num y n f) ≠ .nan ∧ (∀ z, Fp.add rm (.num x m e) (.num y n f) ≠ .inf z))

/-- R266, R267: the integer vector instructions complete; each active lane is the exact result, wrapped, saturated or clamped. -/
def Obligations.VectorIntegerResults : Prop :=
  ∀ (d : Fin 16) (a b : Fin 32) (t m : Fin 8) (s : State) (c : Nat), t.val < 4 →
    let e := 8 * 2 ^ t.val
    let g : Sig := { srcs := [(.v, a), (.v, b)], also := maskReg m, dst := some (.v, d), lat := 2, cls := 2 }
    let two := fun (i : Instr) (g : Sig) (f : State → BitVec e → BitVec e → BitVec e) => Writes i s c g
      (fun vs s1 => masked s1 c d m e (fun i => f s1 (laneOf e (argV vs 0) i) (laneOf e (argV vs 1) i)))
    let plain := fun (i : Instr) (f : BitVec e → BitVec e → BitVec e) => two i g (fun _ => f)
    let one := fun (i : Instr) (f : BitVec e → BitVec e) => Writes i s c { g with srcs := [(.v, a)] }
      (fun vs s1 => masked s1 c d m e (fun i => f (laneOf e (argV vs 0) i)))
    let wraps := fun (i : Instr) (f : Int → Int → Int) => two i { g with use := { sat := true } } (fun s1 x y =>
      if bits ((s1.core c).hints.mod.getD 0) 3 2 = 1 then clampS e (f x.toInt y.toInt) else BitVec.ofInt e (f x.toInt y.toInt))
    let dot := fun (f : BitVec 8 → Int) (x y : BitVec e) => BitVec.ofInt e
      (((List.range 4).map (fun j => f (x.extractLsb' (8 * j) 8) * f (y.extractLsb' (8 * j) 8))).foldl (· + ·) 0)
    wraps (.vaddInt d a b t m) (fun x y => x + y) ∧
    wraps (.vsubInt d a b t m) (fun x y => x - y) ∧
    wraps (.vmulInt d a b t m) (fun x y => x * y) ∧
    Writes (.vmlaInt d a b t m) s c { g with also := (.v, d.val) :: maskReg m } (fun vs s1 => masked s1 c d m e (fun i =>
      laneOf e ((s1.core c).read .v d) i + laneOf e (argV vs 0) i * laneOf e (argV vs 1) i)) ∧
    plain (.vminInt d a b t m) (fun x y => if y.slt x then y else x) ∧
    plain (.vmaxInt d a b t m) (fun x y => if x.slt y then y else x) ∧
    plain (.vminz d a b t m) (fun x y => if y.ult x then y else x) ∧
    plain (.vmaxz d a b t m) (fun x y => if x.ult y then y else x) ∧
    one (.vabsInt d a t m) (fun x => if x.slt 0 then -x else x) ∧
    one (.vnegInt d a t m) (fun x => -x) ∧
    plain (.vadds d a b t m) (fun x y => clampS e (x.toInt + y.toInt)) ∧
    plain (.vsubs d a b t m) (fun x y => clampS e (x.toInt - y.toInt)) ∧
    plain (.vaddsz d a b t m) (fun x y => clampU e ((x.toNat : Int) + y.toNat)) ∧
    plain (.vsubsz d a b t m) (fun x y => clampU e ((x.toNat : Int) - y.toNat)) ∧
    plain (.vmulh d a b t m) (fun x y => BitVec.ofInt e (x.toInt * y.toInt / 2 ^ e)) ∧
    (t.val = 2 → plain (.vdot4 d a b t m) (dot BitVec.toInt) ∧ plain (.vdot4z d a b t m) (dot (fun v => (v.toNat : Int)))) ∧
    plain (.vclmul d a b t m) (fun x y => (carryless e x y).setWidth e) ∧
    plain (.vclmulh d a b t m) (fun x y => (carryless e x y >>> e).setWidth e)

/-- R268, R277: the vector logic, shift and counting instructions and `vmov` complete, lane by lane. -/
def Obligations.VectorLogicResults : Prop :=
  ∀ (d : Fin 16) (a b : Fin 32) (n : Fin 32) (t m : Fin 8) (s : State) (c : Nat), t.val < 4 →
    let e := 8 * 2 ^ t.val
    let g : Sig := { srcs := [(.v, a), (.v, b)], also := maskReg m, dst := some (.v, d), lat := 2, cls := 2 }
    let two := fun (i : Instr) (f : BitVec e → BitVec e → BitVec e) => Writes i s c g
      (fun vs s1 => masked s1 c d m e (fun i => f (laneOf e (argV vs 0) i) (laneOf e (argV vs 1) i)))
    let one := fun (i : Instr) (f : BitVec e → BitVec e) => Writes i s c { g with srcs := [(.v, a)] }
      (fun vs s1 => masked s1 c d m e (fun i => f (laneOf e (argV vs 0) i)))
    two (.vand d a b t m) (fun x y => x &&& y) ∧
    two (.vor d a b t m) (fun x y => x ||| y) ∧
    two (.vxor d a b t m) (fun x y => x ^^^ y) ∧
    two (.vandn d a b t m) (fun x y => x &&& ~~~y) ∧
    one (.vnot d a t m) (fun x => ~~~x) ∧
    two (.vshl d a b t m) (fun x y => x <<< y.toNat) ∧
    two (.vshr d a b t m) (fun x y => x >>> y.toNat) ∧
    two (.vsra d a b t m) (fun x y => x.sshiftRight y.toNat) ∧
    one (.vpopc d a t m) (fun x => x.cpop) ∧
    one (.vclz d a t m) (fun x => x.clz) ∧
    one (.vmov d a t m) (fun x => x) ∧
    (n.val < e →
      one (.vshli d a n t m) (fun x => x <<< n.val) ∧
      one (.vshri d a n t m) (fun x => x >>> n.val) ∧
      one (.vsrai d a n t m) (fun x => x.sshiftRight n.val))

/-- R269, R270: compares write a bit for each active lane, mask logic and counts are over the lanes of the type, and `vsel`
chooses lanes by a mask. -/
def Obligations.CompareAndMaskResults : Prop :=
  ∀ (d : Fin 16) (a b : Fin 32) (t m : Fin 8) (s : State) (c : Nat),
    let ints := fun (i : Instr) (r : (e : Nat) → BitVec e → BitVec e → Bool) =>
      let e := 8 * 2 ^ t.val
      Writes i s c { srcs := [(.v, a), (.v, b)], also := maskReg m, dst := some (.m, d), lat := 2, cls := 2 } (fun vs s1 =>
        bitsOf (512 / e) (fun i => if active s1 c m i then r e (laneOf e (argV vs 0) i) (laneOf e (argV vs 1) i)
          else ((s1.core c).regs.raw .m d).getLsbD i))
    let floats := fun (i : Instr) (r : Fp → Fp → Bool) =>
      let fm := fmtFormat t
      let at_ := fun (v : Vec) (i : Nat) => fm.unpack (laneOf fm.width v i).toNat
      Writes i s c { srcs := [(.v, a), (.v, b)], also := maskReg m, dst := some (.m, d), lat := 2, cls := 2 } (fun vs s1 =>
        bitsOf (512 / fm.width) (fun i => if active s1 c m i then r (at_ (argV vs 0) i) (at_ (argV vs 1) i)
          else ((s1.core c).regs.raw .m d).getLsbD i))
    let n := 64 / 2 ^ t.val
    let masks := fun (i : Instr) (f : Bool → Bool → Bool) =>
      Writes i s c { srcs := [(.m, a), (.m, b)], dst := some (.m, d), lat := 2, cls := 2 } (fun vs _ =>
        bitsOf n (fun i => f ((argV vs 0).getLsbD i) ((argV vs 1).getLsbD i)))
    let counts := fun (i : Instr) (f : List Nat → Nat) =>
      Writes i s c { srcs := [(.m, a)], dst := some (.k, d), lat := 2, cls := 2 } (fun vs _ =>
        scalar (BitVec.ofNat 64 (f ((List.range n).filter (fun i => (argV vs 0).getLsbD i)))))
    (t.val < 4 → d.val < 8 →
      ints (.veq d a b t m) (fun _ x y => x == y) ∧ ints (.vne d a b t m) (fun _ x y => x != y) ∧
      ints (.vlt d a b t m) (fun _ x y => x.slt y) ∧ ints (.vge d a b t m) (fun _ x y => y.sle x) ∧
      ints (.vlo d a b t m) (fun _ x y => x.ult y) ∧ ints (.vhs d a b t m) (fun _ x y => y.ule x)) ∧
    (2 ≤ t.val → t.val ≤ 4 → d.val < 8 →
      floats (.vfeq d a b t m) Fp.eq ∧ floats (.vflt d a b t m) Fp.lt ∧
      floats (.vfle d a b t m) (fun x y => Fp.lt x y || Fp.eq x y) ∧ floats (.vfun d a b t m) (fun x y => x.isNan || y.isNan)) ∧
    (t.val < 4 → d.val < 8 → a.val < 8 → b.val < 8 →
      masks (.mand d a b t) (fun x y => x && y) ∧ masks (.mor d a b t) (fun x y => x || y) ∧
      masks (.mxor d a b t) (fun x y => x != y) ∧ masks (.mandn d a b t) (fun x y => x && !y)) ∧
    (t.val < 4 → a.val < 8 → counts (.mpop d a t) List.length ∧ counts (.mffs d a t) (fun l => l.headD n)) ∧
    (t.val < 4 → Writes (.vsel d a b t m) s c
      { srcs := [(.v, a), (.v, b)], also := maskReg m, dst := some (.v, d), lat := 2, cls := 2 } (fun vs s1 =>
        vecOf (8 * 2 ^ t.val) (fun i => laneOf (8 * 2 ^ t.val) (argV vs (if active s1 c m i then 0 else 1)) i)))

/-- R203, R271 to R273: the conversions complete, those between integers without a rounding mode; the lanes above those converted are 0, and inactive lanes keep what they held. -/
def Obligations.ConversionResults : Prop :=
  ∀ (d : Fin 16) (a : Fin 32) (r q : Fin 4) (h x : Fin 2) (f t m : Fin 8) (s : State) (c : Nat),
    let g : Sig := { srcs := [(.v, a)], also := maskReg m, dst := some (.v, d), lat := 3, cls := 3, use := { rm := true, sat := true } }
    let gs : Sig := { g with use := { sat := true } }
    let converts := fun (i : Instr) (g : Sig) (es ed : Nat) (conv : Hints → BitVec es → BitVec ed) => Writes i s c g (fun vs s1 =>
      vecOf ed (fun i => if 512 / max es ed ≤ i then 0
        else if active s1 c m i then conv (s1.core c).hints (laneOf es (argV vs 0) i) else laneOf ed (oldVec s1 c d) i))
    let sat := fun (h : Hints) => bits (h.mod.getD 0) 3 2
    let rounded := fun (h : Hints) (y : Fp) => (fmtFormat t).round (rmWith h (rmOf r)) (sat h == 1) y
    let ef := 8 * 2 ^ f.val
    let et := 8 * 2 ^ t.val
    (t.val < 5 → f.val < 5 → converts (.vcvt d a r f t m) g (fmtFormat f).width (fmtFormat t).width
      (fun h y => BitVec.ofNat _ (rounded h ((fmtFormat f).unpack y.toNat)))) ∧
    (t.val < 4 → f.val < 5 → converts (.vf2i d a r f t m) g (fmtFormat f).width et (fun h y => BitVec.ofInt _
      (Fp.toIntSat (rmWith h (rmOf r)) ((fmtFormat f).unpack y.toNat) (-(2 ^ (et - 1) : Nat)) ((2 ^ (et - 1) : Nat) - 1)))) ∧
    (t.val < 5 → f.val < 4 → converts (.vi2f d a r f t m) g ef (fmtFormat t).width
      (fun h y => BitVec.ofNat _ (rounded h (Fp.ofInt y.toInt 0 false)))) ∧
    (t.val < 5 → 4 ≤ f.val → converts (.vi2f d a r f t m) g (8 * 2 ^ (f.val - 4)) (fmtFormat t).width
      (fun h y => BitVec.ofNat _ (rounded h (Fp.ofInt y.toNat 0 false)))) ∧
    (f.val < 4 → t.val < f.val → converts (.vnarrow d a q f t m) gs ef et (fun h y =>
      match (if sat h = 2 then 0 else if sat h = 1 ∧ q.val = 0 then 1 else q.val) with
      | 0 => y.setWidth et
      | 1 => clampS et y.toInt
      | 2 => clampU et y.toInt
      | _ => clampU et y.toNat)) ∧
    (t.val < 4 → f.val < t.val → Writes (.vwiden d a h x f t m) s c gs (fun vs s1 => masked s1 c d m et (fun i =>
      let y := laneOf ef (argV vs 0) (h.val * (512 / et) + i)
      if x.val = 0 then y.signExtend et else y.zeroExtend et)))

/-- R274: the permutes complete; a lane outside the source is 0. -/
def Obligations.PermuteResults : Prop :=
  ∀ (d : Fin 16) (a b : Fin 32) (t m : Fin 8) (s : State) (c : Nat), t.val < 4 →
    let e := 8 * 2 ^ t.val
    let n := 64 / 2 ^ t.val
    let g : Sig := { srcs := [(.v, a), (.v, b)], also := maskReg m, dst := some (.v, d), lat := 3, cls := 2 }
    let g1 : Sig := { g with srcs := [(.v, a)] }
    let gk : Sig := { g with srcs := [(.v, a), (.k, b)] }
    let moves := fun (i : Instr) (g : Sig) (f : List Vec → (Nat → BitVec e) → (Nat → BitVec e) → Nat → BitVec e) =>
      Writes i s c g (fun vs s1 => masked s1 c d m e (fun i => f vs (laneOf e (argV vs 0)) (laneOf e (argV vs 1)) i))
    moves (.vperm d a b t m) g (fun _ x y i => if (y i).toNat < n then x (y i).toNat else 0) ∧
    moves (.vslideup d a b t m) gk (fun vs x _ i => if (arg vs 1).toNat ≤ i then x (i - (arg vs 1).toNat) else 0) ∧
    moves (.vslidedn d a b t m) gk (fun vs x _ i => if i + (arg vs 1).toNat < n then x (i + (arg vs 1).toNat) else 0) ∧
    moves (.vzipLo d a b t m) g (fun _ x y i => if i % 2 = 0 then x (i / 2) else y (i / 2)) ∧
    moves (.vzipHi d a b t m) g (fun _ x y i => if i % 2 = 0 then x (i / 2 + n / 2) else y (i / 2 + n / 2)) ∧
    moves (.vuzpEv d a b t m) g (fun _ x y i => if i < n / 2 then x (2 * i) else y (2 * (i - n / 2))) ∧
    moves (.vuzpOd d a b t m) g (fun _ x y i => if i < n / 2 then x (2 * i + 1) else y (2 * (i - n / 2) + 1)) ∧
    moves (.vrev d a t m) g1 (fun _ x _ i => x (n - 1 - i)) ∧
    moves (.vpack d a b t m) g (fun _ x y i => if i < n / 2 then x i else y (i - n / 2)) ∧
    Writes (.vcompress d a t m) s c g1 (fun vs s1 =>
      vecOf e (fun i => (activeOf s1 c m e n (argV vs 0))[i]?.getD 0)) ∧
    Writes (.vexpand d a t m) s c g1 (fun vs s1 => masked s1 c d m e (fun i =>
      laneOf e (argV vs 0) ((List.range i).filter (active s1 c m)).length))

/-- R275, R276: the reductions and scans complete, over the active lanes in lane order. -/
def Obligations.ReductionAndScanResults : Prop :=
  ∀ (d : Fin 16) (a : Fin 32) (t m : Fin 8) (s : State) (c : Nat),
    let e := 8 * 2 ^ t.val
    let n := 64 / 2 ^ t.val
    let g : Sig := { srcs := [(.v, a)], also := maskReg m, dst := some (.k, d), lat := 6, cls := 2 }
    let gv : Sig := { g with dst := some (.v, d) }
    let least : Int := -(2 ^ (e - 1) : Nat)
    let greatest : Int := (2 ^ (e - 1) : Nat) - 1
    let reduces := fun (i : Instr) (g : Sig) (f : List (BitVec e) → Word) =>
      Writes i s c g (fun vs s1 => scalar (f (activeOf s1 c m e n (argV vs 0))))
    let scans := fun (i : Instr) (f : List (BitVec e) → BitVec e) =>
      Writes i s c gv (fun vs s1 => masked s1 c d m e (fun i => f (activeOf s1 c m e (i + 1) (argV vs 0))))
    (t.val < 4 →
      reduces (.vradd d a t m) { g with use := { rm := true } } (fun l => BitVec.ofInt 64 ((l.map BitVec.toInt).foldl (· + ·) 0)) ∧
      reduces (.vrmin d a t m) g (fun l => BitVec.ofInt 64 ((l.map BitVec.toInt).foldl min greatest)) ∧
      reduces (.vrmax d a t m) g (fun l => BitVec.ofInt 64 ((l.map BitVec.toInt).foldl max least)) ∧
      reduces (.vrminz d a t m) g (fun l => BitVec.ofNat 64 ((l.map BitVec.toNat).foldl min (2 ^ e - 1))) ∧
      reduces (.vrmaxz d a t m) g (fun l => BitVec.ofNat 64 ((l.map BitVec.toNat).foldl max 0)) ∧
      reduces (.vrand d a t m) g (fun l => (l.foldl (· &&& ·) (BitVec.allOnes e)).setWidth 64) ∧
      reduces (.vror d a t m) g (fun l => (l.foldl (· ||| ·) 0).setWidth 64) ∧
      reduces (.vrxor d a t m) g (fun l => (l.foldl (· ^^^ ·) 0).setWidth 64) ∧
      scans (.vscanAdd d a t m) (fun l => l.foldl (· + ·) 0) ∧
      scans (.vscanXor d a t m) (fun l => l.foldl (· ^^^ ·) 0) ∧
      scans (.vscanMax d a t m) (fun l => BitVec.ofInt e ((l.map BitVec.toInt).foldl max least))) ∧
    (2 ≤ t.val → t.val ≤ 4 → Writes (.vrfadd d a t m) s c { g with use := { rm := true } } (fun vs s1 =>
      let fm := fmtFormat t
      let rm := rmWith (s1.core c).hints .rne
      scalar (BitVec.ofNat 64 (match activeOf s1 c m fm.width (512 / fm.width) (argV vs 0) with
        | [] => 0
        | x :: xs => xs.foldl (fun acc y => fm.round rm false (Fp.add rm (fm.unpack acc) (fm.unpack y.toNat))) x.toNat))))

/-- R277: the moves between the vector, scalar and mask files complete. -/
def Obligations.VectorMoveResults : Prop :=
  ∀ (d : Fin 16) (a b : Fin 32) (t m : Fin 8) (s : State) (c : Nat), t.val < 4 →
    let e := 8 * 2 ^ t.val
    let n := 64 / 2 ^ t.val
    Writes (.vsplat d a t m) s c { srcs := [(.k, a)], also := maskReg m, dst := some (.v, d), lat := 2, cls := 2 }
      (fun vs s1 => masked s1 c d m e (fun _ => (arg vs 0).setWidth e)) ∧
    Writes (.vext d a b t) s c { srcs := [(.v, a), (.k, b)], dst := some (.k, d), lat := 2, cls := 2 }
      (fun vs _ => scalar (if (arg vs 1).toNat < n then (laneOf e (argV vs 0) (arg vs 1).toNat).setWidth 64 else 0)) ∧
    Writes (.vins d a b t) s c { srcs := [(.k, a), (.k, b)], also := [(.v, d.val)], dst := some (.v, d), lat := 2, cls := 2 }
      (fun vs s1 => vecOf e (fun i => if i = (arg vs 1).toNat then (arg vs 0).setWidth e
        else laneOf e ((s1.core c).read .v d) i)) ∧
    Writes (.vidx d t m) s c { also := maskReg m, dst := some (.v, d), lat := 2, cls := 2 }
      (fun _ s1 => masked s1 c d m e (fun i => BitVec.ofNat e i)) ∧
    (a.val < 8 → Writes (.vbits d a t) s c { srcs := [(.m, a)], dst := some (.k, d), lat := 2, cls := 2 }
      (fun vs _ => scalar (BitVec.ofNat 64 ((argV vs 0).toNat % 2 ^ n)))) ∧
    (d.val < 8 → Writes (.vmsk d a t) s c { srcs := [(.k, a)], dst := some (.m, d), lat := 2, cls := 2 }
      (fun vs _ => bitsOf n (fun i => (arg vs 0).getLsbD i)))

/-- R189, R298: a pop of an address-generated stream gives its oldest fetched element and goes on to the next, a pop of a stream that the
loader fills takes what the loader placed, and waits while there is nothing; a pop beyond the last, or after the loader has ended the
stream, gives 0 and notes END. A push to an address-generated stream stores the element at its address, one to a stream that the storer
empties enters its FIFO, and waits while that is full; a push beyond the last is dropped and notes OVER. -/
def Obligations.StreamPopsAndPushes : Prop :=
  ∀ (s : State) (c i : Nat), i < 8 →
    let x := (s.core c).strm i
    let pops := ∀ v rest, x.pos < x.total → x.fifo = v :: rest → ∃ t, popStream s c i = .ok (v, t) ∧ SameBytes s t ∧
      (t.core c).strm i = { x with fifo := rest, pos := x.pos + 1 } ∧ (t.core c).regs = (s.core c).regs ∧
      ∀ j, j < 8 → j ≠ i → (t.core c).strm j = (s.core c).strm j
    let past := ∃ t, popStream s c i = .ok (0, t) ∧ OnlyCore s t c ∧ (t.core c).strm i = { x with endB := true }
    let dropped := ∀ v, ∃ t, pushStream s c i v = .ok t ∧ OnlyCore s t c ∧ (t.core c).strm i = { x with overB := true }
    let stored := fun (v : Vec) => v.toNat % 2 ^ (8 * x.ew)
    (x.mode = mAgen →
      pops ∧ (x.total ≤ x.pos → past ∧ dropped) ∧
      (x.pos < x.total → ∀ v t,
        storeData s { taskAccess s c .write (x.addr x.pos) x.ew 1 with cp := x.cp } (stored v) (decide (x.ew ≤ 8)) false = .ok t →
          pushStream s c i v = .ok (t.modStrm c i (fun y => { y with pos := y.pos + 1 })))) ∧
    (x.mode = mLoader → streamFault s c x.mode = .ok () →
      let coming := ∃ r ∈ (s.core c).loader.reads, r.fifo = i
      pops ∧ (x.total ≤ x.pos ∨ (x.fifo = [] ∧ x.endMark = true ∧ ¬ coming) → past) ∧
      (x.pos < x.total → x.fifo = [] → x.endMark = false ∨ coming → popStream s c i = .error (.stall []))) ∧
    (x.mode = mStorer → streamFault s c x.mode = .ok () →
      (x.total ≤ x.pos ∨ x.endMark = true → dropped) ∧
      (x.pos < x.total → x.endMark = false → ∀ v,
        (8 ≤ x.fifo.length → pushStream s c i v = .error (.stall [])) ∧
        (x.fifo.length < 8 → ∀ t, settleTask s c 0 = .ok t → pushStream s c i v = .ok (t.modStrm c i (fun y => { y with
          fifo := y.fifo ++ [BitVec.ofNat 512 (stored v)], pos := y.pos + 1 })))))

/-- R296, R297, R300, R301, R305: streams are bound, read and unbound, and a job card is submitted. -/
def Obligations.StreamsAndCardsComplete : Prop :=
  ∀ (d : Fin 16) (a b : Fin 32) (i : Fin 8) (s : State) (c : Nat),
    (∀ vs s1 v s2 s3 s4, Issues s c { srcs := [(.k, b)], cls := 4, alone := true } vs s1 →
      loadStruct s1 c (arg vs 0).toNat 32 32 = .ok (v, s2) → streamLegal (s1.core c) i v = true →
      (4 ≤ i.val → 2 ≤ tyVreg (s1.core c).task.entry) → streamFault s2 c (bits v 224 2) = .ok () →
      unbindStream s2 c i = .ok s3 → settleTask s3 c 0 = .ok s4 → ∃ t, exec (.sbind i b) s = .next t ∧ SameBytes s4 t ∧
        (t.core c).strm i = { Strm.reset with bound := true, desc := BitVec.ofNat 256 v } ∧
        (bits v 224 2 = mAgen → bit v 226 = false → .streamFetch (coreId c) i ∈ t.todo)) ∧
    Effects (.sunbind i) s c { cls := 4, alone := true } (fun _ s1 => unbindStream s1 c i) ∧
    WritesLater (.sstat d i) s c { dst := some (.k, d), cls := 4, alone := true } (fun _ s1 =>
      let x := (s1.core c).strm i
      let b := fun (p : Bool) (n : Nat) => if p then 2 ^ n else 0
      scalar (if x.bound then BitVec.ofNat 64 (x.pos % 2 ^ 32 + x.fifo.length % 32 * 2 ^ 32 + b x.overB 42 + b x.endB 43 +
        2 ^ 44 + b x.writes 45 + x.mode % 4 * 2 ^ 46) else 0)) ∧
    (∀ vs s1 v s2 s3 s4, Issues s c { srcs := [(.k, a)], cls := 4 } vs s1 →
      loadStruct s1 c (arg vs 0).toNat 64 64 = .ok (v, s2) → cardCheck s2 c (cardOf v) = none → settleTask s2 c 0 = .ok s3 →
      submitCard s3 c (cardOf v) = some s4 → exec (.ejob a) s = .next (finished s c (commit s4 c)))

/-- R70, R77, R78, R91, R327, R330, R331: the tile instructions complete. What `tcfg` leaves: an unpaged tile is READY and clean, a
READY paged tile that keeps its home and its backing stays READY, any other paged tile is EMPTY and clean; KEEP is clear. -/
def Obligations.TileInstructionsComplete : Prop :=
  (∀ (n : Fin 64) (a b : Fin 32) (s : State) (c : Nat),
      let g : Sig := { tiles := [n.val], cls := 4 }
      let g2 : Sig := { g with srcs := [(.k, a), (.k, b)] }
      (∀ vs s1, Issues s c g2 vs s1 →
        let t := s1.tile c n
        isTwin s1 c n = false → t.fault = none → t.refs = 0 → t.state ≠ stFilling → t.state ≠ stDraining → t.logCnt = 0 →
        shapeWrong (s1.core c).task.region (arg vs 0) (arg vs 1) = false →
        (t.conf = true → t.paged = true → t.state = stReady → t.dirty = true →
          (t.configured (arg vs 0) (arg vs 1)).paged = false ∨ (t.configured (arg vs 0) (arg vs 1)).state = stReady) →
        exec (.tcfg n a b) s = .next (finished s c (s1.modTile c n (fun t => t.configured (arg vs 0) (arg vs 1))))) ∧
      Effects (.tld n a b) s c g2 (fun vs s1 => do
        needTile s1 c n
        writeWaits s1 c n
        copyTile s1 c n true (arg vs 0) (arg vs 1)) ∧
      Effects (.tst n a b) s c g2 (fun vs s1 => do
        needTile s1 c n
        storeWaits s1 c n
        copyTile s1 c n false (arg vs 0) (arg vs 1)) ∧
      Effects (.tfetch n) s c g (fun _ s1 => fetchTile s1 c n) ∧
      Effects (.tevict n) s c g (fun _ s1 => evictTile s1 c n) ∧
      (∀ vs s1 s2 s3, Issues s c g vs s1 → (needTile s1 c n : Res Unit) = .ok () → (s1.tile c n).refs = 0 →
        let t := s1.tile c n
        orderBefore s1 c [slotPiece c t localLoc 0 t.size] = .ok s2 →
        homeWrite s2 (homeAccess s1 c t.size .write) (tileLoc c t) t.size 0 = .ok s3 →
        exec (.tzero n) s = .next (finished s c (markDirty s3 c n))) ∧
      (∀ i on vs s1, (i = .tpin n ∧ on = true) ∨ (i = .tunpin n ∧ on = false) → Issues s c g vs s1 →
        (s1.tile c n).conf = true → exec i s = .next (finished s c (s1.modTile c n (fun t => { t with pinned := on })))) ∧
      (∀ sel : Fin 32, sel.val < 3 → WritesLater (.tstat n sel) s c { g with dst := some (.k, 0) } (fun _ s1 =>
        let t := s1.tile c n
        scalar (if sel.val = 0 then t.stat else if sel.val = 1 then t.cfg else t.back)))) ∧
  (∀ (t : Tile) (cfg back : Word),
      let u := t.configured cfg back
      u.conf = true ∧ u.cfg = cfg ∧ u.back = back ∧ u.keep = false ∧
      (u.paged = false → u.state = stReady ∧ u.dirty = false) ∧
      (u.paged = true → t.conf = true → t.paged = true → t.state = stReady → t.home = u.home → t.place = u.place → t.back = back →
        u.state = stReady ∧ u.dirty = t.dirty) ∧
      (u.paged = true → t.conf = false ∨ t.paged = false ∨ t.state ≠ stReady ∨ t.home ≠ u.home ∨ t.place ≠ u.place ∨
        t.back ≠ back → u.state = stEmpty ∧ u.dirty = false))

/-- R137, R315 to R326: the matrix instructions pass their checks, wait for what a release waits for, and enter the queue with
their tiles and operand; `mmeta` stages codes, and `mfence` completes once no command of the core is queued. A command that runs leaves
what the rules give: a latch its tile with its codes, a multiplication in each element of the accumulator the products of its class added
in order and rounded, or, of integers, added whole and wrapped or clamped, a scaled one the rounded sums of the blocks times their scales,
`mst` the converted elements in its tile and in no other byte, `mld` its tile's elements in the accumulator. -/
def Obligations.MatrixInstructionsComplete : Prop :=
  (∀ (t u : Fin 16) (a sel : Fin 32) (clr : Fin 2) (s : State) (c : Nat),
    let g : Sig := { cls := 5, alone := true }
    let enters := fun (i : Instr) (g : Sig) (req : List Vec → MxReq) => ∀ vs s1 codes s2, Issues s c g vs s1 →
      mxChecks s1 c (req vs) = .ok codes → settleTask s1 c 0 = .ok s2 → ∀ s3, mxEnter s2 c (req vs) codes = .ok s3 →
      exec i s = .next (finished s c s3)
    let cmd := fun (sub td ta tb flags : Nat) (arg : Word) =>
      ({ sub := sub, td := td, ta := ta, tb := tb, flags := flags, arg := arg } : MxReq)
    enters (.mwld u) { g with tiles := [u.val] } (fun _ => cmd 0 0 0 u 0 0) ∧
    enters (.mwldSp u) { g with tiles := [u.val] } (fun _ => cmd 1 0 0 u 0 0) ∧
    enters (.mmul t clr) { g with tiles := [t.val] } (fun _ => cmd 3 0 t 0 clr 0) ∧
    enters (.mmulSc t u a clr) { g with tiles := [t.val, u.val], srcs := [(.k, a)] } (fun vs => cmd 4 0 t u clr (arg vs 0)) ∧
    enters (.mwsc a) { g with srcs := [(.k, a)] } (fun vs => cmd 5 0 0 0 0 (arg vs 0)) ∧
    enters (.mst t) { g with tiles := [t.val] } (fun _ => cmd 6 t 0 0 0 0) ∧
    enters (.mld t) { g with tiles := [t.val] } (fun _ => cmd 7 0 t 0 0 0) ∧
    (∀ vs s1, Issues s c { g with srcs := [(.v, a)] } vs s1 → sparsePending s1 c = false →
      exec (.mmeta sel a) s = .next (finished s c (s1.modMx c (fun x => stageCodes x sel.val (argV vs 0).toNat)))) ∧
    (∀ vs s1, Issues s c g vs s1 → (s1.core c).mx.queue = [] → exec .mfence s = .next (finished s c s1))) ∧
  ∀ (s : State) (c : Nat) (cmd : MxCmd), s.errors = [] → s.poison = [] →
    (∀ o, (s.core o).spad.ret = 0 ∧ (s.core o).spad.retiring = []) → (s.core c).task.gang = 0 →
    let x := (s.core c).mx
    let l := x.latch
    let t := s.tile c cmd.ta
    let u := s.tile c cmd.tb
    let d := s.tile c cmd.td
    let acc := fun (z : State) (m n : Nat) => Table.getD (z.core c).mx.acc (m * 64 + n) 0
    let bytes := fun (y : Tile) => s.read (tileLoc c y) y.size
    let cut := fun (v i e : Nat) => v / 2 ^ (i * e * 8) % 2 ^ (e * 8)
    let elem := fun (y : Tile) (m n : Nat) => cut (bytes y) (m * y.cols + n) (elemSize y.fmt)
    let weight := fun (n j : Nat) => cut l.weights (n * l.k + j) (elemSize l.fmt)
    let rne := fun (y : Fp) => fp32.round .rne false y
    let add := fun (a : Nat) (y : Fp) => rne (Fp.add .rne (fp32.unpack a) y)
    let plus0 := fun (a : Nat) => if a = 0x80000000 then 0 else a
    let prod := fun (m n k j : Nat) =>
      if k < t.cols then Fp.mul ((fmtFormat t.fmt).unpack (elem t m k)) ((fmtFormat l.fmt).unpack (weight n j)) else .zero false
    let code := fun (n g : Nat) => l.codes[n * (l.k / 2) + g]?.getD 0
    let low := fun (n g : Nat) => 4 * g + code n g % 4
    let high := fun (n g : Nat) => 4 * g + code n g / 4 % 4
    let start := fun (m n : Nat) => if cmd.flags % 2 = 1 then 0 else (acc s m n).toNat
    let floats := fun (m n : Nat) =>
      if l.fmt = 2 ∨ l.fmt = 3 then (List.range t.cols).foldl (fun a k => add a (prod m n k k)) (start m n)
      else if l.sparse then (List.range ((t.cols + 3) / 4)).foldl (fun a g =>
        add a (Fp.add .rne (prod m n (low n g) (2 * g)) (prod m n (high n g) (2 * g + 1)))) (start m n)
      else (List.range ((t.cols + 1) / 2)).foldl (fun a j =>
        add a (Fp.add .rne (prod m n (2 * j) (2 * j)) (prod m n (2 * j + 1) (2 * j + 1)))) (start m n)
    let present := fun (n b : Nat) =>
      (if l.sparse then (List.range ((t.cols + 3) / 4)).flatMap (fun g => [(low n g, 2 * g), (high n g, 2 * g + 1)])
        else (List.range t.cols).map (fun k => (k, k))).filter (fun e => e.1 < t.cols ∧ e.1 / 128 = b)
    let scales := fun (m n : Nat) => (List.range ((t.cols + 127) / 128)).foldl (fun a b =>
      let p := rne ((present n b).foldl (fun y e => Fp.add .rne y (prod m n e.1 e.2)) (.zero false))
      let by_ := rne (Fp.mul (fp32.unpack (elem u m (cmd.arg.toNat % 2 ^ 32 + b)))
        (fp32.unpack (if b = 0 then x.sb0.toNat else x.sb1.toNat)))
      add a (fp32.unpack (rne (Fp.mul (fp32.unpack p) (fp32.unpack by_))))) (start m n)
    let int := fun (fmt v : Nat) => if fmt = 5 then (BitVec.ofNat 8 v).toInt else (v : Int)
    let exact := fun (m n : Nat) => (BitVec.ofNat 32 (start m n)).toInt +
      (List.range t.cols).foldl (fun (a : Int) k => a + int t.fmt (elem t m k) * int l.fmt (weight n k)) 0
    let ints := l.fmt = 5 ∨ l.fmt = 6
    let satm := cmd.mode % 2 = 1
    let stored := fun (a : BitVec 32) => match d.fmt with
      | 0 => e4m3.round .rne (cmd.mode.testBit 1) (fp32.unpack a.toNat)
      | 1 => if a.toNat % 2 ^ 31 = 0x7F800000 then a.toNat / 2 ^ 31 * 0x80 + 0x7C
        else e5m2.round .rne (cmd.mode.testBit 1) (fp32.unpack a.toNat)
      | 2 => fp16.round .rne false (fp32.unpack a.toNat)
      | 3 => bf16.round .rne false (fp32.unpack a.toNat)
      | 5 => (clampS 8 a.toInt).toNat
      | 6 => (clampU 8 a.toInt).toNat
      | _ => a.toNat
    let loaded := fun (v : Nat) => match t.fmt with
      | 5 => (BitVec.ofNat 8 v).signExtend 32
      | 6 => (BitVec.ofNat 8 v).zeroExtend 32
      | 7 | 8 => BitVec.ofNat 32 v
      | _ => BitVec.ofNat 32 (plus0 (rne ((fmtFormat t.fmt).unpack v)))
    (cmd.sub ≤ 1 → ∃ z, runCmd s c cmd = .ok z ∧ (z.core c).mx.latch =
      { fmt := u.fmt, n := u.rows, k := u.cols, sparse := decide (cmd.sub = 1), weights := bytes u, codes := cmd.codes }) ∧
    (cmd.sub = 5 → ∃ z, runCmd s c cmd = .ok z ∧ (z.core c).mx =
      { x with sb0 := cmd.arg.setWidth 32, sb1 := (cmd.arg >>> 32).setWidth 32 }) ∧
    (cmd.sub = 3 ∨ cmd.sub = 4 → l.n ≤ 64 → ∃ z, runCmd s c cmd = .ok z ∧
      (∀ m n, m < t.rows → n < l.n → acc z m n =
        if ints then (if satm then clampS 32 (exact m n) else BitVec.ofInt 32 (exact m n))
        else BitVec.ofNat 32 (plus0 (if cmd.sub = 4 then scales m n else floats m n))) ∧
      (∀ m n, n < 64 → ¬ (m < t.rows ∧ n < l.n) → acc z m n = acc s m n) ∧
      ((z.core c).mx.satStat = true ↔ x.satStat = true ∨
        (ints ∧ satm ∧ ∃ m n, m < t.rows ∧ n < l.n ∧ (exact m n < -2 ^ 31 ∨ 2 ^ 31 - 1 < exact m n)))) ∧
    (cmd.sub = 6 → d.rows ≤ 64 → d.cols ≤ 64 → ∃ z, runCmd s c cmd = .ok z ∧ (z.tile c cmd.td).dirty = (d.dirty || d.paged) ∧
      (∀ m n, m < d.rows → n < d.cols →
        z.read (tileLoc c d + (m * d.cols + n) * elemSize d.fmt) (elemSize d.fmt) = stored (acc s m n)) ∧
      ∀ y, y < 2 ^ 66 → ¬ (tileLoc c d ≤ y ∧ y < tileLoc c d + d.size) → z.read y 1 = s.read y 1) ∧
    (cmd.sub = 7 → t.rows ≤ 64 → t.cols ≤ 64 → ∃ z, runCmd s c cmd = .ok z ∧
      (∀ m n, m < t.rows → n < t.cols → acc z m n = loaded (elem t m n)) ∧
      ∀ m n, n < 64 → ¬ (m < t.rows ∧ n < t.cols) → acc z m n = acc s m n)

/-- R333 to R335: a contribution or a flush to an armed slot of the task's job joins the input queue where it has room, and
`carm` arms a slot or disarms it. -/
def Obligations.CoalescerInstructionsComplete : Prop :=
  ∀ (a b : Fin 32) (i : Fin 8) (s : State) (c : Nat),
    let q := squareOf c
    let joins := fun (s1 : State) (e : CoEntry) =>
      commit ((s1.modSquare q (fun k => { k with coq := k.coq ++ [e] })).dueOnce (.coApply (squareId q))) c
    (∀ vs s1, Issues s c { srcs := [(.k, a), (.k, b)], cls := 5 } vs s1 →
      let x := s1.slot q i
      let t := s1.tile x.owner x.ta
      let row := (arg vs 1).toNat % 2 ^ 16
      let col := (arg vs 1).toNat / 2 ^ 16 % 2 ^ 16
      x.armed = true → x.job = (s1.core c).task.job → row < t.rows → col < t.cols → queuedEntries (s1.square q).coq < 8 →
      exec (.cpush a b i) s = .next (finished s c (joins s1 (.push i (arg vs 0) row col (coreId c) s1.cyc)))) ∧
    (∀ vs s1, Issues s c { cls := 5 } vs s1 → (s1.slot q i).armed = true → (s1.slot q i).job = (s1.core c).task.job →
      queuedEntries (s1.square q).coq < 8 → exec (.cflush i) s = .next (finished s c (joins s1 (.flush i s1.cyc)))) ∧
    (∀ vs s1, Issues s c { srcs := [(.k, a), (.k, b)], cls := 5 } vs s1 →
      (arg vs 0 = 0 → ownedByOther (s1.slot q i) c = false → exec (.carm a b i) s = .next (finished s c
        (commit (if (s1.slot q i).armed then disarm s1 q i else s1) c))) ∧
      (∀ s2, arg vs 0 ≠ 0 → armSlot s1 c i (arg vs 0).toNat (arg vs 1).toNat = .ok s2 →
        exec (.carm a b i) s = .next (finished s c s2)))

/-- R355 to R359: the event instructions complete: the oldest ready event is popped, its payload and the queue's status are read,
an event is sent to a core of the job's squares, and a window is closed or set. -/
def Obligations.EventInstructionsComplete : Prop :=
  ∀ (d : Fin 16) (a b : Fin 32) (now : Fin 2) (s : State) (c : Nat),
    let g : Sig := { dst := some (.k, d), cls := 6 }
    let g2 : Sig := { srcs := [(.k, a), (.k, b)], cls := 6 }
    Effects (.evpop d) s c g (fun _ s1 => putKLater (popEvent (commit s1 c) c).2 c d (popEvent (commit s1 c) c).1) ∧
    WritesLater (.evpay d) s c g (fun _ s1 => scalar ((s1.core c).ev.evh >>> 64 |>.setWidth 64)) ∧
    WritesLater (.evstat d) s c g (fun _ s1 => scalar (s1.core c).ev.stat) ∧
    (∀ vs s1, Issues s c g2 vs s1 →
      let route := (arg vs 0).toNat
      let dest := route % 256
      let slot := route / 256 % 8
      let src := route / 2 ^ 16 % 256
      let time := if now.val = 1 then s1.time % 2 ^ 48 else (s1.core c).ev.evh.toNat % 2 ^ 48
      arg vs 0 &&& 0xFFFFFFFF7F00F800 = 0 → 128 ≤ src → holdsSquare s1 (s1.core c).task.job (squareOf dest) = true →
      orderWait s1 c [] = .ok () →
      exec (.evsend a b now) s = .next (finished s c (sendEvent (commit s1 c) c dest slot
        (hdrOf (if flag (arg vs 0) 31 then kBuoy else kLayer) src time) (if flag (arg vs 0) 31 then 0 else arg vs 1)))) ∧
    (∀ i vs s1, i = .evwinClose a b ∨ i = .evwinOrigin a b ∨ i = .evwinSlots a b → Issues s c g2 vs s1 →
      (arg vs 0 = 0 → arg vs 1 = 0 → exec i s = .next (finished s c (closeNow s1 c))) ∧
      (arg vs 0 = 1 → exec i s = .next (finished s c (rebase (s1.modEv c (fun q => { q with org := arg vs 1 })) c))) ∧
      (arg vs 0 = 2 → (arg vs 1).toNat < 256 → exec i s = .next (finished s c (enableSlots s1 c (arg vs 1).toNat))))

/-- R363 to R366: records are spawned and counted down, and the hardware queues take and give entries. That a spawned record counts as
received at its half at once is read from the rules by inference (DEDUCED; log entry 58). -/
def Obligations.TaskAndQueueInstructionsComplete : Prop :=
  ∀ (d : Fin 16) (a b : Fin 32) (s : State) (c : Nat),
    let g : Sig := { srcs := [(.k, a)], cls := 6 }
    (∀ vs s1 v s2 s3, Issues s c g vs s1 →
      let ka := (arg vs 0).toNat
      let n := if ka % 2 = 1 then 64 else 16
      needPaged (ka - ka % 2) n = .ok () → loadStruct s1 c (ka - ka % 2) n n = .ok (v, s2) → recordLegal ka v = true →
      settleTask s2 c 0 = .ok s3 → exec (.spawn a) s = .next (finished s c
        (halfReceives (spawnAt (sentAt (commit s3 c) c) c (s1.core c).task.job ka v) (dieOf c) (s1.core c).task.job))) ∧
    (∀ vs s1 x y s2 s3, Issues s c g vs s1 →
      let ka := (arg vs 0).toNat
      needPaged (recordBase ka) (recordBytes ka) = .ok () → checkAccess s1 (depAccess s1 c ka) = .ok (x, y, s2) →
      settleTask s2 c 0 = .ok s3 → ∀ s4, decRecord (revoked (commit s3 c) none (locOf y) 8) c (s1.core c).task.job ka = .ok s4 →
      exec (.dec a) s = .next (finished s c s4)) ∧
    Effects (.qpush d a b) s c { srcs := [(.k, a), (.v, b)], dst := some (.k, d), cls := 6 } (fun vs s1 => do
      let (r, s2) ← pushEntry s1 c (arg vs 0).toNat (argV vs 1).toNat
      putKLater s2 c d (BitVec.ofNat 64 r)) ∧
    Effects (.qpop d a) s c { g with dst := some (.v, d) } (fun vs s1 => do
      let (v, s2) ← popEntry s1 c (arg vs 0).toNat
      putVariable s2 c .v d (BitVec.ofNat 512 v))

/-- R200 to R205: hints complete. Each leaves what it sends for the instruction after it, the address of the first of them with it;
kinds 4 to 15 leave nothing. -/
def Obligations.HintsComplete : Prop :=
  ∀ (x7 x6 x5 x4 x3 x2 x1 : Fin 8) (k : Fin 16) (p : Fin 2097152) (s : State) (c : Nat), Alone s c →
    let h := (s.core c).pipe.hints
    let h1 : Hints := { h with va := some (h.va.getD (s.core c).pipe.pc) }
    let st := (s.core c).pipe.stalls
    let leaves := fun (i : Instr) (h : Hints) (st : List Nat) => ∃ t, exec i s = .next t ∧ OnlyCore s t c ∧
      t.core c = { s.core c with pipe := { (s.core c).pipe with hints := h, stalls := st, pc := (s.core c).pipe.pc + 4 } }
    leaves (.hntStall x7 x6 x5 x4 x3 x2 x1) h1 [x1, x2, x3, x4, x5, x6, x7] ∧
    leaves (.hntImm p) { h1 with imms := h.imms ++ [p.val] } st ∧
    leaves (.hntMod p) { h1 with mod := some p } st ∧
    leaves (.hntBr p) { h1 with br := some p } st ∧
    leaves (.hntNop k p) h st

/-- R372 to R380: the helpers' instructions complete: RV32IM with x0 reading as zero, the fence, the breakpoint as a fault of the
helper, and the custom instructions on the streams of the helper's own mode. The results of RV32IM, a division by zero and an overflow
among them, are the ISA's, which the spec names and does not spell out (PRESUMED; log entry 79); which instructions wait for a read of
the loader that has not returned, and the places of a FIFO that such a read holds, are read by inference (DEDUCED; log entry 66). -/
def Obligations.HelperInstructionsComplete : Prop :=
  ∀ (n : Fin 8) (b : Fin 4) (e : Fin 2) (r d q : Fin 32) (off : BitVec 32) (s : State) (c : Nat) (storer : Bool),
    HelperRuns s c storer →
    let k := s.core c
    let h := helperOf k storer
    let x := k.strm n
    let get := fun (i : Fin 32) => if i.val = 0 then (0 : BitVec 32) else (h.x[i]?).getD 0
    let puts := fun (s1 : State) (i : Fin 32) (v : BitVec 32) => if i.val = 0 then s1.modHelper c storer id
      else s1.modHelper c storer (fun h => { h with x := h.x.setIfInBounds i v })
    let goes := fun (i : Instr) (s1 : State) (pc : BitVec 32) => exec i s = .next (helperDone s1 c storer pc)
    let does := fun (i : Instr) (s1 : State) => goes i s1 (h.pc + 4)
    let bound := x.bound = true ∧ x.mode = (if storer then mStorer else mLoader)
    let done := (x.total ≤ x.pos ∨ x.endMark = true) ∧ (storer = true → x.fifo = [])
    let at_ := ((h.hb[b]?).getD 0 + (get r).setWidth 64).toNat
    (∀ z : Bool,
      let next := h.pc + (if z then 2 else 4)
      (∀ f, goes (.helperRv32Instr z (.alu f d r q))
          (puts s d (rvResult f (get r) (get q))) next ∧
        goes (.helperRv32Instr z (.aluImm f d r off)) (puts s d (rvResult f (get r) off)) next) ∧
      goes (.helperRv32Instr z (.lui d off)) (puts s d off) next ∧
      goes (.helperRv32Instr z (.auipc d off)) (puts s d (h.pc + off)) next ∧
      goes (.helperRv32Instr z (.jal d off)) (puts s d next) (h.pc + off) ∧
      goes (.helperRv32Instr z (.jalr d r off)) (puts s d next) ((get r + off) &&& 0xFFFFFFFE) ∧
      (∀ f, goes (.helperRv32Instr z (.branch f r d off)) s (if rvGoes f (get r) (get d) then h.pc + off else next)) ∧
      (∀ f s1, dataCheck s c storer (get r + off).toNat (rvLoadLen f) false = .ok s1 →
        goes (.helperRv32Instr z (.load f d r off))
          (puts s1 d (rvExtended f (s1.read (dataLoc c storer + (get r + off).toNat) (rvLoadLen f)))) next) ∧
      (∀ f s1, dataCheck s c storer (get r + off).toNat (rvStoreLen f) true = .ok s1 →
        goes (.helperRv32Instr z (.store f r d off))
          (s1.write (dataLoc c storer + (get r + off).toNat) (rvStoreLen f) (get d).toNat) next) ∧
      (∃ t f, exec (.helperEbreak z) s = .next t ∧ OnlyCore s t c ∧ (helperOf (t.core c) storer).running = false ∧
        (helperOf (t.core c) storer).fault = some f ∧ f.cause = cBrk ∧ f.skip = true)) ∧
    (∃ t f, exec .illegalOpEncoding s = .next t ∧ OnlyCore s t c ∧ (helperOf (t.core c) storer).running = false ∧
      (helperOf (t.core c) storer).fault = some f ∧ f.cause = cIllegalOp) ∧
    (storer = true ∨ (∀ y ∈ k.loader.reads, y.value.isSome) →
      ((storer = true → ∀ e ∈ k.mx.window, e.2 ≠ .storer) → does .helperFence s) ∧
      (∀ v s1, helperLoad s (helperAccess s c storer .read at_ 4) = .ok (v, s1) →
        does (.ylLdReg b r d) (puts s1 d (BitVec.ofNat 32 v))) ∧
      (bound → storer = false → (x.parts = 0 → placesTaken k n < 8) →
        let v := (get r).toNat
        let part := if x.ew < 4 then v % 2 ^ (8 * x.ew) else x.part.toNat + v * 2 ^ (32 * x.parts)
        (4 * (x.parts + 1) < x.ew → does (.ylPush n r)
          (s.modStrm c n (fun x => { x with part := BitVec.ofNat 512 part, parts := x.parts + 1 }))) ∧
        (x.ew ≤ 4 * (x.parts + 1) → does (.ylPush n r)
          ((s.modStrm c n (fun x => { x with
            fifo := x.fifo ++ BitVec.ofNat 512 part :: (k.loader.reads.filter (·.fifo = n.val)).filterMap (·.value)
            part := 0
            parts := 0 })).modHelper c false (fun h => { h with reads := k.loader.reads.filter (¬ ·.fifo = n.val) }))))) ∧
    does (.ylBase b d r) (s.modHelper c storer (fun h => { h with hb := h.hb.setIfInBounds b (get d ++ get r) })) ∧
    (bound →
      (storer = false → (k.loader.reads.filter (·.value.isNone)).length < 8 → placesTaken k n < 8 →
        ∀ u v s1, checkAccess s (helperAccess s c false .read at_ x.ew) = .ok (u, v, s1) →
          does (.ylLdFifo n b r) ((s1.modHelper c false (fun h => { h with
            reads := h.reads ++ [{ fifo := n, va := at_, pc := h.pc.toNat, value := none }] })).dueOnce (.loaderReturn (coreId c)))) ∧
      (done ∨ (if storer then x.fifo ≠ [] else placesTaken k n < 8) → ∃ w, does (.ylWait n d) (puts s d w) ∧
        w.toNat % 16 = x.fifo.length % 16 ∧ (x.fifo.length ≤ 8 → w.getLsbD 4 = true ∧ (w.getLsbD 5 = true ↔ done))) ∧
      ((∀ y ∈ k.loader.reads, y.fifo = n.val → y.value.isSome) → ∃ t, exec (.ylEnd e n) s = .next t ∧
        ((t.core c).strm n).endMark = true ∧ (storer = true → ((t.core c).strm n).fifo = []) ∧
        ((helperOf (t.core c) storer).running = false ↔ e.val = 1)) ∧
      (storer = true → ∀ v rest, x.fifo = v :: rest →
        (x.ew ≤ 4 * (x.parts + 1) → does (.ylPop n d) (puts (s.modStrm c n (fun x => { x with fifo := rest, parts := 0 })) d
          (if x.ew < 4 then (v.setWidth (8 * x.ew)).setWidth 32 else (v >>> (32 * x.parts)).setWidth 32))) ∧
        (4 * (x.parts + 1) < x.ew → does (.ylPop n d) (puts (s.modStrm c n (fun x => { x with parts := x.parts + 1 })) d
          ((v >>> (32 * x.parts)).setWidth 32))) ∧
        (∀ s1, storeHelper s (helperAccess s c true .write at_ x.ew) (v.toNat % 2 ^ (8 * x.ew)) = .ok s1 →
          does (.ylSt n b r) (s1.modStrm c n (fun x => { x with fifo := rest, parts := 0 })))) ∧
      (storer = true → x.fifo = [] → done → does (.ylPop n d) (puts s d 0) ∧ does (.ylSt n b r) s))

/-- R49 to R54, R60, R64 to R67, R97, R111, R128, R134, R147, R148, R208, R254, R283, R298, R377, R415 to R418: the steps of the
memories complete, each with its effect. That a step of a square's scrubber comes to a row with an error wherever there is one is
the model's choice (log entry 57), and so is the cycle that a refresh notes (log entry 4). -/
def Obligations.MemoryStepsComplete : Prop :=
  ∀ (c : CoreId) (g : Fin 4) (die : Fin 2) (u : ScrubUnit) (q : SquareId) (bank : Fin 20) (seg : Fin 32) (ch : Fin 24)
    (row : Fin 16) (i : Fin 8) (n gen block : Nat) (hot by_ : Bool) (s : State),
    let k := s.core c
    let ends := fun (i : Instr) (t : State) => exec i s = .next t
    (∀ p, oldestWaiting k.pipe.pend = some p → p.toStream = false → k.task.gang = 0 → ∃ t,
      ends (.resultWriteback c) t ∧ OnlyCore s t c ∧ (t.core c).regs = k.regs.put p.file p.idx p.value ∧
        t.core c = { k with regs := (t.core c).regs, pipe := { k.pipe with pend := k.pipe.pend.filter (·.seq ≠ p.seq) } }) ∧
    (∀ b t, k.sbuf[n]? = some b → mayPerform (k.sbuf.take n) b = true → performPart s c b = .ok t →
      ends (.storePerform c n) (if b.pieces.length ≤ 1 then t else t.due (.storePerform c))) ∧
    (∀ e rest, k.fills = e :: rest → let put := installSector 12 256 k.l1d k.l1dTree e
      ends (.l1dSectorFill c) (s.modCore c (fun k => { k with fills := rest, l1d := put.1, l1dTree := put.2 }))) ∧
    (∀ e h p t, (s.die die).fb.find? (·.index = n) = some e → e.accepted = false → e.delivered = false →
      fbEvent s die e = (h, p) →
      arriveEvent s (field (s.die die).fbRoute 0 8) (field (s.die die).fbRoute 8 3) h p (.faultBuffer die n) = (true, t) →
      ends (.fbEventResend die n) (t.modDie die (fun d => { d with
        fb := d.fb.map (fun x => if x.index = n then { x with accepted := true } else x) }))) ∧
    ends (.faultRetry die n gen) (retryHelpers (retryFault s die n gen)) ∧
    (∀ w, k.tlbWait = some w →
      (tlbSettled s w.mark = false → ends (.tlbinvComplete c) (s.dueOnce (.tlbinvComplete c))) ∧
      (tlbSettled s w.mark = true → ∃ t, ends (.tlbinvComplete c) t ∧ (t.core c).tlbWait = none ∧ SameBytes s t ∧
        ∀ m, ∀ e ∈ (t.core m).atoms, inTargets w.job w.lo w.hi w.all e.job e.va = false)) ∧
    (∀ e, k.spad.parity.find? (·.group = g.val) = some e → e.row < 1024 → ∃ t, ends (.parityLand c g) t ∧
      t.read (parityLoc c g e.row) 16 = s.read (parityLoc c g e.row) 16 ^^^ e.delta.toNat ∧
      (t.core c).spad = { k.spad with parity := k.spad.parity.erase e } ∧
      ∀ a, ¬ (parityLoc c g e.row ≤ a ∧ a < parityLoc c g e.row + 16) → t.read a 1 = s.read a 1) ∧
    (∃ t, ends (.scrubStep c) t ∧ (t.core c).spad.scrub = if k.spad.soff then k.spad.scrub else (k.spad.scrub + 1) % 4096) ∧
    ((∀ e ∈ s.errors, ¬ ((scrubbed u).1 ≤ e.loc ∧ e.loc < (scrubbed u).1 + (scrubbed u).2.1)) → ends (.sqmScrubStep u) s) ∧
    (∃ t, ends (.sqmScrubStep u) t ∧ ∀ e, let at_ := e.loc / 16 * 16
      s.errors.find? (fun e => (scrubbed u).1 ≤ e.loc ∧ e.loc < (scrubbed u).1 + (scrubbed u).2.1) = some e →
        (∀ y ∈ t.errors, ¬ (at_ ≤ y.loc ∧ y.loc < at_ + 16)) ∧ (unitBad s 16 at_ = true → at_ ∈ t.poison)) ∧
    (∃ t, ends .epochEnd t ∧ ∀ m, (t.core m).spad.ce = List.replicate 20 0) ∧
    (∀ x, k.spad.retiring.find? (·.1 = bank.val) = some x → degraded k.spad (if bank.val < 16 then bank / 4 else bank - 16) = false →
      ∃ t, ends (.bankRetire c bank) t ∧ bit (t.core c).spad.ret bank = true ∧
        ∀ y ∈ (t.core c).spad.retiring, y.1 ≠ bank.val) ∧
    (∃ t, ends (.lendClearDone c) t ∧ ∀ m : Fin 4, (t.core c).lend.clearing[m] = false ∧
      (k.lend.clearing[m] = true → (t.core c).lend.lentTo[m] = (neighbour c m).map coreId ∧
        ∀ a, scratchLoc c + m * 0x10000 ≤ a → a < scratchLoc c + (m + 1) * 0x10000 → t.read a 1 = 0)) ∧
    (∃ t, ends (.lendEndClearDone c) t ∧ ∀ m : Fin 4, (t.core c).lend.returning[m] = false ∧
      (k.lend.returning[m] = true →
        ∀ a, scratchLoc c + m * 0x10000 ≤ a → a < scratchLoc c + (m + 1) * 0x10000 → t.read a 1 = 0)) ∧
    ((s.square q).clearing = true → ∃ t, ends (.squareClearDone q) t ∧ (t.square q).clearing = false ∧
      (∀ a, squareLoc q ≤ a → a < squareLoc q + 0x200000 → t.read a 1 = 0) ∧
      ∀ m ∈ squareCores q, ∀ a, scratchLoc m ≤ a → a < scratchLoc m + 0x40000 → t.read a 1 = 0) ∧
    ((s.die die).cspClear.contains seg.val = true → ∃ t, ends (.cspClearDone die seg) t ∧
      (t.die die).cspClear.contains seg.val = false ∧
      ∀ a, chipLoc die + seg * 0x100000 ≤ a → a < chipLoc die + (seg + 1) * 0x100000 → t.read a 1 = 0) ∧
    (∃ t, ends (.dramRefresh die ch row) t ∧ SameBytes s t ∧ Table.get? (t.die die).refresh (ch * 16 + row) = some s.cyc) ∧
    ends (.memTempChange die hot) (s.modDie die (fun d => { d with hot := hot })) ∧
    (∀ r rest, k.trace.buf = r :: rest → ∃ t, ends (.traceRecordWrite c) t ∧
      (t.core c).trace = { k.trace with count := (k.trace.count + 1) % 2 ^ 32, buf := rest }) ∧
    ((s.die die).trq = [] → ends (.trqRetry die) s) ∧
    (∀ r t, (s.die die).trq = [r] → trqPush s r = (true, t) → ends (.trqRetry die) (t.modDie die (fun d => { d with trq := [] }))) ∧
    (∀ o v t, scFirst s.cyc s.scOps = some o → s.scOps = [o] → scPerform { s with scOps := [] } o = .ok (v, t) → t.scOps = [] →
      (t.core o.core).task.gang = 0 →
      ends .beaconWindow (match o.dest with
        | some n => (t.modCore o.core (fun k => k.deliver n (v.zeroExtend 512))).due (.resultWriteback o.core)
        | none => t)) ∧
    (∀ t, grantOwnership s c = .ok t → (t.core c).task.gang = 0 → ends (.ownershipGrant c) t) ∧
    (k.atoms.any (·.loc = block) = true → ∃ t, ends (.revoke c block by_) t ∧ { block := block, core := c } ∈ t.returns ∧
      .revokeReturn block ∈ t.todo ∧ SameBytes s t ∧ ∀ m, ∀ e ∈ (t.core m).atoms, e.loc ≠ block) ∧
    (∃ t, ends (.revokeDataReturn block) t ∧ (∀ r ∈ t.returns, r.block ≠ block) ∧ t = { s with returns := t.returns }) ∧
    (∀ v t, let x := k.strm i
      x.bound = true → x.mode = mAgen → x.writes = false → x.fetched < x.total → x.fifo.length < 8 → x.fault = none →
      k.holdsTask = true → slotOf (x.addr x.fetched) = none →
      loadData s (taskAccess s c .read (x.addr x.fetched) x.ew 1) (some x.cp) = .ok (v, t) →
      ends (.streamFetchReturn c i) ((t.modStrm c i (fun x => { x with
        fifo := x.fifo ++ [BitVec.ofNat 512 v], fetched := x.fetched + 1 })).dueOnce (.streamFetch c i))) ∧
    (∀ r later v t, k.loader.reads = r :: later → r.value = none → k.loader.held = none →
      helperLoad s (helperAccess s c false .read r.va (k.strm r.fifo).ew) = .ok (v, t) → ((t.core c).strm r.fifo).parts = 0 →
      ends (.loaderReadReturn c) (((t.modStrm c r.fifo (fun x => { x with fifo := x.fifo ++ [BitVec.ofNat 512 v] })).modHelper c
        false (fun h => { h with reads := later })).dueOnce (.loaderReturn c)))

/-- R78 to R88, R136, R137, R307, R312 to R316, R335 to R337, R342, R348, R245 to R247, R368: the steps of the tiles, the engines, the
coalescers, the event queues and the waits complete, each with its effect. The model's choices among them: a matrix command computes at
its completion, and one that meets an error ends with its task's trap (log entry 29); the rows of an engine job move in one step (log
entry 30); a close by threshold comes with the contribution that reaches it, and a close of a
window ranks after the events that have arrived (log entries 33, 34). That an event counts as received when it
arrives is read by inference (log entry 58). -/
def Obligations.EngineStepsComplete : Prop :=
  ∀ (c : CoreId) (n : Fin 64) (q : SquareId) (i : Fin 8) (id : Nat) (data : BitVec 512) (by_ : Bool) (header payload : BitVec 64)
    (origin : EventOrigin) (s : State),
    let k := s.core c
    let ends := fun (i : Instr) (t : State) => exec i s = .next t
    let tile := s.tile c n
    let alone := fun (t : State) => (t.core c).task.gang = 0
    (∀ m j, tile.moving = some m → m.landed = false → findJob s c m.job = some j → mayMove s c j = true →
      let s0 := s.modCore c (fun k => { k with jobs := k.jobs.map (fun e => if e.id = j.id then { e with started := true } else e) })
      let row := if m.fill then Instr.tileFillLastBeat c n else .tileDrainDone c n
      ∀ t, (if m.fill then fillBeat s0 c tile m.pos else drainBeat s0 c tile m.pos) = .ok t →
        (m.pos + 64 < tile.size → ends row (mirrored ((t.modTile c n (fun e => { e with
          moving := some { m with pos := m.pos + 64 } })).due (if m.fill then .tileFill c n else .tileDrain c n)) c)) ∧
        (tile.size ≤ m.pos + 64 → (t.tile c n).logCnt = 0 → (t.tile c n).keep = false → alone t → ∃ w, ends row w ∧
          (w.tile c n).state = (if m.fill then stReady else stEmpty) ∧ (w.tile c n).dirty = false ∧ (w.tile c n).ferr = false ∧
          (w.tile c n).moving = none ∧ ∀ j ∈ (w.core c).jobs, j.id ≠ m.job)) ∧
    (tile.moving = none → tile.wanted = false →
      ends (.tileFillLastBeat c n) (mirrored s c) ∧ ends (.tileDrainDone c n) (mirrored s c)) ∧
    (∀ m f, tile.moving = some m → m.landed = false → m.cause ≠ byNone → m.cause ≠ byOverflow → alone s →
      (if m.fill then fillBeat s c tile m.pos else drainBeat s c tile m.pos) = .error (.trap f) →
      ∃ w, ends (.tileTransferFault c n) w ∧ (w.tile c n).moving = none ∧ (w.tile c n).fault = some { f with met := [] } ∧
        (w.tile c n).keep = tile.keep ∧ (w.tile c n).state = if m.fill then stEmpty else stReady) ∧
    (∀ t, runApply s c n = .ok t → ends (.logApplyEntry c n) (mirrored t c)) ∧
    (∀ m t, tile.moving = some m → m.landed = true → logApplyOne s c n = .ok t →
      runApply s c n = .ok (if (t.tile c n).logCnt = 0 then tileDone t c n else t.due (.logApply c n))) ∧
    ((s.square (squareOf c)).copyWin = [] → ∀ j, findJob s c id = some j →
      (j.started = false → mayStart s c j = true → ends (.engineJobStart c id)
        ((setJob s c id (fun j => { j with started := true })).due (.jobComplete c id))) ∧
      (∀ t r x, j.started = true → j.held = none →
        jobUnits c j (cardOf j.card.toNat) ((cardOf j.card.toNat).rows - j.pos) s j.pos = (t, r, none) →
        let t1 := setJob t c id (fun j => { j with pos := r })
        closeJob t1 c { j with pos := r } (cardOf j.card.toNat) = .ok x →
        ends (.engineJobComplete c id) (retryCopyWindow (x.getD t1) (squareOf c))) ∧
      (∀ f, j.started = true → j.held = none → j.pos < (cardOf j.card.toNat).rows →
        jobUnit s c j (cardOf j.card.toNat) j.pos = .error (.trap f) → f.cause ≠ cPageAbsent → f.cause ≠ cPagePerm →
        ends (.engineJobFault c id) (endJob s c j f))) ∧
    (∀ cmd, runningCmd s q = some cmd →
      ((s.square q).mxe.loading = true → (s.square q).mxe.doneAt ≤ s.cyc → ends (.mxeLatchLoadDone q)
        (beginRows ((s.mxeCount q 0x47 1).modMxe q (fun e => { e with owner := some (coreId cmd.1) })) q cmd.1 cmd.2)) ∧
      (isMul cmd.2 = true → (s.square q).mxe.loading = false → (s.square q).mxe.phase = 2 ∨ (s.square q).mxe.phase = 3 →
        (s.square q).mxe.nextRow ≤ s.cyc → (s.square q).mxe.rows + 1 < (s.square q).mxe.rowsTotal → ∃ t, ends (.mxeRowInject q) t ∧
          SameBytes s t ∧ (t.square q).mxe.rows = (s.square q).mxe.rows + 1 ∧
          (t.square q).mxe.nextRow = s.cyc + (s.square q).mxe.cur) ∧
      ((s.square q).mxe.loading = false → (s.square q).mxe.rowsTotal ≤ (s.square q).mxe.rows → (s.square q).mxe.doneAt ≤ s.cyc →
        (∀ t, runCmd s cmd.1 cmd.2 = .ok t → let w := commandGone (commandCharged t cmd.1 cmd.2) q cmd.1 cmd.2
          ends (.mxeCommandComplete q) (mirrorSquare w q) ∧ (w.square q).mxe.running = none ∧ .mxStart q ∈ w.todo) ∧
        (∀ f, runCmd s cmd.1 cmd.2 = .error (.trap f) → let w := commandGone s q cmd.1 cmd.2
          ends (.mxeCommandComplete q) (mirrorSquare (takeTrap w cmd.1 f (fun m => (w.core m).firstUnissued)) q)))) ∧
    ((∀ m ∈ squareCores q, (s.core m).mx.window = [] ∧ (s.core m).task.gang = 0) → (s.square q).mxe.running = none →
      (s.square q).mxe.owner = none → ∀ m cmd, chooseHead s q = some (m, cmd) → isMul cmd = false → ∃ t,
        ends (.mxeCommandStart q) t ∧ (t.square q).mxe.running = some (coreId m) ∧ (t.square q).mxe.owner = some (coreId m) ∧
          .mxDone q ∈ t.todo) ∧
    (k.holdsTask = true →
      (∀ t, storeCommand s c data.toNat by_ = .ok t → ends (.mxeQueueWindowStore c by_ data) (mirrored t c)) ∧
      ends (.copyQueueWindowStore c by_ data) (retryCopyWindow (s.modSquare (squareOf c) (fun k =>
        { k with copyWin := k.copyWin ++ [(data, c, by_)] })) (squareOf c)) ∧
      ends (.windowStaleTimeout c) (closeOne s c)) ∧
    (∀ t, applyHead s q = some t → ∃ w, ends (.coalescerApply q) (mirrorSquare w q) ∧
      w = (if (t.square q).coq = [] then t else t.dueOnce (.coApply q))) ∧
    (∀ at_, (s.slot q i).firstAt = some at_ → (s.slot q i).armed = true → (s.slot q i).tmo ≠ 0 → (s.slot q i).waiting = false →
      at_ + 4 * (s.slot q i).tmo ≤ s.time → ends (.coalescerTimeout q i) (mirrorSquare (closeSlot s q i) q)) ∧
    ((s.slot q i).waiting = true → ends (.coalescerTwinReady q i) (mirrorSquare (takeTwin s q i) q)) ∧
    (∀ ok t, arriveEvent s c i (setField header 60 4 0) payload origin = (ok, t) →
      ends (.eventArrive c i header payload origin) (match origin with
        | .core _ => receivedAt t c
        | _ => t)) ∧
    (k.mode = .wait →
      (∀ t, k.waitSt.isSome = true → tryWait s c = .ok t →
        ends (.waitWake c) (mirrored t c) ∧ ends (.waitTimeout c) (mirrored t c)) ∧
      (∀ x t, k.barSt = some x → tryBarrier s c x = .ok t → ends (.barRelease c) (mirrored t c))) ∧
    (k.holdsTask = true → k.task.ending = true → k.task.gang = 0 → ∀ t, endMember s c = .ok (false, t) →
      ∃ w, ends (.taskEnd c) w ∧ (w.core c).mode = .idle ∧ (w.core c).task = Task.reset)

/-- R161, R167, R177, R375, R390, R391, R394 to R398, R405 to R407, R419, R422, R427, R431, R434, R439: the steps of the distributor,
the lantern and the power manager complete, each with its effect. The model's choices among them: the number of a thermal sensor is that
of a core (log entry 61), a circuit of the lantern passes in one step (log entry 25), and the forecast counts descriptors by their units
(log entry 98). -/
def Obligations.SchedulerStepsComplete : Prop :=
  ∀ (c : CoreId) (die : Fin 2) (d : Fin 8) (sensor : Fin 256) (celsius : Int) (s : State),
    let k := s.core c
    let ends := fun (i : Instr) (t : State) => exec i s = .next t
    let record := fun (t : State) => telemetry t (dieOf sensor) 6 sensor (t.core sensor).task.job (sensor + wrap celsius 16 * 2 ^ 16)
    let aged := fun (r r' : Ready) => r'.seq = r.seq ∧ r'.record = r.record ∧
      r'.prio = if r.placedAt + 115000 ≤ s.cyc ∧ (r.fault = none ∨ r.ctx ≠ none) then min 7 (r.prio + 1) else r.prio
    (∀ t, selectionStep s die = t → ends (.selectionRound die) (if waitsOn t die then t.dueOnce (.selection die) else t)) ∧
    (∀ own r rest e t, coreFree s c = true → k.steal = none → candidates s c = (own, r) :: rest →
      levelCancelling s r.job (recLaunch r.record) = false → unitCheck s (dieOf c) r = .ok (e, t) →
      bindsTo t c r e = .now → serveCore s c = latchUnit t c own r e ∧ ((serveCore s c).core c).latched = some (unitOf r)) ∧
    (∀ r e t, k.latched = some r → k.binding = false → (s.square (squareOf c)).clearing = false → r.ctx = none →
      recordCheck s (dieOf c) r.job r.record = .ok (e, t) → tyGang e = 0 → tyLdProg e = 0 → tyStProg e = 0 → ∃ w,
        ends (.taskBind c) w ∧ .taskStart c ∈ w.todo ∧ (w.core c).pipe.pc = tyEntry e ∧ (w.core c).task.record = r.record ∧
        (w.core c).task.job = r.job ∧ ∀ i : Fin 16, (w.core c).regs.k[i] = match i.val with
          | 1 => tyArgs e
          | 2 => r.record.setWidth 64 >>> 16
          | 3 => BitVec.ofNat 64 (recArg r.record)
          | 4 => r.rva
          | _ => 0) ∧
    (∀ r, k.binding = true → k.task.gang = 0 → k.latched = some r → r.ctx = none → k.waitSt = none → k.barSt = none →
      hardCancelled s c = false → ∃ w, ends (.taskStart c) w ∧ (w.core c).mode = .run ∧ (w.core c).binding = false ∧ (w.core c).latched = none ∧
        (w.core c).regs = k.regs ∧ (w.core c).pipe = k.pipe ∧ (w.core c).ev.enabled = tySrcMask k.task.entry) ∧
    (∃ t, ends .agingTick t ∧ (∀ m, ∀ r ∈ (s.die m).ready, ∃ r' ∈ (t.die m).ready, aged r r') ∧
        ∀ m r, (s.core m).latched = some r → ∃ r', (t.core m).latched = some r' ∧
          if (s.core m).binding = true then r' = r else aged r r') ∧
    (∀ x v, k.steal = some x → x.asking = some v →
      (dequeTop (s.core v) = none → ∃ t, ends (.stealRequest c) t ∧ (t.core c).steal = some { x with reply := some none } ∧
        .stealReply c ∈ t.todo) ∧
      (∀ r, v ≠ c → dequeTop (s.core v) = some r → recStealable r.record = true → recLocal r.record = false →
        r.stolen = false → ownerPops s v r = false → r.slot = none → flag (s.job r.job).ctl 0 = true → inPartition s r.job (squareOf c) = true →
        ∃ t, ends (.stealRequest c) t ∧ .stealReply c ∈ t.todo ∧
          (t.core c).steal = some { x with reply := some (some { unitOf r with lane := squareOf v, stolen := true }) })) ∧
    (∀ x, k.steal = some x → x.reply = some none → ends (.stealReply c)
      (if coreFree s c then askNext s c x else s.modCore c (fun k => { k with steal := none }))) ∧
    (∀ x r e t, k.steal = some x → x.reply = some (some r) →
      let s0 := s.modCore c (fun k => { k with steal := none })
      levelCancelling s0 r.job (recLaunch r.record) = false → recordCheck s0 (dieOf c) r.job r.record = .ok (e, t) →
      tyPersist e = false → tyGang e = 0 → tyHeat e ≠ 2 → coreFree t c = true → inPartition t r.job (squareOf c) = true →
      flag (t.job r.job).ctl 0 = true → ∃ w, ends (.stealReply c) w ∧
        (w.core c).latched = some r ∧ .taskBind c ∈ w.todo) ∧
    (∀ x, k.steal = some x → x.asking = none → x.wakeAt ≤ s.cyc → ∃ t, ends (.stealBackoff c) t ∧ (t.core c).steal = none ∧
      .selection (dieId (dieOf c)) ∈ t.todo) ∧
    (readyJobs s = [] → ends .halfExchange s) ∧
    (∀ j, readyJobs s = [j] →
      ends .halfExchange (moveRecords (moveRecords s 0 j (crossing s 0 j)) 1 j (crossing s 1 j))) ∧
    (phaseJobs s = [] → ∃ t, ends .lanternCircuit t ∧ t.lantern = [] ∧ SameBytes s t ∧ t.cores = s.cores) ∧
    (∃ t, ends .lanternCircuit t ∧ (t.lantern = [] ∨ .lantern ∈ t.todo)) ∧
    (∃ t, ends .forecastTick t ∧ ∀ m, m < 256 → (t.core m).af = forecastOf s m) ∧
    ((s.district d).ramp = none → ∃ t, ends (.railSettle d) t ∧ SameBytes s t ∧ t.cores = s.cores ∧
      ∀ q, q < 64 → districtOf q = d.val → (t.square q).point =
        if (s.square q).point < (s.square q).target ∧ pointMv (s.square q).target ≤ (s.district d).rail then (s.square q).target
        else (s.square q).point) ∧
    ((∀ q ∈ districtSquares d, (s.square q).mxe.phase = 0 ∧ (s.square q).mxe.pendMin = none ∧ (s.square q).mxe.running = none) →
      ∃ t, ends (.slewStep d) t ∧ t.squares = s.squares ∧ t.cores = s.cores ∧ SameBytes s t) ∧
    (∃ t, ends (.slewStep d) t ∧ (∀ m, (t.core m).regs = (s.core m).regs) ∧ ∀ q ∈ districtSquares d, let e := (s.square q).mxe
      (e.phase = 0 → (t.square q).mxe.pendMin = none ∧ (t.square q).mxe.minCad = nextMin e) ∧
      ∀ st, e.phase = 1 → e.granted = some st → st ≤ s.cyc / 4 →
        (t.square q).mxe.phase = if (rampLevels e.minCad).length ≤ s.cyc / 4 - st + 1 then 3 else 2) ∧
    (∃ t, ends .nrgUpdate t ∧ SameBytes s t ∧ ∀ m, (t.core m).energy = [] ∧ (t.core m).regs = (s.core m).regs) ∧
    (k.mode = .run → k.task.gang = 0 → (s.die (dieOf c)).wdgLim ≠ 0 →
      4 * (s.die (dieOf c)).wdgLim.toNat ≤ (s.cyc - k.quietFrom) * 10 / 23 → ∃ t, ends (.watchdog c) t ∧
        (t.core c).holdsTask = false) ∧
    (∀ x, (s.core k.task.leader).task.gang = 3 → (s.core k.task.leader).holdsTask = true →
      (s.core k.task.leader).mismatch = false → (s.core k.task.leader).check = some x → ∃ t, ends (.lockstepMismatch c) t ∧
        (∀ m, m = k.task.leader ∨ m = k.task.leader + 1 → (t.core m).regs = x.regs ∧ (t.core m).pipe.pc = x.pc ∧
          (t.core m).trap = x.ctl.trap ∧ (t.core m).nest = x.nest ∧ (t.core m).mode = .run ∧ (t.core m).mismatch = true)) ∧
    (∀ why slots t w, k.preempt = some why → k.holdsTask = true → k.task.ending = false → atPoint k = true →
      hardCancelled s c = false → k.task.gang = 0 → freeSlots s k.task.job (dieOf c) 1 = some slots →
      drainMembers s [c.val] = .ok t → stillBusy t c = false → saveMembers (releaseBlocks (spillAll t c) c (fun _ => true)) t.seq ([c.val].zip slots) = .ok w →
      ∃ z, ends (.preemptDrainDone c) z ∧ (z.core c).mode = .idle ∧ (z.core c).task = Task.reset) ∧
    (ends (.thermalThreshold sensor celsius)
        (if 95 ≤ celsius ∧ sensor.val ∉ s.thermal then record { s with thermal := sensor.val :: s.thermal }
        else if celsius < 90 ∧ sensor.val ∈ s.thermal then record { s with thermal := s.thermal.filter (· ≠ sensor.val) }
        else s))

/-- R13, R24, R54, R57, R66 to R68, R114, R168, R418, R422, R428, R429, R435, R442, R453, R455: writes of device registers complete:
the fields are written, reserved bits read 0, and what a write sets under way is under way. That a write completes at every word of the
window, at one that no register stands at too (log entry 24), and leaves all as it was outside the window (log entry 9), are the model's
choices. -/
def Obligations.DeviceRegisterWritesComplete : Prop :=
  ∀ (job : JobId) (die : Fin 2) (c : CoreId) (n : Fin 32) (stream : Fin 64) (second : Bool) (address v : Word) (s : State),
    let k := s.core c
    let ends := fun (i : Instr) (t : State) => exec i s = .next t
    ends (.jobPtbWrite job die v) (s.modJob job (fun j =>
      if die.val = 0 then { j with ptb0 := v &&& 0xFFFFFFFFFE001 } else { j with ptb1 := v &&& 0xFFFFFFFFFE001 })) ∧
    (∃ t, ends (.cspOwnWrite die n v) t ∧ SameBytes s t ∧ Table.getD (t.die die).cspOwn n 0 = v &&& 0x1FF ∧
      (Table.getD (s.die die).cspOwn n 0 ≠ v &&& 0x1FF → n.val ∈ (t.die die).cspClear ∧ .cspClear die n ∈ t.todo)) ∧
    (∃ t, ends (.spadForceRetire c v) t ∧ SameBytes s t ∧ (t.core c).spad.soff = v.getLsbD 24 ∧
      (t.core c).spad.srate = (v >>> 20 &&& 0xF).toNat ∧ (t.core c).spad.ret = k.spad.ret ∧
      ∀ b : Fin 20, v.getLsbD b = true → bit k.spad.ret b = false → ∃ e ∈ (t.core c).spad.retiring, e.1 = b.val) ∧
    (∃ t, ends (.jobPartWrite job v) t ∧ SameBytes s t ∧ (t.job job).part = v ∧ ∀ q : Fin 64,
      (v.getLsbD q = true → (s.job job).part.getLsbD q = false → job.val ∈ (t.square q).joining ∧
        ((s.square q).leaving = [] → (t.square q).clearing = true ∧ .squareClear q ∈ t.todo)) ∧
      (v.getLsbD q = false → (s.job job).part.getLsbD q = true → (squareBusy s q = false → (t.square q).clearing = true) ∧
        (squareBusy s q = true → job.val ∈ (t.square q).leaving)) ∧
      (v.getLsbD q = (s.job job).part.getLsbD q → t.square q = s.square q)) ∧
    (∃ t, ends (.jobCtlWrite job v) t ∧ SameBytes s t ∧ (t.job job).ctl = v &&& 1 ∧
      (flag (s.job job).ctl 0 = false → v.getLsbD 0 = true → (t.job job).nrg = Vector.replicate 16 0)) ∧
    ends (.hbwBaseWrite die v) (s.modDie die (fun d => { d with hbwBase := v &&& 0xFFFFFFFFFFFF0 })) ∧
    ends (.fbKill die v) (s.modDie die (fun d => { d with
      fb := d.fb.map (fun e => if e.index = v.toNat % 512 then { e with killed := true } else e) })) ∧
    (k.holdsTask = true → k.preempt = none → k.task.ending = false →
      (v.getLsbD 0 = true → ends (.preCtlReq c v)
        ((s.modCore c (fun k => { k with preempt := some .request })).due (.preemptDone c))) ∧
      (v.getLsbD 0 = false → ends (.preCtlReq c v) s)) ∧
    (∃ t, ends (.pwrCapWrite v) t ∧ t = { s with power := t.power } ∧ t.power.cap = v.toNat % 2 ^ 16 ∧
      t.power.eff = (if v.toNat % 2 ^ 16 = 0 then 0 else max (v.toNat % 2 ^ 16) (max s.power.idle (floorSum s))) ∧
      (t.power.belowFloor = true ↔ v.toNat % 2 ^ 16 ≠ 0 ∧ v.toNat % 2 ^ 16 < s.power.idle) ∧
      (t.power.belowGuarantee = true ↔ v.toNat % 2 ^ 16 ≠ 0 ∧ v.toNat % 2 ^ 16 < floorSum s)) ∧
    ends (.secAtreq v) ({ s with sec := { s.sec with atreq := some v } }.due .attestDone) ∧
    ends (.secPolWrite v) (if s.sec.pol.getLsbD 63 then s
      else { s with sec := { s.sec with pol := v &&& 0x8000000000003FFC } }) ∧
    ends (.ethRouteWrite stream second v) { s with eth := if second
      then { s.eth with rtb := Table.set s.eth.rtb stream (v &&& 0xE0FFFFFFFF07FF00) }
      else { s.eth with rta := Table.set s.eth.rta stream (v &&& 0x0FFFFFFFFFFFFFFF) } } ∧
    (deviceLoc ≤ address.toNat → address.toNat < deviceLoc + 2 ^ 32 →
      ends (.registerWrite address v) (writeDevReg s (devReg (address.toNat - deviceLoc)) v)) ∧
    (address.toNat < deviceLoc ∨ deviceLoc + 2 ^ 32 ≤ address.toNat → ends (.registerWrite address v) s)

/-- R440 to R447, R449 to R455: what reaches the device from outside completes: event frames, time, requests of the connections,
host frames, alarms, reset, boot and attestation. A request that must wait keeps its place, and later ones of its connection stay behind it.
The model's choices among them: memory after a reset is zero (log entry 1), which frames are ignored or count as
duplicates (log entry 69), that a request that must wait holds back the later ones of its connection, which frames are refused and
whose lane a record takes (log entry 70), what an alarm or a module failure records (log entry 72), what a reset keeps and what the
recovery image holds (log entry 73), and that time is the grandmaster's at once (log entry 75). -/
def Obligations.HostRequestsComplete : Prop :=
  ∀ (f : EthFrame) (conn gm len offset : Nat) (rkey : BitVec 32) (va x y : Word) (data flash : List Byte) (src : AlarmSource)
    (s : State),
    let ends := fun (i : Instr) (t : State) => exec i s = .next t
    let sends := fun (t : State) (o : HostOut) => transmit t conn o
    let u := match connIndex s conn with
      | some n => connSeen s n
      | none => s
    let free := s.eth.again = false ∧ ∀ e ∈ s.eth.held, e.1 ≠ conn
    let refused := fun (i : Instr) => free → ends i (sends u (.refuse conn))
    (f.etype ≠ s.eth.cfg.toNat % 2 ^ 16 ∨ f.events = [] ∨ 64 < f.events.length → ends (.ethFrameReceive f) s) ∧
    (f.etype = s.eth.cfg.toNat % 2 ^ 16 → f.events ≠ [] → f.events.length ≤ 64 →
      (streamFor s f.dmac f.vid = none → ends (.ethFrameReceive f) (dropFrame s)) ∧
      (∀ n, streamFor s f.dmac f.vid = some n → let r := Table.getD s.eth.rtb n 0
        (r.getLsbD 61 = true → f.seq ∈ Table.getD s.eth.history n [] → ends (.ethFrameReceive f)
          { s with eth := { s.eth with dup := satAdd s.eth.dup 1 (2 ^ 32 - 1) } }) ∧
        (r.getLsbD 61 = false → field r 40 16 < f.size → ends (.ethFrameReceive f) (dropFrame s)) ∧
        (r.getLsbD 61 = false → f.size ≤ field r 40 16 → field r 24 16 = 0 →
          ends (.ethFrameReceive f) (deliverFrame s n r f.events)))) ∧
    (∃ t, ends (.gptpMessageReceive gm) t ∧ t.time = gm % 2 ^ 64 ∧ t = { s with timeBase := t.timeBase }) ∧
    (∀ k, connGrants u conn rightWrite = some k → k.rkey = rkey.toNat → hostReaches k va.toNat = true → ∀ t,
      writeRange u (hostAccess k .write va.toNat data.length) (rangeFuel data.length) va.toNat data.length (ofBytes data) = .ok t →
      free → ends (.roceWrite conn rkey va data) (sends t (.ack conn))) ∧
    (∀ k, connGrants u conn rightRead = some k → k.rkey = rkey.toNat → hostReaches k va.toNat = true → ∀ v t,
      readRange u (hostAccess k .read va.toNat len) (rangeFuel len) va.toNat len = .ok (v, t) →
      free → ends (.roceRead conn rkey va len) (sends t (.data conn (toBytes len v)))) ∧
    (∀ k, connGrants u conn rightAtomic = some k → k.rkey = rkey.toNat → ∀ v t,
      (hostAtomic u k va.toNat { op := 0, operand := x.toNat, expected := none } = .ok (v, t) →
        free → ends (.roceFetchAdd conn rkey va x) (sends t (.value conn (BitVec.ofNat 64 v)))) ∧
      (hostAtomic u k va.toNat { op := 0, operand := y.toNat, expected := some x.toNat } = .ok (v, t) →
        free → ends (.roceCompareSwap conn rkey va x y) (sends t (.value conn (BitVec.ofNat 64 v))))) ∧
    ((∀ k, connGrants u conn rightWrite = some k → k.rkey ≠ rkey.toNat) → refused (.roceWrite conn rkey va data)) ∧
    ((∀ k, connGrants u conn rightRead = some k → k.rkey ≠ rkey.toNat) → refused (.roceRead conn rkey va len)) ∧
    ((∀ k, connGrants u conn rightAtomic = some k → k.rkey ≠ rkey.toNat) →
      refused (.roceFetchAdd conn rkey va x) ∧ refused (.roceCompareSwap conn rkey va x y)) ∧
    refused (.roceUnsupportedRequest conn) ∧
    (connGrants u conn rightSend = none → refused (.place conn va) ∧ refused (.hostDec conn va) ∧
      refused (.hostCancel conn va) ∧ refused (.hostCancelh conn va)) ∧
    (∀ k, connGrants u conn rightSend = some k →
      (∀ c v t, frameCore u k.job va.toNat = some c → frameRecord u k va.toNat = .ok (v, t) →
        free → ends (.place conn va) (sends (hostPlace t c k.job va.toNat v) (.ack conn))) ∧
      (∀ c t, frameCore u k.job va.toNat = some c → hostDecAt u k c va.toNat = .ok t →
        free → ends (.hostDec conn va) (sends t (.ack conn))) ∧
      (va.toNat < 4096 → free → ends (.hostCancel conn va) (sends (cancelLevel u 0 k.job va.toNat false) (.ack conn)) ∧
        ends (.hostCancelh conn va) (sends (cancelLevel u 0 k.job va.toNat true) (.ack conn))) ∧
      (4096 ≤ va.toNat → refused (.hostCancel conn va) ∧ refused (.hostCancelh conn va))) ∧
    (∀ k req, connGrants u conn rightWrite = some k → k.rkey = rkey.toNat → hostReaches k va.toNat = true → free →
      writeRange u (hostAccess k .write va.toNat data.length) (rangeFuel data.length) va.toNat data.length (ofBytes data) =
        .error (.stall req) →
      ends (.roceWrite conn rkey va data) { u with eth := { u.eth with held := s.eth.held ++ [(conn, .write rkey va data)] } }) ∧
    (s.eth.again = false → (∃ e ∈ s.eth.held, e.1 = conn) →
      ends (.roceWrite conn rkey va data) { s with eth := { s.eth with held := s.eth.held ++ [(conn, .write rkey va data)] } } ∧
        ends (.place conn va) { s with eth := { s.eth with held := s.eth.held ++ [(conn, .place va)] } }) ∧
    (∀ n, s.modules = n + 1 → ∃ t, ends .ucieModuleFail t ∧ t.modules = n ∧ ∀ m, (t.core m).regs = (s.core m).regs) ∧
    (∃ t, ends (.tamperAlarm src) t ∧ (∀ m, (t.core m).regs = (s.core m).regs) ∧
      let act := (s.sec.pol >>> alarmField src &&& 3).toNat
      (t.halted = true ↔ s.halted = true ∨ act = 1 ∨ act = 3) ∧ (t.eth.stopped = true ↔ s.eth.stopped = true ∨ act = 1 ∨ act = 3) ∧
      (t.sec.keyStore = true ↔ s.sec.keyStore = true ∧ act < 2) ∧ (t.sec.noKey = true ↔ s.sec.noKey = true ∨ 2 ≤ act) ∧
      (t.sec.kdis = true ↔ s.sec.kdis = true ∨ act = 3)) ∧
    (∃ t, ends .debugUnlockFail t ∧ t.sec.unlockFails = s.sec.unlockFails + 1 ∧ (∀ m, (t.core m).regs = (s.core m).regs) ∧
      (s.sec.unlockFails ≠ 7 → t = { s with sec := t.sec })) ∧
    (∃ t, ends (.coldReset flash) t ∧ t.mem = [] ∧ t.cores = [] ∧ t.cyc = 0 ∧ t.halted = false ∧ t.sec.kdis = s.sec.kdis ∧
      t.sec.antiRollback = s.sec.antiRollback ∧ t.sec.placed = false ∧ t.sec.booted = imageAccepted s.sec.antiRollback flash ∧
      t.sec.romWait = !t.sec.booted) ∧
    (s.sec.romWait = true →
      (data.length ≤ 1024 → offset ≠ 0xFFFFFFFF → ∃ t, ends (.bootDatagram offset data) t ∧ SameBytes s t ∧
        ∀ i, Table.getD t.sec.received i 0 = if offset ≤ i ∧ i < offset + data.length then (data[i - offset]?).getD 0
          else Table.getD s.sec.received i 0) ∧
      ends .bootTransferEnd (bootWith s (receivedImage s.sec.received))) ∧
    (∀ t, s.sec.atreq = some va → writeReport { s with sec := { s.sec with atreq := none } } va.toNat = .ok t →
      ends .attestationReportDone { t with sec := { t.sec with done := true } })
end

