-- ==== Sys2Proof/Laws/Encoding.lean ====
section
/-! SUPPORT. Words put together of a constant and fields that do not overlap (08 R192 to R197), and what each slice of such a
word is. -/
namespace Sys2Proof

set_option Elab.async false

theorem fld_eq {w lo n : Nat} {x : Fin (2 ^ n)} (h : w / 2 ^ lo % 2 ^ n = x.val) : fld w lo n = x := Fin.ext h

/-- A word whose row is read back decodes to a well-formed instruction. -/
theorem decode_eq {w : Nat} {i : Instr} (h : parse w = .ok i) (hw : i.wf = true) : decode w = .ok i := by
  simp only [decode, h, hw, if_true]

/-! ## The majors -/

theorem parse_alu {w : Nat} (h : w / 33554432 % 128 = 1) : parse w = parseAlu w := by
  simp only [parse, h]
theorem parse_alu1 {w : Nat} (h : w / 33554432 % 128 = 2) : parse w = parseAlu1 w := by
  simp only [parse, h]
theorem parse_muldiv {w : Nat} (h : w / 33554432 % 128 = 3) : parse w = parseMulDiv w := by
  simp only [parse, h]
theorem parse_cmp {w : Nat} (h : w / 33554432 % 128 = 4) : parse w = parseCmp w := by
  simp only [parse, h]
theorem parse_bitf {w : Nat} (h : w / 33554432 % 128 = 5) : parse w = parseBitf w := by
  simp only [parse, h]
theorem parse_addi {w : Nat} (h : w / 33554432 % 128 = 8) : parse w = parseAddi w := by
  simp only [parse, h]
theorem parse_andi {w : Nat} (h : w / 33554432 % 128 = 9) : parse w = parseAndi w := by
  simp only [parse, h]
theorem parse_ori {w : Nat} (h : w / 33554432 % 128 = 10) : parse w = parseOri w := by
  simp only [parse, h]
theorem parse_xori {w : Nat} (h : w / 33554432 % 128 = 11) : parse w = parseXori w := by
  simp only [parse, h]
theorem parse_shi {w : Nat} (h : w / 33554432 % 128 = 12) : parse w = parseShi w := by
  simp only [parse, h]
theorem parse_cmpi {w : Nat} (h : w / 33554432 % 128 = 13) : parse w = parseCmpi w := by
  simp only [parse, h]
theorem parse_li {w : Nat} (h : w / 33554432 % 128 = 14) : parse w = parseLi w := by
  simp only [parse, h]
theorem parse_getc {w : Nat} (h : w / 33554432 % 128 = 16) : parse w = parseGetc w := by
  simp only [parse, h]
theorem parse_setc {w : Nat} (h : w / 33554432 % 128 = 17) : parse w = parseSetc w := by
  simp only [parse, h]
theorem parse_br {w : Nat} (h : w / 33554432 % 128 = 24) : parse w = parseBr w := by
  simp only [parse, h]
theorem parse_jmp {w : Nat} (h : w / 33554432 % 128 = 25) : parse w = parseJmp w := by
  simp only [parse, h]
theorem parse_call {w : Nat} (h : w / 33554432 % 128 = 26) : parse w = parseCall w := by
  simp only [parse, h]
theorem parse_jr {w : Nat} (h : w / 33554432 % 128 = 27) : parse w = parseJr w := by
  simp only [parse, h]
theorem parse_lnest {w : Nat} (h : w / 33554432 % 128 = 28) : parse w = parseLnest w := by
  simp only [parse, h]
theorem parse_lnext {w : Nat} (h : w / 33554432 % 128 = 29) : parse w = parseLnext w := by
  simp only [parse, h]
theorem parse_rep {w : Nat} (h : w / 33554432 % 128 = 30) : parse w = parseRep w := by
  simp only [parse, h]
theorem parse_repw {w : Nat} (h : w / 33554432 % 128 = 31) : parse w = parseRepw w := by
  simp only [parse, h]
theorem parse_wait {w : Nat} (h : w / 33554432 % 128 = 32) : parse w = parseWait w := by
  simp only [parse, h]
theorem parse_sys {w : Nat} (h : w / 33554432 % 128 = 33) : parse w = parseSys w := by
  simp only [parse, h]
theorem parse_ld {w : Nat} (h : w / 33554432 % 128 = 40) : parse w = parseLd w := by
  simp only [parse, h]
theorem parse_st {w : Nat} (h : w / 33554432 % 128 = 41) : parse w = parseSt w := by
  simp only [parse, h]
theorem parse_ldx {w : Nat} (h : w / 33554432 % 128 = 42) : parse w = parseLdx w := by
  simp only [parse, h]
theorem parse_stx {w : Nat} (h : w / 33554432 % 128 = 43) : parse w = parseStx w := by
  simp only [parse, h]
theorem parse_ordered {w : Nat} (h : w / 33554432 % 128 = 44) : parse w = parseOrdered w := by
  simp only [parse, h]
theorem parse_amo {w : Nat} (h : w / 33554432 % 128 = 45) : parse w = parseAmo w := by
  simp only [parse, h]
theorem parse_red {w : Nat} (h : w / 33554432 % 128 = 46) : parse w = parseRed w := by
  simp only [parse, h]
theorem parse_cas {w : Nat} (h : w / 33554432 % 128 = 47) : parse w = parseCas w := by
  simp only [parse, h]
theorem parse_fence {w : Nat} (h : w / 33554432 % 128 = 48) : parse w = parseFence w := by
  simp only [parse, h]
theorem parse_stream {w : Nat} (h : w / 33554432 % 128 = 49) : parse w = parseStream w := by
  simp only [parse, h]
theorem parse_ejob {w : Nat} (h : w / 33554432 % 128 = 50) : parse w = parseEjob w := by
  simp only [parse, h]
theorem parse_vfp {w : Nat} (h : w / 33554432 % 128 = 56) : parse w = parseVfp w := by
  simp only [parse, h]
theorem parse_vint {w : Nat} (h : w / 33554432 % 128 = 57) : parse w = parseVint w := by
  simp only [parse, h]
theorem parse_vlogic {w : Nat} (h : w / 33554432 % 128 = 58) : parse w = parseVlogic w := by
  simp only [parse, h]
theorem parse_vcmp {w : Nat} (h : w / 33554432 % 128 = 59) : parse w = parseVcmp w := by
  simp only [parse, h]
theorem parse_vcvt {w : Nat} (h : w / 33554432 % 128 = 60) : parse w = parseVcvt w := by
  simp only [parse, h]
theorem parse_vperm {w : Nat} (h : w / 33554432 % 128 = 61) : parse w = parseVperm w := by
  simp only [parse, h]
theorem parse_vred {w : Nat} (h : w / 33554432 % 128 = 62) : parse w = parseVred w := by
  simp only [parse, h]
theorem parse_vmove {w : Nat} (h : w / 33554432 % 128 = 63) : parse w = parseVmove w := by
  simp only [parse, h]
theorem parse_vld {w : Nat} (h : w / 33554432 % 128 = 64) : parse w = parseVld w := by
  simp only [parse, h]
theorem parse_vst {w : Nat} (h : w / 33554432 % 128 = 65) : parse w = parseVst w := by
  simp only [parse, h]
theorem parse_vlss {w : Nat} (h : w / 33554432 % 128 = 66) : parse w = parseVlss w := by
  simp only [parse, h]
theorem parse_vsss {w : Nat} (h : w / 33554432 % 128 = 67) : parse w = parseVsss w := by
  simp only [parse, h]
theorem parse_vgth {w : Nat} (h : w / 33554432 % 128 = 68) : parse w = parseVgth w := by
  simp only [parse, h]
theorem parse_vsct {w : Nat} (h : w / 33554432 % 128 = 69) : parse w = parseVsct w := by
  simp only [parse, h]
theorem parse_lane {w : Nat} (h : w / 33554432 % 128 = 70) : parse w = parseLane w := by
  simp only [parse, h]
theorem parse_tile {w : Nat} (h : w / 33554432 % 128 = 80) : parse w = parseTile w := by
  simp only [parse, h]
theorem parse_matrix {w : Nat} (h : w / 33554432 % 128 = 81) : parse w = parseMatrix w := by
  simp only [parse, h]
theorem parse_coalesce {w : Nat} (h : w / 33554432 % 128 = 82) : parse w = parseCoalesce w := by
  simp only [parse, h]
theorem parse_event {w : Nat} (h : w / 33554432 % 128 = 88) : parse w = parseEvent w := by
  simp only [parse, h]
theorem parse_task {w : Nat} (h : w / 33554432 % 128 = 89) : parse w = parseTask w := by
  simp only [parse, h]
theorem parse_hint {w : Nat} (h : w / 33554432 % 128 = 127) : parse w = parseHint w := by
  simp only [parse, h]

namespace Enc

/-- A field: its lowest bit, its width and its value. -/
structure Field where
  lo : Nat
  n : Nat
  v : Fin (2 ^ n)

/-- The word of a constant and fields, the last of the list added first. -/
def word (c : Nat) : List Field → Nat
  | [] => c
  | f :: fs => word c fs + f.v.val * 2 ^ f.lo

theorem word_low (c n : Nat) (v : Fin (2 ^ n)) (fs : List Field) : word c (⟨0, n, v⟩ :: fs) = word c fs + v.val := by
  show _ + _ * 2 ^ 0 = _
  rw [Nat.pow_zero, Nat.mul_one]

/-- The two slices do not overlap. -/
def apart (lo n lo' n' : Nat) : Bool := decide (lo + n ≤ lo') || decide (lo' + n' ≤ lo)

/-- The slice lies in no field, and what the constant has there. -/
def clear (c : Nat) (fs : List Field) (lo n : Nat) : Bool := fs.all (fun f => apart f.lo f.n lo n) && decide (c / 2 ^ lo % 2 ^ n = 0)

/-- No two fields overlap, and the constant is 0 where they lie. -/
def ok (c : Nat) : List Field → Bool
  | [] => true
  | f :: fs => clear c fs f.lo f.n && ok c fs

theorem slice_above (w q lo n : Nat) : (w + q * 2 ^ (lo + n)) / 2 ^ lo % 2 ^ n = w / 2 ^ lo % 2 ^ n := by
  rw [Nat.pow_add, show q * (2 ^ lo * 2 ^ n) = 2 ^ lo * (2 ^ n * q) by
    rw [Nat.mul_left_comm, Nat.mul_comm q]]
  rw [Nat.add_mul_div_left _ _ (Nat.two_pow_pos lo), Nat.add_mul_mod_self_left]

/-- A number apart below, in and above a slice. -/
theorem split3 (w lo n : Nat) : w = w % 2 ^ lo + 2 ^ lo * (w / 2 ^ lo % 2 ^ n + 2 ^ n * (w / 2 ^ lo / 2 ^ n)) := by
  rw [Nat.mod_add_div, Nat.mod_add_div]

theorem slice_join (y x z lo n : Nat) (hy : y < 2 ^ lo) (hx : x < 2 ^ n) :
    (y + 2 ^ lo * (x + 2 ^ n * z)) / 2 ^ lo % 2 ^ n = x ∧ (y + 2 ^ lo * (x + 2 ^ n * z)) / 2 ^ lo / 2 ^ n = z := by
  rw [Nat.add_mul_div_left _ _ (Nat.two_pow_pos lo), Nat.div_eq_of_lt hy, Nat.zero_add, Nat.add_mul_mod_self_left,
    Nat.mod_eq_of_lt hx, Nat.add_mul_div_left _ _ (Nat.two_pow_pos n), Nat.div_eq_of_lt hx, Nat.zero_add]
  exact ⟨rfl, rfl⟩

/-- A field put where a word is 0. -/
theorem put_split (w lo n x : Nat) (h : w / 2 ^ lo % 2 ^ n = 0) :
    w + x * 2 ^ lo = w % 2 ^ lo + 2 ^ lo * (x + 2 ^ n * (w / 2 ^ lo / 2 ^ n)) := by
  have hs := split3 w lo n
  rw [h, Nat.zero_add] at hs
  rw [Nat.mul_add, Nat.mul_comm (2 ^ lo) x]
  omega

theorem slice_same (w lo n x : Nat) (hx : x < 2 ^ n) (h : w / 2 ^ lo % 2 ^ n = 0) :
    (w + x * 2 ^ lo) / 2 ^ lo % 2 ^ n = x := by
  rw [put_split w lo n x h]
  exact (slice_join _ _ _ _ _ (Nat.mod_lt _ (Nat.two_pow_pos _)) hx).1

theorem slice_apart (w lo n lo' n' x : Nat) (hx : x < 2 ^ n) (h : w / 2 ^ lo % 2 ^ n = 0) (ha : apart lo n lo' n' = true) :
    (w + x * 2 ^ lo) / 2 ^ lo' % 2 ^ n' = w / 2 ^ lo' % 2 ^ n' := by
  simp only [apart, Bool.or_eq_true, decide_eq_true_eq] at ha
  rcases ha with ha | ha
  · obtain ⟨k, rfl⟩ := Nat.exists_eq_add_of_le ha
    have e : (w + x * 2 ^ lo) / 2 ^ (lo + n + k) = w / 2 ^ (lo + n + k) := by
      rw [Nat.pow_add, Nat.pow_add, ← Nat.div_div_eq_div_mul, ← Nat.div_div_eq_div_mul, ← Nat.div_div_eq_div_mul,
        ← Nat.div_div_eq_div_mul]
      congr 1
      rw [put_split w lo n x h]
      exact (slice_join _ _ _ _ _ (Nat.mod_lt _ (Nat.two_pow_pos _)) hx).2
    rw [e]
  · obtain ⟨k, rfl⟩ := Nat.exists_eq_add_of_le ha
    rw [Nat.pow_add 2 (lo' + n') k, show x * (2 ^ (lo' + n') * 2 ^ k) = (x * 2 ^ k) * 2 ^ (lo' + n') by
      rw [Nat.mul_assoc, Nat.mul_comm (2 ^ k)]]
    exact slice_above _ _ _ _

/-- What a slice apart from the fields is: the constant's. -/
theorem slice_const (c lo n : Nat) : ∀ fs : List Field, ok c fs = true → fs.all (fun f => apart f.lo f.n lo n) = true →
    word c fs / 2 ^ lo % 2 ^ n = c / 2 ^ lo % 2 ^ n := by
  intro fs
  induction fs generalizing lo n with
  | nil => intros; rfl
  | cons f fs ih =>
    intro ho ha
    simp only [ok, clear, Bool.and_eq_true, decide_eq_true_eq] at ho
    simp only [List.all_cons, Bool.and_eq_true] at ha
    unfold word
    rw [slice_apart _ _ f.n _ _ _ f.v.isLt ((ih f.lo f.n ho.2 ho.1.1).trans ho.1.2) ha.1]
    exact ih lo n ho.2 ha.2

/-- Where the fields lie. -/
def places (fs : List Field) : List (Nat × Nat) := fs.map (fun f => (f.lo, f.n))

/-- No two places overlap, and the constant is 0 there. -/
def sound (c : Nat) : List (Nat × Nat) → Bool
  | [] => true
  | p :: ps => ps.all (fun q => apart q.1 q.2 p.1 p.2) && (c / 2 ^ p.1 % 2 ^ p.2).beq 0 && sound c ps

/-- The slice is apart from every place, and the constant has `r` there. -/
def holds (c lo n r : Nat) (ps : List (Nat × Nat)) : Bool := ps.all (fun q => apart q.1 q.2 lo n) && (c / 2 ^ lo % 2 ^ n).beq r

theorem sound_ok (c : Nat) : ∀ fs : List Field, sound c (places fs) = true → ok c fs = true := by
  intro fs
  induction fs with
  | nil => intro; rfl
  | cons f fs ih =>
    intro h
    simp only [places, List.map_cons, sound, Bool.and_eq_true, List.all_map] at h
    simp only [ok, clear, Bool.and_eq_true, decide_eq_true_eq]
    exact ⟨⟨h.1.1, Nat.eq_of_beq_eq_true h.1.2⟩, ih h.2⟩

theorem holds_all {c lo n r : Nat} {fs : List Field} (h : holds c lo n r (places fs) = true) :
    fs.all (fun f => apart f.lo f.n lo n) = true ∧ c / 2 ^ lo % 2 ^ n = r := by
  simp only [holds, places, Bool.and_eq_true, List.all_map] at h
  exact ⟨h.1, Nat.eq_of_beq_eq_true h.2⟩

/-- A slice of the constant. -/
theorem const_eq {c : Nat} {fs : List Field} (lo n r : Nat) (ho : ok c fs = true) (h : holds c lo n r (places fs) = true) :
    word c fs / 2 ^ lo % 2 ^ n = r := by
  have := holds_all h
  rw [slice_const c lo n fs ho this.1, this.2]

theorem low_eq {c : Nat} {fs : List Field} (n r : Nat) (ho : ok c fs = true) (h : holds c 0 n r (places fs) = true) :
    word c fs % 2 ^ n = r := by
  have := const_eq 0 n r ho h
  rwa [Nat.pow_zero, Nat.div_one] at this

/-- A slice that is a field. -/
theorem field_eq {c : Nat} : ∀ {fs : List Field} (f : Field) (i : Nat), ok c fs = true → fs[i]? = some f →
    word c fs / 2 ^ f.lo % 2 ^ f.n = f.v.val := by
  intro fs
  induction fs with
  | nil => intro f i _ h; simp at h
  | cons g fs ih =>
    intro f i ho h
    have ho' := ho
    simp only [ok, clear, Bool.and_eq_true, decide_eq_true_eq] at ho'
    have hz : word c fs / 2 ^ g.lo % 2 ^ g.n = 0 := (slice_const c g.lo g.n fs ho'.2 ho'.1.1).trans ho'.1.2
    unfold word
    cases i with
    | zero =>
      simp only [List.getElem?_cons_zero, Option.some.injEq] at h
      subst h
      exact slice_same _ _ _ _ g.v.isLt hz
    | succ i =>
      simp only [List.getElem?_cons_succ] at h
      have hm : f ∈ fs := List.mem_of_getElem? h
      have ha : apart g.lo g.n f.lo f.n = true := by
        have := List.all_eq_true.mp ho'.1.1 f hm
        simp only [apart, Bool.or_eq_true, decide_eq_true_eq] at this ⊢
        exact this.symm
      rw [slice_apart _ _ g.n _ _ _ g.v.isLt hz ha]
      exact ih f i ho'.2 h

/-- A slice of a slice. -/
theorem slice_slice (w lo n b : Nat) (hb : b < n) : w / 2 ^ lo % 2 ^ n / 2 ^ b % 2 ^ 1 = w / 2 ^ (lo + b) % 2 ^ 1 := by
  obtain ⟨k, rfl⟩ := Nat.exists_eq_add_of_lt hb
  have e : w / 2 ^ (lo + b) = w / 2 ^ lo / 2 ^ b := by rw [Nat.pow_add, Nat.div_div_eq_div_mul]
  have h := slice_above (w / 2 ^ lo % 2 ^ (b + k + 1)) (2 ^ k * (w / 2 ^ lo / 2 ^ (b + k + 1))) b 1
  rw [e, ← h, Nat.mul_right_comm, ← Nat.pow_add, show k + (b + 1) = b + k + 1 by omega, Nat.mod_add_div]

/-- One bit of the constant that differs: the slice is not that number. -/
theorem slice_ne {c : Nat} {fs : List Field} (lo n b v r : Nat) (ho : ok c fs = true)
    (h : holds c (lo + b) 1 r (places fs) = true) (hb : b < n) (hd : v / 2 ^ b % 2 ^ 1 ≠ r) : word c fs / 2 ^ lo % 2 ^ n ≠ v := by
  intro e
  have := slice_slice (word c fs) lo n b hb
  rw [e, const_eq (lo + b) 1 r ho h] at this
  exact hd this

theorem low_ne {c : Nat} {fs : List Field} (n b v r : Nat) (ho : ok c fs = true)
    (h : holds c (0 + b) 1 r (places fs) = true) (hb : b < n) (hd : v / 2 ^ b % 2 ^ 1 ≠ r) : word c fs % 2 ^ n ≠ v := by
  have := slice_ne 0 n b v r ho h hb hd
  rwa [Nat.pow_zero, Nat.div_one] at this

end Enc
end Sys2Proof
end

