-- ==== Sys2Proof/Laws/Exec.lean ====
section
/-! SUPPORT. What `exec` does with each instruction: the call of its meaning. -/
namespace Sys2Proof.Machine

set_option Elab.async false

theorem exec_add (d : Fin 16) (a b : Fin 32) (w : Fin 4) (st : State) : exec (.add d a b w) st = execAdd d a b w st := rfl
theorem exec_sub (d : Fin 16) (a b : Fin 32) (w : Fin 4) (st : State) : exec (.sub d a b w) st = execSub d a b w st := rfl
theorem exec_and (d : Fin 16) (a b : Fin 32) (w : Fin 4) (st : State) : exec (.and d a b w) st = execAnd d a b w st := rfl
theorem exec_or (d : Fin 16) (a b : Fin 32) (w : Fin 4) (st : State) : exec (.or d a b w) st = execOr d a b w st := rfl
theorem exec_xor (d : Fin 16) (a b : Fin 32) (w : Fin 4) (st : State) : exec (.xor d a b w) st = execXor d a b w st := rfl
theorem exec_andn (d : Fin 16) (a b : Fin 32) (w : Fin 4) (st : State) : exec (.andn d a b w) st = execAndn d a b w st := rfl
theorem exec_orn (d : Fin 16) (a b : Fin 32) (w : Fin 4) (st : State) : exec (.orn d a b w) st = execOrn d a b w st := rfl
theorem exec_sll (d : Fin 16) (a b : Fin 32) (w : Fin 4) (st : State) : exec (.sll d a b w) st = execSll d a b w st := rfl
theorem exec_srl (d : Fin 16) (a b : Fin 32) (w : Fin 4) (st : State) : exec (.srl d a b w) st = execSrl d a b w st := rfl
theorem exec_sra (d : Fin 16) (a b : Fin 32) (w : Fin 4) (st : State) : exec (.sra d a b w) st = execSra d a b w st := rfl
theorem exec_rol (d : Fin 16) (a b : Fin 32) (w : Fin 4) (st : State) : exec (.rol d a b w) st = execRol d a b w st := rfl
theorem exec_ror (d : Fin 16) (a b : Fin 32) (w : Fin 4) (st : State) : exec (.ror d a b w) st = execRor d a b w st := rfl
theorem exec_min (d : Fin 16) (a b : Fin 32) (w : Fin 4) (st : State) : exec (.min d a b w) st = execMin d a b w st := rfl
theorem exec_max (d : Fin 16) (a b : Fin 32) (w : Fin 4) (st : State) : exec (.max d a b w) st = execMax d a b w st := rfl
theorem exec_minz (d : Fin 16) (a b : Fin 32) (w : Fin 4) (st : State) : exec (.minz d a b w) st = execMinz d a b w st := rfl
theorem exec_maxz (d : Fin 16) (a b : Fin 32) (w : Fin 4) (st : State) : exec (.maxz d a b w) st = execMaxz d a b w st := rfl
theorem exec_addx2 (d : Fin 16) (a b : Fin 32) (w : Fin 4) (st : State) : exec (.addx2 d a b w) st = execAddx2 d a b w st := rfl
theorem exec_addx4 (d : Fin 16) (a b : Fin 32) (w : Fin 4) (st : State) : exec (.addx4 d a b w) st = execAddx4 d a b w st := rfl
theorem exec_addx8 (d : Fin 16) (a b : Fin 32) (w : Fin 4) (st : State) : exec (.addx8 d a b w) st = execAddx8 d a b w st := rfl
theorem exec_addx16 (d : Fin 16) (a b : Fin 32) (w : Fin 4) (st : State) : exec (.addx16 d a b w) st = execAddx16 d a b w st := rfl
theorem exec_clmul (d : Fin 16) (a b : Fin 32) (w : Fin 4) (st : State) : exec (.clmul d a b w) st = execClmul d a b w st := rfl
theorem exec_clmulh (d : Fin 16) (a b : Fin 32) (w : Fin 4) (st : State) : exec (.clmulh d a b w) st = execClmulh d a b w st := rfl
theorem exec_clz (d : Fin 16) (a : Fin 32) (w : Fin 4) (st : State) : exec (.clz d a w) st = execClz d a w st := rfl
theorem exec_ctz (d : Fin 16) (a : Fin 32) (w : Fin 4) (st : State) : exec (.ctz d a w) st = execCtz d a w st := rfl
theorem exec_pop (d : Fin 16) (a : Fin 32) (w : Fin 4) (st : State) : exec (.pop d a w) st = execPop d a w st := rfl
theorem exec_brev (d : Fin 16) (a : Fin 32) (w : Fin 4) (st : State) : exec (.brev d a w) st = execBrev d a w st := rfl
theorem exec_bswap (d : Fin 16) (a : Fin 32) (w : Fin 4) (st : State) : exec (.bswap d a w) st = execBswap d a w st := rfl
theorem exec_sextb (d : Fin 16) (a : Fin 32) (w : Fin 4) (st : State) : exec (.sextb d a w) st = execSextb d a w st := rfl
theorem exec_sexth (d : Fin 16) (a : Fin 32) (w : Fin 4) (st : State) : exec (.sexth d a w) st = execSexth d a w st := rfl
theorem exec_sextw (d : Fin 16) (a : Fin 32) (w : Fin 4) (st : State) : exec (.sextw d a w) st = execSextw d a w st := rfl
theorem exec_zextb (d : Fin 16) (a : Fin 32) (w : Fin 4) (st : State) : exec (.zextb d a w) st = execZextb d a w st := rfl
theorem exec_zexth (d : Fin 16) (a : Fin 32) (w : Fin 4) (st : State) : exec (.zexth d a w) st = execZexth d a w st := rfl
theorem exec_zextw (d : Fin 16) (a : Fin 32) (w : Fin 4) (st : State) : exec (.zextw d a w) st = execZextw d a w st := rfl
theorem exec_neg (d : Fin 16) (a : Fin 32) (w : Fin 4) (st : State) : exec (.neg d a w) st = execNeg d a w st := rfl
theorem exec_not (d : Fin 16) (a : Fin 32) (w : Fin 4) (st : State) : exec (.not d a w) st = execNot d a w st := rfl
theorem exec_mov (d : Fin 16) (a : Fin 32) (w : Fin 4) (st : State) : exec (.mov d a w) st = execMov d a w st := rfl
theorem exec_mul (d : Fin 16) (a b : Fin 32) (w : Fin 4) (st : State) : exec (.mul d a b w) st = execMul d a b w st := rfl
theorem exec_mulh (d : Fin 16) (a b : Fin 32) (w : Fin 4) (st : State) : exec (.mulh d a b w) st = execMulh d a b w st := rfl
theorem exec_mulhz (d : Fin 16) (a b : Fin 32) (w : Fin 4) (st : State) : exec (.mulhz d a b w) st = execMulhz d a b w st := rfl
theorem exec_mulhsz (d : Fin 16) (a b : Fin 32) (w : Fin 4) (st : State) : exec (.mulhsz d a b w) st = execMulhsz d a b w st := rfl
theorem exec_div (d : Fin 16) (a b : Fin 32) (w : Fin 4) (st : State) : exec (.div d a b w) st = execDiv d a b w st := rfl
theorem exec_divz (d : Fin 16) (a b : Fin 32) (w : Fin 4) (st : State) : exec (.divz d a b w) st = execDivz d a b w st := rfl
theorem exec_rem (d : Fin 16) (a b : Fin 32) (w : Fin 4) (st : State) : exec (.rem d a b w) st = execRem d a b w st := rfl
theorem exec_remz (d : Fin 16) (a b : Fin 32) (w : Fin 4) (st : State) : exec (.remz d a b w) st = execRemz d a b w st := rfl
theorem exec_seq (d : Fin 16) (a b : Fin 32) (w : Fin 4) (st : State) : exec (.seq d a b w) st = execSeq d a b w st := rfl
theorem exec_sne (d : Fin 16) (a b : Fin 32) (w : Fin 4) (st : State) : exec (.sne d a b w) st = execSne d a b w st := rfl
theorem exec_slt (d : Fin 16) (a b : Fin 32) (w : Fin 4) (st : State) : exec (.slt d a b w) st = execSlt d a b w st := rfl
theorem exec_sge (d : Fin 16) (a b : Fin 32) (w : Fin 4) (st : State) : exec (.sge d a b w) st = execSge d a b w st := rfl
theorem exec_slo (d : Fin 16) (a b : Fin 32) (w : Fin 4) (st : State) : exec (.slo d a b w) st = execSlo d a b w st := rfl
theorem exec_shs (d : Fin 16) (a b : Fin 32) (w : Fin 4) (st : State) : exec (.shs d a b w) st = execShs d a b w st := rfl
theorem exec_sel (d : Fin 16) (a b : Fin 32) (w : Fin 4) (c : Fin 16) (st : State) : exec (.sel d a b w c) st = execSel d a b w c st := rfl
theorem exec_bfx (d : Fin 16) (a b : Fin 32) (w : Fin 4) (st : State) : exec (.bfx d a b w) st = execBfx d a b w st := rfl
theorem exec_bfxs (d : Fin 16) (a b : Fin 32) (w : Fin 4) (st : State) : exec (.bfxs d a b w) st = execBfxs d a b w st := rfl
theorem exec_bfi (d : Fin 16) (a b : Fin 32) (w : Fin 4) (st : State) : exec (.bfi d a b w) st = execBfi d a b w st := rfl
theorem exec_addi (d : Fin 16) (a : Fin 32) (i : Fin 65536) (st : State) : exec (.addi d a i) st = execAddi d a i st := rfl
theorem exec_andi (d : Fin 16) (a : Fin 32) (i : Fin 65536) (st : State) : exec (.andi d a i) st = execAndi d a i st := rfl
theorem exec_ori (d : Fin 16) (a : Fin 32) (i : Fin 65536) (st : State) : exec (.ori d a i) st = execOri d a i st := rfl
theorem exec_xori (d : Fin 16) (a : Fin 32) (i : Fin 65536) (st : State) : exec (.xori d a i) st = execXori d a i st := rfl
theorem exec_slli (d : Fin 16) (a : Fin 32) (w : Fin 2) (s0 : Fin 64) (st : State) : exec (.slli d a w s0) st = execSlli d a w s0 st := rfl
theorem exec_srli (d : Fin 16) (a : Fin 32) (w : Fin 2) (s0 : Fin 64) (st : State) : exec (.srli d a w s0) st = execSrli d a w s0 st := rfl
theorem exec_srai (d : Fin 16) (a : Fin 32) (w : Fin 2) (s0 : Fin 64) (st : State) : exec (.srai d a w s0) st = execSrai d a w s0 st := rfl
theorem exec_roli (d : Fin 16) (a : Fin 32) (w : Fin 2) (s0 : Fin 64) (st : State) : exec (.roli d a w s0) st = execRoli d a w s0 st := rfl
theorem exec_cmpi (d : Fin 16) (a : Fin 32) (c : Fin 8) (i : Fin 8192) (st : State) : exec (.cmpi d a c i) st = execCmpi d a c i st := rfl
theorem exec_li (d : Fin 16) (i : Fin 65536) (st : State) : exec (.li d i) st = execLi d i st := rfl
theorem exec_getc (d : Fin 16) (n : Fin 4096) (st : State) : exec (.getc d n) st = execGetc d n st := rfl
theorem exec_setc (a : Fin 32) (n : Fin 4096) (st : State) : exec (.setc a n) st = execSetc a n st := rfl
theorem exec_setcLogBase (a : Fin 32) (st : State) : exec (.setcLogBase a) st = execSetcLogBase a st := rfl
theorem exec_setcTrace (a : Fin 32) (n : Fin 2) (st : State) : exec (.setcTrace a n) st = execSetcTrace a n st := rfl
theorem exec_setcEvRebase (a : Fin 32) (n : Fin 2) (st : State) : exec (.setcEvRebase a n) st = execSetcEvRebase a n st := rfl
theorem exec_setcEvSpill (a : Fin 32) (st : State) : exec (.setcEvSpill a) st = execSetcEvSpill a st := rfl
theorem exec_setcMxMode (a : Fin 32) (n : Fin 2) (st : State) : exec (.setcMxMode a n) st = execSetcMxMode a n st := rfl
theorem exec_br (a b : Fin 32) (c : Fin 8) (p : Fin 4096) (st : State) : exec (.br a b c p) st = execBr a b c p st := rfl
theorem exec_jmp (p : Fin 33554432) (st : State) : exec (.jmp p) st = execJmp p st := rfl
theorem exec_call (p : Fin 33554432) (st : State) : exec (.call p) st = execCall p st := rfl
theorem exec_jr (a : Fin 32) (st : State) : exec (.jr a) st = execJr a st := rfl
theorem exec_callr (a : Fin 32) (st : State) : exec (.callr a) st = execCallr a st := rfl
theorem exec_lnest (d : Fin 16) (a : Fin 32) (st : State) : exec (.lnest d a) st = execLnest d a st := rfl
theorem exec_lnext (p : Fin 4096) (st : State) : exec (.lnext p) st = execLnext p st := rfl
theorem exec_rep (n : Fin 8) (a : Fin 32) (s0 t : Fin 8) (c : Fin 2048) (st : State) : exec (.rep n a s0 t c) st = execRep n a s0 t c st := rfl
theorem exec_repw (st : State) : exec (.repw) st = execRepw st := rfl
theorem exec_wait (d : Fin 16) (a b : Fin 32) (st : State) : exec (.wait d a b) st = execWait d a b st := rfl
theorem exec_done (st : State) : exec (.done) st = execDone st := rfl
theorem exec_yield (st : State) : exec (.yield) st = execYield st := rfl
theorem exec_trap (a : Fin 32) (st : State) : exec (.trap a) st = execTrap a st := rfl
theorem exec_brk (st : State) : exec (.brk) st = execBrk st := rfl
theorem exec_eret (st : State) : exec (.eret) st = execEret st := rfl
theorem exec_chk (st : State) : exec (.chk) st = execChk st := rfl
theorem exec_nop (st : State) : exec (.nop) st = execNop st := rfl
theorem exec_cancel (a b : Fin 32) (st : State) : exec (.cancel a b) st = execCancel a b st := rfl
theorem exec_cancelh (a b : Fin 32) (st : State) : exec (.cancelh a b) st = execCancelh a b st := rfl
theorem exec_tlbinv (a b : Fin 32) (st : State) : exec (.tlbinv a b) st = execTlbinv a b st := rfl
theorem exec_fbflush (d : Fin 16) (a : Fin 32) (st : State) : exec (.fbflush d a) st = execFbflush d a st := rfl
theorem exec_halt (st : State) : exec (.halt) st = execHalt st := rfl
theorem exec_ld (d : Fin 16) (a : Fin 32) (w : Fin 4) (s0 : Fin 2) (c : Fin 4) (o : Fin 2048) (st : State) : exec (.ld d a w s0 c o) st = execLd d a w s0 c o st := rfl
theorem exec_st (b a : Fin 32) (w c : Fin 4) (o : Fin 2048) (st : State) : exec (.st b a w c o) st = execSt b a w c o st := rfl
theorem exec_ldx (d : Fin 16) (a b : Fin 32) (w : Fin 4) (s0 : Fin 2) (c : Fin 4) (k : Fin 2) (st : State) : exec (.ldx d a b w s0 c k) st = execLdx d a b w s0 c k st := rfl
theorem exec_stx (d : Fin 16) (a b : Fin 32) (w c : Fin 4) (k : Fin 2) (st : State) : exec (.stx d a b w c k) st = execStx d a b w c k st := rfl
theorem exec_ldAcq (d : Fin 16) (a : Fin 32) (p : Fin 8) (w : Fin 4) (s0 : Fin 2) (st : State) : exec (.ldAcq d a p w s0) st = execLdAcq d a p w s0 st := rfl
theorem exec_stRel (a b : Fin 32) (p : Fin 8) (w : Fin 4) (st : State) : exec (.stRel a b p w) st = execStRel a b p w st := rfl
theorem exec_ldSc (d : Fin 16) (a : Fin 32) (p : Fin 8) (w : Fin 4) (s0 : Fin 2) (st : State) : exec (.ldSc d a p w s0) st = execLdSc d a p w s0 st := rfl
theorem exec_stSc (a b : Fin 32) (p : Fin 8) (w : Fin 4) (st : State) : exec (.stSc a b p w) st = execStSc a b p w st := rfl
theorem exec_amoAdd (d : Fin 16) (a b : Fin 32) (p : Fin 8) (o : Fin 4) (w : Fin 2) (st : State) : exec (.amoAdd d a b p o w) st = execAmoAdd d a b p o w st := rfl
theorem exec_amoAnd (d : Fin 16) (a b : Fin 32) (p : Fin 8) (o : Fin 4) (w : Fin 2) (st : State) : exec (.amoAnd d a b p o w) st = execAmoAnd d a b p o w st := rfl
theorem exec_amoOr (d : Fin 16) (a b : Fin 32) (p : Fin 8) (o : Fin 4) (w : Fin 2) (st : State) : exec (.amoOr d a b p o w) st = execAmoOr d a b p o w st := rfl
theorem exec_amoXor (d : Fin 16) (a b : Fin 32) (p : Fin 8) (o : Fin 4) (w : Fin 2) (st : State) : exec (.amoXor d a b p o w) st = execAmoXor d a b p o w st := rfl
theorem exec_amoMin (d : Fin 16) (a b : Fin 32) (p : Fin 8) (o : Fin 4) (w : Fin 2) (st : State) : exec (.amoMin d a b p o w) st = execAmoMin d a b p o w st := rfl
theorem exec_amoMax (d : Fin 16) (a b : Fin 32) (p : Fin 8) (o : Fin 4) (w : Fin 2) (st : State) : exec (.amoMax d a b p o w) st = execAmoMax d a b p o w st := rfl
theorem exec_amoMinz (d : Fin 16) (a b : Fin 32) (p : Fin 8) (o : Fin 4) (w : Fin 2) (st : State) : exec (.amoMinz d a b p o w) st = execAmoMinz d a b p o w st := rfl
theorem exec_amoMaxz (d : Fin 16) (a b : Fin 32) (p : Fin 8) (o : Fin 4) (w : Fin 2) (st : State) : exec (.amoMaxz d a b p o w) st = execAmoMaxz d a b p o w st := rfl
theorem exec_amoSwap (d : Fin 16) (a b : Fin 32) (p : Fin 8) (o : Fin 4) (w : Fin 2) (st : State) : exec (.amoSwap d a b p o w) st = execAmoSwap d a b p o w st := rfl
theorem exec_amoFadd (d : Fin 16) (a b : Fin 32) (p : Fin 8) (o : Fin 4) (w : Fin 2) (st : State) : exec (.amoFadd d a b p o w) st = execAmoFadd d a b p o w st := rfl
theorem exec_amoIncw (d : Fin 16) (a b : Fin 32) (p : Fin 8) (o : Fin 4) (w : Fin 2) (st : State) : exec (.amoIncw d a b p o w) st = execAmoIncw d a b p o w st := rfl
theorem exec_redAdd (a b : Fin 32) (p : Fin 8) (w : Fin 2) (st : State) : exec (.redAdd a b p w) st = execRedAdd a b p w st := rfl
theorem exec_redAnd (a b : Fin 32) (p : Fin 8) (w : Fin 2) (st : State) : exec (.redAnd a b p w) st = execRedAnd a b p w st := rfl
theorem exec_redOr (a b : Fin 32) (p : Fin 8) (w : Fin 2) (st : State) : exec (.redOr a b p w) st = execRedOr a b p w st := rfl
theorem exec_redXor (a b : Fin 32) (p : Fin 8) (w : Fin 2) (st : State) : exec (.redXor a b p w) st = execRedXor a b p w st := rfl
theorem exec_redMin (a b : Fin 32) (p : Fin 8) (w : Fin 2) (st : State) : exec (.redMin a b p w) st = execRedMin a b p w st := rfl
theorem exec_redMax (a b : Fin 32) (p : Fin 8) (w : Fin 2) (st : State) : exec (.redMax a b p w) st = execRedMax a b p w st := rfl
theorem exec_redMinz (a b : Fin 32) (p : Fin 8) (w : Fin 2) (st : State) : exec (.redMinz a b p w) st = execRedMinz a b p w st := rfl
theorem exec_redMaxz (a b : Fin 32) (p : Fin 8) (w : Fin 2) (st : State) : exec (.redMaxz a b p w) st = execRedMaxz a b p w st := rfl
theorem exec_redSwap (a b : Fin 32) (p : Fin 8) (w : Fin 2) (st : State) : exec (.redSwap a b p w) st = execRedSwap a b p w st := rfl
theorem exec_redFadd (a b : Fin 32) (p : Fin 8) (w : Fin 2) (st : State) : exec (.redFadd a b p w) st = execRedFadd a b p w st := rfl
theorem exec_cas (d : Fin 16) (a b : Fin 32) (p : Fin 8) (o : Fin 4) (w : Fin 2) (c : Fin 16) (st : State) : exec (.cas d a b p o w c) st = execCas d a b p o w c st := rfl
theorem exec_fenceAcq (p : Fin 8) (st : State) : exec (.fenceAcq p) st = execFenceAcq p st := rfl
theorem exec_fenceRel (p : Fin 8) (st : State) : exec (.fenceRel p) st = execFenceRel p st := rfl
theorem exec_fenceFull (p : Fin 8) (st : State) : exec (.fenceFull p) st = execFenceFull p st := rfl
theorem exec_pf (a : Fin 32) (st : State) : exec (.pf a) st = execPf a st := rfl
theorem exec_l1inv (a b : Fin 32) (st : State) : exec (.l1inv a b) st = execL1inv a b st := rfl
theorem exec_sbind (s0 : Fin 8) (b : Fin 32) (st : State) : exec (.sbind s0 b) st = execSbind s0 b st := rfl
theorem exec_sunbind (s0 : Fin 8) (st : State) : exec (.sunbind s0) st = execSunbind s0 st := rfl
theorem exec_sstat (d : Fin 16) (s0 : Fin 8) (st : State) : exec (.sstat d s0) st = execSstat d s0 st := rfl
theorem exec_ejob (a : Fin 32) (st : State) : exec (.ejob a) st = execEjob a st := rfl
theorem exec_vaddFp (d : Fin 16) (a b : Fin 32) (t m : Fin 8) (st : State) : exec (.vaddFp d a b t m) st = execVaddFp d a b t m st := rfl
theorem exec_vsubFp (d : Fin 16) (a b : Fin 32) (t m : Fin 8) (st : State) : exec (.vsubFp d a b t m) st = execVsubFp d a b t m st := rfl
theorem exec_vmulFp (d : Fin 16) (a b : Fin 32) (t m : Fin 8) (st : State) : exec (.vmulFp d a b t m) st = execVmulFp d a b t m st := rfl
theorem exec_vmlaFp (d : Fin 16) (a b : Fin 32) (t m : Fin 8) (st : State) : exec (.vmlaFp d a b t m) st = execVmlaFp d a b t m st := rfl
theorem exec_vmlsFp (d : Fin 16) (a b : Fin 32) (t m : Fin 8) (st : State) : exec (.vmlsFp d a b t m) st = execVmlsFp d a b t m st := rfl
theorem exec_vminFp (d : Fin 16) (a b : Fin 32) (t m : Fin 8) (st : State) : exec (.vminFp d a b t m) st = execVminFp d a b t m st := rfl
theorem exec_vmaxFp (d : Fin 16) (a b : Fin 32) (t m : Fin 8) (st : State) : exec (.vmaxFp d a b t m) st = execVmaxFp d a b t m st := rfl
theorem exec_vabsFp (d : Fin 16) (a : Fin 32) (t m : Fin 8) (st : State) : exec (.vabsFp d a t m) st = execVabsFp d a t m st := rfl
theorem exec_vnegFp (d : Fin 16) (a : Fin 32) (t m : Fin 8) (st : State) : exec (.vnegFp d a t m) st = execVnegFp d a t m st := rfl
theorem exec_vdiv (d : Fin 16) (a b : Fin 32) (t m : Fin 8) (st : State) : exec (.vdiv d a b t m) st = execVdiv d a b t m st := rfl
theorem exec_vsqrt (d : Fin 16) (a : Fin 32) (t m : Fin 8) (st : State) : exec (.vsqrt d a t m) st = execVsqrt d a t m st := rfl
theorem exec_vrcp (d : Fin 16) (a : Fin 32) (t m : Fin 8) (st : State) : exec (.vrcp d a t m) st = execVrcp d a t m st := rfl
theorem exec_vrsq (d : Fin 16) (a : Fin 32) (t m : Fin 8) (st : State) : exec (.vrsq d a t m) st = execVrsq d a t m st := rfl
theorem exec_vaddInt (d : Fin 16) (a b : Fin 32) (t m : Fin 8) (st : State) : exec (.vaddInt d a b t m) st = execVaddInt d a b t m st := rfl
theorem exec_vsubInt (d : Fin 16) (a b : Fin 32) (t m : Fin 8) (st : State) : exec (.vsubInt d a b t m) st = execVsubInt d a b t m st := rfl
theorem exec_vmulInt (d : Fin 16) (a b : Fin 32) (t m : Fin 8) (st : State) : exec (.vmulInt d a b t m) st = execVmulInt d a b t m st := rfl
theorem exec_vmlaInt (d : Fin 16) (a b : Fin 32) (t m : Fin 8) (st : State) : exec (.vmlaInt d a b t m) st = execVmlaInt d a b t m st := rfl
theorem exec_vminInt (d : Fin 16) (a b : Fin 32) (t m : Fin 8) (st : State) : exec (.vminInt d a b t m) st = execVminInt d a b t m st := rfl
theorem exec_vmaxInt (d : Fin 16) (a b : Fin 32) (t m : Fin 8) (st : State) : exec (.vmaxInt d a b t m) st = execVmaxInt d a b t m st := rfl
theorem exec_vminz (d : Fin 16) (a b : Fin 32) (t m : Fin 8) (st : State) : exec (.vminz d a b t m) st = execVminz d a b t m st := rfl
theorem exec_vmaxz (d : Fin 16) (a b : Fin 32) (t m : Fin 8) (st : State) : exec (.vmaxz d a b t m) st = execVmaxz d a b t m st := rfl
theorem exec_vabsInt (d : Fin 16) (a : Fin 32) (t m : Fin 8) (st : State) : exec (.vabsInt d a t m) st = execVabsInt d a t m st := rfl
theorem exec_vnegInt (d : Fin 16) (a : Fin 32) (t m : Fin 8) (st : State) : exec (.vnegInt d a t m) st = execVnegInt d a t m st := rfl
theorem exec_vadds (d : Fin 16) (a b : Fin 32) (t m : Fin 8) (st : State) : exec (.vadds d a b t m) st = execVadds d a b t m st := rfl
theorem exec_vsubs (d : Fin 16) (a b : Fin 32) (t m : Fin 8) (st : State) : exec (.vsubs d a b t m) st = execVsubs d a b t m st := rfl
theorem exec_vaddsz (d : Fin 16) (a b : Fin 32) (t m : Fin 8) (st : State) : exec (.vaddsz d a b t m) st = execVaddsz d a b t m st := rfl
theorem exec_vsubsz (d : Fin 16) (a b : Fin 32) (t m : Fin 8) (st : State) : exec (.vsubsz d a b t m) st = execVsubsz d a b t m st := rfl
theorem exec_vmulh (d : Fin 16) (a b : Fin 32) (t m : Fin 8) (st : State) : exec (.vmulh d a b t m) st = execVmulh d a b t m st := rfl
theorem exec_vdot4 (d : Fin 16) (a b : Fin 32) (t m : Fin 8) (st : State) : exec (.vdot4 d a b t m) st = execVdot4 d a b t m st := rfl
theorem exec_vdot4z (d : Fin 16) (a b : Fin 32) (t m : Fin 8) (st : State) : exec (.vdot4z d a b t m) st = execVdot4z d a b t m st := rfl
theorem exec_vclmul (d : Fin 16) (a b : Fin 32) (t m : Fin 8) (st : State) : exec (.vclmul d a b t m) st = execVclmul d a b t m st := rfl
theorem exec_vclmulh (d : Fin 16) (a b : Fin 32) (t m : Fin 8) (st : State) : exec (.vclmulh d a b t m) st = execVclmulh d a b t m st := rfl
theorem exec_vand (d : Fin 16) (a b : Fin 32) (t m : Fin 8) (st : State) : exec (.vand d a b t m) st = execVand d a b t m st := rfl
theorem exec_vor (d : Fin 16) (a b : Fin 32) (t m : Fin 8) (st : State) : exec (.vor d a b t m) st = execVor d a b t m st := rfl
theorem exec_vxor (d : Fin 16) (a b : Fin 32) (t m : Fin 8) (st : State) : exec (.vxor d a b t m) st = execVxor d a b t m st := rfl
theorem exec_vandn (d : Fin 16) (a b : Fin 32) (t m : Fin 8) (st : State) : exec (.vandn d a b t m) st = execVandn d a b t m st := rfl
theorem exec_vnot (d : Fin 16) (a : Fin 32) (t m : Fin 8) (st : State) : exec (.vnot d a t m) st = execVnot d a t m st := rfl
theorem exec_vshl (d : Fin 16) (a b : Fin 32) (t m : Fin 8) (st : State) : exec (.vshl d a b t m) st = execVshl d a b t m st := rfl
theorem exec_vshr (d : Fin 16) (a b : Fin 32) (t m : Fin 8) (st : State) : exec (.vshr d a b t m) st = execVshr d a b t m st := rfl
theorem exec_vsra (d : Fin 16) (a b : Fin 32) (t m : Fin 8) (st : State) : exec (.vsra d a b t m) st = execVsra d a b t m st := rfl
theorem exec_vpopc (d : Fin 16) (a : Fin 32) (t m : Fin 8) (st : State) : exec (.vpopc d a t m) st = execVpopc d a t m st := rfl
theorem exec_vclz (d : Fin 16) (a : Fin 32) (t m : Fin 8) (st : State) : exec (.vclz d a t m) st = execVclz d a t m st := rfl
theorem exec_vshli (d : Fin 16) (a i : Fin 32) (t m : Fin 8) (st : State) : exec (.vshli d a i t m) st = execVshli d a i t m st := rfl
theorem exec_vshri (d : Fin 16) (a i : Fin 32) (t m : Fin 8) (st : State) : exec (.vshri d a i t m) st = execVshri d a i t m st := rfl
theorem exec_vsrai (d : Fin 16) (a i : Fin 32) (t m : Fin 8) (st : State) : exec (.vsrai d a i t m) st = execVsrai d a i t m st := rfl
theorem exec_veq (d : Fin 16) (a b : Fin 32) (t m : Fin 8) (st : State) : exec (.veq d a b t m) st = execVeq d a b t m st := rfl
theorem exec_vne (d : Fin 16) (a b : Fin 32) (t m : Fin 8) (st : State) : exec (.vne d a b t m) st = execVne d a b t m st := rfl
theorem exec_vlt (d : Fin 16) (a b : Fin 32) (t m : Fin 8) (st : State) : exec (.vlt d a b t m) st = execVlt d a b t m st := rfl
theorem exec_vge (d : Fin 16) (a b : Fin 32) (t m : Fin 8) (st : State) : exec (.vge d a b t m) st = execVge d a b t m st := rfl
theorem exec_vlo (d : Fin 16) (a b : Fin 32) (t m : Fin 8) (st : State) : exec (.vlo d a b t m) st = execVlo d a b t m st := rfl
theorem exec_vhs (d : Fin 16) (a b : Fin 32) (t m : Fin 8) (st : State) : exec (.vhs d a b t m) st = execVhs d a b t m st := rfl
theorem exec_vfeq (d : Fin 16) (a b : Fin 32) (t m : Fin 8) (st : State) : exec (.vfeq d a b t m) st = execVfeq d a b t m st := rfl
theorem exec_vflt (d : Fin 16) (a b : Fin 32) (t m : Fin 8) (st : State) : exec (.vflt d a b t m) st = execVflt d a b t m st := rfl
theorem exec_vfle (d : Fin 16) (a b : Fin 32) (t m : Fin 8) (st : State) : exec (.vfle d a b t m) st = execVfle d a b t m st := rfl
theorem exec_vfun (d : Fin 16) (a b : Fin 32) (t m : Fin 8) (st : State) : exec (.vfun d a b t m) st = execVfun d a b t m st := rfl
theorem exec_mand (d : Fin 16) (a b : Fin 32) (t : Fin 8) (st : State) : exec (.mand d a b t) st = execMand d a b t st := rfl
theorem exec_mor (d : Fin 16) (a b : Fin 32) (t : Fin 8) (st : State) : exec (.mor d a b t) st = execMor d a b t st := rfl
theorem exec_mxor (d : Fin 16) (a b : Fin 32) (t : Fin 8) (st : State) : exec (.mxor d a b t) st = execMxor d a b t st := rfl
theorem exec_mandn (d : Fin 16) (a b : Fin 32) (t : Fin 8) (st : State) : exec (.mandn d a b t) st = execMandn d a b t st := rfl
theorem exec_mpop (d : Fin 16) (a : Fin 32) (t : Fin 8) (st : State) : exec (.mpop d a t) st = execMpop d a t st := rfl
theorem exec_mffs (d : Fin 16) (a : Fin 32) (t : Fin 8) (st : State) : exec (.mffs d a t) st = execMffs d a t st := rfl
theorem exec_vsel (d : Fin 16) (a b : Fin 32) (t m : Fin 8) (st : State) : exec (.vsel d a b t m) st = execVsel d a b t m st := rfl
theorem exec_vcvt (d : Fin 16) (a : Fin 32) (r : Fin 4) (s0 t m : Fin 8) (st : State) : exec (.vcvt d a r s0 t m) st = execVcvt d a r s0 t m st := rfl
theorem exec_vf2i (d : Fin 16) (a : Fin 32) (r : Fin 4) (s0 t m : Fin 8) (st : State) : exec (.vf2i d a r s0 t m) st = execVf2i d a r s0 t m st := rfl
theorem exec_vi2f (d : Fin 16) (a : Fin 32) (r : Fin 4) (s0 t m : Fin 8) (st : State) : exec (.vi2f d a r s0 t m) st = execVi2f d a r s0 t m st := rfl
theorem exec_vnarrow (d : Fin 16) (a : Fin 32) (q : Fin 4) (s0 t m : Fin 8) (st : State) : exec (.vnarrow d a q s0 t m) st = execVnarrow d a q s0 t m st := rfl
theorem exec_vwiden (d : Fin 16) (a : Fin 32) (h e : Fin 2) (s0 t m : Fin 8) (st : State) : exec (.vwiden d a h e s0 t m) st = execVwiden d a h e s0 t m st := rfl
theorem exec_vperm (d : Fin 16) (a b : Fin 32) (t m : Fin 8) (st : State) : exec (.vperm d a b t m) st = execVperm d a b t m st := rfl
theorem exec_vslideup (d : Fin 16) (a b : Fin 32) (t m : Fin 8) (st : State) : exec (.vslideup d a b t m) st = execVslideup d a b t m st := rfl
theorem exec_vslidedn (d : Fin 16) (a b : Fin 32) (t m : Fin 8) (st : State) : exec (.vslidedn d a b t m) st = execVslidedn d a b t m st := rfl
theorem exec_vcompress (d : Fin 16) (a : Fin 32) (t m : Fin 8) (st : State) : exec (.vcompress d a t m) st = execVcompress d a t m st := rfl
theorem exec_vexpand (d : Fin 16) (a : Fin 32) (t m : Fin 8) (st : State) : exec (.vexpand d a t m) st = execVexpand d a t m st := rfl
theorem exec_vzipLo (d : Fin 16) (a b : Fin 32) (t m : Fin 8) (st : State) : exec (.vzipLo d a b t m) st = execVzipLo d a b t m st := rfl
theorem exec_vzipHi (d : Fin 16) (a b : Fin 32) (t m : Fin 8) (st : State) : exec (.vzipHi d a b t m) st = execVzipHi d a b t m st := rfl
theorem exec_vuzpEv (d : Fin 16) (a b : Fin 32) (t m : Fin 8) (st : State) : exec (.vuzpEv d a b t m) st = execVuzpEv d a b t m st := rfl
theorem exec_vuzpOd (d : Fin 16) (a b : Fin 32) (t m : Fin 8) (st : State) : exec (.vuzpOd d a b t m) st = execVuzpOd d a b t m st := rfl
theorem exec_vrev (d : Fin 16) (a : Fin 32) (t m : Fin 8) (st : State) : exec (.vrev d a t m) st = execVrev d a t m st := rfl
theorem exec_vpack (d : Fin 16) (a b : Fin 32) (t m : Fin 8) (st : State) : exec (.vpack d a b t m) st = execVpack d a b t m st := rfl
theorem exec_vradd (d : Fin 16) (a : Fin 32) (t m : Fin 8) (st : State) : exec (.vradd d a t m) st = execVradd d a t m st := rfl
theorem exec_vrmin (d : Fin 16) (a : Fin 32) (t m : Fin 8) (st : State) : exec (.vrmin d a t m) st = execVrmin d a t m st := rfl
theorem exec_vrmax (d : Fin 16) (a : Fin 32) (t m : Fin 8) (st : State) : exec (.vrmax d a t m) st = execVrmax d a t m st := rfl
theorem exec_vrminz (d : Fin 16) (a : Fin 32) (t m : Fin 8) (st : State) : exec (.vrminz d a t m) st = execVrminz d a t m st := rfl
theorem exec_vrmaxz (d : Fin 16) (a : Fin 32) (t m : Fin 8) (st : State) : exec (.vrmaxz d a t m) st = execVrmaxz d a t m st := rfl
theorem exec_vrand (d : Fin 16) (a : Fin 32) (t m : Fin 8) (st : State) : exec (.vrand d a t m) st = execVrand d a t m st := rfl
theorem exec_vror (d : Fin 16) (a : Fin 32) (t m : Fin 8) (st : State) : exec (.vror d a t m) st = execVror d a t m st := rfl
theorem exec_vrxor (d : Fin 16) (a : Fin 32) (t m : Fin 8) (st : State) : exec (.vrxor d a t m) st = execVrxor d a t m st := rfl
theorem exec_vrfadd (d : Fin 16) (a : Fin 32) (t m : Fin 8) (st : State) : exec (.vrfadd d a t m) st = execVrfadd d a t m st := rfl
theorem exec_vscanAdd (d : Fin 16) (a : Fin 32) (t m : Fin 8) (st : State) : exec (.vscanAdd d a t m) st = execVscanAdd d a t m st := rfl
theorem exec_vscanXor (d : Fin 16) (a : Fin 32) (t m : Fin 8) (st : State) : exec (.vscanXor d a t m) st = execVscanXor d a t m st := rfl
theorem exec_vscanMax (d : Fin 16) (a : Fin 32) (t m : Fin 8) (st : State) : exec (.vscanMax d a t m) st = execVscanMax d a t m st := rfl
theorem exec_vsplat (d : Fin 16) (a : Fin 32) (t m : Fin 8) (st : State) : exec (.vsplat d a t m) st = execVsplat d a t m st := rfl
theorem exec_vext (d : Fin 16) (a b : Fin 32) (t : Fin 8) (st : State) : exec (.vext d a b t) st = execVext d a b t st := rfl
theorem exec_vins (d : Fin 16) (a b : Fin 32) (t : Fin 8) (st : State) : exec (.vins d a b t) st = execVins d a b t st := rfl
theorem exec_vmov (d : Fin 16) (a : Fin 32) (t m : Fin 8) (st : State) : exec (.vmov d a t m) st = execVmov d a t m st := rfl
theorem exec_vidx (d : Fin 16) (t m : Fin 8) (st : State) : exec (.vidx d t m) st = execVidx d t m st := rfl
theorem exec_vbits (d : Fin 16) (a : Fin 32) (t : Fin 8) (st : State) : exec (.vbits d a t) st = execVbits d a t st := rfl
theorem exec_vmsk (d : Fin 16) (a : Fin 32) (t : Fin 8) (st : State) : exec (.vmsk d a t) st = execVmsk d a t st := rfl
theorem exec_vld (d : Fin 16) (a : Fin 32) (z c : Fin 4) (o : Fin 2048) (st : State) : exec (.vld d a z c o) st = execVld d a z c o st := rfl
theorem exec_vst (b a : Fin 32) (z c : Fin 4) (o : Fin 2048) (st : State) : exec (.vst b a z c o) st = execVst b a z c o st := rfl
theorem exec_vlss (d : Fin 16) (a b : Fin 32) (t : Fin 8) (c : Fin 4) (m : Fin 8) (st : State) : exec (.vlss d a b t c m) st = execVlss d a b t c m st := rfl
theorem exec_vsss (d : Fin 16) (a b : Fin 32) (t : Fin 8) (c : Fin 4) (m : Fin 8) (st : State) : exec (.vsss d a b t c m) st = execVsss d a b t c m st := rfl
theorem exec_vgth (d : Fin 16) (a b : Fin 32) (k : Fin 16) (i e : Fin 4) (m : Fin 8) (st : State) : exec (.vgth d a b k i e m) st = execVgth d a b k i e m st := rfl
theorem exec_vsct (d : Fin 16) (a b : Fin 32) (k : Fin 16) (i e : Fin 4) (m : Fin 8) (st : State) : exec (.vsct d a b k i e m) st = execVsct d a b k i e m st := rfl
theorem exec_vldl (d : Fin 16) (a : Fin 32) (t m : Fin 8) (st : State) : exec (.vldl d a t m) st = execVldl d a t m st := rfl
theorem exec_vldlx (d : Fin 16) (a : Fin 32) (t m : Fin 8) (st : State) : exec (.vldlx d a t m) st = execVldlx d a t m st := rfl
theorem exec_vstl (a b : Fin 32) (t m : Fin 8) (st : State) : exec (.vstl a b t m) st = execVstl a b t m st := rfl
theorem exec_vstlx (a b : Fin 32) (t m : Fin 8) (st : State) : exec (.vstlx a b t m) st = execVstlx a b t m st := rfl
theorem exec_tcfg (n : Fin 64) (a b : Fin 32) (st : State) : exec (.tcfg n a b) st = execTcfg n a b st := rfl
theorem exec_tld (n : Fin 64) (a b : Fin 32) (st : State) : exec (.tld n a b) st = execTld n a b st := rfl
theorem exec_tst (n : Fin 64) (a b : Fin 32) (st : State) : exec (.tst n a b) st = execTst n a b st := rfl
theorem exec_tfetch (n : Fin 64) (st : State) : exec (.tfetch n) st = execTfetch n st := rfl
theorem exec_tevict (n : Fin 64) (st : State) : exec (.tevict n) st = execTevict n st := rfl
theorem exec_tzero (n : Fin 64) (st : State) : exec (.tzero n) st = execTzero n st := rfl
theorem exec_tstat (n : Fin 64) (s0 : Fin 32) (st : State) : exec (.tstat n s0) st = execTstat n s0 st := rfl
theorem exec_tpin (n : Fin 64) (st : State) : exec (.tpin n) st = execTpin n st := rfl
theorem exec_tunpin (n : Fin 64) (st : State) : exec (.tunpin n) st = execTunpin n st := rfl
theorem exec_mwld (u : Fin 16) (st : State) : exec (.mwld u) st = execMwld u st := rfl
theorem exec_mwldSp (u : Fin 16) (st : State) : exec (.mwldSp u) st = execMwldSp u st := rfl
theorem exec_mmeta (s0 a : Fin 32) (st : State) : exec (.mmeta s0 a) st = execMmeta s0 a st := rfl
theorem exec_mmul (t : Fin 16) (c : Fin 2) (st : State) : exec (.mmul t c) st = execMmul t c st := rfl
theorem exec_mmulSc (t u : Fin 16) (a : Fin 32) (c : Fin 2) (st : State) : exec (.mmulSc t u a c) st = execMmulSc t u a c st := rfl
theorem exec_mwsc (a : Fin 32) (st : State) : exec (.mwsc a) st = execMwsc a st := rfl
theorem exec_mst (d : Fin 16) (st : State) : exec (.mst d) st = execMst d st := rfl
theorem exec_mld (t : Fin 16) (st : State) : exec (.mld t) st = execMld t st := rfl
theorem exec_mfence (st : State) : exec (.mfence) st = execMfence st := rfl
theorem exec_cpush (a b : Fin 32) (s0 : Fin 8) (st : State) : exec (.cpush a b s0) st = execCpush a b s0 st := rfl
theorem exec_cflush (s0 : Fin 8) (st : State) : exec (.cflush s0) st = execCflush s0 st := rfl
theorem exec_carm (a b : Fin 32) (s0 : Fin 8) (st : State) : exec (.carm a b s0) st = execCarm a b s0 st := rfl
theorem exec_evpop (d : Fin 16) (st : State) : exec (.evpop d) st = execEvpop d st := rfl
theorem exec_evpay (d : Fin 16) (st : State) : exec (.evpay d) st = execEvpay d st := rfl
theorem exec_evsend (a b : Fin 32) (n : Fin 2) (st : State) : exec (.evsend a b n) st = execEvsend a b n st := rfl
theorem exec_evwinClose (a b : Fin 32) (st : State) : exec (.evwinClose a b) st = execEvwinClose a b st := rfl
theorem exec_evwinOrigin (a b : Fin 32) (st : State) : exec (.evwinOrigin a b) st = execEvwinOrigin a b st := rfl
theorem exec_evwinSlots (a b : Fin 32) (st : State) : exec (.evwinSlots a b) st = execEvwinSlots a b st := rfl
theorem exec_evstat (d : Fin 16) (st : State) : exec (.evstat d) st = execEvstat d st := rfl
theorem exec_spawn (a : Fin 32) (st : State) : exec (.spawn a) st = execSpawn a st := rfl
theorem exec_dec (a : Fin 32) (st : State) : exec (.dec a) st = execDec a st := rfl
theorem exec_qpush (d : Fin 16) (a b : Fin 32) (st : State) : exec (.qpush d a b) st = execQpush d a b st := rfl
theorem exec_qpop (d : Fin 16) (a : Fin 32) (st : State) : exec (.qpop d a) st = execQpop d a st := rfl
theorem exec_bar (d : Fin 16) (a b : Fin 32) (st : State) : exec (.bar d a b) st = execBar d a b st := rfl
theorem exec_hntStall (g f e d c b a : Fin 8) (st : State) : exec (.hntStall g f e d c b a) st = execHntStall g f e d c b a st := rfl
theorem exec_hntImm (p : Fin 2097152) (st : State) : exec (.hntImm p) st = execHntImm p st := rfl
theorem exec_hntMod (p : Fin 2097152) (st : State) : exec (.hntMod p) st = execHntMod p st := rfl
theorem exec_hntBr (p : Fin 2097152) (st : State) : exec (.hntBr p) st = execHntBr p st := rfl
theorem exec_hntNop (k : Fin 16) (p : Fin 2097152) (st : State) : exec (.hntNop k p) st = execHntNop k p st := rfl
theorem exec_ylLdFifo (n : Fin 8) (h : Fin 4) (s0 : Fin 32) (st : State) : exec (.ylLdFifo n h s0) st = execYlLdFifo n h s0 st := rfl
theorem exec_ylLdReg (h : Fin 4) (s0 r : Fin 32) (st : State) : exec (.ylLdReg h s0 r) st = execYlLdReg h s0 r st := rfl
theorem exec_ylPush (n : Fin 8) (s0 : Fin 32) (st : State) : exec (.ylPush n s0) st = execYlPush n s0 st := rfl
theorem exec_ylBase (h : Fin 4) (t s0 : Fin 32) (st : State) : exec (.ylBase h t s0) st = execYlBase h t s0 st := rfl
theorem exec_ylWait (n : Fin 8) (r : Fin 32) (st : State) : exec (.ylWait n r) st = execYlWait n r st := rfl
theorem exec_ylEnd (f : Fin 2) (n : Fin 8) (st : State) : exec (.ylEnd f n) st = execYlEnd f n st := rfl
theorem exec_ylPop (n : Fin 8) (r : Fin 32) (st : State) : exec (.ylPop n r) st = execYlPop n r st := rfl
theorem exec_ylSt (n : Fin 8) (h : Fin 4) (s0 : Fin 32) (st : State) : exec (.ylSt n h s0) st = execYlSt n h s0 st := rfl
theorem exec_helperRv32Instr (compressed : Bool) (op : Rv.Op) (st : State) : exec (.helperRv32Instr compressed op) st = execHelperRv32Instr compressed op st := rfl
theorem exec_helperFence (st : State) : exec (.helperFence) st = execHelperFence st := rfl
theorem exec_helperEbreak (compressed : Bool) (st : State) : exec (.helperEbreak compressed) st = execHelperEbreak compressed st := rfl
theorem exec_resultWriteback (c : CoreId) (st : State) : exec (.resultWriteback c) st = execResultWriteback c st := rfl
theorem exec_storePerform (c : CoreId) (i : Nat) (st : State) : exec (.storePerform c i) st = execStorePerform c i st := rfl
theorem exec_l1dSectorFill (c : CoreId) (st : State) : exec (.l1dSectorFill c) st = execL1dSectorFill c st := rfl
theorem exec_fbEventResend (die : Fin 2) (entry : Nat) (st : State) : exec (.fbEventResend die entry) st = execFbEventResend die entry st := rfl
theorem exec_faultRetry (die : Fin 2) (entry gen : Nat) (st : State) : exec (.faultRetry die entry gen) st = execFaultRetry die entry gen st := rfl
theorem exec_tlbinvComplete (c : CoreId) (st : State) : exec (.tlbinvComplete c) st = execTlbinvComplete c st := rfl
theorem exec_parityLand (c : CoreId) (g : Fin 4) (st : State) : exec (.parityLand c g) st = execParityLand c g st := rfl
theorem exec_scrubStep (c : CoreId) (st : State) : exec (.scrubStep c) st = execScrubStep c st := rfl
theorem exec_sqmScrubStep (u : ScrubUnit) (st : State) : exec (.sqmScrubStep u) st = execSqmScrubStep u st := rfl
theorem exec_epochEnd (st : State) : exec (.epochEnd) st = execEpochEnd st := rfl
theorem exec_bankRetire (c : CoreId) (bank : Fin 20) (st : State) : exec (.bankRetire c bank) st = execBankRetire c bank st := rfl
theorem exec_lendClearDone (c : CoreId) (st : State) : exec (.lendClearDone c) st = execLendClearDone c st := rfl
theorem exec_lendEndClearDone (c : CoreId) (st : State) : exec (.lendEndClearDone c) st = execLendEndClearDone c st := rfl
theorem exec_squareClearDone (sq : SquareId) (st : State) : exec (.squareClearDone sq) st = execSquareClearDone sq st := rfl
theorem exec_cspClearDone (die : Fin 2) (seg : Fin 32) (st : State) : exec (.cspClearDone die seg) st = execCspClearDone die seg st := rfl
theorem exec_tileFillLastBeat (c : CoreId) (n : Fin 64) (st : State) : exec (.tileFillLastBeat c n) st = execTileFillLastBeat c n st := rfl
theorem exec_logApplyEntry (c : CoreId) (n : Fin 64) (st : State) : exec (.logApplyEntry c n) st = execLogApplyEntry c n st := rfl
theorem exec_tileDrainDone (c : CoreId) (n : Fin 64) (st : State) : exec (.tileDrainDone c n) st = execTileDrainDone c n st := rfl
theorem exec_tileTransferFault (c : CoreId) (n : Fin 64) (st : State) : exec (.tileTransferFault c n) st = execTileTransferFault c n st := rfl
theorem exec_beaconWindow (st : State) : exec (.beaconWindow) st = execBeaconWindow st := rfl
theorem exec_traceRecordWrite (c : CoreId) (st : State) : exec (.traceRecordWrite c) st = execTraceRecordWrite c st := rfl
theorem exec_engineJobStart (c : CoreId) (id : Nat) (st : State) : exec (.engineJobStart c id) st = execEngineJobStart c id st := rfl
theorem exec_engineJobComplete (c : CoreId) (id : Nat) (st : State) : exec (.engineJobComplete c id) st = execEngineJobComplete c id st := rfl
theorem exec_engineJobFault (c : CoreId) (id : Nat) (st : State) : exec (.engineJobFault c id) st = execEngineJobFault c id st := rfl
theorem exec_ownershipGrant (c : CoreId) (st : State) : exec (.ownershipGrant c) st = execOwnershipGrant c st := rfl
theorem exec_revoke (c : CoreId) (block : Nat) (byOther : Bool) (st : State) : exec (.revoke c block byOther) st = execRevoke c block byOther st := rfl
theorem exec_revokeDataReturn (block : Nat) (st : State) : exec (.revokeDataReturn block) st = execRevokeDataReturn block st := rfl
theorem exec_dramRefresh (die : Fin 2) (ch : Fin 24) (bank : Fin 16) (st : State) : exec (.dramRefresh die ch bank) st = execDramRefresh die ch bank st := rfl
theorem exec_streamFetchReturn (c : CoreId) (s0 : Fin 8) (st : State) : exec (.streamFetchReturn c s0) st = execStreamFetchReturn c s0 st := rfl
theorem exec_mxeLatchLoadDone (sq : SquareId) (st : State) : exec (.mxeLatchLoadDone sq) st = execMxeLatchLoadDone sq st := rfl
theorem exec_mxeCommandStart (sq : SquareId) (st : State) : exec (.mxeCommandStart sq) st = execMxeCommandStart sq st := rfl
theorem exec_mxeRowInject (sq : SquareId) (st : State) : exec (.mxeRowInject sq) st = execMxeRowInject sq st := rfl
theorem exec_mxeCommandComplete (sq : SquareId) (st : State) : exec (.mxeCommandComplete sq) st = execMxeCommandComplete sq st := rfl
theorem exec_mxeQueueWindowStore (c : CoreId) (byStorer : Bool) (data : BitVec 512) (st : State) : exec (.mxeQueueWindowStore c byStorer data) st = execMxeQueueWindowStore c byStorer data st := rfl
theorem exec_copyQueueWindowStore (c : CoreId) (byStorer : Bool) (data : BitVec 512) (st : State) : exec (.copyQueueWindowStore c byStorer data) st = execCopyQueueWindowStore c byStorer data st := rfl
theorem exec_coalescerApply (sq : SquareId) (st : State) : exec (.coalescerApply sq) st = execCoalescerApply sq st := rfl
theorem exec_coalescerTimeout (sq : SquareId) (slot : Fin 8) (st : State) : exec (.coalescerTimeout sq slot) st = execCoalescerTimeout sq slot st := rfl
theorem exec_coalescerTwinReady (sq : SquareId) (slot : Fin 8) (st : State) : exec (.coalescerTwinReady sq slot) st = execCoalescerTwinReady sq slot st := rfl
theorem exec_eventArrive (c : CoreId) (slot : Fin 8) (header payload : BitVec 64) (origin : EventOrigin) (st : State) : exec (.eventArrive c slot header payload origin) st = execEventArrive c slot header payload origin st := rfl
theorem exec_windowStaleTimeout (c : CoreId) (st : State) : exec (.windowStaleTimeout c) st = execWindowStaleTimeout c st := rfl
theorem exec_waitWake (c : CoreId) (st : State) : exec (.waitWake c) st = execWaitWake c st := rfl
theorem exec_waitTimeout (c : CoreId) (st : State) : exec (.waitTimeout c) st = execWaitTimeout c st := rfl
theorem exec_barRelease (c : CoreId) (st : State) : exec (.barRelease c) st = execBarRelease c st := rfl
theorem exec_taskEnd (c : CoreId) (st : State) : exec (.taskEnd c) st = execTaskEnd c st := rfl
theorem exec_selectionRound (die : Fin 2) (st : State) : exec (.selectionRound die) st = execSelectionRound die st := rfl
theorem exec_taskBind (c : CoreId) (st : State) : exec (.taskBind c) st = execTaskBind c st := rfl
theorem exec_taskStart (c : CoreId) (st : State) : exec (.taskStart c) st = execTaskStart c st := rfl
theorem exec_agingTick (st : State) : exec (.agingTick) st = execAgingTick st := rfl
theorem exec_stealRequest (thief : CoreId) (st : State) : exec (.stealRequest thief) st = execStealRequest thief st := rfl
theorem exec_stealReply (thief : CoreId) (st : State) : exec (.stealReply thief) st = execStealReply thief st := rfl
theorem exec_stealBackoff (c : CoreId) (st : State) : exec (.stealBackoff c) st = execStealBackoff c st := rfl
theorem exec_halfExchange (st : State) : exec (.halfExchange) st = execHalfExchange st := rfl
theorem exec_lanternCircuit (st : State) : exec (.lanternCircuit) st = execLanternCircuit st := rfl
theorem exec_forecastTick (st : State) : exec (.forecastTick) st = execForecastTick st := rfl
theorem exec_railSettle (district : Fin 8) (st : State) : exec (.railSettle district) st = execRailSettle district st := rfl
theorem exec_slewStep (district : Fin 8) (st : State) : exec (.slewStep district) st = execSlewStep district st := rfl
theorem exec_nrgUpdate (st : State) : exec (.nrgUpdate) st = execNrgUpdate st := rfl
theorem exec_trqRetry (die : Fin 2) (st : State) : exec (.trqRetry die) st = execTrqRetry die st := rfl
theorem exec_watchdog (c : CoreId) (st : State) : exec (.watchdog c) st = execWatchdog c st := rfl
theorem exec_lockstepMismatch (c : CoreId) (st : State) : exec (.lockstepMismatch c) st = execLockstepMismatch c st := rfl
theorem exec_preemptDrainDone (c : CoreId) (st : State) : exec (.preemptDrainDone c) st = execPreemptDrainDone c st := rfl
theorem exec_jobPtbWrite (job : JobId) (die : Fin 2) (value : BitVec 64) (st : State) : exec (.jobPtbWrite job die value) st = execJobPtbWrite job die value st := rfl
theorem exec_cspOwnWrite (die : Fin 2) (n : Fin 32) (value : BitVec 64) (st : State) : exec (.cspOwnWrite die n value) st = execCspOwnWrite die n value st := rfl
theorem exec_spadForceRetire (c : CoreId) (value : BitVec 64) (st : State) : exec (.spadForceRetire c value) st = execSpadForceRetire c value st := rfl
theorem exec_jobPartWrite (job : JobId) (value : BitVec 64) (st : State) : exec (.jobPartWrite job value) st = execJobPartWrite job value st := rfl
theorem exec_jobCtlWrite (job : JobId) (value : BitVec 64) (st : State) : exec (.jobCtlWrite job value) st = execJobCtlWrite job value st := rfl
theorem exec_hbwBaseWrite (die : Fin 2) (value : BitVec 64) (st : State) : exec (.hbwBaseWrite die value) st = execHbwBaseWrite die value st := rfl
theorem exec_fbKill (die : Fin 2) (value : BitVec 64) (st : State) : exec (.fbKill die value) st = execFbKill die value st := rfl
theorem exec_preCtlReq (c : CoreId) (value : BitVec 64) (st : State) : exec (.preCtlReq c value) st = execPreCtlReq c value st := rfl
theorem exec_pwrCapWrite (value : BitVec 64) (st : State) : exec (.pwrCapWrite value) st = execPwrCapWrite value st := rfl
theorem exec_secAtreq (value : BitVec 64) (st : State) : exec (.secAtreq value) st = execSecAtreq value st := rfl
theorem exec_secPolWrite (value : BitVec 64) (st : State) : exec (.secPolWrite value) st = execSecPolWrite value st := rfl
theorem exec_ethRouteWrite (stream : Fin 64) (second : Bool) (value : BitVec 64) (st : State) : exec (.ethRouteWrite stream second value) st = execEthRouteWrite stream second value st := rfl
theorem exec_registerWrite (address : BitVec 64) (value : BitVec 64) (st : State) : exec (.registerWrite address value) st = execRegisterWrite address value st := rfl
theorem exec_ethFrameReceive (frame : EthFrame) (st : State) : exec (.ethFrameReceive frame) st = execEthFrameReceive frame st := rfl
theorem exec_roceWrite (conn : Nat) (rkey : BitVec 32) (va : BitVec 64) (data : List (BitVec 8)) (st : State) : exec (.roceWrite conn rkey va data) st = execRoceWrite conn rkey va data st := rfl
theorem exec_roceRead (conn : Nat) (rkey : BitVec 32) (va : BitVec 64) (len : Nat) (st : State) : exec (.roceRead conn rkey va len) st = execRoceRead conn rkey va len st := rfl
theorem exec_roceFetchAdd (conn : Nat) (rkey : BitVec 32) (va : BitVec 64) (addend : BitVec 64) (st : State) : exec (.roceFetchAdd conn rkey va addend) st = execRoceFetchAdd conn rkey va addend st := rfl
theorem exec_roceCompareSwap (conn : Nat) (rkey : BitVec 32) (va : BitVec 64) (compare swap : BitVec 64) (st : State) : exec (.roceCompareSwap conn rkey va compare swap) st = execRoceCompareSwap conn rkey va compare swap st := rfl
theorem exec_place (conn : Nat) (va : BitVec 64) (st : State) : exec (.place conn va) st = execPlace conn va st := rfl
theorem exec_hostDec (conn : Nat) (va : BitVec 64) (st : State) : exec (.hostDec conn va) st = execHostDec conn va st := rfl
theorem exec_hostCancel (conn : Nat) (level : BitVec 64) (st : State) : exec (.hostCancel conn level) st = execHostCancel conn level st := rfl
theorem exec_hostCancelh (conn : Nat) (level : BitVec 64) (st : State) : exec (.hostCancelh conn level) st = execHostCancelh conn level st := rfl
theorem exec_ucieModuleFail (st : State) : exec (.ucieModuleFail) st = execUcieModuleFail st := rfl
theorem exec_thermalThreshold (sensor : Fin 256) (celsius : Int) (st : State) : exec (.thermalThreshold sensor celsius) st = execThermalThreshold sensor celsius st := rfl
theorem exec_memTempChange (die : Fin 2) (hot : Bool) (st : State) : exec (.memTempChange die hot) st = execMemTempChange die hot st := rfl
theorem exec_tamperAlarm (source : AlarmSource) (st : State) : exec (.tamperAlarm source) st = execTamperAlarm source st := rfl
theorem exec_debugUnlockFail (st : State) : exec (.debugUnlockFail) st = execDebugUnlockFail st := rfl
theorem exec_coldReset (flash : List (BitVec 8)) (st : State) : exec (.coldReset flash) st = execColdReset flash st := rfl
theorem exec_bootDatagram (offset : Nat) (data : List (BitVec 8)) (st : State) : exec (.bootDatagram offset data) st = execBootDatagram offset data st := rfl
theorem exec_bootTransferEnd (st : State) : exec (.bootTransferEnd) st = execBootTransferEnd st := rfl
theorem exec_illegalOpEncoding (st : State) : exec (.illegalOpEncoding) st = execIllegalOpEncoding st := rfl
theorem exec_instructionFetchFault (st : State) : exec (.instructionFetchFault) st = execInstructionFetchFault st := rfl
theorem exec_loaderReadReturn (c : CoreId) (st : State) : exec (.loaderReadReturn c) st = execLoaderReadReturn c st := rfl
theorem exec_gptpMessageReceive (grandmaster : Nat) (st : State) : exec (.gptpMessageReceive grandmaster) st = execGptpMessageReceive grandmaster st := rfl
theorem exec_roceUnsupportedRequest (conn : Nat) (st : State) : exec (.roceUnsupportedRequest conn) st = execRoceUnsupportedRequest conn st := rfl
theorem exec_attestationReportDone (st : State) : exec (.attestationReportDone) st = execAttestationReportDone st := rfl

end Sys2Proof.Machine
end

