-- ==== Sys2Proof/Laws/HelperWords.lean ====
section
/-! SUPPORT. Decoding the word of a helper's RV32IM operation gives it back (14 R372), one lemma per format. -/

namespace Sys2Proof.Enc

set_option Elab.async false
/-- The low bits of a number as a field's value. -/
def low (n v : Nat) : Fin (2 ^ n) := ⟨v % 2 ^ n, Nat.mod_lt _ (Nat.two_pow_pos n)⟩

theorem sx_eq (n v : Nat) (o : BitVec 32) (hn : n = 12 ∨ n = 13 ∨ n = 21) (hf : Rv.fits n o = true) (hv : v = o.toNat % 2 ^ n) :
    sx v n = o := by
  have hl := o.isLt
  have : sx v n = BitVec.ofNat 32 o.toNat := by
    unfold sx
    simp only [Rv.fits, decide_eq_true_eq] at hf
    rcases hn with rfl | rfl | rfl
    all_goals
      simp only [Nat.reduceSub, Nat.reducePow] at hf hv ⊢
      split
      · congr 1; omega
      · congr 1; omega
  simpa using this

theorem jal_join (v : Nat) (h : v % 2 = 0) :
    v / 4096 % 256 * 4096 + v / 2048 % 2 * 2048 + v / 2 % 1024 * 2 + v / 1048576 % 2 * 1048576 = v % 2 ^ 21 := by
  rw [show v / 2048 = v / 2 / 1024 by rw [Nat.div_div_eq_div_mul], show v / 4096 = v / 2 / 1024 / 2 by
    rw [Nat.div_div_eq_div_mul, Nat.div_div_eq_div_mul], show v / 1048576 = v / 2 / 1024 / 2 / 256 by
    rw [Nat.div_div_eq_div_mul, Nat.div_div_eq_div_mul, Nat.div_div_eq_div_mul]]
  omega

theorem branch_join (v : Nat) (h : v % 2 = 0) :
    v / 2048 % 2 * 2048 + v / 2 % 16 * 2 + v / 32 % 64 * 32 + v / 4096 % 2 * 4096 = v % 2 ^ 13 := by
  rw [show v / 32 = v / 2 / 16 by rw [Nat.div_div_eq_div_mul], show v / 2048 = v / 2 / 16 / 64 by
    rw [Nat.div_div_eq_div_mul, Nat.div_div_eq_div_mul], show v / 4096 = v / 2 / 16 / 64 / 2 by
    rw [Nat.div_div_eq_div_mul, Nat.div_div_eq_div_mul, Nat.div_div_eq_div_mul]]
  omega

theorem store_join (v : Nat) : v % 32 + v / 32 % 128 * 32 = v % 2 ^ 12 := by omega


theorem rv_upper (c : Nat) (rd : Fin 32) (i : BitVec 32) (x : Nat) (hc : c = 0x37 ∨ c = 0x17) (hi : i.toNat % 4096 = 0)
    (hx : x = c + rd.val * 128 + i.toNat / 4096 * 4096) :
    x % 4 = 3 ∧ x % 128 = c ∧ fld x 7 5 = rd ∧ BitVec.ofNat 32 (x / 4096 * 4096) = i := by
  have := rd.isLt
  have hl := i.isLt
  refine ⟨by omega, by omega, Fin.ext (by show x / 2 ^ 7 % 2 ^ 5 = _; omega), ?_⟩
  have : x / 4096 * 4096 = i.toNat := by omega
  rw [this]; simp

theorem sx_mod (v n : Nat) (hn : 0 < n) : sx v n = sx (v % 2 ^ n) n := by
  unfold sx
  have h : v % 2 ^ n / 2 ^ (n - 1) % 2 = v / 2 ^ (n - 1) % 2 := by
    have := slice_slice v 0 n (n - 1) (by omega)
    simpa using this
  rw [h, Nat.mod_mod]

theorem rv_imm (c : Nat) (rd r : Fin 32) (k : Nat) (hk : k < 8) (o : BitVec 32) (hc : c = 0x67 ∨ c = 0x03 ∨ c = 0x13) (x : Nat)
    (hx : x = word c [⟨20, 12, low 12 o.toNat⟩, ⟨15, 5, r⟩, ⟨12, 3, ⟨k, hk⟩⟩, ⟨7, 5, rd⟩]) :
    x % 4 = 3 ∧ x % 128 = c ∧ fld x 7 5 = rd ∧ x / 4096 % 8 = k ∧ fld x 15 5 = r ∧ x / 1048576 % 4096 = o.toNat % 4096 ∧ (Rv.fits 12 o = true → sx (x / 1048576) 12 = o) := by
  obtain ⟨fs, hf⟩ : ∃ fs : List Field, fs = [⟨20, 12, low 12 o.toNat⟩, ⟨15, 5, r⟩, ⟨12, 3, ⟨k, hk⟩⟩, ⟨7, 5, rd⟩] := ⟨_, rfl⟩
  have hp : places fs = [(20, 12), (15, 5), (12, 3), (7, 5)] := by rw [hf]; rfl
  have ho : ok c fs = true := sound_ok _ _ (by rw [hp]; rcases hc with rfl | rfl | rfl <;> decide +kernel)
  rw [← hf] at hx
  have f0 : x % 4 = 3 := by
    rw [hx]; exact low_eq 2 _ ho (by rw [hp]; rcases hc with rfl | rfl | rfl <;> decide +kernel)
  have f1 : x % 128 = c := by
    rw [hx]; exact low_eq 7 _ ho (by rw [hp]; rcases hc with rfl | rfl | rfl <;> decide +kernel)
  have f2 : fld x 7 5 = rd := by
    rw [hx]; exact fld_eq (field_eq ⟨7, 5, rd⟩ 3 ho (by rw [hf]; rfl))
  have f3 : x / 4096 % 8 = k := by
    rw [hx]; exact field_eq ⟨12, 3, ⟨k, hk⟩⟩ 2 ho (by rw [hf]; rfl)
  have f4 : fld x 15 5 = r := by
    rw [hx]; exact fld_eq (field_eq ⟨15, 5, r⟩ 1 ho (by rw [hf]; rfl))
  have f5 : x / 1048576 % 4096 = o.toNat % 4096 := by
    rw [hx]; exact field_eq ⟨20, 12, low 12 o.toNat⟩ 0 ho (by rw [hf]; rfl)
  have hs : Rv.fits 12 o = true → sx (x / 1048576) 12 = o := by
    intro h
    rw [sx_mod _ _ (by decide)]
    exact sx_eq 12 _ o (by simp) h f5
  exact ⟨f0, f1, f2, f3, f4, f5, hs⟩

theorem rv_aluImm {f : Rv.Alu} (rd r : Fin 32) (o : BitVec 32) {k : Nat} (he : (encodeRv.encodeAlu f).1 = k) (hk : k < 8) (hs : f ≠ .sra) :
    encodeRv (.aluImm f rd r o) = word 0x13 [⟨20, 12, low 12 o.toNat⟩, ⟨15, 5, r⟩, ⟨12, 3, ⟨k, hk⟩⟩, ⟨7, 5, rd⟩] := by
  show 0x13 + rd.val * 128 + (encodeRv.encodeAlu f).1 * 4096 + r.val * 32768 + o.toNat % 4096 * 1048576 + (if f = .sra then 0x40000000 else 0)
    = 0x13 + rd.val * 128 + k * 4096 + r.val * 32768 + o.toNat % 4096 * 1048576
  rw [if_neg hs, he, Nat.add_zero]

theorem rv_shift (rd r sh : Fin 32) (k : Nat) (hk : k < 8) (q : Nat) (hq : q < 128) (x : Nat)
    (hx : x = word 0x13 [⟨25, 7, ⟨q, hq⟩⟩, ⟨20, 5, sh⟩, ⟨15, 5, r⟩, ⟨12, 3, ⟨k, hk⟩⟩, ⟨7, 5, rd⟩]) :
    x % 4 = 3 ∧ x % 128 = 0x13 ∧ fld x 7 5 = rd ∧ x / 4096 % 8 = k ∧ fld x 15 5 = r ∧ fld x 20 5 = sh ∧ x / 33554432 % 128 = q := by
  obtain ⟨fs, hf⟩ : ∃ fs : List Field, fs = [⟨25, 7, ⟨q, hq⟩⟩, ⟨20, 5, sh⟩, ⟨15, 5, r⟩, ⟨12, 3, ⟨k, hk⟩⟩, ⟨7, 5, rd⟩] := ⟨_, rfl⟩
  have hp : places fs = [(25, 7), (20, 5), (15, 5), (12, 3), (7, 5)] := by rw [hf]; rfl
  have ho : ok 0x13 fs = true := sound_ok _ _ (by rw [hp]; decide +kernel)
  rw [← hf] at hx
  have f0 : x % 4 = 3 := by
    rw [hx]; exact low_eq 2 _ ho (by rw [hp]; decide +kernel)
  have f1 : x % 128 = 0x13 := by
    rw [hx]; exact low_eq 7 _ ho (by rw [hp]; decide +kernel)
  have f2 : fld x 7 5 = rd := by
    rw [hx]; exact fld_eq (field_eq ⟨7, 5, rd⟩ 4 ho (by rw [hf]; rfl))
  have f3 : x / 4096 % 8 = k := by
    rw [hx]; exact field_eq ⟨12, 3, ⟨k, hk⟩⟩ 3 ho (by rw [hf]; rfl)
  have f4 : fld x 15 5 = r := by
    rw [hx]; exact fld_eq (field_eq ⟨15, 5, r⟩ 2 ho (by rw [hf]; rfl))
  have f5 : fld x 20 5 = sh := by
    rw [hx]; exact fld_eq (field_eq ⟨20, 5, sh⟩ 1 ho (by rw [hf]; rfl))
  have f6 : x / 33554432 % 128 = q := by
    rw [hx]; exact field_eq ⟨25, 7, ⟨q, hq⟩⟩ 0 ho (by rw [hf]; rfl)
  exact ⟨f0, f1, f2, f3, f4, f5, f6⟩

theorem rv_regs (rd r1 r2 : Fin 32) (k : Nat) (hk : k < 8) (q : Nat) (hq : q < 128) (x : Nat)
    (hx : x = word 0x33 [⟨25, 7, ⟨q, hq⟩⟩, ⟨20, 5, r2⟩, ⟨15, 5, r1⟩, ⟨12, 3, ⟨k, hk⟩⟩, ⟨7, 5, rd⟩]) :
    x % 4 = 3 ∧ x % 128 = 0x33 ∧ fld x 7 5 = rd ∧ x / 4096 % 8 = k ∧ fld x 15 5 = r1 ∧ fld x 20 5 = r2 ∧ x / 33554432 % 128 = q := by
  obtain ⟨fs, hf⟩ : ∃ fs : List Field, fs = [⟨25, 7, ⟨q, hq⟩⟩, ⟨20, 5, r2⟩, ⟨15, 5, r1⟩, ⟨12, 3, ⟨k, hk⟩⟩, ⟨7, 5, rd⟩] := ⟨_, rfl⟩
  have hp : places fs = [(25, 7), (20, 5), (15, 5), (12, 3), (7, 5)] := by rw [hf]; rfl
  have ho : ok 0x33 fs = true := sound_ok _ _ (by rw [hp]; decide +kernel)
  rw [← hf] at hx
  have f0 : x % 4 = 3 := by
    rw [hx]; exact low_eq 2 _ ho (by rw [hp]; decide +kernel)
  have f1 : x % 128 = 0x33 := by
    rw [hx]; exact low_eq 7 _ ho (by rw [hp]; decide +kernel)
  have f2 : fld x 7 5 = rd := by
    rw [hx]; exact fld_eq (field_eq ⟨7, 5, rd⟩ 4 ho (by rw [hf]; rfl))
  have f3 : x / 4096 % 8 = k := by
    rw [hx]; exact field_eq ⟨12, 3, ⟨k, hk⟩⟩ 3 ho (by rw [hf]; rfl)
  have f4 : fld x 15 5 = r1 := by
    rw [hx]; exact fld_eq (field_eq ⟨15, 5, r1⟩ 2 ho (by rw [hf]; rfl))
  have f5 : fld x 20 5 = r2 := by
    rw [hx]; exact fld_eq (field_eq ⟨20, 5, r2⟩ 1 ho (by rw [hf]; rfl))
  have f6 : x / 33554432 % 128 = q := by
    rw [hx]; exact field_eq ⟨25, 7, ⟨q, hq⟩⟩ 0 ho (by rw [hf]; rfl)
  exact ⟨f0, f1, f2, f3, f4, f5, f6⟩

theorem rv_store (r1 r2 : Fin 32) (k : Nat) (hk : k < 8) (o : BitVec 32) (h : Rv.fits 12 o = true) (x : Nat)
    (hx : x = word 0x23 [⟨25, 7, low 7 (o.toNat / 32)⟩, ⟨20, 5, r2⟩, ⟨15, 5, r1⟩, ⟨12, 3, ⟨k, hk⟩⟩, ⟨7, 5, low 5 o.toNat⟩]) :
    x % 4 = 3 ∧ x % 128 = 0x23 ∧ x / 128 % 32 = o.toNat % 32 ∧ x / 4096 % 8 = k ∧ fld x 15 5 = r1 ∧ fld x 20 5 = r2 ∧ x / 33554432 % 128 = o.toNat / 32 % 128 ∧ sx (x / 128 % 32 + x / 33554432 % 128 * 32) 12 = o := by
  obtain ⟨fs, hf⟩ : ∃ fs : List Field, fs = [⟨25, 7, low 7 (o.toNat / 32)⟩, ⟨20, 5, r2⟩, ⟨15, 5, r1⟩, ⟨12, 3, ⟨k, hk⟩⟩, ⟨7, 5, low 5 o.toNat⟩] := ⟨_, rfl⟩
  have hp : places fs = [(25, 7), (20, 5), (15, 5), (12, 3), (7, 5)] := by rw [hf]; rfl
  have ho : ok 0x23 fs = true := sound_ok _ _ (by rw [hp]; decide +kernel)
  rw [← hf] at hx
  have f0 : x % 4 = 3 := by
    rw [hx]; exact low_eq 2 _ ho (by rw [hp]; decide +kernel)
  have f1 : x % 128 = 0x23 := by
    rw [hx]; exact low_eq 7 _ ho (by rw [hp]; decide +kernel)
  have f2 : x / 128 % 32 = o.toNat % 32 := by
    rw [hx]; exact field_eq ⟨7, 5, low 5 o.toNat⟩ 4 ho (by rw [hf]; rfl)
  have f3 : x / 4096 % 8 = k := by
    rw [hx]; exact field_eq ⟨12, 3, ⟨k, hk⟩⟩ 3 ho (by rw [hf]; rfl)
  have f4 : fld x 15 5 = r1 := by
    rw [hx]; exact fld_eq (field_eq ⟨15, 5, r1⟩ 2 ho (by rw [hf]; rfl))
  have f5 : fld x 20 5 = r2 := by
    rw [hx]; exact fld_eq (field_eq ⟨20, 5, r2⟩ 1 ho (by rw [hf]; rfl))
  have f6 : x / 33554432 % 128 = o.toNat / 32 % 128 := by
    rw [hx]; exact field_eq ⟨25, 7, low 7 (o.toNat / 32)⟩ 0 ho (by rw [hf]; rfl)
  have hs : sx (x / 128 % 32 + x / 33554432 % 128 * 32) 12 = o := by
    rw [f2, f6]
    exact sx_eq 12 _ o (by simp) h (store_join _)
  exact ⟨f0, f1, f2, f3, f4, f5, f6, hs⟩

theorem rv_branch (r1 r2 : Fin 32) (k : Nat) (hk : k < 8) (o : BitVec 32) (h2 : o.toNat % 2 = 0) (h : Rv.fits 13 o = true) (x : Nat)
    (hx : x = word 0x63 [⟨31, 1, low 1 (o.toNat / 4096)⟩, ⟨25, 6, low 6 (o.toNat / 32)⟩, ⟨20, 5, r2⟩, ⟨15, 5, r1⟩, ⟨12, 3, ⟨k, hk⟩⟩, ⟨8, 4, low 4 (o.toNat / 2)⟩, ⟨7, 1, low 1 (o.toNat / 2048)⟩]) :
    x % 4 = 3 ∧ x % 128 = 0x63 ∧ x / 128 % 2 = o.toNat / 2048 % 2 ∧ x / 256 % 16 = o.toNat / 2 % 16 ∧ x / 4096 % 8 = k ∧ fld x 15 5 = r1 ∧ fld x 20 5 = r2 ∧ x / 33554432 % 64 = o.toNat / 32 % 64 ∧ x / 2147483648 % 2 = o.toNat / 4096 % 2 ∧ sx (x / 128 % 2 * 2048 + x / 256 % 16 * 2 + x / 33554432 % 64 * 32 + x / 2147483648 % 2 * 4096) 13 = o := by
  obtain ⟨fs, hf⟩ : ∃ fs : List Field, fs = [⟨31, 1, low 1 (o.toNat / 4096)⟩, ⟨25, 6, low 6 (o.toNat / 32)⟩, ⟨20, 5, r2⟩, ⟨15, 5, r1⟩, ⟨12, 3, ⟨k, hk⟩⟩, ⟨8, 4, low 4 (o.toNat / 2)⟩, ⟨7, 1, low 1 (o.toNat / 2048)⟩] := ⟨_, rfl⟩
  have hp : places fs = [(31, 1), (25, 6), (20, 5), (15, 5), (12, 3), (8, 4), (7, 1)] := by rw [hf]; rfl
  have ho : ok 0x63 fs = true := sound_ok _ _ (by rw [hp]; decide +kernel)
  rw [← hf] at hx
  have f0 : x % 4 = 3 := by
    rw [hx]; exact low_eq 2 _ ho (by rw [hp]; decide +kernel)
  have f1 : x % 128 = 0x63 := by
    rw [hx]; exact low_eq 7 _ ho (by rw [hp]; decide +kernel)
  have f2 : x / 128 % 2 = o.toNat / 2048 % 2 := by
    rw [hx]; exact field_eq ⟨7, 1, low 1 (o.toNat / 2048)⟩ 6 ho (by rw [hf]; rfl)
  have f3 : x / 256 % 16 = o.toNat / 2 % 16 := by
    rw [hx]; exact field_eq ⟨8, 4, low 4 (o.toNat / 2)⟩ 5 ho (by rw [hf]; rfl)
  have f4 : x / 4096 % 8 = k := by
    rw [hx]; exact field_eq ⟨12, 3, ⟨k, hk⟩⟩ 4 ho (by rw [hf]; rfl)
  have f5 : fld x 15 5 = r1 := by
    rw [hx]; exact fld_eq (field_eq ⟨15, 5, r1⟩ 3 ho (by rw [hf]; rfl))
  have f6 : fld x 20 5 = r2 := by
    rw [hx]; exact fld_eq (field_eq ⟨20, 5, r2⟩ 2 ho (by rw [hf]; rfl))
  have f7 : x / 33554432 % 64 = o.toNat / 32 % 64 := by
    rw [hx]; exact field_eq ⟨25, 6, low 6 (o.toNat / 32)⟩ 1 ho (by rw [hf]; rfl)
  have f8 : x / 2147483648 % 2 = o.toNat / 4096 % 2 := by
    rw [hx]; exact field_eq ⟨31, 1, low 1 (o.toNat / 4096)⟩ 0 ho (by rw [hf]; rfl)
  have hs : sx (x / 128 % 2 * 2048 + x / 256 % 16 * 2 + x / 33554432 % 64 * 32 + x / 2147483648 % 2 * 4096) 13 = o := by
    rw [f2, f3, f7, f8]
    exact sx_eq 13 _ o (by simp) h (branch_join _ h2)
  exact ⟨f0, f1, f2, f3, f4, f5, f6, f7, f8, hs⟩

/-- The word of an instruction of the loader and the storer (14 R376): opcode 0x0B or 0x2B. -/
theorem helperDecode_custom {w : Nat} (h4 : w % 4 = 3) (h : w % 128 = 11 ∨ w % 128 = 43) : helperDecode w = parseCustom w := by
  rcases h with h | h <;> simp only [helperDecode, h4, if_true, parseRv32, h]

theorem rvLui (rd : Fin 32) (i : BitVec 32) (h : (Rv.Op.lui rd i).wf = true) :
    helperDecode (encodeRv (.lui rd i)) = .ok (.helperRv32Instr false (.lui rd i)) := by
  simp only [Rv.Op.wf, decide_eq_true_eq] at h
  obtain ⟨h1, h2, h3, h4⟩ := rv_upper 0x37 rd i (encodeRv (.lui rd i)) (.inl rfl) h rfl
  generalize encodeRv (.lui rd i) = x at *
  simp [helperDecode, parseRv32, h1, h2, h3, h4]

theorem rvAuipc (rd : Fin 32) (i : BitVec 32) (h : (Rv.Op.auipc rd i).wf = true) :
    helperDecode (encodeRv (.auipc rd i)) = .ok (.helperRv32Instr false (.auipc rd i)) := by
  simp only [Rv.Op.wf, decide_eq_true_eq] at h
  obtain ⟨h1, h2, h3, h4⟩ := rv_upper 0x17 rd i (encodeRv (.auipc rd i)) (.inr rfl) h rfl
  generalize encodeRv (.auipc rd i) = x at *
  simp [helperDecode, parseRv32, h1, h2, h3, h4]

theorem rvJal (rd : Fin 32) (o : BitVec 32) (h : (Rv.Op.jal rd o).wf = true) :
    helperDecode (encodeRv (.jal rd o)) = .ok (.helperRv32Instr false (.jal rd o)) := by
  simp only [Rv.Op.wf, Bool.and_eq_true, decide_eq_true_eq] at h
  obtain ⟨fs, hf⟩ : ∃ fs : List Field, fs = [⟨31, 1, low 1 (o.toNat / 1048576)⟩, ⟨21, 10, low 10 (o.toNat / 2)⟩,
    ⟨20, 1, low 1 (o.toNat / 2048)⟩, ⟨12, 8, low 8 (o.toNat / 4096)⟩, ⟨7, 5, rd⟩] := ⟨_, rfl⟩
  have hp : places fs = [(31, 1), (21, 10), (20, 1), (12, 8), (7, 5)] := by rw [hf]; rfl
  have ho : ok 0x6F fs = true := sound_ok _ _ (by rw [hp]; decide +kernel)
  obtain ⟨x, hx⟩ : ∃ x, x = word 0x6F fs := ⟨_, rfl⟩
  have hw : encodeRv (.jal rd o) = x := by rw [hx, hf]; rfl
  have h1 : x % 4 = 3 := by rw [hx]; exact low_eq 2 _ ho (by rw [hp]; decide +kernel)
  have h2 : x % 128 = 0x6F := by rw [hx]; exact low_eq 7 _ ho (by rw [hp]; decide +kernel)
  have h3 : fld x 7 5 = rd := by rw [hx]; exact fld_eq (field_eq ⟨7, 5, rd⟩ 4 ho (by rw [hf]; rfl))
  have f0 : x / 4096 % 256 = o.toNat / 4096 % 256 := by rw [hx]; exact field_eq ⟨12, 8, low 8 (o.toNat / 4096)⟩ 3 ho (by rw [hf]; rfl)
  have f1 : x / 1048576 % 2 = o.toNat / 2048 % 2 := by rw [hx]; exact field_eq ⟨20, 1, low 1 (o.toNat / 2048)⟩ 2 ho (by rw [hf]; rfl)
  have f2 : x / 2097152 % 1024 = o.toNat / 2 % 1024 := by rw [hx]; exact field_eq ⟨21, 10, low 10 (o.toNat / 2)⟩ 1 ho (by rw [hf]; rfl)
  have f3 : x / 2147483648 % 2 = o.toNat / 1048576 % 2 := by rw [hx]; exact field_eq ⟨31, 1, low 1 (o.toNat / 1048576)⟩ 0 ho (by rw [hf]; rfl)
  clear hx ho hp hf fs
  have hs := sx_eq 21 (o.toNat / 4096 % 256 * 4096 + o.toNat / 2048 % 2 * 2048 + o.toNat / 2 % 1024 * 2 + o.toNat / 1048576 % 2 * 1048576)
    o (by simp) h.2 (jal_join _ h.1)
  rw [hw]
  simp [helperDecode, parseRv32, h1, h2, h3, f0, f1, f2, f3, hs]

theorem rvJalr (rd r : Fin 32) (o : BitVec 32) (h : (Rv.Op.jalr rd r o).wf = true) :
    helperDecode (encodeRv (.jalr rd r o)) = .ok (.helperRv32Instr false (.jalr rd r o)) := by
  obtain ⟨h1, h2, h3, h4, h5, -, h6⟩ := rv_imm 0x67 rd r 0 (by decide) o (.inl rfl) (encodeRv (.jalr rd r o)) (by
    show 0x67 + rd.val * 128 + r.val * 32768 + o.toNat % 4096 * 1048576
      = 0x67 + rd.val * 128 + 0 * 4096 + r.val * 32768 + o.toNat % 4096 * 1048576
    omega)
  have h6 := h6 h
  generalize encodeRv (.jalr rd r o) = x at *
  simp [helperDecode, parseRv32, h1, h2, h3, h4, h5, h6]

theorem rvBranch (c : Rv.Cond) (r1 r2 : Fin 32) (o : BitVec 32) (h : (Rv.Op.branch c r1 r2 o).wf = true) :
    helperDecode (encodeRv (Rv.Op.branch c r1 r2 o)) = .ok (.helperRv32Instr false (Rv.Op.branch c r1 r2 o)) := by
  simp only [Rv.Op.wf, Bool.and_eq_true, decide_eq_true_eq] at h
  cases c with
  | beq =>
    obtain ⟨h1, h2, -, -, h3, h4, h5, -, -, h6⟩ := rv_branch r1 r2 0 (by decide) o h.1 h.2 (encodeRv (Rv.Op.branch .beq r1 r2 o)) rfl
    generalize encodeRv (Rv.Op.branch .beq r1 r2 o) = x at *
    simp [helperDecode, parseRv32, h1, h2, h3, h4, h5, h6]
  | bne =>
    obtain ⟨h1, h2, -, -, h3, h4, h5, -, -, h6⟩ := rv_branch r1 r2 1 (by decide) o h.1 h.2 (encodeRv (Rv.Op.branch .bne r1 r2 o)) rfl
    generalize encodeRv (Rv.Op.branch .bne r1 r2 o) = x at *
    simp [helperDecode, parseRv32, h1, h2, h3, h4, h5, h6]
  | blt =>
    obtain ⟨h1, h2, -, -, h3, h4, h5, -, -, h6⟩ := rv_branch r1 r2 4 (by decide) o h.1 h.2 (encodeRv (Rv.Op.branch .blt r1 r2 o)) rfl
    generalize encodeRv (Rv.Op.branch .blt r1 r2 o) = x at *
    simp [helperDecode, parseRv32, h1, h2, h3, h4, h5, h6]
  | bge =>
    obtain ⟨h1, h2, -, -, h3, h4, h5, -, -, h6⟩ := rv_branch r1 r2 5 (by decide) o h.1 h.2 (encodeRv (Rv.Op.branch .bge r1 r2 o)) rfl
    generalize encodeRv (Rv.Op.branch .bge r1 r2 o) = x at *
    simp [helperDecode, parseRv32, h1, h2, h3, h4, h5, h6]
  | bltu =>
    obtain ⟨h1, h2, -, -, h3, h4, h5, -, -, h6⟩ := rv_branch r1 r2 6 (by decide) o h.1 h.2 (encodeRv (Rv.Op.branch .bltu r1 r2 o)) rfl
    generalize encodeRv (Rv.Op.branch .bltu r1 r2 o) = x at *
    simp [helperDecode, parseRv32, h1, h2, h3, h4, h5, h6]
  | bgeu =>
    obtain ⟨h1, h2, -, -, h3, h4, h5, -, -, h6⟩ := rv_branch r1 r2 7 (by decide) o h.1 h.2 (encodeRv (Rv.Op.branch .bgeu r1 r2 o)) rfl
    generalize encodeRv (Rv.Op.branch .bgeu r1 r2 o) = x at *
    simp [helperDecode, parseRv32, h1, h2, h3, h4, h5, h6]

theorem rvLoad (k : Rv.Load) (rd r : Fin 32) (o : BitVec 32) (h : (Rv.Op.load k rd r o).wf = true) :
    helperDecode (encodeRv (Rv.Op.load k rd r o)) = .ok (.helperRv32Instr false (Rv.Op.load k rd r o)) := by
  cases k with
  | lb =>
    obtain ⟨h1, h2, h3, h4, h5, -, h6⟩ := rv_imm 0x03 rd r 0 (by decide) o (.inr (.inl rfl)) (encodeRv (Rv.Op.load .lb rd r o)) rfl
    have h6 := h6 h
    generalize encodeRv (Rv.Op.load .lb rd r o) = x at *
    simp [helperDecode, parseRv32, h1, h2, h3, h4, h5, h6]
  | lh =>
    obtain ⟨h1, h2, h3, h4, h5, -, h6⟩ := rv_imm 0x03 rd r 1 (by decide) o (.inr (.inl rfl)) (encodeRv (Rv.Op.load .lh rd r o)) rfl
    have h6 := h6 h
    generalize encodeRv (Rv.Op.load .lh rd r o) = x at *
    simp [helperDecode, parseRv32, h1, h2, h3, h4, h5, h6]
  | lw =>
    obtain ⟨h1, h2, h3, h4, h5, -, h6⟩ := rv_imm 0x03 rd r 2 (by decide) o (.inr (.inl rfl)) (encodeRv (Rv.Op.load .lw rd r o)) rfl
    have h6 := h6 h
    generalize encodeRv (Rv.Op.load .lw rd r o) = x at *
    simp [helperDecode, parseRv32, h1, h2, h3, h4, h5, h6]
  | lbu =>
    obtain ⟨h1, h2, h3, h4, h5, -, h6⟩ := rv_imm 0x03 rd r 4 (by decide) o (.inr (.inl rfl)) (encodeRv (Rv.Op.load .lbu rd r o)) rfl
    have h6 := h6 h
    generalize encodeRv (Rv.Op.load .lbu rd r o) = x at *
    simp [helperDecode, parseRv32, h1, h2, h3, h4, h5, h6]
  | lhu =>
    obtain ⟨h1, h2, h3, h4, h5, -, h6⟩ := rv_imm 0x03 rd r 5 (by decide) o (.inr (.inl rfl)) (encodeRv (Rv.Op.load .lhu rd r o)) rfl
    have h6 := h6 h
    generalize encodeRv (Rv.Op.load .lhu rd r o) = x at *
    simp [helperDecode, parseRv32, h1, h2, h3, h4, h5, h6]

theorem rvStore (k : Rv.Store) (r1 r2 : Fin 32) (o : BitVec 32) (h : (Rv.Op.store k r1 r2 o).wf = true) :
    helperDecode (encodeRv (Rv.Op.store k r1 r2 o)) = .ok (.helperRv32Instr false (Rv.Op.store k r1 r2 o)) := by
  cases k with
  | sb =>
    obtain ⟨h1, h2, -, h3, h4, h5, -, h6⟩ := rv_store r1 r2 0 (by decide) o h (encodeRv (Rv.Op.store .sb r1 r2 o)) rfl
    generalize encodeRv (Rv.Op.store .sb r1 r2 o) = x at *
    simp [helperDecode, parseRv32, h1, h2, h3, h4, h5, h6]
  | sh =>
    obtain ⟨h1, h2, -, h3, h4, h5, -, h6⟩ := rv_store r1 r2 1 (by decide) o h (encodeRv (Rv.Op.store .sh r1 r2 o)) rfl
    generalize encodeRv (Rv.Op.store .sh r1 r2 o) = x at *
    simp [helperDecode, parseRv32, h1, h2, h3, h4, h5, h6]
  | sw =>
    obtain ⟨h1, h2, -, h3, h4, h5, -, h6⟩ := rv_store r1 r2 2 (by decide) o h (encodeRv (Rv.Op.store .sw r1 r2 o)) rfl
    generalize encodeRv (Rv.Op.store .sw r1 r2 o) = x at *
    simp [helperDecode, parseRv32, h1, h2, h3, h4, h5, h6]

theorem rvAlu (f : Rv.Alu) (rd r1 r2 : Fin 32) :
    helperDecode (encodeRv (Rv.Op.alu f rd r1 r2)) = .ok (.helperRv32Instr false (Rv.Op.alu f rd r1 r2)) := by
  cases f with
  | add =>
    obtain ⟨h1, h2, h3, h4, h5, h6, h7⟩ := rv_regs rd r1 r2 0 (by decide) 0 (by decide) (encodeRv (Rv.Op.alu .add rd r1 r2)) rfl
    generalize encodeRv (Rv.Op.alu .add rd r1 r2) = x at *
    simp [helperDecode, parseRv32, h1, h2, h3, h4, h5, h6, h7]
  | sub =>
    obtain ⟨h1, h2, h3, h4, h5, h6, h7⟩ := rv_regs rd r1 r2 0 (by decide) 32 (by decide) (encodeRv (Rv.Op.alu .sub rd r1 r2)) rfl
    generalize encodeRv (Rv.Op.alu .sub rd r1 r2) = x at *
    simp [helperDecode, parseRv32, h1, h2, h3, h4, h5, h6, h7]
  | sll =>
    obtain ⟨h1, h2, h3, h4, h5, h6, h7⟩ := rv_regs rd r1 r2 1 (by decide) 0 (by decide) (encodeRv (Rv.Op.alu .sll rd r1 r2)) rfl
    generalize encodeRv (Rv.Op.alu .sll rd r1 r2) = x at *
    simp [helperDecode, parseRv32, h1, h2, h3, h4, h5, h6, h7]
  | slt =>
    obtain ⟨h1, h2, h3, h4, h5, h6, h7⟩ := rv_regs rd r1 r2 2 (by decide) 0 (by decide) (encodeRv (Rv.Op.alu .slt rd r1 r2)) rfl
    generalize encodeRv (Rv.Op.alu .slt rd r1 r2) = x at *
    simp [helperDecode, parseRv32, h1, h2, h3, h4, h5, h6, h7]
  | sltu =>
    obtain ⟨h1, h2, h3, h4, h5, h6, h7⟩ := rv_regs rd r1 r2 3 (by decide) 0 (by decide) (encodeRv (Rv.Op.alu .sltu rd r1 r2)) rfl
    generalize encodeRv (Rv.Op.alu .sltu rd r1 r2) = x at *
    simp [helperDecode, parseRv32, h1, h2, h3, h4, h5, h6, h7]
  | xor =>
    obtain ⟨h1, h2, h3, h4, h5, h6, h7⟩ := rv_regs rd r1 r2 4 (by decide) 0 (by decide) (encodeRv (Rv.Op.alu .xor rd r1 r2)) rfl
    generalize encodeRv (Rv.Op.alu .xor rd r1 r2) = x at *
    simp [helperDecode, parseRv32, h1, h2, h3, h4, h5, h6, h7]
  | srl =>
    obtain ⟨h1, h2, h3, h4, h5, h6, h7⟩ := rv_regs rd r1 r2 5 (by decide) 0 (by decide) (encodeRv (Rv.Op.alu .srl rd r1 r2)) rfl
    generalize encodeRv (Rv.Op.alu .srl rd r1 r2) = x at *
    simp [helperDecode, parseRv32, h1, h2, h3, h4, h5, h6, h7]
  | sra =>
    obtain ⟨h1, h2, h3, h4, h5, h6, h7⟩ := rv_regs rd r1 r2 5 (by decide) 32 (by decide) (encodeRv (Rv.Op.alu .sra rd r1 r2)) rfl
    generalize encodeRv (Rv.Op.alu .sra rd r1 r2) = x at *
    simp [helperDecode, parseRv32, h1, h2, h3, h4, h5, h6, h7]
  | or =>
    obtain ⟨h1, h2, h3, h4, h5, h6, h7⟩ := rv_regs rd r1 r2 6 (by decide) 0 (by decide) (encodeRv (Rv.Op.alu .or rd r1 r2)) rfl
    generalize encodeRv (Rv.Op.alu .or rd r1 r2) = x at *
    simp [helperDecode, parseRv32, h1, h2, h3, h4, h5, h6, h7]
  | and =>
    obtain ⟨h1, h2, h3, h4, h5, h6, h7⟩ := rv_regs rd r1 r2 7 (by decide) 0 (by decide) (encodeRv (Rv.Op.alu .and rd r1 r2)) rfl
    generalize encodeRv (Rv.Op.alu .and rd r1 r2) = x at *
    simp [helperDecode, parseRv32, h1, h2, h3, h4, h5, h6, h7]
  | mul =>
    obtain ⟨h1, h2, h3, h4, h5, h6, h7⟩ := rv_regs rd r1 r2 0 (by decide) 1 (by decide) (encodeRv (Rv.Op.alu .mul rd r1 r2)) rfl
    generalize encodeRv (Rv.Op.alu .mul rd r1 r2) = x at *
    simp [helperDecode, parseRv32, h1, h2, h3, h4, h5, h6, h7]
  | mulh =>
    obtain ⟨h1, h2, h3, h4, h5, h6, h7⟩ := rv_regs rd r1 r2 1 (by decide) 1 (by decide) (encodeRv (Rv.Op.alu .mulh rd r1 r2)) rfl
    generalize encodeRv (Rv.Op.alu .mulh rd r1 r2) = x at *
    simp [helperDecode, parseRv32, h1, h2, h3, h4, h5, h6, h7]
  | mulhsu =>
    obtain ⟨h1, h2, h3, h4, h5, h6, h7⟩ := rv_regs rd r1 r2 2 (by decide) 1 (by decide) (encodeRv (Rv.Op.alu .mulhsu rd r1 r2)) rfl
    generalize encodeRv (Rv.Op.alu .mulhsu rd r1 r2) = x at *
    simp [helperDecode, parseRv32, h1, h2, h3, h4, h5, h6, h7]
  | mulhu =>
    obtain ⟨h1, h2, h3, h4, h5, h6, h7⟩ := rv_regs rd r1 r2 3 (by decide) 1 (by decide) (encodeRv (Rv.Op.alu .mulhu rd r1 r2)) rfl
    generalize encodeRv (Rv.Op.alu .mulhu rd r1 r2) = x at *
    simp [helperDecode, parseRv32, h1, h2, h3, h4, h5, h6, h7]
  | div =>
    obtain ⟨h1, h2, h3, h4, h5, h6, h7⟩ := rv_regs rd r1 r2 4 (by decide) 1 (by decide) (encodeRv (Rv.Op.alu .div rd r1 r2)) rfl
    generalize encodeRv (Rv.Op.alu .div rd r1 r2) = x at *
    simp [helperDecode, parseRv32, h1, h2, h3, h4, h5, h6, h7]
  | divu =>
    obtain ⟨h1, h2, h3, h4, h5, h6, h7⟩ := rv_regs rd r1 r2 5 (by decide) 1 (by decide) (encodeRv (Rv.Op.alu .divu rd r1 r2)) rfl
    generalize encodeRv (Rv.Op.alu .divu rd r1 r2) = x at *
    simp [helperDecode, parseRv32, h1, h2, h3, h4, h5, h6, h7]
  | rem =>
    obtain ⟨h1, h2, h3, h4, h5, h6, h7⟩ := rv_regs rd r1 r2 6 (by decide) 1 (by decide) (encodeRv (Rv.Op.alu .rem rd r1 r2)) rfl
    generalize encodeRv (Rv.Op.alu .rem rd r1 r2) = x at *
    simp [helperDecode, parseRv32, h1, h2, h3, h4, h5, h6, h7]
  | remu =>
    obtain ⟨h1, h2, h3, h4, h5, h6, h7⟩ := rv_regs rd r1 r2 7 (by decide) 1 (by decide) (encodeRv (Rv.Op.alu .remu rd r1 r2)) rfl
    generalize encodeRv (Rv.Op.alu .remu rd r1 r2) = x at *
    simp [helperDecode, parseRv32, h1, h2, h3, h4, h5, h6, h7]

theorem rvAluImm (f : Rv.Alu) (rd r : Fin 32) (o : BitVec 32) (h : (Rv.Op.aluImm f rd r o).wf = true) :
    helperDecode (encodeRv (.aluImm f rd r o)) = .ok (.helperRv32Instr false (.aluImm f rd r o)) := by
  cases f with
  | add =>
    obtain ⟨h1, h2, h3, h4, h5, -, h6⟩ := rv_imm 0x13 rd r 0 (by decide) o (.inr (.inr rfl)) (encodeRv (Rv.Op.aluImm .add rd r o)) (rv_aluImm rd r o rfl (by decide) (by decide))
    have h6 := h6 h
    generalize encodeRv (Rv.Op.aluImm .add rd r o) = x at *
    simp [helperDecode, parseRv32, h1, h2, h3, h4, h5, h6]
  | sub => exact absurd h Bool.false_ne_true
  | sll =>
    have hl : o.toNat < 32 := of_decide_eq_true h
    have he : BitVec.ofNat 32 o.toNat = o := by simp
    obtain ⟨h1, h2, h3, h4, h5, h6, h7⟩ := rv_shift rd r ⟨o.toNat, hl⟩ 1 (by decide) 0 (by decide) (encodeRv (Rv.Op.aluImm .sll rd r o)) (by
      show 0x13 + rd.val * 128 + 1 * 4096 + r.val * 32768 + o.toNat % 4096 * 1048576 + 0
        = 0x13 + rd.val * 128 + 1 * 4096 + r.val * 32768 + o.toNat * 1048576 + 0 * 33554432
      omega)
    generalize encodeRv (Rv.Op.aluImm .sll rd r o) = x at *
    simp [helperDecode, parseRv32, h1, h2, h3, h4, h5, h6, h7, he]
  | slt =>
    obtain ⟨h1, h2, h3, h4, h5, -, h6⟩ := rv_imm 0x13 rd r 2 (by decide) o (.inr (.inr rfl)) (encodeRv (Rv.Op.aluImm .slt rd r o)) (rv_aluImm rd r o rfl (by decide) (by decide))
    have h6 := h6 h
    generalize encodeRv (Rv.Op.aluImm .slt rd r o) = x at *
    simp [helperDecode, parseRv32, h1, h2, h3, h4, h5, h6]
  | sltu =>
    obtain ⟨h1, h2, h3, h4, h5, -, h6⟩ := rv_imm 0x13 rd r 3 (by decide) o (.inr (.inr rfl)) (encodeRv (Rv.Op.aluImm .sltu rd r o)) (rv_aluImm rd r o rfl (by decide) (by decide))
    have h6 := h6 h
    generalize encodeRv (Rv.Op.aluImm .sltu rd r o) = x at *
    simp [helperDecode, parseRv32, h1, h2, h3, h4, h5, h6]
  | xor =>
    obtain ⟨h1, h2, h3, h4, h5, -, h6⟩ := rv_imm 0x13 rd r 4 (by decide) o (.inr (.inr rfl)) (encodeRv (Rv.Op.aluImm .xor rd r o)) (rv_aluImm rd r o rfl (by decide) (by decide))
    have h6 := h6 h
    generalize encodeRv (Rv.Op.aluImm .xor rd r o) = x at *
    simp [helperDecode, parseRv32, h1, h2, h3, h4, h5, h6]
  | srl =>
    have hl : o.toNat < 32 := of_decide_eq_true h
    have he : BitVec.ofNat 32 o.toNat = o := by simp
    obtain ⟨h1, h2, h3, h4, h5, h6, h7⟩ := rv_shift rd r ⟨o.toNat, hl⟩ 5 (by decide) 0 (by decide) (encodeRv (Rv.Op.aluImm .srl rd r o)) (by
      show 0x13 + rd.val * 128 + 5 * 4096 + r.val * 32768 + o.toNat % 4096 * 1048576 + 0
        = 0x13 + rd.val * 128 + 5 * 4096 + r.val * 32768 + o.toNat * 1048576 + 0 * 33554432
      omega)
    generalize encodeRv (Rv.Op.aluImm .srl rd r o) = x at *
    simp [helperDecode, parseRv32, h1, h2, h3, h4, h5, h6, h7, he]
  | sra =>
    have hl : o.toNat < 32 := of_decide_eq_true h
    have he : BitVec.ofNat 32 o.toNat = o := by simp
    obtain ⟨h1, h2, h3, h4, h5, h6, h7⟩ := rv_shift rd r ⟨o.toNat, hl⟩ 5 (by decide) 32 (by decide) (encodeRv (Rv.Op.aluImm .sra rd r o)) (by
      show 0x13 + rd.val * 128 + 5 * 4096 + r.val * 32768 + o.toNat % 4096 * 1048576 + 0x40000000
        = 0x13 + rd.val * 128 + 5 * 4096 + r.val * 32768 + o.toNat * 1048576 + 32 * 33554432
      omega)
    generalize encodeRv (Rv.Op.aluImm .sra rd r o) = x at *
    simp [helperDecode, parseRv32, h1, h2, h3, h4, h5, h6, h7, he]
  | or =>
    obtain ⟨h1, h2, h3, h4, h5, -, h6⟩ := rv_imm 0x13 rd r 6 (by decide) o (.inr (.inr rfl)) (encodeRv (Rv.Op.aluImm .or rd r o)) (rv_aluImm rd r o rfl (by decide) (by decide))
    have h6 := h6 h
    generalize encodeRv (Rv.Op.aluImm .or rd r o) = x at *
    simp [helperDecode, parseRv32, h1, h2, h3, h4, h5, h6]
  | and =>
    obtain ⟨h1, h2, h3, h4, h5, -, h6⟩ := rv_imm 0x13 rd r 7 (by decide) o (.inr (.inr rfl)) (encodeRv (Rv.Op.aluImm .and rd r o)) (rv_aluImm rd r o rfl (by decide) (by decide))
    have h6 := h6 h
    generalize encodeRv (Rv.Op.aluImm .and rd r o) = x at *
    simp [helperDecode, parseRv32, h1, h2, h3, h4, h5, h6]
  | mul => exact absurd h Bool.false_ne_true
  | mulh => exact absurd h Bool.false_ne_true
  | mulhsu => exact absurd h Bool.false_ne_true
  | mulhu => exact absurd h Bool.false_ne_true
  | div => exact absurd h Bool.false_ne_true
  | divu => exact absurd h Bool.false_ne_true
  | rem => exact absurd h Bool.false_ne_true
  | remu => exact absurd h Bool.false_ne_true

end Sys2Proof.Enc
end

