-- ==== Sys2Proof/Laws/Table.lean ====
section
/-! SUPPORT. What the sparse tables keep: an entry set reads back, the others stand. -/
namespace Sys2Proof.Machine

theorem Table.get?_set_self {α : Type} (t : Table α) (k : Nat) (v : α) : Table.get? (Table.set t k v) k = some v := by
  induction t with
  | nil => simp [Table.set, Table.get?]
  | cons e t ih =>
    obtain ⟨k', v'⟩ := e
    simp only [Table.set]
    split
    · simp [Table.get?]
    · split
      · simp [Table.get?]
      · rename_i h1 h2
        simp only [Table.get?]
        rw [if_neg (fun h => h2 h.symm)]
        exact ih

theorem Table.get?_set_other {α : Type} (t : Table α) (k j : Nat) (v : α) (h : j ≠ k) :
    Table.get? (Table.set t k v) j = Table.get? t j := by
  induction t with
  | nil => simp [Table.set, Table.get?, Ne.symm h]
  | cons e t ih =>
    obtain ⟨k', v'⟩ := e
    simp only [Table.set]
    split
    · simp [Table.get?, Ne.symm h]
    · split
      · rename_i h2
        subst h2
        simp [Table.get?, Ne.symm h]
      · simp only [Table.get?, ih]

@[simp] theorem Table.getD_set_self {α : Type} (t : Table α) (k : Nat) (v d : α) :
    Table.getD (Table.set t k v) k d = v := by
  simp [Table.getD, Table.get?_set_self]

theorem Table.getD_set_other {α : Type} (t : Table α) (k j : Nat) (v d : α) (h : j ≠ k) :
    Table.getD (Table.set t k v) j d = Table.getD t j d := by
  simp [Table.getD, Table.get?_set_other t k j v h]

/-- Setting the same entry twice keeps the second value. -/
theorem Table.set_set {α : Type} (t : Table α) (k : Nat) (v w : α) :
    Table.set (Table.set t k v) k w = Table.set t k w := by
  induction t with
  | nil => simp [Table.set]
  | cons e t ih =>
    obtain ⟨k', v'⟩ := e
    by_cases h : k < k'
    · simp [Table.set, h]
    · by_cases h2 : k = k'
      · subst h2; simp [Table.set]
      · simp [Table.set, h, h2, ih]

end Sys2Proof.Machine
end

