-- ==== Sys2Proof/Laws/State.lean ====
section
/-! SUPPORT. One lemma per field of the state and per named update, and what each record reads as after an update. -/
namespace Sys2Proof.Machine

set_option Elab.async false

/-! ## `setCore` -/

@[simp] theorem State.setCore_mem (s : State) (c : Nat) (k : Core) : (s.setCore c k).mem = s.mem := rfl
@[simp] theorem State.setCore_cyc (s : State) (c : Nat) (k : Core) : (s.setCore c k).cyc = s.cyc := rfl
@[simp] theorem State.setCore_timeBase (s : State) (c : Nat) (k : Core) : (s.setCore c k).timeBase = s.timeBase := rfl
@[simp] theorem State.setCore_free (s : State) (c : Nat) (k : Core) : (s.setCore c k).free = s.free := rfl
@[simp] theorem State.setCore_actor (s : State) (c : Nat) (k : Core) : (s.setCore c k).actor = s.actor := rfl
@[simp] theorem State.setCore_agenda (s : State) (c : Nat) (k : Core) : (s.setCore c k).agenda = s.agenda := rfl
@[simp] theorem State.setCore_todo (s : State) (c : Nat) (k : Core) : (s.setCore c k).todo = s.todo := rfl
@[simp] theorem State.setCore_rotor (s : State) (c : Nat) (k : Core) : (s.setCore c k).rotor = s.rotor := rfl
@[simp] theorem State.setCore_squares (s : State) (c : Nat) (k : Core) : (s.setCore c k).squares = s.squares := rfl
@[simp] theorem State.setCore_districts (s : State) (c : Nat) (k : Core) : (s.setCore c k).districts = s.districts := rfl
@[simp] theorem State.setCore_dies (s : State) (c : Nat) (k : Core) : (s.setCore c k).dies = s.dies := rfl
@[simp] theorem State.setCore_jobs (s : State) (c : Nat) (k : Core) : (s.setCore c k).jobs = s.jobs := rfl
@[simp] theorem State.setCore_saved (s : State) (c : Nat) (k : Core) : (s.setCore c k).saved = s.saved := rfl
@[simp] theorem State.setCore_scOps (s : State) (c : Nat) (k : Core) : (s.setCore c k).scOps = s.scOps := rfl
@[simp] theorem State.setCore_returns (s : State) (c : Nat) (k : Core) : (s.setCore c k).returns = s.returns := rfl
@[simp] theorem State.setCore_boosts (s : State) (c : Nat) (k : Core) : (s.setCore c k).boosts = s.boosts := rfl
@[simp] theorem State.setCore_poison (s : State) (c : Nat) (k : Core) : (s.setCore c k).poison = s.poison := rfl
@[simp] theorem State.setCore_errors (s : State) (c : Nat) (k : Core) : (s.setCore c k).errors = s.errors := rfl
@[simp] theorem State.setCore_eth (s : State) (c : Nat) (k : Core) : (s.setCore c k).eth = s.eth := rfl
@[simp] theorem State.setCore_power (s : State) (c : Nat) (k : Core) : (s.setCore c k).power = s.power := rfl
@[simp] theorem State.setCore_sec (s : State) (c : Nat) (k : Core) : (s.setCore c k).sec = s.sec := rfl
@[simp] theorem State.setCore_modules (s : State) (c : Nat) (k : Core) : (s.setCore c k).modules = s.modules := rfl
@[simp] theorem State.setCore_mcCount (s : State) (c : Nat) (k : Core) : (s.setCore c k).mcCount = s.mcCount := rfl
@[simp] theorem State.setCore_lantern (s : State) (c : Nat) (k : Core) : (s.setCore c k).lantern = s.lantern := rfl
@[simp] theorem State.setCore_halted (s : State) (c : Nat) (k : Core) : (s.setCore c k).halted = s.halted := rfl
@[simp] theorem State.setCore_seq (s : State) (c : Nat) (k : Core) : (s.setCore c k).seq = s.seq := rfl
@[simp] theorem State.setCore_hwHeld (s : State) (c : Nat) (k : Core) : (s.setCore c k).hwHeld = s.hwHeld := rfl
@[simp] theorem State.setCore_zeroed (s : State) (c : Nat) (k : Core) : (s.setCore c k).zeroed = s.zeroed := rfl

/-! ## `modCore` -/

@[simp] theorem State.modCore_mem (s : State) (c : Nat) (f : Core → Core) : (s.modCore c f).mem = s.mem := rfl
@[simp] theorem State.modCore_cyc (s : State) (c : Nat) (f : Core → Core) : (s.modCore c f).cyc = s.cyc := rfl
@[simp] theorem State.modCore_timeBase (s : State) (c : Nat) (f : Core → Core) : (s.modCore c f).timeBase = s.timeBase := rfl
@[simp] theorem State.modCore_free (s : State) (c : Nat) (f : Core → Core) : (s.modCore c f).free = s.free := rfl
@[simp] theorem State.modCore_actor (s : State) (c : Nat) (f : Core → Core) : (s.modCore c f).actor = s.actor := rfl
@[simp] theorem State.modCore_agenda (s : State) (c : Nat) (f : Core → Core) : (s.modCore c f).agenda = s.agenda := rfl
@[simp] theorem State.modCore_todo (s : State) (c : Nat) (f : Core → Core) : (s.modCore c f).todo = s.todo := rfl
@[simp] theorem State.modCore_rotor (s : State) (c : Nat) (f : Core → Core) : (s.modCore c f).rotor = s.rotor := rfl
@[simp] theorem State.modCore_squares (s : State) (c : Nat) (f : Core → Core) : (s.modCore c f).squares = s.squares := rfl
@[simp] theorem State.modCore_districts (s : State) (c : Nat) (f : Core → Core) : (s.modCore c f).districts = s.districts := rfl
@[simp] theorem State.modCore_dies (s : State) (c : Nat) (f : Core → Core) : (s.modCore c f).dies = s.dies := rfl
@[simp] theorem State.modCore_jobs (s : State) (c : Nat) (f : Core → Core) : (s.modCore c f).jobs = s.jobs := rfl
@[simp] theorem State.modCore_saved (s : State) (c : Nat) (f : Core → Core) : (s.modCore c f).saved = s.saved := rfl
@[simp] theorem State.modCore_scOps (s : State) (c : Nat) (f : Core → Core) : (s.modCore c f).scOps = s.scOps := rfl
@[simp] theorem State.modCore_returns (s : State) (c : Nat) (f : Core → Core) : (s.modCore c f).returns = s.returns := rfl
@[simp] theorem State.modCore_boosts (s : State) (c : Nat) (f : Core → Core) : (s.modCore c f).boosts = s.boosts := rfl
@[simp] theorem State.modCore_poison (s : State) (c : Nat) (f : Core → Core) : (s.modCore c f).poison = s.poison := rfl
@[simp] theorem State.modCore_errors (s : State) (c : Nat) (f : Core → Core) : (s.modCore c f).errors = s.errors := rfl
@[simp] theorem State.modCore_eth (s : State) (c : Nat) (f : Core → Core) : (s.modCore c f).eth = s.eth := rfl
@[simp] theorem State.modCore_power (s : State) (c : Nat) (f : Core → Core) : (s.modCore c f).power = s.power := rfl
@[simp] theorem State.modCore_sec (s : State) (c : Nat) (f : Core → Core) : (s.modCore c f).sec = s.sec := rfl
@[simp] theorem State.modCore_modules (s : State) (c : Nat) (f : Core → Core) : (s.modCore c f).modules = s.modules := rfl
@[simp] theorem State.modCore_mcCount (s : State) (c : Nat) (f : Core → Core) : (s.modCore c f).mcCount = s.mcCount := rfl
@[simp] theorem State.modCore_lantern (s : State) (c : Nat) (f : Core → Core) : (s.modCore c f).lantern = s.lantern := rfl
@[simp] theorem State.modCore_halted (s : State) (c : Nat) (f : Core → Core) : (s.modCore c f).halted = s.halted := rfl
@[simp] theorem State.modCore_seq (s : State) (c : Nat) (f : Core → Core) : (s.modCore c f).seq = s.seq := rfl
@[simp] theorem State.modCore_hwHeld (s : State) (c : Nat) (f : Core → Core) : (s.modCore c f).hwHeld = s.hwHeld := rfl
@[simp] theorem State.modCore_zeroed (s : State) (c : Nat) (f : Core → Core) : (s.modCore c f).zeroed = s.zeroed := rfl

/-! ## `setSquare` -/

@[simp] theorem State.setSquare_mem (s : State) (q : Nat) (k : Square) : (s.setSquare q k).mem = s.mem := rfl
@[simp] theorem State.setSquare_cyc (s : State) (q : Nat) (k : Square) : (s.setSquare q k).cyc = s.cyc := rfl
@[simp] theorem State.setSquare_timeBase (s : State) (q : Nat) (k : Square) : (s.setSquare q k).timeBase = s.timeBase := rfl
@[simp] theorem State.setSquare_free (s : State) (q : Nat) (k : Square) : (s.setSquare q k).free = s.free := rfl
@[simp] theorem State.setSquare_actor (s : State) (q : Nat) (k : Square) : (s.setSquare q k).actor = s.actor := rfl
@[simp] theorem State.setSquare_agenda (s : State) (q : Nat) (k : Square) : (s.setSquare q k).agenda = s.agenda := rfl
@[simp] theorem State.setSquare_todo (s : State) (q : Nat) (k : Square) : (s.setSquare q k).todo = s.todo := rfl
@[simp] theorem State.setSquare_rotor (s : State) (q : Nat) (k : Square) : (s.setSquare q k).rotor = s.rotor := rfl
@[simp] theorem State.setSquare_cores (s : State) (q : Nat) (k : Square) : (s.setSquare q k).cores = s.cores := rfl
@[simp] theorem State.setSquare_districts (s : State) (q : Nat) (k : Square) : (s.setSquare q k).districts = s.districts := rfl
@[simp] theorem State.setSquare_dies (s : State) (q : Nat) (k : Square) : (s.setSquare q k).dies = s.dies := rfl
@[simp] theorem State.setSquare_jobs (s : State) (q : Nat) (k : Square) : (s.setSquare q k).jobs = s.jobs := rfl
@[simp] theorem State.setSquare_saved (s : State) (q : Nat) (k : Square) : (s.setSquare q k).saved = s.saved := rfl
@[simp] theorem State.setSquare_scOps (s : State) (q : Nat) (k : Square) : (s.setSquare q k).scOps = s.scOps := rfl
@[simp] theorem State.setSquare_returns (s : State) (q : Nat) (k : Square) : (s.setSquare q k).returns = s.returns := rfl
@[simp] theorem State.setSquare_boosts (s : State) (q : Nat) (k : Square) : (s.setSquare q k).boosts = s.boosts := rfl
@[simp] theorem State.setSquare_poison (s : State) (q : Nat) (k : Square) : (s.setSquare q k).poison = s.poison := rfl
@[simp] theorem State.setSquare_errors (s : State) (q : Nat) (k : Square) : (s.setSquare q k).errors = s.errors := rfl
@[simp] theorem State.setSquare_eth (s : State) (q : Nat) (k : Square) : (s.setSquare q k).eth = s.eth := rfl
@[simp] theorem State.setSquare_power (s : State) (q : Nat) (k : Square) : (s.setSquare q k).power = s.power := rfl
@[simp] theorem State.setSquare_sec (s : State) (q : Nat) (k : Square) : (s.setSquare q k).sec = s.sec := rfl
@[simp] theorem State.setSquare_modules (s : State) (q : Nat) (k : Square) : (s.setSquare q k).modules = s.modules := rfl
@[simp] theorem State.setSquare_mcCount (s : State) (q : Nat) (k : Square) : (s.setSquare q k).mcCount = s.mcCount := rfl
@[simp] theorem State.setSquare_lantern (s : State) (q : Nat) (k : Square) : (s.setSquare q k).lantern = s.lantern := rfl
@[simp] theorem State.setSquare_halted (s : State) (q : Nat) (k : Square) : (s.setSquare q k).halted = s.halted := rfl
@[simp] theorem State.setSquare_seq (s : State) (q : Nat) (k : Square) : (s.setSquare q k).seq = s.seq := rfl
@[simp] theorem State.setSquare_hwHeld (s : State) (q : Nat) (k : Square) : (s.setSquare q k).hwHeld = s.hwHeld := rfl
@[simp] theorem State.setSquare_zeroed (s : State) (q : Nat) (k : Square) : (s.setSquare q k).zeroed = s.zeroed := rfl

/-! ## `modSquare` -/

@[simp] theorem State.modSquare_mem (s : State) (q : Nat) (f : Square → Square) : (s.modSquare q f).mem = s.mem := rfl
@[simp] theorem State.modSquare_cyc (s : State) (q : Nat) (f : Square → Square) : (s.modSquare q f).cyc = s.cyc := rfl
@[simp] theorem State.modSquare_timeBase (s : State) (q : Nat) (f : Square → Square) : (s.modSquare q f).timeBase = s.timeBase := rfl
@[simp] theorem State.modSquare_free (s : State) (q : Nat) (f : Square → Square) : (s.modSquare q f).free = s.free := rfl
@[simp] theorem State.modSquare_actor (s : State) (q : Nat) (f : Square → Square) : (s.modSquare q f).actor = s.actor := rfl
@[simp] theorem State.modSquare_agenda (s : State) (q : Nat) (f : Square → Square) : (s.modSquare q f).agenda = s.agenda := rfl
@[simp] theorem State.modSquare_todo (s : State) (q : Nat) (f : Square → Square) : (s.modSquare q f).todo = s.todo := rfl
@[simp] theorem State.modSquare_rotor (s : State) (q : Nat) (f : Square → Square) : (s.modSquare q f).rotor = s.rotor := rfl
@[simp] theorem State.modSquare_cores (s : State) (q : Nat) (f : Square → Square) : (s.modSquare q f).cores = s.cores := rfl
@[simp] theorem State.modSquare_districts (s : State) (q : Nat) (f : Square → Square) : (s.modSquare q f).districts = s.districts := rfl
@[simp] theorem State.modSquare_dies (s : State) (q : Nat) (f : Square → Square) : (s.modSquare q f).dies = s.dies := rfl
@[simp] theorem State.modSquare_jobs (s : State) (q : Nat) (f : Square → Square) : (s.modSquare q f).jobs = s.jobs := rfl
@[simp] theorem State.modSquare_saved (s : State) (q : Nat) (f : Square → Square) : (s.modSquare q f).saved = s.saved := rfl
@[simp] theorem State.modSquare_scOps (s : State) (q : Nat) (f : Square → Square) : (s.modSquare q f).scOps = s.scOps := rfl
@[simp] theorem State.modSquare_returns (s : State) (q : Nat) (f : Square → Square) : (s.modSquare q f).returns = s.returns := rfl
@[simp] theorem State.modSquare_boosts (s : State) (q : Nat) (f : Square → Square) : (s.modSquare q f).boosts = s.boosts := rfl
@[simp] theorem State.modSquare_poison (s : State) (q : Nat) (f : Square → Square) : (s.modSquare q f).poison = s.poison := rfl
@[simp] theorem State.modSquare_errors (s : State) (q : Nat) (f : Square → Square) : (s.modSquare q f).errors = s.errors := rfl
@[simp] theorem State.modSquare_eth (s : State) (q : Nat) (f : Square → Square) : (s.modSquare q f).eth = s.eth := rfl
@[simp] theorem State.modSquare_power (s : State) (q : Nat) (f : Square → Square) : (s.modSquare q f).power = s.power := rfl
@[simp] theorem State.modSquare_sec (s : State) (q : Nat) (f : Square → Square) : (s.modSquare q f).sec = s.sec := rfl
@[simp] theorem State.modSquare_modules (s : State) (q : Nat) (f : Square → Square) : (s.modSquare q f).modules = s.modules := rfl
@[simp] theorem State.modSquare_mcCount (s : State) (q : Nat) (f : Square → Square) : (s.modSquare q f).mcCount = s.mcCount := rfl
@[simp] theorem State.modSquare_lantern (s : State) (q : Nat) (f : Square → Square) : (s.modSquare q f).lantern = s.lantern := rfl
@[simp] theorem State.modSquare_halted (s : State) (q : Nat) (f : Square → Square) : (s.modSquare q f).halted = s.halted := rfl
@[simp] theorem State.modSquare_seq (s : State) (q : Nat) (f : Square → Square) : (s.modSquare q f).seq = s.seq := rfl
@[simp] theorem State.modSquare_hwHeld (s : State) (q : Nat) (f : Square → Square) : (s.modSquare q f).hwHeld = s.hwHeld := rfl
@[simp] theorem State.modSquare_zeroed (s : State) (q : Nat) (f : Square → Square) : (s.modSquare q f).zeroed = s.zeroed := rfl

/-! ## `modDistrict` -/

@[simp] theorem State.modDistrict_mem (s : State) (d : Nat) (f : District → District) : (s.modDistrict d f).mem = s.mem := rfl
@[simp] theorem State.modDistrict_cyc (s : State) (d : Nat) (f : District → District) : (s.modDistrict d f).cyc = s.cyc := rfl
@[simp] theorem State.modDistrict_timeBase (s : State) (d : Nat) (f : District → District) : (s.modDistrict d f).timeBase = s.timeBase := rfl
@[simp] theorem State.modDistrict_free (s : State) (d : Nat) (f : District → District) : (s.modDistrict d f).free = s.free := rfl
@[simp] theorem State.modDistrict_actor (s : State) (d : Nat) (f : District → District) : (s.modDistrict d f).actor = s.actor := rfl
@[simp] theorem State.modDistrict_agenda (s : State) (d : Nat) (f : District → District) : (s.modDistrict d f).agenda = s.agenda := rfl
@[simp] theorem State.modDistrict_todo (s : State) (d : Nat) (f : District → District) : (s.modDistrict d f).todo = s.todo := rfl
@[simp] theorem State.modDistrict_rotor (s : State) (d : Nat) (f : District → District) : (s.modDistrict d f).rotor = s.rotor := rfl
@[simp] theorem State.modDistrict_cores (s : State) (d : Nat) (f : District → District) : (s.modDistrict d f).cores = s.cores := rfl
@[simp] theorem State.modDistrict_squares (s : State) (d : Nat) (f : District → District) : (s.modDistrict d f).squares = s.squares := rfl
@[simp] theorem State.modDistrict_dies (s : State) (d : Nat) (f : District → District) : (s.modDistrict d f).dies = s.dies := rfl
@[simp] theorem State.modDistrict_jobs (s : State) (d : Nat) (f : District → District) : (s.modDistrict d f).jobs = s.jobs := rfl
@[simp] theorem State.modDistrict_saved (s : State) (d : Nat) (f : District → District) : (s.modDistrict d f).saved = s.saved := rfl
@[simp] theorem State.modDistrict_scOps (s : State) (d : Nat) (f : District → District) : (s.modDistrict d f).scOps = s.scOps := rfl
@[simp] theorem State.modDistrict_returns (s : State) (d : Nat) (f : District → District) : (s.modDistrict d f).returns = s.returns := rfl
@[simp] theorem State.modDistrict_boosts (s : State) (d : Nat) (f : District → District) : (s.modDistrict d f).boosts = s.boosts := rfl
@[simp] theorem State.modDistrict_poison (s : State) (d : Nat) (f : District → District) : (s.modDistrict d f).poison = s.poison := rfl
@[simp] theorem State.modDistrict_errors (s : State) (d : Nat) (f : District → District) : (s.modDistrict d f).errors = s.errors := rfl
@[simp] theorem State.modDistrict_eth (s : State) (d : Nat) (f : District → District) : (s.modDistrict d f).eth = s.eth := rfl
@[simp] theorem State.modDistrict_power (s : State) (d : Nat) (f : District → District) : (s.modDistrict d f).power = s.power := rfl
@[simp] theorem State.modDistrict_sec (s : State) (d : Nat) (f : District → District) : (s.modDistrict d f).sec = s.sec := rfl
@[simp] theorem State.modDistrict_modules (s : State) (d : Nat) (f : District → District) : (s.modDistrict d f).modules = s.modules := rfl
@[simp] theorem State.modDistrict_mcCount (s : State) (d : Nat) (f : District → District) : (s.modDistrict d f).mcCount = s.mcCount := rfl
@[simp] theorem State.modDistrict_lantern (s : State) (d : Nat) (f : District → District) : (s.modDistrict d f).lantern = s.lantern := rfl
@[simp] theorem State.modDistrict_halted (s : State) (d : Nat) (f : District → District) : (s.modDistrict d f).halted = s.halted := rfl
@[simp] theorem State.modDistrict_seq (s : State) (d : Nat) (f : District → District) : (s.modDistrict d f).seq = s.seq := rfl
@[simp] theorem State.modDistrict_hwHeld (s : State) (d : Nat) (f : District → District) : (s.modDistrict d f).hwHeld = s.hwHeld := rfl
@[simp] theorem State.modDistrict_zeroed (s : State) (d : Nat) (f : District → District) : (s.modDistrict d f).zeroed = s.zeroed := rfl

/-! ## `modDie` -/

@[simp] theorem State.modDie_mem (s : State) (d : Nat) (f : Die → Die) : (s.modDie d f).mem = s.mem := rfl
@[simp] theorem State.modDie_cyc (s : State) (d : Nat) (f : Die → Die) : (s.modDie d f).cyc = s.cyc := rfl
@[simp] theorem State.modDie_timeBase (s : State) (d : Nat) (f : Die → Die) : (s.modDie d f).timeBase = s.timeBase := rfl
@[simp] theorem State.modDie_free (s : State) (d : Nat) (f : Die → Die) : (s.modDie d f).free = s.free := rfl
@[simp] theorem State.modDie_actor (s : State) (d : Nat) (f : Die → Die) : (s.modDie d f).actor = s.actor := rfl
@[simp] theorem State.modDie_agenda (s : State) (d : Nat) (f : Die → Die) : (s.modDie d f).agenda = s.agenda := rfl
@[simp] theorem State.modDie_todo (s : State) (d : Nat) (f : Die → Die) : (s.modDie d f).todo = s.todo := rfl
@[simp] theorem State.modDie_rotor (s : State) (d : Nat) (f : Die → Die) : (s.modDie d f).rotor = s.rotor := rfl
@[simp] theorem State.modDie_cores (s : State) (d : Nat) (f : Die → Die) : (s.modDie d f).cores = s.cores := rfl
@[simp] theorem State.modDie_squares (s : State) (d : Nat) (f : Die → Die) : (s.modDie d f).squares = s.squares := rfl
@[simp] theorem State.modDie_districts (s : State) (d : Nat) (f : Die → Die) : (s.modDie d f).districts = s.districts := rfl
@[simp] theorem State.modDie_jobs (s : State) (d : Nat) (f : Die → Die) : (s.modDie d f).jobs = s.jobs := rfl
@[simp] theorem State.modDie_saved (s : State) (d : Nat) (f : Die → Die) : (s.modDie d f).saved = s.saved := rfl
@[simp] theorem State.modDie_scOps (s : State) (d : Nat) (f : Die → Die) : (s.modDie d f).scOps = s.scOps := rfl
@[simp] theorem State.modDie_returns (s : State) (d : Nat) (f : Die → Die) : (s.modDie d f).returns = s.returns := rfl
@[simp] theorem State.modDie_boosts (s : State) (d : Nat) (f : Die → Die) : (s.modDie d f).boosts = s.boosts := rfl
@[simp] theorem State.modDie_poison (s : State) (d : Nat) (f : Die → Die) : (s.modDie d f).poison = s.poison := rfl
@[simp] theorem State.modDie_errors (s : State) (d : Nat) (f : Die → Die) : (s.modDie d f).errors = s.errors := rfl
@[simp] theorem State.modDie_eth (s : State) (d : Nat) (f : Die → Die) : (s.modDie d f).eth = s.eth := rfl
@[simp] theorem State.modDie_power (s : State) (d : Nat) (f : Die → Die) : (s.modDie d f).power = s.power := rfl
@[simp] theorem State.modDie_sec (s : State) (d : Nat) (f : Die → Die) : (s.modDie d f).sec = s.sec := rfl
@[simp] theorem State.modDie_modules (s : State) (d : Nat) (f : Die → Die) : (s.modDie d f).modules = s.modules := rfl
@[simp] theorem State.modDie_mcCount (s : State) (d : Nat) (f : Die → Die) : (s.modDie d f).mcCount = s.mcCount := rfl
@[simp] theorem State.modDie_lantern (s : State) (d : Nat) (f : Die → Die) : (s.modDie d f).lantern = s.lantern := rfl
@[simp] theorem State.modDie_halted (s : State) (d : Nat) (f : Die → Die) : (s.modDie d f).halted = s.halted := rfl
@[simp] theorem State.modDie_seq (s : State) (d : Nat) (f : Die → Die) : (s.modDie d f).seq = s.seq := rfl
@[simp] theorem State.modDie_hwHeld (s : State) (d : Nat) (f : Die → Die) : (s.modDie d f).hwHeld = s.hwHeld := rfl
@[simp] theorem State.modDie_zeroed (s : State) (d : Nat) (f : Die → Die) : (s.modDie d f).zeroed = s.zeroed := rfl

/-! ## `modJob` -/

@[simp] theorem State.modJob_mem (s : State) (j : Nat) (f : JobRegs → JobRegs) : (s.modJob j f).mem = s.mem := rfl
@[simp] theorem State.modJob_cyc (s : State) (j : Nat) (f : JobRegs → JobRegs) : (s.modJob j f).cyc = s.cyc := rfl
@[simp] theorem State.modJob_timeBase (s : State) (j : Nat) (f : JobRegs → JobRegs) : (s.modJob j f).timeBase = s.timeBase := rfl
@[simp] theorem State.modJob_free (s : State) (j : Nat) (f : JobRegs → JobRegs) : (s.modJob j f).free = s.free := rfl
@[simp] theorem State.modJob_actor (s : State) (j : Nat) (f : JobRegs → JobRegs) : (s.modJob j f).actor = s.actor := rfl
@[simp] theorem State.modJob_agenda (s : State) (j : Nat) (f : JobRegs → JobRegs) : (s.modJob j f).agenda = s.agenda := rfl
@[simp] theorem State.modJob_todo (s : State) (j : Nat) (f : JobRegs → JobRegs) : (s.modJob j f).todo = s.todo := rfl
@[simp] theorem State.modJob_rotor (s : State) (j : Nat) (f : JobRegs → JobRegs) : (s.modJob j f).rotor = s.rotor := rfl
@[simp] theorem State.modJob_cores (s : State) (j : Nat) (f : JobRegs → JobRegs) : (s.modJob j f).cores = s.cores := rfl
@[simp] theorem State.modJob_squares (s : State) (j : Nat) (f : JobRegs → JobRegs) : (s.modJob j f).squares = s.squares := rfl
@[simp] theorem State.modJob_districts (s : State) (j : Nat) (f : JobRegs → JobRegs) : (s.modJob j f).districts = s.districts := rfl
@[simp] theorem State.modJob_dies (s : State) (j : Nat) (f : JobRegs → JobRegs) : (s.modJob j f).dies = s.dies := rfl
@[simp] theorem State.modJob_saved (s : State) (j : Nat) (f : JobRegs → JobRegs) : (s.modJob j f).saved = s.saved := rfl
@[simp] theorem State.modJob_scOps (s : State) (j : Nat) (f : JobRegs → JobRegs) : (s.modJob j f).scOps = s.scOps := rfl
@[simp] theorem State.modJob_returns (s : State) (j : Nat) (f : JobRegs → JobRegs) : (s.modJob j f).returns = s.returns := rfl
@[simp] theorem State.modJob_boosts (s : State) (j : Nat) (f : JobRegs → JobRegs) : (s.modJob j f).boosts = s.boosts := rfl
@[simp] theorem State.modJob_poison (s : State) (j : Nat) (f : JobRegs → JobRegs) : (s.modJob j f).poison = s.poison := rfl
@[simp] theorem State.modJob_errors (s : State) (j : Nat) (f : JobRegs → JobRegs) : (s.modJob j f).errors = s.errors := rfl
@[simp] theorem State.modJob_eth (s : State) (j : Nat) (f : JobRegs → JobRegs) : (s.modJob j f).eth = s.eth := rfl
@[simp] theorem State.modJob_power (s : State) (j : Nat) (f : JobRegs → JobRegs) : (s.modJob j f).power = s.power := rfl
@[simp] theorem State.modJob_sec (s : State) (j : Nat) (f : JobRegs → JobRegs) : (s.modJob j f).sec = s.sec := rfl
@[simp] theorem State.modJob_modules (s : State) (j : Nat) (f : JobRegs → JobRegs) : (s.modJob j f).modules = s.modules := rfl
@[simp] theorem State.modJob_mcCount (s : State) (j : Nat) (f : JobRegs → JobRegs) : (s.modJob j f).mcCount = s.mcCount := rfl
@[simp] theorem State.modJob_lantern (s : State) (j : Nat) (f : JobRegs → JobRegs) : (s.modJob j f).lantern = s.lantern := rfl
@[simp] theorem State.modJob_halted (s : State) (j : Nat) (f : JobRegs → JobRegs) : (s.modJob j f).halted = s.halted := rfl
@[simp] theorem State.modJob_seq (s : State) (j : Nat) (f : JobRegs → JobRegs) : (s.modJob j f).seq = s.seq := rfl
@[simp] theorem State.modJob_hwHeld (s : State) (j : Nat) (f : JobRegs → JobRegs) : (s.modJob j f).hwHeld = s.hwHeld := rfl
@[simp] theorem State.modJob_zeroed (s : State) (j : Nat) (f : JobRegs → JobRegs) : (s.modJob j f).zeroed = s.zeroed := rfl

/-! ## `due` -/

@[simp] theorem State.due_mem (s : State) (d : Due) : (s.due d).mem = s.mem := rfl
@[simp] theorem State.due_cyc (s : State) (d : Due) : (s.due d).cyc = s.cyc := rfl
@[simp] theorem State.due_timeBase (s : State) (d : Due) : (s.due d).timeBase = s.timeBase := rfl
@[simp] theorem State.due_free (s : State) (d : Due) : (s.due d).free = s.free := rfl
@[simp] theorem State.due_actor (s : State) (d : Due) : (s.due d).actor = s.actor := rfl
@[simp] theorem State.due_agenda (s : State) (d : Due) : (s.due d).agenda = s.agenda := rfl
@[simp] theorem State.due_rotor (s : State) (d : Due) : (s.due d).rotor = s.rotor := rfl
@[simp] theorem State.due_cores (s : State) (d : Due) : (s.due d).cores = s.cores := rfl
@[simp] theorem State.due_squares (s : State) (d : Due) : (s.due d).squares = s.squares := rfl
@[simp] theorem State.due_districts (s : State) (d : Due) : (s.due d).districts = s.districts := rfl
@[simp] theorem State.due_dies (s : State) (d : Due) : (s.due d).dies = s.dies := rfl
@[simp] theorem State.due_jobs (s : State) (d : Due) : (s.due d).jobs = s.jobs := rfl
@[simp] theorem State.due_saved (s : State) (d : Due) : (s.due d).saved = s.saved := rfl
@[simp] theorem State.due_scOps (s : State) (d : Due) : (s.due d).scOps = s.scOps := rfl
@[simp] theorem State.due_returns (s : State) (d : Due) : (s.due d).returns = s.returns := rfl
@[simp] theorem State.due_boosts (s : State) (d : Due) : (s.due d).boosts = s.boosts := rfl
@[simp] theorem State.due_poison (s : State) (d : Due) : (s.due d).poison = s.poison := rfl
@[simp] theorem State.due_errors (s : State) (d : Due) : (s.due d).errors = s.errors := rfl
@[simp] theorem State.due_eth (s : State) (d : Due) : (s.due d).eth = s.eth := rfl
@[simp] theorem State.due_power (s : State) (d : Due) : (s.due d).power = s.power := rfl
@[simp] theorem State.due_sec (s : State) (d : Due) : (s.due d).sec = s.sec := rfl
@[simp] theorem State.due_modules (s : State) (d : Due) : (s.due d).modules = s.modules := rfl
@[simp] theorem State.due_mcCount (s : State) (d : Due) : (s.due d).mcCount = s.mcCount := rfl
@[simp] theorem State.due_lantern (s : State) (d : Due) : (s.due d).lantern = s.lantern := rfl
@[simp] theorem State.due_halted (s : State) (d : Due) : (s.due d).halted = s.halted := rfl
@[simp] theorem State.due_seq (s : State) (d : Due) : (s.due d).seq = s.seq := rfl
@[simp] theorem State.due_hwHeld (s : State) (d : Due) : (s.due d).hwHeld = s.hwHeld := rfl
@[simp] theorem State.due_zeroed (s : State) (d : Due) : (s.due d).zeroed = s.zeroed := rfl

/-! ## `write` -/

@[simp] theorem State.write_cyc (s : State) (a n v : Nat) : (s.write a n v).cyc = s.cyc := rfl
@[simp] theorem State.write_timeBase (s : State) (a n v : Nat) : (s.write a n v).timeBase = s.timeBase := rfl
@[simp] theorem State.write_free (s : State) (a n v : Nat) : (s.write a n v).free = s.free := rfl
@[simp] theorem State.write_actor (s : State) (a n v : Nat) : (s.write a n v).actor = s.actor := rfl
@[simp] theorem State.write_agenda (s : State) (a n v : Nat) : (s.write a n v).agenda = s.agenda := rfl
@[simp] theorem State.write_todo (s : State) (a n v : Nat) : (s.write a n v).todo = s.todo := rfl
@[simp] theorem State.write_rotor (s : State) (a n v : Nat) : (s.write a n v).rotor = s.rotor := rfl
@[simp] theorem State.write_cores (s : State) (a n v : Nat) : (s.write a n v).cores = s.cores := rfl
@[simp] theorem State.write_squares (s : State) (a n v : Nat) : (s.write a n v).squares = s.squares := rfl
@[simp] theorem State.write_districts (s : State) (a n v : Nat) : (s.write a n v).districts = s.districts := rfl
@[simp] theorem State.write_dies (s : State) (a n v : Nat) : (s.write a n v).dies = s.dies := rfl
@[simp] theorem State.write_jobs (s : State) (a n v : Nat) : (s.write a n v).jobs = s.jobs := rfl
@[simp] theorem State.write_saved (s : State) (a n v : Nat) : (s.write a n v).saved = s.saved := rfl
@[simp] theorem State.write_scOps (s : State) (a n v : Nat) : (s.write a n v).scOps = s.scOps := rfl
@[simp] theorem State.write_returns (s : State) (a n v : Nat) : (s.write a n v).returns = s.returns := rfl
@[simp] theorem State.write_boosts (s : State) (a n v : Nat) : (s.write a n v).boosts = s.boosts := rfl
@[simp] theorem State.write_poison (s : State) (a n v : Nat) : (s.write a n v).poison = s.poison := rfl
@[simp] theorem State.write_errors (s : State) (a n v : Nat) : (s.write a n v).errors = s.errors := rfl
@[simp] theorem State.write_eth (s : State) (a n v : Nat) : (s.write a n v).eth = s.eth := rfl
@[simp] theorem State.write_power (s : State) (a n v : Nat) : (s.write a n v).power = s.power := rfl
@[simp] theorem State.write_sec (s : State) (a n v : Nat) : (s.write a n v).sec = s.sec := rfl
@[simp] theorem State.write_modules (s : State) (a n v : Nat) : (s.write a n v).modules = s.modules := rfl
@[simp] theorem State.write_mcCount (s : State) (a n v : Nat) : (s.write a n v).mcCount = s.mcCount := rfl
@[simp] theorem State.write_lantern (s : State) (a n v : Nat) : (s.write a n v).lantern = s.lantern := rfl
@[simp] theorem State.write_halted (s : State) (a n v : Nat) : (s.write a n v).halted = s.halted := rfl
@[simp] theorem State.write_seq (s : State) (a n v : Nat) : (s.write a n v).seq = s.seq := rfl
@[simp] theorem State.write_hwHeld (s : State) (a n v : Nat) : (s.write a n v).hwHeld = s.hwHeld := rfl
@[simp] theorem State.write_zeroed (s : State) (a n v : Nat) : (s.write a n v).zeroed = s.zeroed := rfl

/-! ## `clearRange` -/

@[simp] theorem State.clearRange_cyc (s : State) (lo hi : Nat) : (s.clearRange lo hi).cyc = s.cyc := rfl
@[simp] theorem State.clearRange_timeBase (s : State) (lo hi : Nat) : (s.clearRange lo hi).timeBase = s.timeBase := rfl
@[simp] theorem State.clearRange_free (s : State) (lo hi : Nat) : (s.clearRange lo hi).free = s.free := rfl
@[simp] theorem State.clearRange_actor (s : State) (lo hi : Nat) : (s.clearRange lo hi).actor = s.actor := rfl
@[simp] theorem State.clearRange_agenda (s : State) (lo hi : Nat) : (s.clearRange lo hi).agenda = s.agenda := rfl
@[simp] theorem State.clearRange_todo (s : State) (lo hi : Nat) : (s.clearRange lo hi).todo = s.todo := rfl
@[simp] theorem State.clearRange_rotor (s : State) (lo hi : Nat) : (s.clearRange lo hi).rotor = s.rotor := rfl
@[simp] theorem State.clearRange_cores (s : State) (lo hi : Nat) : (s.clearRange lo hi).cores = s.cores := rfl
@[simp] theorem State.clearRange_squares (s : State) (lo hi : Nat) : (s.clearRange lo hi).squares = s.squares := rfl
@[simp] theorem State.clearRange_districts (s : State) (lo hi : Nat) : (s.clearRange lo hi).districts = s.districts := rfl
@[simp] theorem State.clearRange_dies (s : State) (lo hi : Nat) : (s.clearRange lo hi).dies = s.dies := rfl
@[simp] theorem State.clearRange_jobs (s : State) (lo hi : Nat) : (s.clearRange lo hi).jobs = s.jobs := rfl
@[simp] theorem State.clearRange_saved (s : State) (lo hi : Nat) : (s.clearRange lo hi).saved = s.saved := rfl
@[simp] theorem State.clearRange_scOps (s : State) (lo hi : Nat) : (s.clearRange lo hi).scOps = s.scOps := rfl
@[simp] theorem State.clearRange_returns (s : State) (lo hi : Nat) : (s.clearRange lo hi).returns = s.returns := rfl
@[simp] theorem State.clearRange_boosts (s : State) (lo hi : Nat) : (s.clearRange lo hi).boosts = s.boosts := rfl
@[simp] theorem State.clearRange_poison (s : State) (lo hi : Nat) : (s.clearRange lo hi).poison = s.poison := rfl
@[simp] theorem State.clearRange_errors (s : State) (lo hi : Nat) : (s.clearRange lo hi).errors = s.errors := rfl
@[simp] theorem State.clearRange_eth (s : State) (lo hi : Nat) : (s.clearRange lo hi).eth = s.eth := rfl
@[simp] theorem State.clearRange_power (s : State) (lo hi : Nat) : (s.clearRange lo hi).power = s.power := rfl
@[simp] theorem State.clearRange_sec (s : State) (lo hi : Nat) : (s.clearRange lo hi).sec = s.sec := rfl
@[simp] theorem State.clearRange_modules (s : State) (lo hi : Nat) : (s.clearRange lo hi).modules = s.modules := rfl
@[simp] theorem State.clearRange_mcCount (s : State) (lo hi : Nat) : (s.clearRange lo hi).mcCount = s.mcCount := rfl
@[simp] theorem State.clearRange_lantern (s : State) (lo hi : Nat) : (s.clearRange lo hi).lantern = s.lantern := rfl
@[simp] theorem State.clearRange_halted (s : State) (lo hi : Nat) : (s.clearRange lo hi).halted = s.halted := rfl
@[simp] theorem State.clearRange_seq (s : State) (lo hi : Nat) : (s.clearRange lo hi).seq = s.seq := rfl
@[simp] theorem State.clearRange_hwHeld (s : State) (lo hi : Nat) : (s.clearRange lo hi).hwHeld = s.hwHeld := rfl
@[simp] theorem State.clearRange_zeroed (s : State) (lo hi : Nat) : (s.clearRange lo hi).zeroed = s.zeroed := rfl

/-! ## `fresh` -/

@[simp] theorem State.fresh_mem (s : State) : (s.fresh).mem = s.mem := rfl
@[simp] theorem State.fresh_cyc (s : State) : (s.fresh).cyc = s.cyc := rfl
@[simp] theorem State.fresh_timeBase (s : State) : (s.fresh).timeBase = s.timeBase := rfl
@[simp] theorem State.fresh_actor (s : State) : (s.fresh).actor = s.actor := rfl
@[simp] theorem State.fresh_agenda (s : State) : (s.fresh).agenda = s.agenda := rfl
@[simp] theorem State.fresh_todo (s : State) : (s.fresh).todo = s.todo := rfl
@[simp] theorem State.fresh_rotor (s : State) : (s.fresh).rotor = s.rotor := rfl
@[simp] theorem State.fresh_cores (s : State) : (s.fresh).cores = s.cores := rfl
@[simp] theorem State.fresh_squares (s : State) : (s.fresh).squares = s.squares := rfl
@[simp] theorem State.fresh_districts (s : State) : (s.fresh).districts = s.districts := rfl
@[simp] theorem State.fresh_dies (s : State) : (s.fresh).dies = s.dies := rfl
@[simp] theorem State.fresh_jobs (s : State) : (s.fresh).jobs = s.jobs := rfl
@[simp] theorem State.fresh_saved (s : State) : (s.fresh).saved = s.saved := rfl
@[simp] theorem State.fresh_scOps (s : State) : (s.fresh).scOps = s.scOps := rfl
@[simp] theorem State.fresh_returns (s : State) : (s.fresh).returns = s.returns := rfl
@[simp] theorem State.fresh_boosts (s : State) : (s.fresh).boosts = s.boosts := rfl
@[simp] theorem State.fresh_poison (s : State) : (s.fresh).poison = s.poison := rfl
@[simp] theorem State.fresh_errors (s : State) : (s.fresh).errors = s.errors := rfl
@[simp] theorem State.fresh_eth (s : State) : (s.fresh).eth = s.eth := rfl
@[simp] theorem State.fresh_power (s : State) : (s.fresh).power = s.power := rfl
@[simp] theorem State.fresh_sec (s : State) : (s.fresh).sec = s.sec := rfl
@[simp] theorem State.fresh_modules (s : State) : (s.fresh).modules = s.modules := rfl
@[simp] theorem State.fresh_mcCount (s : State) : (s.fresh).mcCount = s.mcCount := rfl
@[simp] theorem State.fresh_lantern (s : State) : (s.fresh).lantern = s.lantern := rfl
@[simp] theorem State.fresh_halted (s : State) : (s.fresh).halted = s.halted := rfl
@[simp] theorem State.fresh_seq (s : State) : (s.fresh).seq = s.seq := rfl
@[simp] theorem State.fresh_hwHeld (s : State) : (s.fresh).hwHeld = s.hwHeld := rfl
@[simp] theorem State.fresh_zeroed (s : State) : (s.fresh).zeroed = s.zeroed := rfl

@[simp] theorem State.due_todo (s : State) (d : Due) : (s.due d).todo = s.todo ++ [d] := rfl
@[simp] theorem State.write_mem (s : State) (a n v : Nat) : (s.write a n v).mem = Mem.write s.mem a n v := rfl
@[simp] theorem State.clearRange_mem (s : State) (lo hi : Nat) : (s.clearRange lo hi).mem = Mem.clear s.mem lo hi := rfl
@[simp] theorem State.fresh_free (s : State) : s.fresh.free = s.free + 1 := rfl

/-! ## The records -/

@[simp] theorem State.core_setCore (s : State) (c : Nat) (k : Core) : (s.setCore c k).core c = k := by
  simp [State.core, State.setCore]
theorem State.core_setCore_other (s : State) (c m : Nat) (k : Core) (h : m ≠ c) : (s.setCore c k).core m = s.core m := by
  simp [State.core, State.setCore, Table.getD_set_other _ _ _ _ _ h]
@[simp] theorem State.core_modCore (s : State) (c : Nat) (f : Core → Core) : (s.modCore c f).core c = f (s.core c) := by
  simp [State.modCore]
theorem State.core_modCore_other (s : State) (c m : Nat) (f : Core → Core) (h : m ≠ c) :
    (s.modCore c f).core m = s.core m := by
  simp [State.modCore, State.core_setCore_other _ _ _ _ h]
@[simp] theorem State.core_due (s : State) (d : Due) (c : Nat) : (s.due d).core c = s.core c := rfl
@[simp] theorem State.core_write (s : State) (a n v c : Nat) : (s.write a n v).core c = s.core c := rfl
@[simp] theorem State.core_modSquare (s : State) (q : Nat) (f : Square → Square) (c : Nat) :
    (s.modSquare q f).core c = s.core c := rfl
@[simp] theorem State.core_modDie (s : State) (d : Nat) (f : Die → Die) (c : Nat) : (s.modDie d f).core c = s.core c := rfl
@[simp] theorem State.core_modJob (s : State) (j : Nat) (f : JobRegs → JobRegs) (c : Nat) :
    (s.modJob j f).core c = s.core c := rfl
@[simp] theorem State.core_modDistrict (s : State) (d : Nat) (f : District → District) (c : Nat) :
    (s.modDistrict d f).core c = s.core c := rfl
@[simp] theorem State.square_modSquare (s : State) (q : Nat) (f : Square → Square) :
    (s.modSquare q f).square q = f (s.square q) := by
  simp [State.modSquare, State.setSquare, State.square]
theorem State.square_modSquare_other (s : State) (q r : Nat) (f : Square → Square) (h : r ≠ q) :
    (s.modSquare q f).square r = s.square r := by
  simp [State.modSquare, State.setSquare, State.square, Table.getD_set_other _ _ _ _ _ h]
@[simp] theorem State.square_modCore (s : State) (c : Nat) (f : Core → Core) (q : Nat) :
    (s.modCore c f).square q = s.square q := rfl
@[simp] theorem State.die_modDie (s : State) (d : Nat) (f : Die → Die) : (s.modDie d f).die d = f (s.die d) := by
  simp [State.modDie, State.die]
@[simp] theorem State.die_modCore (s : State) (c : Nat) (f : Core → Core) (d : Nat) : (s.modCore c f).die d = s.die d := rfl
@[simp] theorem State.job_modJob (s : State) (j : Nat) (f : JobRegs → JobRegs) : (s.modJob j f).job j = f (s.job j) := by
  simp [State.modJob, State.job]
@[simp] theorem State.job_modCore (s : State) (c : Nat) (f : Core → Core) (j : Nat) : (s.modCore c f).job j = s.job j := rfl

theorem State.setCore_setCore (s : State) (c : Nat) (k l : Core) : (s.setCore c k).setCore c l = s.setCore c l := by
  simp [State.setCore, Table.set_set]
/-- Two updates of one core in a row are one. -/
theorem State.modCore_modCore (s : State) (c : Nat) (f g : Core → Core) :
    (s.modCore c f).modCore c g = s.modCore c (fun k => g (f k)) := by
  simp [State.modCore, State.setCore_setCore]

end Sys2Proof.Machine
end

