-- ==== Sys2Proof/Laws/Issue.lean ====
section
/-! SUPPORT. What the issue of an instruction can do: the state when its effect begins, the answer of `issue`, and the frame of
an instruction whose result goes to a register. -/
namespace Sys2Proof.Machine

set_option Elab.async false

/-! ## Only one core -/

theorem OnlyCore.refl (s : State) (c : Nat) : OnlyCore s s c := ⟨rfl, fun _ _ => rfl⟩

theorem OnlyCore.trans {s t u : State} {c : Nat} (h : OnlyCore s t c) (g : OnlyCore t u c) : OnlyCore s u c := by
  refine ⟨?_, fun m hm => (g.others m hm).trans (h.others m hm)⟩
  have h1 := h.device
  have h2 := g.device
  rw [h1] at h2
  exact h2

theorem OnlyCore.modCore (s : State) (c : Nat) (f : Core → Core) : OnlyCore s (s.modCore c f) c :=
  ⟨rfl, fun m hm => State.core_modCore_other s c m f hm⟩

theorem OnlyCore.bytes {s t : State} {c : Nat} (h : OnlyCore s t c) : SameBytes s t := by
  intro a
  rw [h.device]
  rfl

theorem OnlyCore.mem {s t : State} {c : Nat} (h : OnlyCore s t c) : t.mem = s.mem := by
  rw [h.device]

theorem RegistersOnly.refl (k : Core) : RegistersOnly k k := rfl

theorem RegistersOnly.trans {a b c : Core} (h : RegistersOnly a b) (g : RegistersOnly b c) : RegistersOnly a c := by
  unfold RegistersOnly at *
  rw [h] at g
  exact g

theorem RegistersOnly.streams {k k' : Core} (h : RegistersOnly k k') : k'.streams = k.streams := by
  unfold RegistersOnly at h
  rw [h]

/-! ## Event counters -/

theorem evCount_onlyCore (s : State) (c code n : Nat) : OnlyCore s (s.evCount c code n) c := by
  unfold State.evCount
  simp only
  split
  · exact OnlyCore.modCore _ _ _
  · exact OnlyCore.refl _ _

/-- Counting changes a core's event counters alone. -/
theorem evCount_core (s : State) (c code n : Nat) :
    (s.evCount c code n).core c = { s.core c with evc := ((s.evCount c code n).core c).evc } := by
  unfold State.evCount
  simp only
  split
  · simp
  · rfl

@[simp] theorem evCount_regs (s : State) (c code n : Nat) : ((s.evCount c code n).core c).regs = (s.core c).regs := by
  rw [evCount_core]
@[simp] theorem evCount_pipe (s : State) (c code n : Nat) : ((s.evCount c code n).core c).pipe = (s.core c).pipe := by
  rw [evCount_core]
@[simp] theorem evCount_streams (s : State) (c code n : Nat) :
    ((s.evCount c code n).core c).streams = (s.core c).streams := by
  rw [evCount_core]
@[simp] theorem evCount_task (s : State) (c code n : Nat) : ((s.evCount c code n).core c).task = (s.core c).task := by
  rw [evCount_core]
@[simp] theorem evCount_todo (s : State) (c code n : Nat) : (s.evCount c code n).todo = s.todo := by
  rw [(evCount_onlyCore s c code n).device]
@[simp] theorem evCount_mem (s : State) (c code n : Nat) : (s.evCount c code n).mem = s.mem := by
  rw [(evCount_onlyCore s c code n).device]

theorem evCount_registersOnly (s : State) (c code n : Nat) : RegistersOnly (s.core c) ((s.evCount c code n).core c) := by
  unfold RegistersOnly
  rw [evCount_core]

/-! ## The state when the effect begins -/

theorem beginIssue_onlyCore (s : State) (c : Nat) (g : Sig) : OnlyCore s (beginIssue s c g) c := by
  unfold beginIssue
  exact ((((OnlyCore.modCore _ _ _).trans (evCount_onlyCore _ _ _ _)).trans (evCount_onlyCore _ _ _ _)).trans
    (evCount_onlyCore _ _ _ _)).trans (evCount_onlyCore _ _ _ _)

theorem charge_registersOnly (k : Core) (job nrg cls n : Nat) : RegistersOnly k (k.charge job nrg cls n) := rfl

theorem registersOnly_pipe (k : Core) (p : Pipe) : RegistersOnly k { k with pipe := p } := rfl

theorem beginIssue_registersOnly (s : State) (c : Nat) (g : Sig) :
    RegistersOnly (s.core c) ((beginIssue s c g).core c) := by
  unfold beginIssue
  refine RegistersOnly.trans (b := (s.modCore c _).core c) ?_
    ((((evCount_registersOnly _ _ _ _).trans (evCount_registersOnly _ _ _ _)).trans
      (evCount_registersOnly _ _ _ _)).trans (evCount_registersOnly _ _ _ _))
  rw [State.core_modCore]
  exact (charge_registersOnly _ _ _ _ _).trans ((charge_registersOnly _ _ _ _ _).trans (registersOnly_pipe _ _))

@[simp] theorem beginIssue_regs (s : State) (c : Nat) (g : Sig) : ((beginIssue s c g).core c).regs = (s.core c).regs := by
  unfold beginIssue
  simp [Core.charge]

@[simp] theorem beginIssue_streams (s : State) (c : Nat) (g : Sig) :
    ((beginIssue s c g).core c).streams = (s.core c).streams := by
  rw [beginIssue_registersOnly s c g]

@[simp] theorem beginIssue_task (s : State) (c : Nat) (g : Sig) : ((beginIssue s c g).core c).task = (s.core c).task := by
  rw [beginIssue_registersOnly s c g]

@[simp] theorem beginIssue_pc (s : State) (c : Nat) (g : Sig) : ((beginIssue s c g).core c).pipe.pc = nextPc (s.core c) := by
  unfold beginIssue nextPc
  simp [Core.charge]

@[simp] theorem beginIssue_iva (s : State) (c : Nat) (g : Sig) :
    ((beginIssue s c g).core c).pipe.iva = (s.core c).instrVa := by
  unfold beginIssue
  simp [Core.charge]

@[simp] theorem beginIssue_hints (s : State) (c : Nat) (g : Sig) :
    ((beginIssue s c g).core c).pipe.hints = (s.core c).pipe.hints := by
  unfold beginIssue
  simp [Core.charge]

@[simp] theorem beginIssue_rep (s : State) (c : Nat) (g : Sig) :
    ((beginIssue s c g).core c).pipe.rep = (s.core c).pipe.rep := by
  unfold beginIssue
  simp [Core.charge]

@[simp] theorem beginIssue_inBody (s : State) (c : Nat) (g : Sig) :
    ((beginIssue s c g).core c).pipe.inBody = (s.core c).pipe.inBody := by
  unfold beginIssue
  simp [Core.charge]

@[simp] theorem beginIssue_pend (s : State) (c : Nat) (g : Sig) :
    ((beginIssue s c g).core c).pipe.pend = (s.core c).pipe.pend := by
  unfold beginIssue
  simp [Core.charge]

@[simp] theorem beginIssue_lastIssue (s : State) (c : Nat) (g : Sig) :
    ((beginIssue s c g).core c).pipe.lastIssue = issueCycle s (s.core c) g := by
  unfold beginIssue
  simp [Core.charge]

@[simp] theorem beginIssue_todo (s : State) (c : Nat) (g : Sig) : (beginIssue s c g).todo = s.todo := by
  rw [(beginIssue_onlyCore s c g).device]

@[simp] theorem beginIssue_mem (s : State) (c : Nat) (g : Sig) : (beginIssue s c g).mem = s.mem := by
  rw [(beginIssue_onlyCore s c g).device]

/-- What stands in the registers is the same when the effect begins, hints and streams too. -/
theorem beginIssue_boundAt (s : State) (c : Nat) (g : Sig) (r : RegFile × Nat) :
    ((beginIssue s c g).core c).boundAt r = (s.core c).boundAt r := by
  unfold Core.boundAt Core.strm
  rw [beginIssue_streams]

@[simp] theorem beginIssue_hintsNow (s : State) (c : Nat) (g : Sig) :
    ((beginIssue s c g).core c).hints = (s.core c).hints := by
  simp [Core.hints, Core.bodyInstr]

/-- Fields that name no stream are read, and nothing else comes of it. -/
theorem popOperands_plain (s : State) (c : Nat) (l : List (RegFile × Nat))
    (h : ∀ e ∈ l, (s.core c).boundAt (operand e.1 e.2) = none) :
    popOperands s c l = .ok (l.map (fun e => (s.core c).read (operand e.1 e.2).1 (operand e.1 e.2).2), s) := by
  induction l with
  | nil => rfl
  | cons e es ih =>
    have he := h e (List.mem_cons_self ..)
    have ih' := ih (fun x hx => h x (List.mem_cons_of_mem _ hx))
    unfold popOperands
    simp only [he]
    simp only [bind, Except.bind, pure, Except.pure, ih', List.map_cons]

/-! ## The answer of `issue` -/

/-- The two results are the same but for their scheduled places. -/
def SameResult (p q : Pending) : Prop :=
  q.file = p.file ∧ q.idx = p.idx ∧ q.wait = p.wait ∧ q.landAt = p.landAt ∧ q.value = p.value

/-- A core leaves its body with another pipe alone. -/
theorem leaveBody_core (k : Core) : k.leaveBody = { k with pipe := k.leaveBody.pipe } := by
  unfold Core.leaveBody
  split <;> rfl

/-- A step of a repetition's body changes the pipe alone: not its program counter, not its results but for their places. -/
theorem stepBody_core (k : Core) : k.stepBody = { k with pipe := k.stepBody.pipe } := by
  unfold Core.stepBody
  split
  · rfl
  · split
    · exact leaveBody_core _
    · rfl

theorem stepBody_pc (k : Core) : k.stepBody.pipe.pc = k.pipe.pc := by
  unfold Core.stepBody
  split
  · rfl
  · split
    · unfold Core.leaveBody
      split <;> rfl
    · rfl

theorem stepBody_pend (k : Core) :
    ∃ f : Pending → Pending, (∀ p, SameResult p (f p)) ∧ k.stepBody.pipe.pend = k.pipe.pend.map f := by
  have id_ : ∀ l : List Pending, ∃ f : Pending → Pending, (∀ p, SameResult p (f p)) ∧ l = l.map f :=
    fun l => ⟨id, fun _ => ⟨rfl, rfl, rfl, rfl, rfl⟩, (List.map_id l).symm⟩
  unfold Core.stepBody
  split
  · exact id_ _
  · split
    · unfold Core.leaveBody
      split <;> exact id_ _
    · refine ⟨_, fun p => ?_, rfl⟩
      split <;> exact ⟨rfl, rfl, rfl, rfl, rfl⟩

/-- What an instruction leaves of its core when it is done: another pipe alone. -/
theorem endIssue_core (s : State) (c : Nat) (b : Bool) :
    (endIssue s c b).core c = { s.core c with pipe := ((endIssue s c b).core c).pipe } := by
  unfold endIssue
  rw [State.core_modCore]
  dsimp only
  split
  · rw [stepBody_core]
  · rfl

@[simp] theorem endIssue_task (s : State) (c : Nat) (b : Bool) : ((endIssue s c b).core c).task = (s.core c).task := by
  rw [endIssue_core]
@[simp] theorem endIssue_regs (s : State) (c : Nat) (b : Bool) : ((endIssue s c b).core c).regs = (s.core c).regs := by
  rw [endIssue_core]
@[simp] theorem endIssue_pc (s : State) (c : Nat) (b : Bool) : ((endIssue s c b).core c).pipe.pc = (s.core c).pipe.pc := by
  unfold endIssue
  rw [State.core_modCore]
  dsimp only
  split
  · rw [stepBody_pc]
  · rfl
theorem endIssue_pend (s : State) (c : Nat) (b : Bool) : ∃ f : Pending → Pending, (∀ p, SameResult p (f p)) ∧
    ((endIssue s c b).core c).pipe.pend = (s.core c).pipe.pend.map f := by
  unfold endIssue
  rw [State.core_modCore]
  dsimp only
  split
  · exact stepBody_pend _
  · exact ⟨id, fun _ => ⟨rfl, rfl, rfl, rfl, rfl⟩, (List.map_id _).symm⟩
@[simp] theorem endIssue_todo (s : State) (c : Nat) (b : Bool) : (endIssue s c b).todo = s.todo := rfl
@[simp] theorem endIssue_mem (s : State) (c : Nat) (b : Bool) : (endIssue s c b).mem = s.mem := rfl

theorem endIssue_onlyCore (s : State) (c : Nat) (b : Bool) : OnlyCore s (endIssue s c b) c := OnlyCore.modCore _ _ _

theorem endIssue_registersOnly (s : State) (c : Nat) (b : Bool) : RegistersOnly (s.core c) ((endIssue s c b).core c) := by
  unfold RegistersOnly
  rw [endIssue_core]

/-- An instruction of a lone task whose effect comes about completes with the state its effect leaves. -/
theorem issue_next {g : Sig} {body : Body} {s : State} {c : Nat} {vs : List Vec} {s1 s2 : State}
    (h : Issues s c g vs s1) (hb : body c vs s1 = .ok s2) : issue g body s = .next (finished s c s2) := by
  obtain ⟨⟨ha, hr, hg⟩, hc, ho⟩ := h
  have hiss : issuer s = c := by
    simp [issuer, ha, hg]
  have hact : actingMembers s c = [c] := by
    simp [actingMembers, gangOf, hg]
  have hone : issueOne g body s c = .ok (finished s c s2) := by
    unfold issueOne
    rw [hc]
    simp only [bind, Except.bind, ho, hb, pure, Except.pure, finished]
  have hbp : beforePair s c = s := by simp [beforePair, hg]
  unfold issue
  simp only [hiss, hr, if_true]
  unfold issueUnit
  simp only [hact, hbp, issueAll, hone]
  rw [if_neg (by rw [hg]; decide)]

/-- The task of a lone core stays as it is while an instruction issues, streams left alone. -/
theorem Issues.plain {s : State} {c : Nat} {g : Sig} {vs : List Vec} {s1 : State} (h : Issues s c g vs s1)
    (hs : Streamless s c g) :
    s1 = beginIssue s c g ∧
      vs = g.srcs.map (fun e => ((beginIssue s c g).core c).read (operand e.1 e.2).1 (operand e.1 e.2).2) := by
  have h1 := h.operands
  rw [popOperands_plain] at h1
  · simp only [Except.ok.injEq, Prod.mk.injEq] at h1
    exact ⟨h1.2.symm, h1.1.symm⟩
  · intro e he
    rw [beginIssue_boundAt]
    exact hs.reads e he

/-! ## A result of fixed latency -/

theorem putFixed_registersOnly (k : Core) (f : RegFile) (i : Nat) (v : Vec) (lat : Nat) :
    RegistersOnly k (k.putFixed f i v lat) := by
  unfold Core.putFixed RegistersOnly
  split <;> rfl
theorem putFixed_regs (k : Core) (f : RegFile) (i : Nat) (v : Vec) (lat : Nat) :
    (k.putFixed f i v lat).regs = k.regs.put f i v := by
  unfold Core.putFixed
  split
  · next h =>
    obtain ⟨rfl, rfl⟩ := h
    rfl
  · rfl
theorem putFixed_pc (k : Core) (f : RegFile) (i : Nat) (v : Vec) (lat : Nat) :
    (k.putFixed f i v lat).pipe.pc = k.pipe.pc := by
  unfold Core.putFixed
  split <;> rfl
theorem pushFixed_registersOnly (k : Core) (f : RegFile) (v : Vec) (lat : Nat) :
    RegistersOnly k (k.pushFixed f v lat) := rfl

/-- A fixed-latency result that no stream takes is written to its register, or pushed. -/
theorem putResult_plain {s : State} {c : Nat} {f : RegFile} {d lat : Nat} {v : Vec}
    (h : ∀ r, destReg (some (f, d)) = some r → (s.core c).boundAt r = none) :
    putResult s c f d lat v = .ok (s.modCore c (fun k =>
      match destReg (some (f, d)) with
      | some r => k.putFixed r.1 r.2 v lat
      | none => k.pushFixed (queueOf f) v lat)) := by
  unfold putResult
  cases hd : destReg (some (f, d)) with
  | none => rfl
  | some r => simp only [h r hd]

/-- The state after a result of fixed latency, no stream taking it. -/
theorem wrote {s : State} {c : Nat} {g : Sig} {f : RegFile} {d lat : Nat} {v : Vec} {s2 : State}
    (hd : g.dst = some (f, d)) (hs : Streamless s c g) (hp : putResult (beginIssue s c g) c f d lat v = .ok s2) :
    Wrote s (finished s c s2) c f d v := by
  rw [putResult_plain (fun r hr => by rw [beginIssue_boundAt]; exact hs.dest r (by rw [hd]; exact hr))] at hp
  simp only [Except.ok.injEq] at hp
  subst hp
  have ho : OnlyCore s (finished s c ((beginIssue s c g).modCore c (fun k =>
      match destReg (some (f, d)) with
      | some r => k.putFixed r.1 r.2 v lat
      | none => k.pushFixed (queueOf f) v lat))) c :=
    ((beginIssue_onlyCore s c g).trans (OnlyCore.modCore _ _ _)).trans (endIssue_onlyCore _ _ _)
  refine ⟨?_, ?_, ?_, ho, ho.bytes⟩
  · simp only [finished, endIssue_regs, State.core_modCore, withResult]
    cases destReg (some (f, d)) <;> simp [putFixed_regs, Core.pushFixed]
  · simp only [finished, endIssue_pc, State.core_modCore]
    cases destReg (some (f, d)) <;> simp [putFixed_pc, Core.pushFixed]
  · refine (beginIssue_registersOnly s c g).trans (RegistersOnly.trans ?_ (endIssue_registersOnly _ _ _))
    rw [State.core_modCore]
    cases destReg (some (f, d)) with
    | none => exact pushFixed_registersOnly _ _ _ _
    | some r => exact putFixed_registersOnly _ _ _ _ _

/-- An instruction with a result of fixed latency: it completes, and its frame. -/
theorem issue_writes {i : Instr} {s : State} {c : Nat} {g : Sig} {val : List Vec → State → Vec} {body : Body}
    (hi : exec i s = issue g body s)
    (hb : ∀ vs s1 f d, g.dst = some (f, d) → body c vs s1 = putResult s1 c f d g.lat (val vs s1)) :
    Writes i s c g val := by
  intro vs s1 f d hd h
  refine ⟨fun hs => ?_, fun s2 hp => hi.trans (issue_next h ((hb vs s1 f d hd).trans hp))⟩
  have h1 := (h.plain hs).1
  have hp := putResult_plain (s := s1) (c := c) (f := f) (d := d) (lat := g.lat) (v := val vs s1) (fun r hr => by
    rw [h1, beginIssue_boundAt]; exact hs.dest r (by rw [hd]; exact hr))
  exact ⟨_, hi.trans (issue_next h ((hb vs s1 f d hd).trans hp)), wrote hd hs (by rw [← h1]; exact hp)⟩

/-! ## A result that comes later -/

theorem putLater_registersOnly (k : Core) (f : RegFile) (i : Nat) (v : Vec) : RegistersOnly k (k.putLater f i v) := rfl
theorem pushLater_registersOnly (k : Core) (f : RegFile) (v : Vec) : RegistersOnly k (k.pushLater f v) := rfl

/-- A variable-latency result that no stream takes is set under way. -/
theorem putVariable_plain {s : State} {c : Nat} {f : RegFile} {d : Nat} {v : Vec}
    (h : ∀ r, destReg (some (f, d)) = some r → (s.core c).boundAt r = none) :
    putVariable s c f d v = .ok ((s.modCore c (fun k =>
      match destReg (some (f, d)) with
      | some r => k.putLater r.1 r.2 v
      | none => k.pushLater (queueOf f) v)).due (.resultWriteback (coreId c))) := by
  unfold putVariable
  cases hd : destReg (some (f, d)) with
  | none => rfl
  | some r =>
    have hr : r ≠ (.k, 0) := by
      intro e
      subst e
      cases f <;> simp [destReg] at hd
      all_goals omega
    simp only [h r hd, hr, if_false]

/-- The state after an instruction whose effect, on a core that differs in its registers alone from the one that issued, sets a
result under way. -/
theorem awaits {s s1 : State} {c : Nat} {g : Sig} {f : RegFile} {d : Nat} {v : Vec} {s2 : State}
    (hd : g.dst = some (f, d)) (hs : Streamless s c g) (ho : OnlyCore (beginIssue s c g) s1 c)
    (hr : RegistersOnly ((beginIssue s c g).core c) (s1.core c))
    (hregs : (s1.core c).regs = (s.core c).regs) (hpc : (s1.core c).pipe.pc = nextPc (s.core c))
    (hp : putVariable s1 c f d v = .ok s2) : Awaits s (finished s c s2) c f d v := by
  have hst : (s1.core c).streams = (s.core c).streams := hr.streams.trans (beginIssue_streams s c g)
  have hb : ∀ r, (s1.core c).boundAt r = (s.core c).boundAt r := by
    intro r
    unfold Core.boundAt Core.strm
    rw [hst]
  rw [putVariable_plain (fun r hr => by rw [hb]; exact hs.dest r (by rw [hd]; exact hr))] at hp
  simp only [Except.ok.injEq] at hp
  subst hp
  have h01 : OnlyCore s s1 c := (beginIssue_onlyCore s c g).trans ho
  refine ⟨?_, ?_, ?_, ?_, ?_, ?_, ?_⟩
  · obtain ⟨h, hs, he⟩ := endIssue_pend (((s1.modCore c (fun k =>
      match destReg (some (f, d)) with
      | some r => k.putLater r.1 r.2 v
      | none => k.pushLater (queueOf f) v)).due (.resultWriteback (coreId c)))) c (s.core c).bodyInstr.isSome
    simp only [finished]
    rw [he]
    simp only [State.core_due, State.core_modCore]
    cases destReg (some (f, d)) with
    | none =>
      obtain ⟨h1, h2, h3, h4, h5⟩ := hs ((s1.core c).result (queueOf f) 0 v)
      exact ⟨_, _, List.map_cons .., h3, h4, h5, h1, h2⟩
    | some r =>
      obtain ⟨h1, h2, h3, h4, h5⟩ := hs ((s1.core c).result r.1 r.2 v)
      exact ⟨_, _, List.map_cons .., h3, h4, h5, h1, h2⟩
  · simp only [finished, endIssue_regs, State.core_due, State.core_modCore]
    cases destReg (some (f, d)) with
    | none => simp [Core.pushLater, Core.laterSlot, Core.result, hregs]
    | some r => simp [Core.putLater, Core.later, hregs]
  · simp only [finished, endIssue_pc, State.core_due, State.core_modCore]
    cases destReg (some (f, d)) with
    | none => simp [Core.pushLater, Core.laterSlot, hpc]
    | some r => simp [Core.putLater, Core.later, hpc]
  · refine ((beginIssue_registersOnly s c g).trans hr).trans (RegistersOnly.trans ?_ (endIssue_registersOnly _ _ _))
    simp only [State.core_due, State.core_modCore]
    cases destReg (some (f, d)) with
    | none => exact pushLater_registersOnly _ _ _
    | some r => exact putLater_registersOnly _ _ _ _
  · intro m hm
    simp only [finished]
    rw [(endIssue_onlyCore _ c _).others m hm, State.core_due, State.core_modCore_other _ _ _ _ hm]
    exact h01.others m hm
  · have h2 := h01.device
    simp only [finished, endIssue, State.modCore, State.setCore, State.due]
    rw [h2]
  · intro a
    simp only [finished, endIssue, State.modCore, State.setCore, State.due]
    have h2 := h01.device
    rw [h2]
    rfl

/-- An instruction with a result of variable latency: it completes, and its frame. -/
theorem issue_later {i : Instr} {s : State} {c : Nat} {g : Sig} {val : List Vec → State → Vec} {body : Body}
    (hi : exec i s = issue g body s)
    (hb : ∀ vs s1 f d, g.dst = some (f, d) → body c vs s1 = putVariable s1 c f d (val vs s1)) :
    WritesLater i s c g val := by
  intro vs s1 f d hd h hs
  have h1 := (h.plain hs).1
  have hp := putVariable_plain (s := s1) (c := c) (f := f) (d := d) (v := val vs s1) (fun r hr => by
    rw [h1, beginIssue_boundAt]; exact hs.dest r (by rw [hd]; exact hr))
  refine ⟨_, hi.trans (issue_next h ((hb vs s1 f d hd).trans hp)), awaits hd hs ?_ ?_ ?_ ?_ hp⟩
  · rw [h1]; exact OnlyCore.refl _ _
  · rw [h1]; exact RegistersOnly.refl _
  · rw [h1]; exact beginIssue_regs _ _ _
  · rw [h1]; exact beginIssue_pc _ _ _

end Sys2Proof.Machine
end

