-- ==== Sys2Proof/Laws/Numbers.lean ====
section
/-! SUPPORT. Numbers of a width as bit vectors. -/
namespace Sys2Proof.Machine

theorem sint_eq_toInt (v n : Nat) (h : 0 < n) : sint v n = (BitVec.ofNat n v).toInt := by
  unfold sint
  simp only [BitVec.toInt_eq_toNat_cond, BitVec.toNat_ofNat]
  have hp : 2 * 2 ^ (n - 1) = 2 ^ n := by
    rw [← Nat.pow_succ']
    congr 1
    omega
  by_cases hc : 2 ^ (n - 1) ≤ v % 2 ^ n
  · rw [if_pos ⟨hc, h⟩, if_neg (by omega)]
  · rw [if_neg (by omega), if_pos (by omega)]

/-- A 64-bit result is the number itself. -/
theorem sext64_64 (v : Nat) : sext64 v 64 = BitVec.ofNat 64 v := by
  unfold sext64
  rw [sint_eq_toInt v 64 (by decide)]
  exact BitVec.ofInt_toInt

/-- A 32-bit result is sign-extended. -/
theorem sext64_32 (v : Nat) : sext64 v 32 = (BitVec.ofNat 32 v).signExtend 64 := by
  unfold sext64
  rw [sint_eq_toInt v 32 (by decide)]
  rfl

theorem wrap_lt (x : Int) (n : Nat) : wrap x n < 2 ^ n := by
  unfold wrap
  have h1 := Int.emod_lt_of_pos x (b := ((2 ^ n : Nat) : Int)) (by exact_mod_cast Nat.two_pow_pos n)
  have h2 := Int.emod_nonneg x (b := ((2 ^ n : Nat) : Int)) (by exact_mod_cast (Nat.ne_of_gt (Nat.two_pow_pos n)))
  omega

/-- An exact number as a bit vector. -/
theorem ofNat_wrap (x : Int) (n : Nat) : BitVec.ofNat n (wrap x n) = BitVec.ofInt n x := by
  apply BitVec.eq_of_toNat_eq
  rw [BitVec.toNat_ofNat, Nat.mod_eq_of_lt (wrap_lt x n), BitVec.toNat_ofInt]
  rfl

end Sys2Proof.Machine
end

