-- ==== Sys2Proof/Laws/Scalar.lean ====
section
/-! SUPPORT. The forms of the scalar instructions: what such an instruction does, given the value it computes. -/
namespace Sys2Proof.Machine

set_option Elab.async false

theorem toNat_mod_64 (x : Word) : x.toNat % 2 ^ 64 = x.toNat := Nat.mod_eq_of_lt x.isLt
theorem toNat_mod_32 (x : Word) : x.toNat % 2 ^ 32 = (x.setWidth 32).toNat := by simp

/-- The result at a width: of 64 bits as it is, of 32 bits sign-extended. -/
theorem atWidth_sext64 {w : Nat} (hw : w < 2) (f : Nat → Nat → Nat → Nat) (g : (n : Nat) → BitVec n → BitVec n → BitVec n)
    (h : ∀ n, n = 32 ∨ n = 64 → ∀ x y : BitVec n, BitVec.ofNat n (f n x.toNat y.toNat) = g n x y) (x y : Word) :
    sext64 (f (widthOf w) (x.toNat % 2 ^ widthOf w) (y.toNat % 2 ^ widthOf w)) (widthOf w) = atWidth w g x y := by
  have : w = 0 ∨ w = 1 := by omega
  rcases this with rfl | rfl
  · show sext64 (f 64 (x.toNat % 2 ^ 64) (y.toNat % 2 ^ 64)) 64 = g 64 x y
    rw [toNat_mod_64, toNat_mod_64, sext64_64, h 64 (.inr rfl)]
  · show sext64 (f 32 (x.toNat % 2 ^ 32) (y.toNat % 2 ^ 32)) 32 = (g 32 (x.setWidth 32) (y.setWidth 32)).signExtend 64
    rw [toNat_mod_32, toNat_mod_32, sext64_32, h 32 (.inl rfl)]

theorem scalar2_writes {i : Instr} {s : State} {c : Nat} {lat : Nat} {f : Nat → Nat → Nat → Nat} {d : Fin 16} {a b : Fin 32}
    {w : Fin 4} {g : (n : Nat) → BitVec n → BitVec n → BitVec n} (hw : w.val < 2) (hi : exec i s = scalar2 lat f d a b w s)
    (h : ∀ n, n = 32 ∨ n = 64 → ∀ x y : BitVec n, BitVec.ofNat n (f n x.toNat y.toNat) = g n x y) :
    Writes i s c { srcs := [(.k, a), (.k, b)], dst := some (.k, d), lat := lat }
      (fun vs _ => scalar (atWidth w g (arg vs 0) (arg vs 1))) := by
  unfold scalar2 at hi
  refine issue_writes hi ?_
  intro vs s1 f' d' hd
  simp only [Option.some.injEq, Prod.mk.injEq] at hd
  obtain ⟨rfl, rfl⟩ := hd
  simp only [putK, scalar, atWidth_sext64 hw f g h]

theorem scalar1_writes {i : Instr} {s : State} {c : Nat} {f : Nat → Nat → Nat} {d : Fin 16} {a : Fin 32}
    {w : Fin 4} {g : (n : Nat) → BitVec n → BitVec n} (hw : w.val < 2) (hi : exec i s = scalar1 f d a w s)
    (h : ∀ n, n = 32 ∨ n = 64 → ∀ x : BitVec n, BitVec.ofNat n (f n x.toNat) = g n x) :
    Writes i s c { srcs := [(.k, a)], dst := some (.k, d), lat := 1 }
      (fun vs _ => scalar (atWidth w (fun n x _ => g n x) (arg vs 0) 0)) := by
  unfold scalar1 at hi
  refine issue_writes hi ?_
  intro vs s1 f' d' hd
  simp only [Option.some.injEq, Prod.mk.injEq] at hd
  obtain ⟨rfl, rfl⟩ := hd
  simp only [putK, scalar]
  rw [← atWidth_sext64 hw (fun n x _ => f n x) (fun n x _ => g n x) (fun n hn x _ => h n hn x)]

theorem scalarShift_writes {i : Instr} {s : State} {c : Nat} {f : Nat → Nat → Nat → Nat} {d : Fin 16} {a : Fin 32}
    {w : Fin 2} {sh : Fin 64} {g : (n : Nat) → BitVec n → Nat → BitVec n} (hi : exec i s = scalarShift f d a w sh s)
    (h : ∀ n, n = widthOf w → ∀ x : BitVec n, BitVec.ofNat n (f n x.toNat sh) = g n x sh) :
    Writes i s c { srcs := [(.k, a)], dst := some (.k, d), lat := 1 }
      (fun vs _ => scalar (atWidth w (fun n x _ => g n x sh) (arg vs 0) 0)) := by
  unfold scalarShift at hi
  refine issue_writes hi ?_
  intro vs s1 f' d' hd
  simp only [Option.some.injEq, Prod.mk.injEq] at hd
  obtain ⟨rfl, rfl⟩ := hd
  simp only [putK, scalar]
  have : w.val = 0 ∨ w.val = 1 := by omega
  rcases this with e | e
  · have hn : widthOf w.val = 64 := by rw [e]; rfl
    rw [hn] at h ⊢
    rw [e, toNat_mod_64, sext64_64, h 64 rfl]
    rfl
  · have hn : widthOf w.val = 32 := by rw [e]; rfl
    rw [hn] at h ⊢
    rw [e, toNat_mod_32, sext64_32, h 32 rfl]
    rfl

theorem scalarImm_writes {i : Instr} {s : State} {c : Nat} {signed : Bool} {f : Nat → Nat → Nat} {d : Fin 16} {a : Fin 32}
    {im : Fin 65536} {g : Word → Word → Word} (hi : exec i s = scalarImm signed f d a im s)
    (h : ∀ x y : Word, BitVec.ofNat 64 (f x.toNat y.toNat) = g x y) :
    Writes i s c { srcs := [(.k, a)], dst := some (.k, d), lat := 1, use := { imm := 16 } }
      (fun vs s1 => scalar (g (arg vs 0) (BitVec.ofInt 64 (immOf (s1.core c).hints 16 im signed)))) := by
  unfold scalarImm at hi
  refine issue_writes hi ?_
  intro vs s1 f' d' hd
  simp only [Option.some.injEq, Prod.mk.injEq] at hd
  obtain ⟨rfl, rfl⟩ := hd
  simp only [putK, scalar]
  rw [← h, ← ofNat_wrap, BitVec.toNat_ofNat, Nat.mod_eq_of_lt (wrap_lt _ _)]

/-- A division: its result is under way, and it holds the divider for its time. -/
theorem scalarDiv_writes {i : Instr} {s : State} {c : Nat} {f : Nat → Nat → Nat → Nat} {d : Fin 16} {a b : Fin 32}
    {w : Fin 4} {g : (n : Nat) → BitVec n → BitVec n → BitVec n} (hw : w.val < 2) (hi : exec i s = scalarDiv f d a b w s)
    (h : ∀ n, n = 32 ∨ n = 64 → ∀ x y : BitVec n, BitVec.ofNat n (f n x.toNat y.toNat) = g n x y) :
    WritesLater i s c { srcs := [(.k, a), (.k, b)], dst := some (.k, d), cls := 1 }
      (fun vs _ => scalar (atWidth w g (arg vs 0) (arg vs 1))) := by
  intro vs s1 f' d' hd hiss hs
  simp only [Option.some.injEq, Prod.mk.injEq] at hd
  obtain ⟨rfl, rfl⟩ := hd
  have h1 := (hiss.plain hs).1
  have ho : OnlyCore s1 (takeDivider s1 c (widthOf w)) c := OnlyCore.modCore _ _ _
  have hr : RegistersOnly (s1.core c) ((takeDivider s1 c (widthOf w)).core c) := by
    unfold takeDivider
    rw [State.core_modCore]
    rfl
  have hst := hr.streams
  have hb : ∀ r, ((takeDivider s1 c (widthOf w)).core c).boundAt r = (s1.core c).boundAt r := by
    intro r
    unfold Core.boundAt Core.strm
    rw [hst]
  have hp := putVariable_plain (s := takeDivider s1 c (widthOf w)) (c := c) (f := .k) (d := d.val)
    (v := scalar (atWidth w g (arg vs 0) (arg vs 1))) (fun r hr => by
      rw [hb, h1, beginIssue_boundAt]
      exact hs.dest r hr)
  refine ⟨_, ?_, awaits rfl hs (by rw [← h1]; exact ho) (by rw [← h1]; exact hr) ?_ ?_ hp⟩
  · unfold scalarDiv at hi
    refine hi.trans (issue_next hiss (Eq.trans ?_ hp))
    simp only [putKLater, scalar, atWidth_sext64 hw f g h]
  · have : ((takeDivider s1 c (widthOf w)).core c).regs = (s1.core c).regs := by
      unfold takeDivider
      rw [State.core_modCore]
    rw [this, h1, beginIssue_regs]
  · have : ((takeDivider s1 c (widthOf w)).core c).pipe.pc = (s1.core c).pipe.pc := by
      unfold takeDivider
      rw [State.core_modCore]
    rw [this, h1, beginIssue_pc]

end Sys2Proof.Machine
end

