-- ==== Sys2Proof/Laws/Lanes.lean ====
section
/-! SUPPORT. Lanes of vectors and the forms of the vector instructions: what such an instruction does, given what it computes on a
lane. -/
namespace Sys2Proof.Machine

set_option Elab.async false

/-! ## Lanes as numbers and as bit vectors -/

theorem lane_eq (e : Nat) (v : Vec) (i : Nat) : lane e v i = (laneOf e v i).toNat := by
  simp [lane, laneOf, bits]

theorem bit_eq (v i : Nat) : bit v i = v.testBit i := by
  simp [bit, Nat.testBit_eq_decide_div_mod_eq, Nat.shiftRight_eq_div_pow]

theorem active_eq (s : State) (c m i : Nat) : bit (maskOf (s.core c) m) i = active s c m i := bit_eq _ _

theorem lane_step (w e x acc : Nat) :
    BitVec.ofNat w (acc * 2 ^ e + x % 2 ^ e) = BitVec.ofNat w acc <<< e ||| (BitVec.ofNat e x).setWidth w := by
  apply BitVec.eq_of_toNat_eq
  have h : x % 2 ^ e < 2 ^ e := Nat.mod_lt _ (Nat.two_pow_pos e)
  rw [BitVec.toNat_ofNat, BitVec.toNat_or, BitVec.toNat_shiftLeft, BitVec.toNat_setWidth, BitVec.toNat_ofNat,
    BitVec.toNat_ofNat, ← Nat.or_mod_two_pow, ← Nat.shiftLeft_eq, Nat.shiftLeft_add_eq_or_of_lt h]
  apply Nat.eq_of_testBit_eq
  intro i
  simp only [Nat.testBit_mod_two_pow, Nat.testBit_or, Nat.testBit_shiftLeft]
  by_cases hi : i < w
  · have h2 : i - e < w := by omega
    simp [hi, h2]
  · simp [hi]

theorem ofLanes_map {e : Nat} {g : Nat → Nat} {f : Nat → BitVec e} (l : List Nat) (h : ∀ i ∈ l, BitVec.ofNat e (g i) = f i) :
    ofLanes e (l.map g) = l.foldr (fun i (v : Vec) => v <<< e ||| (f i).setWidth 512) 0 := by
  unfold ofLanes
  induction l with
  | nil => rfl
  | cons i l ih =>
    simp only [List.map_cons, List.foldr_cons]
    rw [lane_step, h i (List.mem_cons_self ..)]
    rw [ih (fun j hj => h j (List.mem_cons_of_mem _ hj))]

/-- A vector built of numbers, as one built of lanes. -/
theorem ofLanes_vecOf {e : Nat} {g : Nat → Nat} {f : Nat → BitVec e} (h : ∀ i, i < 512 / e → BitVec.ofNat e (g i) = f i) :
    ofLanes e ((List.range (512 / e)).map g) = vecOf e f :=
  ofLanes_map _ (fun i hi => h i (List.mem_range.1 hi))

theorem lanesOf_get (n i : Nat) (f : Nat → Nat) (h : i < n) : (lanesOf n f)[i]?.getD 0 = f i := by
  simp [lanesOf, h]

theorem ofNat_lane (e : Nat) (v : Vec) (i : Nat) : BitVec.ofNat e (lane e v i) = laneOf e v i := by
  rw [lane_eq]
  simp

/-- The lanes of an instruction, under its mask. -/
theorem putLanes_eq {s : State} {c d lat e m : Nat} {g : Nat → Nat} {f : Nat → BitVec e}
    (h : ∀ i, i < 512 / e → BitVec.ofNat e (g i) = f i) :
    putLanes s c d lat e (maskOf (s.core c) m) (lanesOf (laneCount e) g) =
      (if lat = 0 then putVariable s c .v d (masked s c d m e f) else putResult s c .v d lat (masked s c d m e f)) := by
  unfold masked
  have : ofLanes e ((List.range (laneCount e)).map (fun i =>
      if bit (maskOf (s.core c) m) i then (lanesOf (laneCount e) g)[i]?.getD 0 else lane e (oldVec s c d) i)) =
      vecOf e (fun i => if active s c m i then f i else laneOf e (oldVec s c d) i) := by
    refine ofLanes_vecOf (fun i hi => ?_)
    rw [active_eq]
    split
    · rw [show laneCount e = 512 / e from rfl, lanesOf_get _ _ _ hi]
      exact h i hi
    · exact ofNat_lane _ _ _
  rw [← this]
  rfl

/-! ## The forms

The meaning is unfolded to its form first; a latency is no zero by `Nat.succ_ne_zero _`. -/

variable {i : Instr} {s : State} {c : Nat} {d : Fin 16} {a b : Fin 32} {m : Fin 8}

theorem vecBinary_writes {cls lat e : Nat} {use : HintUse} {f : Hints → Nat → Nat → Nat}
    {g : List Vec → State → Nat → BitVec e} (hl : lat ≠ 0) (hi : exec i s = vecBinary cls lat e use f d a b m s)
    (h : ∀ vs s1 j, BitVec.ofNat e (f (s1.core c).hints (laneOf e (argV vs 0) j).toNat (laneOf e (argV vs 1) j).toNat) =
      g vs s1 j) :
    Writes i s c { srcs := [(.v, a), (.v, b)], also := maskReg m, dst := some (.v, d), lat := lat, cls := cls, use := use }
      (fun vs s1 => masked s1 c d m e (g vs s1)) := by
  unfold vecBinary at hi
  rw [beq_eq_false_iff_ne.2 hl] at hi
  refine issue_writes hi ?_
  intro vs s1 f' d' hd
  simp only [Option.some.injEq, Prod.mk.injEq] at hd
  obtain ⟨rfl, rfl⟩ := hd
  refine (putLanes_eq (fun j _ => ?_)).trans (if_neg hl)
  rw [lane_eq, lane_eq, h]

theorem vecBinary_later {cls e : Nat} {use : HintUse} {f : Hints → Nat → Nat → Nat} {g : List Vec → State → Nat → BitVec e}
    (hi : exec i s = vecBinary cls 0 e use f d a b m s)
    (h : ∀ vs s1 j, BitVec.ofNat e (f (s1.core c).hints (laneOf e (argV vs 0) j).toNat (laneOf e (argV vs 1) j).toNat) =
      g vs s1 j) :
    WritesLater i s c { srcs := [(.v, a), (.v, b)], also := maskReg m, dst := some (.v, d), lat := 0, cls := cls, use := use,
                          divides := true }
      (fun vs s1 => masked s1 c d m e (g vs s1)) := by
  unfold vecBinary at hi
  rw [beq_self_eq_true] at hi
  refine issue_later hi ?_
  intro vs s1 f' d' hd
  simp only [Option.some.injEq, Prod.mk.injEq] at hd
  obtain ⟨rfl, rfl⟩ := hd
  refine (putLanes_eq (fun j _ => ?_)).trans (if_pos rfl)
  rw [lane_eq, lane_eq, h]

theorem vecUnary_writes {cls lat e : Nat} {use : HintUse} {f : Hints → Nat → Nat} {g : List Vec → State → Nat → BitVec e}
    (hl : lat ≠ 0) (hi : exec i s = vecUnary cls lat e use f d a m s)
    (h : ∀ vs s1 j, BitVec.ofNat e (f (s1.core c).hints (laneOf e (argV vs 0) j).toNat) = g vs s1 j) :
    Writes i s c { srcs := [(.v, a)], also := maskReg m, dst := some (.v, d), lat := lat, cls := cls, use := use }
      (fun vs s1 => masked s1 c d m e (g vs s1)) := by
  unfold vecUnary at hi
  rw [beq_eq_false_iff_ne.2 hl] at hi
  refine issue_writes hi ?_
  intro vs s1 f' d' hd
  simp only [Option.some.injEq, Prod.mk.injEq] at hd
  obtain ⟨rfl, rfl⟩ := hd
  refine (putLanes_eq (fun j _ => ?_)).trans (if_neg hl)
  rw [lane_eq, h]

theorem vecUnary_later {cls e : Nat} {use : HintUse} {f : Hints → Nat → Nat} {g : List Vec → State → Nat → BitVec e}
    (hi : exec i s = vecUnary cls 0 e use f d a m s)
    (h : ∀ vs s1 j, BitVec.ofNat e (f (s1.core c).hints (laneOf e (argV vs 0) j).toNat) = g vs s1 j) :
    WritesLater i s c { srcs := [(.v, a)], also := maskReg m, dst := some (.v, d), lat := 0, cls := cls, use := use,
                          divides := true }
      (fun vs s1 => masked s1 c d m e (g vs s1)) := by
  unfold vecUnary at hi
  rw [beq_self_eq_true] at hi
  refine issue_later hi ?_
  intro vs s1 f' d' hd
  simp only [Option.some.injEq, Prod.mk.injEq] at hd
  obtain ⟨rfl, rfl⟩ := hd
  refine (putLanes_eq (fun j _ => ?_)).trans (if_pos rfl)
  rw [lane_eq, h]

theorem vecAccumulate_writes {cls lat e : Nat} {use : HintUse} {f : Hints → Nat → Nat → Nat → Nat}
    {g : List Vec → State → Nat → BitVec e} (hl : lat ≠ 0) (hi : exec i s = vecAccumulate cls lat e use f d a b m s)
    (h : ∀ vs s1 j, BitVec.ofNat e (f (s1.core c).hints (laneOf e ((s1.core c).read .v d) j).toNat
      (laneOf e (argV vs 0) j).toNat (laneOf e (argV vs 1) j).toNat) = g vs s1 j) :
    Writes i s c { srcs := [(.v, a), (.v, b)], also := (.v, d.val) :: maskReg m, dst := some (.v, d), lat := lat, cls := cls,
                   use := use }
      (fun vs s1 => masked s1 c d m e (g vs s1)) := by
  unfold vecAccumulate at hi
  refine issue_writes hi ?_
  intro vs s1 f' d' hd
  simp only [Option.some.injEq, Prod.mk.injEq] at hd
  obtain ⟨rfl, rfl⟩ := hd
  refine (putLanes_eq (fun j _ => ?_)).trans (if_neg hl)
  rw [lane_eq, lane_eq, lane_eq, h]

theorem vecPermute_writes {t : Nat} {two : Bool} {f : Nat → (Nat → Nat) → (Nat → Nat) → Nat → Nat}
    {g : List Vec → State → Nat → BitVec (laneBits t)} (hi : exec i s = vecPermute t two f d a b m s)
    (h : ∀ vs s1 j, j < 512 / laneBits t → BitVec.ofNat (laneBits t) (f (512 / laneBits t)
      (fun k => (laneOf (laneBits t) (argV vs 0) k).toNat) (fun k => (laneOf (laneBits t) (argV vs 1) k).toNat) j) = g vs s1 j) :
    Writes i s c { srcs := if two then [(.v, a), (.v, b)] else [(.v, a)], also := maskReg m, dst := some (.v, d), lat := 3,
                   cls := 2 }
      (fun vs s1 => masked s1 c d m (laneBits t) (g vs s1)) := by
  unfold vecPermute at hi
  refine issue_writes hi ?_
  intro vs s1 f' d' hd
  simp only [Option.some.injEq, Prod.mk.injEq] at hd
  obtain ⟨rfl, rfl⟩ := hd
  refine (putLanes_eq (fun j hj => ?_)).trans (if_neg (by decide))
  have e0 : lane (laneBits t) (argV vs 0) = fun k => (laneOf (laneBits t) (argV vs 0) k).toNat := funext (lane_eq _ _)
  have e1 : lane (laneBits t) (argV vs 1) = fun k => (laneOf (laneBits t) (argV vs 1) k).toNat := funext (lane_eq _ _)
  rw [e0, e1]
  exact h _ _ j hj

/-- Lanes beyond the vector's do not matter. -/
theorem masked_congr {s1 : State} {c d m e : Nat} {f g : Nat → BitVec e} (h : ∀ j, j < 512 / e → f j = g j) :
    masked s1 c d m e f = masked s1 c d m e g := by
  unfold masked vecOf
  have : ∀ l : List Nat, (∀ j ∈ l, j < 512 / e) →
      l.foldr (fun i (v : Vec) => v <<< e ||| (if active s1 c m i then f i else laneOf e (oldVec s1 c d) i).setWidth 512) 0 =
      l.foldr (fun i (v : Vec) => v <<< e ||| (if active s1 c m i then g i else laneOf e (oldVec s1 c d) i).setWidth 512) 0 := by
    intro l
    induction l with
    | nil => intro _; rfl
    | cons j l ih =>
      intro hl
      simp only [List.foldr_cons]
      rw [ih (fun k hk => hl k (List.mem_cons_of_mem _ hk)), h j (hl j (List.mem_cons_self ..))]
  exact this _ (fun j hj => List.mem_range.1 hj)

end Sys2Proof.Machine
end

