-- ==== Sys2Proof/Laws/Memory.lean ====
section
/-! SUPPORT. What the memory keeps: its canonical form under every operation, and what a read gives after a write. -/
namespace Sys2Proof.Machine
set_option Elab.async false

/-- The canonical form as two facts about the list. -/
theorem Mem.wf_iff (m : Mem) : Mem.wf m = true ↔ (∀ e ∈ m, e.2 ≠ unlisted) ∧ m.Pairwise (fun e f => e.1 < f.1) := by
  induction m with
  | nil => simp [Mem.wf]
  | cons e t ih =>
    cases t with
    | nil => simp [Mem.wf]
    | cons f t =>
      simp only [Mem.wf, Bool.and_eq_true, bne_iff_ne, ne_eq, decide_eq_true_eq, ih, List.mem_cons, forall_eq_or_imp,
        List.pairwise_cons]
      constructor
      · rintro ⟨⟨h1, h2⟩, ⟨h3, h4⟩, h5, h6⟩
        exact ⟨⟨h1, h3, h4⟩, ⟨h2, fun a ha => Nat.lt_trans h2 (h5 a ha)⟩, h5, h6⟩
      · rintro ⟨⟨h1, h3, h4⟩, ⟨h2, -⟩, h5, h6⟩
        exact ⟨⟨h1, h2⟩, ⟨h3, h4⟩, h5, h6⟩

theorem Mem.wf_filter (m : Mem) (p : Host.Cell → Bool) (h : Mem.wf m = true) : Mem.wf (m.filter p) = true := by
  rw [Mem.wf_iff] at h ⊢
  exact ⟨fun e he => h.1 e (List.mem_filter.mp he).1, h.2.filter p⟩

theorem Mem.wf_clear (m : Mem) (lo hi : Nat) (h : Mem.wf m = true) : Mem.wf (Mem.clear m lo hi) = true := Mem.wf_filter m _ h

/-- An entry of a table after a set is the one set or one that stood. -/
theorem Table.mem_set {α : Type} (t : Table α) (k : Nat) (v : α) (e : Nat × α) (h : e ∈ Table.set t k v) : e = (k, v) ∨ e ∈ t := by
  induction t with
  | nil => simpa [Table.set] using h
  | cons f t ih =>
    simp only [Table.set] at h
    split at h
    · simpa using h
    · split at h
      · rcases List.mem_cons.mp h with h | h
        · exact .inl h
        · exact .inr (List.mem_cons_of_mem _ h)
      · rcases List.mem_cons.mp h with h | h
        · exact .inr (h ▸ List.mem_cons_self)
        · exact (ih h).imp_right (List.mem_cons_of_mem _)

theorem Table.sorted_set {α : Type} (t : Table α) (k : Nat) (v : α) (h : t.Pairwise (fun e f => e.1 < f.1)) :
    (Table.set t k v).Pairwise (fun e f => e.1 < f.1) := by
  induction t with
  | nil => simp [Table.set]
  | cons f t ih =>
    obtain ⟨h1, h2⟩ := List.pairwise_cons.mp h
    simp only [Table.set]
    split
    · rename_i hk
      refine List.pairwise_cons.mpr ⟨fun e he => ?_, h⟩
      rcases List.mem_cons.mp he with rfl | he
      · exact hk
      · exact Nat.lt_trans hk (h1 e he)
    · split
      · rename_i hk
        subst hk
        exact List.pairwise_cons.mpr ⟨h1, h2⟩
      · refine List.pairwise_cons.mpr ⟨fun e he => ?_, ih h2⟩
        rcases Table.mem_set t k v e he with rfl | he
        · simp only; omega
        · exact h1 e he

theorem Mem.wf_put (m : Mem) (a : Nat) (v : Byte) (h : Mem.wf m = true) : Mem.wf (Mem.put m a v) = true := by
  unfold Mem.put
  split
  · exact Mem.wf_filter m _ h
  · rename_i hv
    have he := Mem.wf_filter m (fun e => decide (e.1 ≠ a)) h
    rw [Mem.wf_iff] at he ⊢
    refine ⟨fun e hm => ?_, Table.sorted_set _ a v he.2⟩
    rcases Table.mem_set _ a v e hm with rfl | hm
    · exact hv
    · exact he.1 e hm

theorem Mem.wf_putBytes (bs : List Byte) : ∀ (m : Mem) (a : Nat), Mem.wf m = true → Mem.wf (Mem.putBytes m a bs) = true := by
  induction bs with
  | nil => exact fun _ _ h => h
  | cons b bs ih => exact fun m a h => ih _ _ (Mem.wf_put m a b h)

theorem Mem.wf_write (m : Mem) (a n v : Nat) (h : Mem.wf m = true) : Mem.wf (Mem.write m a n v) = true := Mem.wf_putBytes _ m a h

/-- The operations on the state's memory keep its form, and the state after reset has it. -/
theorem State.write_keeps (s : State) (a n v : Nat) (h : s.Inv) : (s.write a n v).Inv := Mem.wf_write s.mem a n v h
theorem State.clearRange_keeps (s : State) (lo hi : Nat) (h : s.Inv) : (s.clearRange lo hi).Inv := Mem.wf_clear s.mem lo hi h
theorem State.reset_inv : State.reset.Inv := rfl

/-! What changes something other than memory keeps it as it was. -/
@[simp] theorem State.setCore_inv (s : State) (c : Nat) (k : Core) : (s.setCore c k).Inv ↔ s.Inv := Iff.rfl
@[simp] theorem State.modCore_inv (s : State) (c : Nat) (f : Core → Core) : (s.modCore c f).Inv ↔ s.Inv := Iff.rfl
@[simp] theorem State.modSquare_inv (s : State) (q : Nat) (f : Square → Square) : (s.modSquare q f).Inv ↔ s.Inv := Iff.rfl
@[simp] theorem State.modDistrict_inv (s : State) (d : Nat) (f : District → District) : (s.modDistrict d f).Inv ↔ s.Inv := Iff.rfl
@[simp] theorem State.modDie_inv (s : State) (d : Nat) (f : Die → Die) : (s.modDie d f).Inv ↔ s.Inv := Iff.rfl
@[simp] theorem State.modJob_inv (s : State) (j : Nat) (f : JobRegs → JobRegs) : (s.modJob j f).Inv ↔ s.Inv := Iff.rfl
@[simp] theorem State.due_inv (s : State) (d : Due) : (s.due d).Inv ↔ s.Inv := Iff.rfl
@[simp] theorem State.fresh_inv (s : State) : s.fresh.Inv ↔ s.Inv := Iff.rfl
theorem State.inv_of_mem {s t : State} (h : t.mem = s.mem) (hs : s.Inv) : t.Inv := by rw [State.Inv, h]; exact hs
theorem State.dueOnce_inv (s : State) (d : Due) (h : s.Inv) : (s.dueOnce d).Inv := by
  unfold State.dueOnce
  split
  · exact h
  · exact h

/-! ## Reads after writes -/

/-- A table without an entry answers as the table elsewhere. -/
theorem Table.get?_filter_other {α : Type} (t : Table α) (p : Nat × α → Bool) (k : Nat) (h : ∀ v, p (k, v) = true) :
    Table.get? (t.filter p) k = Table.get? t k := by
  induction t with
  | nil => rfl
  | cons e t ih =>
    obtain ⟨k', v'⟩ := e
    by_cases hp : p (k', v') = true
    · simp only [List.filter_cons, hp, if_true, Table.get?, ih]
    · have hk : k' ≠ k := fun hk => hp (hk ▸ h v')
      simp only [List.filter_cons, hp, Bool.false_eq_true, if_false, Table.get?, hk, ih]

theorem Table.get?_filter_none {α : Type} (t : Table α) (p : Nat × α → Bool) (k : Nat) (h : ∀ v, p (k, v) = false) :
    Table.get? (t.filter p) k = none := by
  induction t with
  | nil => rfl
  | cons e t ih =>
    obtain ⟨k', v'⟩ := e
    by_cases hp : p (k', v') = true
    · have hk : k' ≠ k := fun hk => by rw [hk, h v'] at hp; exact absurd hp Bool.false_ne_true
      simp only [List.filter_cons, hp, if_true, Table.get?, hk, if_false, ih]
    · simp only [List.filter_cons, hp]
      exact ih

theorem Mem.byte_put_self (m : Mem) (a : Nat) (v : Byte) : Mem.byte (Mem.put m a v) a = v := by
  unfold Mem.byte Mem.put
  split
  · rename_i h
    subst h
    unfold Table.getD Table.erase
    rw [Table.get?_filter_none _ _ _ (fun _ => by simp)]
    rfl
  · exact Table.getD_set_self _ _ _ _

theorem Mem.byte_put_other (m : Mem) (a b : Nat) (v : Byte) (h : b ≠ a) : Mem.byte (Mem.put m a v) b = Mem.byte m b := by
  unfold Mem.byte Mem.put Table.getD
  split
  · unfold Table.erase
    rw [Table.get?_filter_other _ _ _ (fun _ => by simpa using h)]
  · rw [Table.get?_set_other _ _ _ _ h]
    unfold Table.erase
    rw [Table.get?_filter_other _ _ _ (fun _ => by simpa using h)]

/-- Each byte of a memory after bytes are put from `a` up: the byte put there, or the one that stood. -/
theorem Mem.byte_putBytes (bs : List Byte) : ∀ (m : Mem) (a b : Nat), Mem.byte (Mem.putBytes m a bs) b =
    if h : a ≤ b ∧ b - a < bs.length then bs[b - a]'h.2 else Mem.byte m b := by
  induction bs with
  | nil => intro m a b; simp [Mem.putBytes]
  | cons v bs ih =>
    intro m a b
    simp only [Mem.putBytes, ih]
    by_cases hb : b = a
    · subst hb
      simp only [Nat.not_succ_le_self, false_and, dite_false, Mem.byte_put_self, Nat.le_refl, Nat.sub_self, List.length_cons,
        Nat.zero_lt_succ, and_self, dite_true, List.getElem_cons_zero]
    · by_cases hlt : a ≤ b ∧ b - a < bs.length + 1
      · have h1 : a + 1 ≤ b ∧ b - (a + 1) < bs.length := by omega
        have h2 : b - a = (b - (a + 1)) + 1 := by omega
        rw [dif_pos h1, dif_pos (by simpa using hlt)]
        simp only [h2, List.getElem_cons_succ]
      · have h1 : ¬ (a + 1 ≤ b ∧ b - (a + 1) < bs.length) := by omega
        simp only [h1, hlt, dite_false, List.length_cons]
        exact Mem.byte_put_other m a b v hb

theorem Mem.byte_clear (m : Mem) (lo hi b : Nat) : Mem.byte (Mem.clear m lo hi) b = if lo ≤ b ∧ b < hi then unlisted else Mem.byte m b := by
  unfold Mem.byte Mem.clear Table.getD Table.eraseRange
  split
  · rename_i h
    rw [Table.get?_filter_none _ _ _ (fun _ => by simp [h])]
    rfl
  · rename_i h
    rw [Table.get?_filter_other _ _ _ (fun _ => by simp only [decide_eq_true_eq]; exact h)]

end Sys2Proof.Machine
end

