-- ==== Sys2Proof/Laws/PerInstr.lean ====
section
/-! SUPPORT. What holds of every instruction, one lemma for each: decoding the word of a well-formed instruction gives it
      back. -/
namespace Sys2Proof.Laws

set_option Elab.async false

/-- Decoding the word of the instruction gives it back, in the words that it belongs to. -/
def RoundTrip.Statement (i : Instr) : Prop :=
  i.wf = true → i.canonical = true →
    (i.isCoreWord = true → decode (encode i) = .ok i) ∧ (i.isHelperWord = true → helperDecode (encode i) = .ok i)

namespace RoundTrip
open Enc

theorem core {i : Instr} (hh : i.isHelperWord = false) (h : parse (encode i) = .ok i) : Statement i :=
  fun hw _ => ⟨fun _ => decode_eq h hw, fun hc => absurd (hh.symm.trans hc) (by decide)⟩

theorem helper {i : Instr} (hh : i.isCoreWord = false) (h : helperDecode (encode i) = .ok i) : Statement i :=
  fun _ _ => ⟨fun hc => absurd (hh.symm.trans hc) (by decide), fun _ => h⟩

theorem wordless {i : Instr} (h1 : i.isCoreWord = false) (h2 : i.isHelperWord = false) : Statement i :=
  fun _ _ => ⟨fun hc => absurd (h1.symm.trans hc) (by decide), fun hc => absurd (h2.symm.trans hc) (by decide)⟩

theorem sharesWord {i : Instr} (h : i.canonical = false) : Statement i :=
  fun _ hc => absurd (h.symm.trans hc) (by decide)

theorem add (d : Fin 16) (a b : Fin 32) (w : Fin 4) : Statement (.add d a b w) := by
  refine core rfl ?_
  obtain ⟨fs, hf⟩ : ∃ fs : List Field, fs = [⟨4, 2, w⟩, ⟨11, 5, b⟩, ⟨16, 5, a⟩, ⟨21, 4, d⟩] := ⟨_, rfl⟩
  have hp : places fs = [(4, 2), (11, 5), (16, 5), (21, 4)] := by rw [hf]; rfl
  have ho : ok 33554432 fs = true := sound_ok _ _ (by rw [hp]; decide +kernel)
  obtain ⟨x, hx⟩ : ∃ x, x = word 33554432 fs := ⟨_, rfl⟩
  have hw : encode (.add d a b w) = x := by rw [hx, hf]; rfl
  have h0 : x % 16 = 0 := by rw [hx]; exact low_eq 4 _ ho (by rw [hp]; decide +kernel)
  have h1 : x / 64 % 32 = 0 := by rw [hx]; exact const_eq 6 5 _ ho (by rw [hp]; decide +kernel)
  have f0 : fld x 21 4 = d := by rw [hx]; exact fld_eq (field_eq ⟨21, 4, d⟩ 3 ho (by rw [hf]; rfl))
  have f1 : fld x 16 5 = a := by rw [hx]; exact fld_eq (field_eq ⟨16, 5, a⟩ 2 ho (by rw [hf]; rfl))
  have f2 : fld x 11 5 = b := by rw [hx]; exact fld_eq (field_eq ⟨11, 5, b⟩ 1 ho (by rw [hf]; rfl))
  have f3 : fld x 4 2 = w := by rw [hx]; exact fld_eq (field_eq ⟨4, 2, w⟩ 0 ho (by rw [hf]; rfl))
  have hm : x / 33554432 % 128 = 1 := by rw [hx]; exact const_eq 25 7 _ ho (by rw [hp]; decide +kernel)
  clear hx ho hp hf fs
  rw [hw, parse_alu hm]
  simp [parseAlu, h0, h1, f0, f1, f2, f3]

theorem sub (d : Fin 16) (a b : Fin 32) (w : Fin 4) : Statement (.sub d a b w) := by
  refine core rfl ?_
  obtain ⟨fs, hf⟩ : ∃ fs : List Field, fs = [⟨4, 2, w⟩, ⟨11, 5, b⟩, ⟨16, 5, a⟩, ⟨21, 4, d⟩] := ⟨_, rfl⟩
  have hp : places fs = [(4, 2), (11, 5), (16, 5), (21, 4)] := by rw [hf]; rfl
  have ho : ok 33554496 fs = true := sound_ok _ _ (by rw [hp]; decide +kernel)
  obtain ⟨x, hx⟩ : ∃ x, x = word 33554496 fs := ⟨_, rfl⟩
  have hw : encode (.sub d a b w) = x := by rw [hx, hf]; rfl
  have h0 : x / 64 % 32 = 1 := by rw [hx]; exact const_eq 6 5 _ ho (by rw [hp]; decide +kernel)
  have h1 : x % 16 = 0 := by rw [hx]; exact low_eq 4 _ ho (by rw [hp]; decide +kernel)
  have f0 : fld x 21 4 = d := by rw [hx]; exact fld_eq (field_eq ⟨21, 4, d⟩ 3 ho (by rw [hf]; rfl))
  have f1 : fld x 16 5 = a := by rw [hx]; exact fld_eq (field_eq ⟨16, 5, a⟩ 2 ho (by rw [hf]; rfl))
  have f2 : fld x 11 5 = b := by rw [hx]; exact fld_eq (field_eq ⟨11, 5, b⟩ 1 ho (by rw [hf]; rfl))
  have f3 : fld x 4 2 = w := by rw [hx]; exact fld_eq (field_eq ⟨4, 2, w⟩ 0 ho (by rw [hf]; rfl))
  have hm : x / 33554432 % 128 = 1 := by rw [hx]; exact const_eq 25 7 _ ho (by rw [hp]; decide +kernel)
  clear hx ho hp hf fs
  rw [hw, parse_alu hm]
  simp [parseAlu, h0, h1, f0, f1, f2, f3]

theorem and (d : Fin 16) (a b : Fin 32) (w : Fin 4) : Statement (.and d a b w) := by
  refine core rfl ?_
  obtain ⟨fs, hf⟩ : ∃ fs : List Field, fs = [⟨4, 2, w⟩, ⟨11, 5, b⟩, ⟨16, 5, a⟩, ⟨21, 4, d⟩] := ⟨_, rfl⟩
  have hp : places fs = [(4, 2), (11, 5), (16, 5), (21, 4)] := by rw [hf]; rfl
  have ho : ok 33554560 fs = true := sound_ok _ _ (by rw [hp]; decide +kernel)
  obtain ⟨x, hx⟩ : ∃ x, x = word 33554560 fs := ⟨_, rfl⟩
  have hw : encode (.and d a b w) = x := by rw [hx, hf]; rfl
  have h0 : x / 64 % 32 = 2 := by rw [hx]; exact const_eq 6 5 _ ho (by rw [hp]; decide +kernel)
  have h1 : x % 16 = 0 := by rw [hx]; exact low_eq 4 _ ho (by rw [hp]; decide +kernel)
  have f0 : fld x 21 4 = d := by rw [hx]; exact fld_eq (field_eq ⟨21, 4, d⟩ 3 ho (by rw [hf]; rfl))
  have f1 : fld x 16 5 = a := by rw [hx]; exact fld_eq (field_eq ⟨16, 5, a⟩ 2 ho (by rw [hf]; rfl))
  have f2 : fld x 11 5 = b := by rw [hx]; exact fld_eq (field_eq ⟨11, 5, b⟩ 1 ho (by rw [hf]; rfl))
  have f3 : fld x 4 2 = w := by rw [hx]; exact fld_eq (field_eq ⟨4, 2, w⟩ 0 ho (by rw [hf]; rfl))
  have hm : x / 33554432 % 128 = 1 := by rw [hx]; exact const_eq 25 7 _ ho (by rw [hp]; decide +kernel)
  clear hx ho hp hf fs
  rw [hw, parse_alu hm]
  simp [parseAlu, h0, h1, f0, f1, f2, f3]

theorem or (d : Fin 16) (a b : Fin 32) (w : Fin 4) : Statement (.or d a b w) := by
  refine core rfl ?_
  obtain ⟨fs, hf⟩ : ∃ fs : List Field, fs = [⟨4, 2, w⟩, ⟨11, 5, b⟩, ⟨16, 5, a⟩, ⟨21, 4, d⟩] := ⟨_, rfl⟩
  have hp : places fs = [(4, 2), (11, 5), (16, 5), (21, 4)] := by rw [hf]; rfl
  have ho : ok 33554624 fs = true := sound_ok _ _ (by rw [hp]; decide +kernel)
  obtain ⟨x, hx⟩ : ∃ x, x = word 33554624 fs := ⟨_, rfl⟩
  have hw : encode (.or d a b w) = x := by rw [hx, hf]; rfl
  have h0 : x / 64 % 32 = 3 := by rw [hx]; exact const_eq 6 5 _ ho (by rw [hp]; decide +kernel)
  have h1 : x % 16 = 0 := by rw [hx]; exact low_eq 4 _ ho (by rw [hp]; decide +kernel)
  have f0 : fld x 21 4 = d := by rw [hx]; exact fld_eq (field_eq ⟨21, 4, d⟩ 3 ho (by rw [hf]; rfl))
  have f1 : fld x 16 5 = a := by rw [hx]; exact fld_eq (field_eq ⟨16, 5, a⟩ 2 ho (by rw [hf]; rfl))
  have f2 : fld x 11 5 = b := by rw [hx]; exact fld_eq (field_eq ⟨11, 5, b⟩ 1 ho (by rw [hf]; rfl))
  have f3 : fld x 4 2 = w := by rw [hx]; exact fld_eq (field_eq ⟨4, 2, w⟩ 0 ho (by rw [hf]; rfl))
  have hm : x / 33554432 % 128 = 1 := by rw [hx]; exact const_eq 25 7 _ ho (by rw [hp]; decide +kernel)
  clear hx ho hp hf fs
  rw [hw, parse_alu hm]
  simp [parseAlu, h0, h1, f0, f1, f2, f3]

theorem xor (d : Fin 16) (a b : Fin 32) (w : Fin 4) : Statement (.xor d a b w) := by
  refine core rfl ?_
  obtain ⟨fs, hf⟩ : ∃ fs : List Field, fs = [⟨4, 2, w⟩, ⟨11, 5, b⟩, ⟨16, 5, a⟩, ⟨21, 4, d⟩] := ⟨_, rfl⟩
  have hp : places fs = [(4, 2), (11, 5), (16, 5), (21, 4)] := by rw [hf]; rfl
  have ho : ok 33554688 fs = true := sound_ok _ _ (by rw [hp]; decide +kernel)
  obtain ⟨x, hx⟩ : ∃ x, x = word 33554688 fs := ⟨_, rfl⟩
  have hw : encode (.xor d a b w) = x := by rw [hx, hf]; rfl
  have h0 : x / 64 % 32 = 4 := by rw [hx]; exact const_eq 6 5 _ ho (by rw [hp]; decide +kernel)
  have h1 : x % 16 = 0 := by rw [hx]; exact low_eq 4 _ ho (by rw [hp]; decide +kernel)
  have f0 : fld x 21 4 = d := by rw [hx]; exact fld_eq (field_eq ⟨21, 4, d⟩ 3 ho (by rw [hf]; rfl))
  have f1 : fld x 16 5 = a := by rw [hx]; exact fld_eq (field_eq ⟨16, 5, a⟩ 2 ho (by rw [hf]; rfl))
  have f2 : fld x 11 5 = b := by rw [hx]; exact fld_eq (field_eq ⟨11, 5, b⟩ 1 ho (by rw [hf]; rfl))
  have f3 : fld x 4 2 = w := by rw [hx]; exact fld_eq (field_eq ⟨4, 2, w⟩ 0 ho (by rw [hf]; rfl))
  have hm : x / 33554432 % 128 = 1 := by rw [hx]; exact const_eq 25 7 _ ho (by rw [hp]; decide +kernel)
  clear hx ho hp hf fs
  rw [hw, parse_alu hm]
  simp [parseAlu, h0, h1, f0, f1, f2, f3]

theorem andn (d : Fin 16) (a b : Fin 32) (w : Fin 4) : Statement (.andn d a b w) := by
  refine core rfl ?_
  obtain ⟨fs, hf⟩ : ∃ fs : List Field, fs = [⟨4, 2, w⟩, ⟨11, 5, b⟩, ⟨16, 5, a⟩, ⟨21, 4, d⟩] := ⟨_, rfl⟩
  have hp : places fs = [(4, 2), (11, 5), (16, 5), (21, 4)] := by rw [hf]; rfl
  have ho : ok 33554752 fs = true := sound_ok _ _ (by rw [hp]; decide +kernel)
  obtain ⟨x, hx⟩ : ∃ x, x = word 33554752 fs := ⟨_, rfl⟩
  have hw : encode (.andn d a b w) = x := by rw [hx, hf]; rfl
  have h0 : x / 64 % 32 = 5 := by rw [hx]; exact const_eq 6 5 _ ho (by rw [hp]; decide +kernel)
  have h1 : x % 16 = 0 := by rw [hx]; exact low_eq 4 _ ho (by rw [hp]; decide +kernel)
  have f0 : fld x 21 4 = d := by rw [hx]; exact fld_eq (field_eq ⟨21, 4, d⟩ 3 ho (by rw [hf]; rfl))
  have f1 : fld x 16 5 = a := by rw [hx]; exact fld_eq (field_eq ⟨16, 5, a⟩ 2 ho (by rw [hf]; rfl))
  have f2 : fld x 11 5 = b := by rw [hx]; exact fld_eq (field_eq ⟨11, 5, b⟩ 1 ho (by rw [hf]; rfl))
  have f3 : fld x 4 2 = w := by rw [hx]; exact fld_eq (field_eq ⟨4, 2, w⟩ 0 ho (by rw [hf]; rfl))
  have hm : x / 33554432 % 128 = 1 := by rw [hx]; exact const_eq 25 7 _ ho (by rw [hp]; decide +kernel)
  clear hx ho hp hf fs
  rw [hw, parse_alu hm]
  simp [parseAlu, h0, h1, f0, f1, f2, f3]

theorem orn (d : Fin 16) (a b : Fin 32) (w : Fin 4) : Statement (.orn d a b w) := by
  refine core rfl ?_
  obtain ⟨fs, hf⟩ : ∃ fs : List Field, fs = [⟨4, 2, w⟩, ⟨11, 5, b⟩, ⟨16, 5, a⟩, ⟨21, 4, d⟩] := ⟨_, rfl⟩
  have hp : places fs = [(4, 2), (11, 5), (16, 5), (21, 4)] := by rw [hf]; rfl
  have ho : ok 33554816 fs = true := sound_ok _ _ (by rw [hp]; decide +kernel)
  obtain ⟨x, hx⟩ : ∃ x, x = word 33554816 fs := ⟨_, rfl⟩
  have hw : encode (.orn d a b w) = x := by rw [hx, hf]; rfl
  have h0 : x / 64 % 32 = 6 := by rw [hx]; exact const_eq 6 5 _ ho (by rw [hp]; decide +kernel)
  have h1 : x % 16 = 0 := by rw [hx]; exact low_eq 4 _ ho (by rw [hp]; decide +kernel)
  have f0 : fld x 21 4 = d := by rw [hx]; exact fld_eq (field_eq ⟨21, 4, d⟩ 3 ho (by rw [hf]; rfl))
  have f1 : fld x 16 5 = a := by rw [hx]; exact fld_eq (field_eq ⟨16, 5, a⟩ 2 ho (by rw [hf]; rfl))
  have f2 : fld x 11 5 = b := by rw [hx]; exact fld_eq (field_eq ⟨11, 5, b⟩ 1 ho (by rw [hf]; rfl))
  have f3 : fld x 4 2 = w := by rw [hx]; exact fld_eq (field_eq ⟨4, 2, w⟩ 0 ho (by rw [hf]; rfl))
  have hm : x / 33554432 % 128 = 1 := by rw [hx]; exact const_eq 25 7 _ ho (by rw [hp]; decide +kernel)
  clear hx ho hp hf fs
  rw [hw, parse_alu hm]
  simp [parseAlu, h0, h1, f0, f1, f2, f3]

theorem sll (d : Fin 16) (a b : Fin 32) (w : Fin 4) : Statement (.sll d a b w) := by
  refine core rfl ?_
  obtain ⟨fs, hf⟩ : ∃ fs : List Field, fs = [⟨4, 2, w⟩, ⟨11, 5, b⟩, ⟨16, 5, a⟩, ⟨21, 4, d⟩] := ⟨_, rfl⟩
  have hp : places fs = [(4, 2), (11, 5), (16, 5), (21, 4)] := by rw [hf]; rfl
  have ho : ok 33554880 fs = true := sound_ok _ _ (by rw [hp]; decide +kernel)
  obtain ⟨x, hx⟩ : ∃ x, x = word 33554880 fs := ⟨_, rfl⟩
  have hw : encode (.sll d a b w) = x := by rw [hx, hf]; rfl
  have h0 : x / 64 % 32 = 7 := by rw [hx]; exact const_eq 6 5 _ ho (by rw [hp]; decide +kernel)
  have h1 : x % 16 = 0 := by rw [hx]; exact low_eq 4 _ ho (by rw [hp]; decide +kernel)
  have f0 : fld x 21 4 = d := by rw [hx]; exact fld_eq (field_eq ⟨21, 4, d⟩ 3 ho (by rw [hf]; rfl))
  have f1 : fld x 16 5 = a := by rw [hx]; exact fld_eq (field_eq ⟨16, 5, a⟩ 2 ho (by rw [hf]; rfl))
  have f2 : fld x 11 5 = b := by rw [hx]; exact fld_eq (field_eq ⟨11, 5, b⟩ 1 ho (by rw [hf]; rfl))
  have f3 : fld x 4 2 = w := by rw [hx]; exact fld_eq (field_eq ⟨4, 2, w⟩ 0 ho (by rw [hf]; rfl))
  have hm : x / 33554432 % 128 = 1 := by rw [hx]; exact const_eq 25 7 _ ho (by rw [hp]; decide +kernel)
  clear hx ho hp hf fs
  rw [hw, parse_alu hm]
  simp [parseAlu, h0, h1, f0, f1, f2, f3]

theorem srl (d : Fin 16) (a b : Fin 32) (w : Fin 4) : Statement (.srl d a b w) := by
  refine core rfl ?_
  obtain ⟨fs, hf⟩ : ∃ fs : List Field, fs = [⟨4, 2, w⟩, ⟨11, 5, b⟩, ⟨16, 5, a⟩, ⟨21, 4, d⟩] := ⟨_, rfl⟩
  have hp : places fs = [(4, 2), (11, 5), (16, 5), (21, 4)] := by rw [hf]; rfl
  have ho : ok 33554944 fs = true := sound_ok _ _ (by rw [hp]; decide +kernel)
  obtain ⟨x, hx⟩ : ∃ x, x = word 33554944 fs := ⟨_, rfl⟩
  have hw : encode (.srl d a b w) = x := by rw [hx, hf]; rfl
  have h0 : x / 64 % 32 = 8 := by rw [hx]; exact const_eq 6 5 _ ho (by rw [hp]; decide +kernel)
  have h1 : x % 16 = 0 := by rw [hx]; exact low_eq 4 _ ho (by rw [hp]; decide +kernel)
  have f0 : fld x 21 4 = d := by rw [hx]; exact fld_eq (field_eq ⟨21, 4, d⟩ 3 ho (by rw [hf]; rfl))
  have f1 : fld x 16 5 = a := by rw [hx]; exact fld_eq (field_eq ⟨16, 5, a⟩ 2 ho (by rw [hf]; rfl))
  have f2 : fld x 11 5 = b := by rw [hx]; exact fld_eq (field_eq ⟨11, 5, b⟩ 1 ho (by rw [hf]; rfl))
  have f3 : fld x 4 2 = w := by rw [hx]; exact fld_eq (field_eq ⟨4, 2, w⟩ 0 ho (by rw [hf]; rfl))
  have hm : x / 33554432 % 128 = 1 := by rw [hx]; exact const_eq 25 7 _ ho (by rw [hp]; decide +kernel)
  clear hx ho hp hf fs
  rw [hw, parse_alu hm]
  simp [parseAlu, h0, h1, f0, f1, f2, f3]

theorem sra (d : Fin 16) (a b : Fin 32) (w : Fin 4) : Statement (.sra d a b w) := by
  refine core rfl ?_
  obtain ⟨fs, hf⟩ : ∃ fs : List Field, fs = [⟨4, 2, w⟩, ⟨11, 5, b⟩, ⟨16, 5, a⟩, ⟨21, 4, d⟩] := ⟨_, rfl⟩
  have hp : places fs = [(4, 2), (11, 5), (16, 5), (21, 4)] := by rw [hf]; rfl
  have ho : ok 33555008 fs = true := sound_ok _ _ (by rw [hp]; decide +kernel)
  obtain ⟨x, hx⟩ : ∃ x, x = word 33555008 fs := ⟨_, rfl⟩
  have hw : encode (.sra d a b w) = x := by rw [hx, hf]; rfl
  have h0 : x / 64 % 32 = 9 := by rw [hx]; exact const_eq 6 5 _ ho (by rw [hp]; decide +kernel)
  have h1 : x % 16 = 0 := by rw [hx]; exact low_eq 4 _ ho (by rw [hp]; decide +kernel)
  have f0 : fld x 21 4 = d := by rw [hx]; exact fld_eq (field_eq ⟨21, 4, d⟩ 3 ho (by rw [hf]; rfl))
  have f1 : fld x 16 5 = a := by rw [hx]; exact fld_eq (field_eq ⟨16, 5, a⟩ 2 ho (by rw [hf]; rfl))
  have f2 : fld x 11 5 = b := by rw [hx]; exact fld_eq (field_eq ⟨11, 5, b⟩ 1 ho (by rw [hf]; rfl))
  have f3 : fld x 4 2 = w := by rw [hx]; exact fld_eq (field_eq ⟨4, 2, w⟩ 0 ho (by rw [hf]; rfl))
  have hm : x / 33554432 % 128 = 1 := by rw [hx]; exact const_eq 25 7 _ ho (by rw [hp]; decide +kernel)
  clear hx ho hp hf fs
  rw [hw, parse_alu hm]
  simp [parseAlu, h0, h1, f0, f1, f2, f3]

theorem rol (d : Fin 16) (a b : Fin 32) (w : Fin 4) : Statement (.rol d a b w) := by
  refine core rfl ?_
  obtain ⟨fs, hf⟩ : ∃ fs : List Field, fs = [⟨4, 2, w⟩, ⟨11, 5, b⟩, ⟨16, 5, a⟩, ⟨21, 4, d⟩] := ⟨_, rfl⟩
  have hp : places fs = [(4, 2), (11, 5), (16, 5), (21, 4)] := by rw [hf]; rfl
  have ho : ok 33555072 fs = true := sound_ok _ _ (by rw [hp]; decide +kernel)
  obtain ⟨x, hx⟩ : ∃ x, x = word 33555072 fs := ⟨_, rfl⟩
  have hw : encode (.rol d a b w) = x := by rw [hx, hf]; rfl
  have h0 : x / 64 % 32 = 10 := by rw [hx]; exact const_eq 6 5 _ ho (by rw [hp]; decide +kernel)
  have h1 : x % 16 = 0 := by rw [hx]; exact low_eq 4 _ ho (by rw [hp]; decide +kernel)
  have f0 : fld x 21 4 = d := by rw [hx]; exact fld_eq (field_eq ⟨21, 4, d⟩ 3 ho (by rw [hf]; rfl))
  have f1 : fld x 16 5 = a := by rw [hx]; exact fld_eq (field_eq ⟨16, 5, a⟩ 2 ho (by rw [hf]; rfl))
  have f2 : fld x 11 5 = b := by rw [hx]; exact fld_eq (field_eq ⟨11, 5, b⟩ 1 ho (by rw [hf]; rfl))
  have f3 : fld x 4 2 = w := by rw [hx]; exact fld_eq (field_eq ⟨4, 2, w⟩ 0 ho (by rw [hf]; rfl))
  have hm : x / 33554432 % 128 = 1 := by rw [hx]; exact const_eq 25 7 _ ho (by rw [hp]; decide +kernel)
  clear hx ho hp hf fs
  rw [hw, parse_alu hm]
  simp [parseAlu, h0, h1, f0, f1, f2, f3]

theorem ror (d : Fin 16) (a b : Fin 32) (w : Fin 4) : Statement (.ror d a b w) := by
  refine core rfl ?_
  obtain ⟨fs, hf⟩ : ∃ fs : List Field, fs = [⟨4, 2, w⟩, ⟨11, 5, b⟩, ⟨16, 5, a⟩, ⟨21, 4, d⟩] := ⟨_, rfl⟩
  have hp : places fs = [(4, 2), (11, 5), (16, 5), (21, 4)] := by rw [hf]; rfl
  have ho : ok 33555136 fs = true := sound_ok _ _ (by rw [hp]; decide +kernel)
  obtain ⟨x, hx⟩ : ∃ x, x = word 33555136 fs := ⟨_, rfl⟩
  have hw : encode (.ror d a b w) = x := by rw [hx, hf]; rfl
  have h0 : x / 64 % 32 = 11 := by rw [hx]; exact const_eq 6 5 _ ho (by rw [hp]; decide +kernel)
  have h1 : x % 16 = 0 := by rw [hx]; exact low_eq 4 _ ho (by rw [hp]; decide +kernel)
  have f0 : fld x 21 4 = d := by rw [hx]; exact fld_eq (field_eq ⟨21, 4, d⟩ 3 ho (by rw [hf]; rfl))
  have f1 : fld x 16 5 = a := by rw [hx]; exact fld_eq (field_eq ⟨16, 5, a⟩ 2 ho (by rw [hf]; rfl))
  have f2 : fld x 11 5 = b := by rw [hx]; exact fld_eq (field_eq ⟨11, 5, b⟩ 1 ho (by rw [hf]; rfl))
  have f3 : fld x 4 2 = w := by rw [hx]; exact fld_eq (field_eq ⟨4, 2, w⟩ 0 ho (by rw [hf]; rfl))
  have hm : x / 33554432 % 128 = 1 := by rw [hx]; exact const_eq 25 7 _ ho (by rw [hp]; decide +kernel)
  clear hx ho hp hf fs
  rw [hw, parse_alu hm]
  simp [parseAlu, h0, h1, f0, f1, f2, f3]

theorem min (d : Fin 16) (a b : Fin 32) (w : Fin 4) : Statement (.min d a b w) := by
  refine core rfl ?_
  obtain ⟨fs, hf⟩ : ∃ fs : List Field, fs = [⟨4, 2, w⟩, ⟨11, 5, b⟩, ⟨16, 5, a⟩, ⟨21, 4, d⟩] := ⟨_, rfl⟩
  have hp : places fs = [(4, 2), (11, 5), (16, 5), (21, 4)] := by rw [hf]; rfl
  have ho : ok 33555200 fs = true := sound_ok _ _ (by rw [hp]; decide +kernel)
  obtain ⟨x, hx⟩ : ∃ x, x = word 33555200 fs := ⟨_, rfl⟩
  have hw : encode (.min d a b w) = x := by rw [hx, hf]; rfl
  have h0 : x / 64 % 32 = 12 := by rw [hx]; exact const_eq 6 5 _ ho (by rw [hp]; decide +kernel)
  have h1 : x % 16 = 0 := by rw [hx]; exact low_eq 4 _ ho (by rw [hp]; decide +kernel)
  have f0 : fld x 21 4 = d := by rw [hx]; exact fld_eq (field_eq ⟨21, 4, d⟩ 3 ho (by rw [hf]; rfl))
  have f1 : fld x 16 5 = a := by rw [hx]; exact fld_eq (field_eq ⟨16, 5, a⟩ 2 ho (by rw [hf]; rfl))
  have f2 : fld x 11 5 = b := by rw [hx]; exact fld_eq (field_eq ⟨11, 5, b⟩ 1 ho (by rw [hf]; rfl))
  have f3 : fld x 4 2 = w := by rw [hx]; exact fld_eq (field_eq ⟨4, 2, w⟩ 0 ho (by rw [hf]; rfl))
  have hm : x / 33554432 % 128 = 1 := by rw [hx]; exact const_eq 25 7 _ ho (by rw [hp]; decide +kernel)
  clear hx ho hp hf fs
  rw [hw, parse_alu hm]
  simp [parseAlu, h0, h1, f0, f1, f2, f3]

theorem max (d : Fin 16) (a b : Fin 32) (w : Fin 4) : Statement (.max d a b w) := by
  refine core rfl ?_
  obtain ⟨fs, hf⟩ : ∃ fs : List Field, fs = [⟨4, 2, w⟩, ⟨11, 5, b⟩, ⟨16, 5, a⟩, ⟨21, 4, d⟩] := ⟨_, rfl⟩
  have hp : places fs = [(4, 2), (11, 5), (16, 5), (21, 4)] := by rw [hf]; rfl
  have ho : ok 33555264 fs = true := sound_ok _ _ (by rw [hp]; decide +kernel)
  obtain ⟨x, hx⟩ : ∃ x, x = word 33555264 fs := ⟨_, rfl⟩
  have hw : encode (.max d a b w) = x := by rw [hx, hf]; rfl
  have h0 : x / 64 % 32 = 13 := by rw [hx]; exact const_eq 6 5 _ ho (by rw [hp]; decide +kernel)
  have h1 : x % 16 = 0 := by rw [hx]; exact low_eq 4 _ ho (by rw [hp]; decide +kernel)
  have f0 : fld x 21 4 = d := by rw [hx]; exact fld_eq (field_eq ⟨21, 4, d⟩ 3 ho (by rw [hf]; rfl))
  have f1 : fld x 16 5 = a := by rw [hx]; exact fld_eq (field_eq ⟨16, 5, a⟩ 2 ho (by rw [hf]; rfl))
  have f2 : fld x 11 5 = b := by rw [hx]; exact fld_eq (field_eq ⟨11, 5, b⟩ 1 ho (by rw [hf]; rfl))
  have f3 : fld x 4 2 = w := by rw [hx]; exact fld_eq (field_eq ⟨4, 2, w⟩ 0 ho (by rw [hf]; rfl))
  have hm : x / 33554432 % 128 = 1 := by rw [hx]; exact const_eq 25 7 _ ho (by rw [hp]; decide +kernel)
  clear hx ho hp hf fs
  rw [hw, parse_alu hm]
  simp [parseAlu, h0, h1, f0, f1, f2, f3]

theorem minz (d : Fin 16) (a b : Fin 32) (w : Fin 4) : Statement (.minz d a b w) := by
  refine core rfl ?_
  obtain ⟨fs, hf⟩ : ∃ fs : List Field, fs = [⟨4, 2, w⟩, ⟨11, 5, b⟩, ⟨16, 5, a⟩, ⟨21, 4, d⟩] := ⟨_, rfl⟩
  have hp : places fs = [(4, 2), (11, 5), (16, 5), (21, 4)] := by rw [hf]; rfl
  have ho : ok 33555328 fs = true := sound_ok _ _ (by rw [hp]; decide +kernel)
  obtain ⟨x, hx⟩ : ∃ x, x = word 33555328 fs := ⟨_, rfl⟩
  have hw : encode (.minz d a b w) = x := by rw [hx, hf]; rfl
  have h0 : x / 64 % 32 = 14 := by rw [hx]; exact const_eq 6 5 _ ho (by rw [hp]; decide +kernel)
  have h1 : x % 16 = 0 := by rw [hx]; exact low_eq 4 _ ho (by rw [hp]; decide +kernel)
  have f0 : fld x 21 4 = d := by rw [hx]; exact fld_eq (field_eq ⟨21, 4, d⟩ 3 ho (by rw [hf]; rfl))
  have f1 : fld x 16 5 = a := by rw [hx]; exact fld_eq (field_eq ⟨16, 5, a⟩ 2 ho (by rw [hf]; rfl))
  have f2 : fld x 11 5 = b := by rw [hx]; exact fld_eq (field_eq ⟨11, 5, b⟩ 1 ho (by rw [hf]; rfl))
  have f3 : fld x 4 2 = w := by rw [hx]; exact fld_eq (field_eq ⟨4, 2, w⟩ 0 ho (by rw [hf]; rfl))
  have hm : x / 33554432 % 128 = 1 := by rw [hx]; exact const_eq 25 7 _ ho (by rw [hp]; decide +kernel)
  clear hx ho hp hf fs
  rw [hw, parse_alu hm]
  simp [parseAlu, h0, h1, f0, f1, f2, f3]

theorem maxz (d : Fin 16) (a b : Fin 32) (w : Fin 4) : Statement (.maxz d a b w) := by
  refine core rfl ?_
  obtain ⟨fs, hf⟩ : ∃ fs : List Field, fs = [⟨4, 2, w⟩, ⟨11, 5, b⟩, ⟨16, 5, a⟩, ⟨21, 4, d⟩] := ⟨_, rfl⟩
  have hp : places fs = [(4, 2), (11, 5), (16, 5), (21, 4)] := by rw [hf]; rfl
  have ho : ok 33555392 fs = true := sound_ok _ _ (by rw [hp]; decide +kernel)
  obtain ⟨x, hx⟩ : ∃ x, x = word 33555392 fs := ⟨_, rfl⟩
  have hw : encode (.maxz d a b w) = x := by rw [hx, hf]; rfl
  have h0 : x / 64 % 32 = 15 := by rw [hx]; exact const_eq 6 5 _ ho (by rw [hp]; decide +kernel)
  have h1 : x % 16 = 0 := by rw [hx]; exact low_eq 4 _ ho (by rw [hp]; decide +kernel)
  have f0 : fld x 21 4 = d := by rw [hx]; exact fld_eq (field_eq ⟨21, 4, d⟩ 3 ho (by rw [hf]; rfl))
  have f1 : fld x 16 5 = a := by rw [hx]; exact fld_eq (field_eq ⟨16, 5, a⟩ 2 ho (by rw [hf]; rfl))
  have f2 : fld x 11 5 = b := by rw [hx]; exact fld_eq (field_eq ⟨11, 5, b⟩ 1 ho (by rw [hf]; rfl))
  have f3 : fld x 4 2 = w := by rw [hx]; exact fld_eq (field_eq ⟨4, 2, w⟩ 0 ho (by rw [hf]; rfl))
  have hm : x / 33554432 % 128 = 1 := by rw [hx]; exact const_eq 25 7 _ ho (by rw [hp]; decide +kernel)
  clear hx ho hp hf fs
  rw [hw, parse_alu hm]
  simp [parseAlu, h0, h1, f0, f1, f2, f3]

theorem addx2 (d : Fin 16) (a b : Fin 32) (w : Fin 4) : Statement (.addx2 d a b w) := by
  refine core rfl ?_
  obtain ⟨fs, hf⟩ : ∃ fs : List Field, fs = [⟨4, 2, w⟩, ⟨11, 5, b⟩, ⟨16, 5, a⟩, ⟨21, 4, d⟩] := ⟨_, rfl⟩
  have hp : places fs = [(4, 2), (11, 5), (16, 5), (21, 4)] := by rw [hf]; rfl
  have ho : ok 33555456 fs = true := sound_ok _ _ (by rw [hp]; decide +kernel)
  obtain ⟨x, hx⟩ : ∃ x, x = word 33555456 fs := ⟨_, rfl⟩
  have hw : encode (.addx2 d a b w) = x := by rw [hx, hf]; rfl
  have h0 : x / 64 % 32 = 16 := by rw [hx]; exact const_eq 6 5 _ ho (by rw [hp]; decide +kernel)
  have h1 : x % 16 = 0 := by rw [hx]; exact low_eq 4 _ ho (by rw [hp]; decide +kernel)
  have f0 : fld x 21 4 = d := by rw [hx]; exact fld_eq (field_eq ⟨21, 4, d⟩ 3 ho (by rw [hf]; rfl))
  have f1 : fld x 16 5 = a := by rw [hx]; exact fld_eq (field_eq ⟨16, 5, a⟩ 2 ho (by rw [hf]; rfl))
  have f2 : fld x 11 5 = b := by rw [hx]; exact fld_eq (field_eq ⟨11, 5, b⟩ 1 ho (by rw [hf]; rfl))
  have f3 : fld x 4 2 = w := by rw [hx]; exact fld_eq (field_eq ⟨4, 2, w⟩ 0 ho (by rw [hf]; rfl))
  have hm : x / 33554432 % 128 = 1 := by rw [hx]; exact const_eq 25 7 _ ho (by rw [hp]; decide +kernel)
  clear hx ho hp hf fs
  rw [hw, parse_alu hm]
  simp [parseAlu, h0, h1, f0, f1, f2, f3]

theorem addx4 (d : Fin 16) (a b : Fin 32) (w : Fin 4) : Statement (.addx4 d a b w) := by
  refine core rfl ?_
  obtain ⟨fs, hf⟩ : ∃ fs : List Field, fs = [⟨4, 2, w⟩, ⟨11, 5, b⟩, ⟨16, 5, a⟩, ⟨21, 4, d⟩] := ⟨_, rfl⟩
  have hp : places fs = [(4, 2), (11, 5), (16, 5), (21, 4)] := by rw [hf]; rfl
  have ho : ok 33555520 fs = true := sound_ok _ _ (by rw [hp]; decide +kernel)
  obtain ⟨x, hx⟩ : ∃ x, x = word 33555520 fs := ⟨_, rfl⟩
  have hw : encode (.addx4 d a b w) = x := by rw [hx, hf]; rfl
  have h0 : x / 64 % 32 = 17 := by rw [hx]; exact const_eq 6 5 _ ho (by rw [hp]; decide +kernel)
  have h1 : x % 16 = 0 := by rw [hx]; exact low_eq 4 _ ho (by rw [hp]; decide +kernel)
  have f0 : fld x 21 4 = d := by rw [hx]; exact fld_eq (field_eq ⟨21, 4, d⟩ 3 ho (by rw [hf]; rfl))
  have f1 : fld x 16 5 = a := by rw [hx]; exact fld_eq (field_eq ⟨16, 5, a⟩ 2 ho (by rw [hf]; rfl))
  have f2 : fld x 11 5 = b := by rw [hx]; exact fld_eq (field_eq ⟨11, 5, b⟩ 1 ho (by rw [hf]; rfl))
  have f3 : fld x 4 2 = w := by rw [hx]; exact fld_eq (field_eq ⟨4, 2, w⟩ 0 ho (by rw [hf]; rfl))
  have hm : x / 33554432 % 128 = 1 := by rw [hx]; exact const_eq 25 7 _ ho (by rw [hp]; decide +kernel)
  clear hx ho hp hf fs
  rw [hw, parse_alu hm]
  simp [parseAlu, h0, h1, f0, f1, f2, f3]

theorem addx8 (d : Fin 16) (a b : Fin 32) (w : Fin 4) : Statement (.addx8 d a b w) := by
  refine core rfl ?_
  obtain ⟨fs, hf⟩ : ∃ fs : List Field, fs = [⟨4, 2, w⟩, ⟨11, 5, b⟩, ⟨16, 5, a⟩, ⟨21, 4, d⟩] := ⟨_, rfl⟩
  have hp : places fs = [(4, 2), (11, 5), (16, 5), (21, 4)] := by rw [hf]; rfl
  have ho : ok 33555584 fs = true := sound_ok _ _ (by rw [hp]; decide +kernel)
  obtain ⟨x, hx⟩ : ∃ x, x = word 33555584 fs := ⟨_, rfl⟩
  have hw : encode (.addx8 d a b w) = x := by rw [hx, hf]; rfl
  have h0 : x / 64 % 32 = 18 := by rw [hx]; exact const_eq 6 5 _ ho (by rw [hp]; decide +kernel)
  have h1 : x % 16 = 0 := by rw [hx]; exact low_eq 4 _ ho (by rw [hp]; decide +kernel)
  have f0 : fld x 21 4 = d := by rw [hx]; exact fld_eq (field_eq ⟨21, 4, d⟩ 3 ho (by rw [hf]; rfl))
  have f1 : fld x 16 5 = a := by rw [hx]; exact fld_eq (field_eq ⟨16, 5, a⟩ 2 ho (by rw [hf]; rfl))
  have f2 : fld x 11 5 = b := by rw [hx]; exact fld_eq (field_eq ⟨11, 5, b⟩ 1 ho (by rw [hf]; rfl))
  have f3 : fld x 4 2 = w := by rw [hx]; exact fld_eq (field_eq ⟨4, 2, w⟩ 0 ho (by rw [hf]; rfl))
  have hm : x / 33554432 % 128 = 1 := by rw [hx]; exact const_eq 25 7 _ ho (by rw [hp]; decide +kernel)
  clear hx ho hp hf fs
  rw [hw, parse_alu hm]
  simp [parseAlu, h0, h1, f0, f1, f2, f3]

theorem addx16 (d : Fin 16) (a b : Fin 32) (w : Fin 4) : Statement (.addx16 d a b w) := by
  refine core rfl ?_
  obtain ⟨fs, hf⟩ : ∃ fs : List Field, fs = [⟨4, 2, w⟩, ⟨11, 5, b⟩, ⟨16, 5, a⟩, ⟨21, 4, d⟩] := ⟨_, rfl⟩
  have hp : places fs = [(4, 2), (11, 5), (16, 5), (21, 4)] := by rw [hf]; rfl
  have ho : ok 33555648 fs = true := sound_ok _ _ (by rw [hp]; decide +kernel)
  obtain ⟨x, hx⟩ : ∃ x, x = word 33555648 fs := ⟨_, rfl⟩
  have hw : encode (.addx16 d a b w) = x := by rw [hx, hf]; rfl
  have h0 : x / 64 % 32 = 19 := by rw [hx]; exact const_eq 6 5 _ ho (by rw [hp]; decide +kernel)
  have h1 : x % 16 = 0 := by rw [hx]; exact low_eq 4 _ ho (by rw [hp]; decide +kernel)
  have f0 : fld x 21 4 = d := by rw [hx]; exact fld_eq (field_eq ⟨21, 4, d⟩ 3 ho (by rw [hf]; rfl))
  have f1 : fld x 16 5 = a := by rw [hx]; exact fld_eq (field_eq ⟨16, 5, a⟩ 2 ho (by rw [hf]; rfl))
  have f2 : fld x 11 5 = b := by rw [hx]; exact fld_eq (field_eq ⟨11, 5, b⟩ 1 ho (by rw [hf]; rfl))
  have f3 : fld x 4 2 = w := by rw [hx]; exact fld_eq (field_eq ⟨4, 2, w⟩ 0 ho (by rw [hf]; rfl))
  have hm : x / 33554432 % 128 = 1 := by rw [hx]; exact const_eq 25 7 _ ho (by rw [hp]; decide +kernel)
  clear hx ho hp hf fs
  rw [hw, parse_alu hm]
  simp [parseAlu, h0, h1, f0, f1, f2, f3]

theorem clmul (d : Fin 16) (a b : Fin 32) (w : Fin 4) : Statement (.clmul d a b w) := by
  refine core rfl ?_
  obtain ⟨fs, hf⟩ : ∃ fs : List Field, fs = [⟨4, 2, w⟩, ⟨11, 5, b⟩, ⟨16, 5, a⟩, ⟨21, 4, d⟩] := ⟨_, rfl⟩
  have hp : places fs = [(4, 2), (11, 5), (16, 5), (21, 4)] := by rw [hf]; rfl
  have ho : ok 33555712 fs = true := sound_ok _ _ (by rw [hp]; decide +kernel)
  obtain ⟨x, hx⟩ : ∃ x, x = word 33555712 fs := ⟨_, rfl⟩
  have hw : encode (.clmul d a b w) = x := by rw [hx, hf]; rfl
  have h0 : x / 64 % 32 = 20 := by rw [hx]; exact const_eq 6 5 _ ho (by rw [hp]; decide +kernel)
  have h1 : x % 16 = 0 := by rw [hx]; exact low_eq 4 _ ho (by rw [hp]; decide +kernel)
  have f0 : fld x 21 4 = d := by rw [hx]; exact fld_eq (field_eq ⟨21, 4, d⟩ 3 ho (by rw [hf]; rfl))
  have f1 : fld x 16 5 = a := by rw [hx]; exact fld_eq (field_eq ⟨16, 5, a⟩ 2 ho (by rw [hf]; rfl))
  have f2 : fld x 11 5 = b := by rw [hx]; exact fld_eq (field_eq ⟨11, 5, b⟩ 1 ho (by rw [hf]; rfl))
  have f3 : fld x 4 2 = w := by rw [hx]; exact fld_eq (field_eq ⟨4, 2, w⟩ 0 ho (by rw [hf]; rfl))
  have hm : x / 33554432 % 128 = 1 := by rw [hx]; exact const_eq 25 7 _ ho (by rw [hp]; decide +kernel)
  clear hx ho hp hf fs
  rw [hw, parse_alu hm]
  simp [parseAlu, h0, h1, f0, f1, f2, f3]

theorem clmulh (d : Fin 16) (a b : Fin 32) (w : Fin 4) : Statement (.clmulh d a b w) := by
  refine core rfl ?_
  obtain ⟨fs, hf⟩ : ∃ fs : List Field, fs = [⟨4, 2, w⟩, ⟨11, 5, b⟩, ⟨16, 5, a⟩, ⟨21, 4, d⟩] := ⟨_, rfl⟩
  have hp : places fs = [(4, 2), (11, 5), (16, 5), (21, 4)] := by rw [hf]; rfl
  have ho : ok 33555776 fs = true := sound_ok _ _ (by rw [hp]; decide +kernel)
  obtain ⟨x, hx⟩ : ∃ x, x = word 33555776 fs := ⟨_, rfl⟩
  have hw : encode (.clmulh d a b w) = x := by rw [hx, hf]; rfl
  have h0 : x / 64 % 32 = 21 := by rw [hx]; exact const_eq 6 5 _ ho (by rw [hp]; decide +kernel)
  have h1 : x % 16 = 0 := by rw [hx]; exact low_eq 4 _ ho (by rw [hp]; decide +kernel)
  have f0 : fld x 21 4 = d := by rw [hx]; exact fld_eq (field_eq ⟨21, 4, d⟩ 3 ho (by rw [hf]; rfl))
  have f1 : fld x 16 5 = a := by rw [hx]; exact fld_eq (field_eq ⟨16, 5, a⟩ 2 ho (by rw [hf]; rfl))
  have f2 : fld x 11 5 = b := by rw [hx]; exact fld_eq (field_eq ⟨11, 5, b⟩ 1 ho (by rw [hf]; rfl))
  have f3 : fld x 4 2 = w := by rw [hx]; exact fld_eq (field_eq ⟨4, 2, w⟩ 0 ho (by rw [hf]; rfl))
  have hm : x / 33554432 % 128 = 1 := by rw [hx]; exact const_eq 25 7 _ ho (by rw [hp]; decide +kernel)
  clear hx ho hp hf fs
  rw [hw, parse_alu hm]
  simp [parseAlu, h0, h1, f0, f1, f2, f3]

theorem clz (d : Fin 16) (a : Fin 32) (w : Fin 4) : Statement (.clz d a w) := by
  refine core rfl ?_
  obtain ⟨fs, hf⟩ : ∃ fs : List Field, fs = [⟨4, 2, w⟩, ⟨16, 5, a⟩, ⟨21, 4, d⟩] := ⟨_, rfl⟩
  have hp : places fs = [(4, 2), (16, 5), (21, 4)] := by rw [hf]; rfl
  have ho : ok 67108864 fs = true := sound_ok _ _ (by rw [hp]; decide +kernel)
  obtain ⟨x, hx⟩ : ∃ x, x = word 67108864 fs := ⟨_, rfl⟩
  have hw : encode (.clz d a w) = x := by rw [hx, hf]; rfl
  have h0 : x % 16 = 0 := by rw [hx]; exact low_eq 4 _ ho (by rw [hp]; decide +kernel)
  have h1 : x / 64 % 1024 = 0 := by rw [hx]; exact const_eq 6 10 _ ho (by rw [hp]; decide +kernel)
  have f0 : fld x 21 4 = d := by rw [hx]; exact fld_eq (field_eq ⟨21, 4, d⟩ 2 ho (by rw [hf]; rfl))
  have f1 : fld x 16 5 = a := by rw [hx]; exact fld_eq (field_eq ⟨16, 5, a⟩ 1 ho (by rw [hf]; rfl))
  have f2 : fld x 4 2 = w := by rw [hx]; exact fld_eq (field_eq ⟨4, 2, w⟩ 0 ho (by rw [hf]; rfl))
  have hm : x / 33554432 % 128 = 2 := by rw [hx]; exact const_eq 25 7 _ ho (by rw [hp]; decide +kernel)
  clear hx ho hp hf fs
  rw [hw, parse_alu1 hm]
  simp [parseAlu1, h0, h1, f0, f1, f2]

theorem ctz (d : Fin 16) (a : Fin 32) (w : Fin 4) : Statement (.ctz d a w) := by
  refine core rfl ?_
  obtain ⟨fs, hf⟩ : ∃ fs : List Field, fs = [⟨4, 2, w⟩, ⟨16, 5, a⟩, ⟨21, 4, d⟩] := ⟨_, rfl⟩
  have hp : places fs = [(4, 2), (16, 5), (21, 4)] := by rw [hf]; rfl
  have ho : ok 67108928 fs = true := sound_ok _ _ (by rw [hp]; decide +kernel)
  obtain ⟨x, hx⟩ : ∃ x, x = word 67108928 fs := ⟨_, rfl⟩
  have hw : encode (.ctz d a w) = x := by rw [hx, hf]; rfl
  have h0 : x / 64 % 1024 = 1 := by rw [hx]; exact const_eq 6 10 _ ho (by rw [hp]; decide +kernel)
  have h1 : x % 16 = 0 := by rw [hx]; exact low_eq 4 _ ho (by rw [hp]; decide +kernel)
  have f0 : fld x 21 4 = d := by rw [hx]; exact fld_eq (field_eq ⟨21, 4, d⟩ 2 ho (by rw [hf]; rfl))
  have f1 : fld x 16 5 = a := by rw [hx]; exact fld_eq (field_eq ⟨16, 5, a⟩ 1 ho (by rw [hf]; rfl))
  have f2 : fld x 4 2 = w := by rw [hx]; exact fld_eq (field_eq ⟨4, 2, w⟩ 0 ho (by rw [hf]; rfl))
  have hm : x / 33554432 % 128 = 2 := by rw [hx]; exact const_eq 25 7 _ ho (by rw [hp]; decide +kernel)
  clear hx ho hp hf fs
  rw [hw, parse_alu1 hm]
  simp [parseAlu1, h0, h1, f0, f1, f2]

theorem pop (d : Fin 16) (a : Fin 32) (w : Fin 4) : Statement (.pop d a w) := by
  refine core rfl ?_
  obtain ⟨fs, hf⟩ : ∃ fs : List Field, fs = [⟨4, 2, w⟩, ⟨16, 5, a⟩, ⟨21, 4, d⟩] := ⟨_, rfl⟩
  have hp : places fs = [(4, 2), (16, 5), (21, 4)] := by rw [hf]; rfl
  have ho : ok 67108992 fs = true := sound_ok _ _ (by rw [hp]; decide +kernel)
  obtain ⟨x, hx⟩ : ∃ x, x = word 67108992 fs := ⟨_, rfl⟩
  have hw : encode (.pop d a w) = x := by rw [hx, hf]; rfl
  have h0 : x / 64 % 1024 = 2 := by rw [hx]; exact const_eq 6 10 _ ho (by rw [hp]; decide +kernel)
  have h1 : x % 16 = 0 := by rw [hx]; exact low_eq 4 _ ho (by rw [hp]; decide +kernel)
  have f0 : fld x 21 4 = d := by rw [hx]; exact fld_eq (field_eq ⟨21, 4, d⟩ 2 ho (by rw [hf]; rfl))
  have f1 : fld x 16 5 = a := by rw [hx]; exact fld_eq (field_eq ⟨16, 5, a⟩ 1 ho (by rw [hf]; rfl))
  have f2 : fld x 4 2 = w := by rw [hx]; exact fld_eq (field_eq ⟨4, 2, w⟩ 0 ho (by rw [hf]; rfl))
  have hm : x / 33554432 % 128 = 2 := by rw [hx]; exact const_eq 25 7 _ ho (by rw [hp]; decide +kernel)
  clear hx ho hp hf fs
  rw [hw, parse_alu1 hm]
  simp [parseAlu1, h0, h1, f0, f1, f2]

theorem brev (d : Fin 16) (a : Fin 32) (w : Fin 4) : Statement (.brev d a w) := by
  refine core rfl ?_
  obtain ⟨fs, hf⟩ : ∃ fs : List Field, fs = [⟨4, 2, w⟩, ⟨16, 5, a⟩, ⟨21, 4, d⟩] := ⟨_, rfl⟩
  have hp : places fs = [(4, 2), (16, 5), (21, 4)] := by rw [hf]; rfl
  have ho : ok 67109056 fs = true := sound_ok _ _ (by rw [hp]; decide +kernel)
  obtain ⟨x, hx⟩ : ∃ x, x = word 67109056 fs := ⟨_, rfl⟩
  have hw : encode (.brev d a w) = x := by rw [hx, hf]; rfl
  have h0 : x / 64 % 1024 = 3 := by rw [hx]; exact const_eq 6 10 _ ho (by rw [hp]; decide +kernel)
  have h1 : x % 16 = 0 := by rw [hx]; exact low_eq 4 _ ho (by rw [hp]; decide +kernel)
  have f0 : fld x 21 4 = d := by rw [hx]; exact fld_eq (field_eq ⟨21, 4, d⟩ 2 ho (by rw [hf]; rfl))
  have f1 : fld x 16 5 = a := by rw [hx]; exact fld_eq (field_eq ⟨16, 5, a⟩ 1 ho (by rw [hf]; rfl))
  have f2 : fld x 4 2 = w := by rw [hx]; exact fld_eq (field_eq ⟨4, 2, w⟩ 0 ho (by rw [hf]; rfl))
  have hm : x / 33554432 % 128 = 2 := by rw [hx]; exact const_eq 25 7 _ ho (by rw [hp]; decide +kernel)
  clear hx ho hp hf fs
  rw [hw, parse_alu1 hm]
  simp [parseAlu1, h0, h1, f0, f1, f2]

theorem bswap (d : Fin 16) (a : Fin 32) (w : Fin 4) : Statement (.bswap d a w) := by
  refine core rfl ?_
  obtain ⟨fs, hf⟩ : ∃ fs : List Field, fs = [⟨4, 2, w⟩, ⟨16, 5, a⟩, ⟨21, 4, d⟩] := ⟨_, rfl⟩
  have hp : places fs = [(4, 2), (16, 5), (21, 4)] := by rw [hf]; rfl
  have ho : ok 67109120 fs = true := sound_ok _ _ (by rw [hp]; decide +kernel)
  obtain ⟨x, hx⟩ : ∃ x, x = word 67109120 fs := ⟨_, rfl⟩
  have hw : encode (.bswap d a w) = x := by rw [hx, hf]; rfl
  have h0 : x / 64 % 1024 = 4 := by rw [hx]; exact const_eq 6 10 _ ho (by rw [hp]; decide +kernel)
  have h1 : x % 16 = 0 := by rw [hx]; exact low_eq 4 _ ho (by rw [hp]; decide +kernel)
  have f0 : fld x 21 4 = d := by rw [hx]; exact fld_eq (field_eq ⟨21, 4, d⟩ 2 ho (by rw [hf]; rfl))
  have f1 : fld x 16 5 = a := by rw [hx]; exact fld_eq (field_eq ⟨16, 5, a⟩ 1 ho (by rw [hf]; rfl))
  have f2 : fld x 4 2 = w := by rw [hx]; exact fld_eq (field_eq ⟨4, 2, w⟩ 0 ho (by rw [hf]; rfl))
  have hm : x / 33554432 % 128 = 2 := by rw [hx]; exact const_eq 25 7 _ ho (by rw [hp]; decide +kernel)
  clear hx ho hp hf fs
  rw [hw, parse_alu1 hm]
  simp [parseAlu1, h0, h1, f0, f1, f2]

theorem sextb (d : Fin 16) (a : Fin 32) (w : Fin 4) : Statement (.sextb d a w) := by
  refine core rfl ?_
  obtain ⟨fs, hf⟩ : ∃ fs : List Field, fs = [⟨4, 2, w⟩, ⟨16, 5, a⟩, ⟨21, 4, d⟩] := ⟨_, rfl⟩
  have hp : places fs = [(4, 2), (16, 5), (21, 4)] := by rw [hf]; rfl
  have ho : ok 67109184 fs = true := sound_ok _ _ (by rw [hp]; decide +kernel)
  obtain ⟨x, hx⟩ : ∃ x, x = word 67109184 fs := ⟨_, rfl⟩
  have hw : encode (.sextb d a w) = x := by rw [hx, hf]; rfl
  have h0 : x / 64 % 1024 = 5 := by rw [hx]; exact const_eq 6 10 _ ho (by rw [hp]; decide +kernel)
  have h1 : x % 16 = 0 := by rw [hx]; exact low_eq 4 _ ho (by rw [hp]; decide +kernel)
  have f0 : fld x 21 4 = d := by rw [hx]; exact fld_eq (field_eq ⟨21, 4, d⟩ 2 ho (by rw [hf]; rfl))
  have f1 : fld x 16 5 = a := by rw [hx]; exact fld_eq (field_eq ⟨16, 5, a⟩ 1 ho (by rw [hf]; rfl))
  have f2 : fld x 4 2 = w := by rw [hx]; exact fld_eq (field_eq ⟨4, 2, w⟩ 0 ho (by rw [hf]; rfl))
  have hm : x / 33554432 % 128 = 2 := by rw [hx]; exact const_eq 25 7 _ ho (by rw [hp]; decide +kernel)
  clear hx ho hp hf fs
  rw [hw, parse_alu1 hm]
  simp [parseAlu1, h0, h1, f0, f1, f2]

theorem sexth (d : Fin 16) (a : Fin 32) (w : Fin 4) : Statement (.sexth d a w) := by
  refine core rfl ?_
  obtain ⟨fs, hf⟩ : ∃ fs : List Field, fs = [⟨4, 2, w⟩, ⟨16, 5, a⟩, ⟨21, 4, d⟩] := ⟨_, rfl⟩
  have hp : places fs = [(4, 2), (16, 5), (21, 4)] := by rw [hf]; rfl
  have ho : ok 67109248 fs = true := sound_ok _ _ (by rw [hp]; decide +kernel)
  obtain ⟨x, hx⟩ : ∃ x, x = word 67109248 fs := ⟨_, rfl⟩
  have hw : encode (.sexth d a w) = x := by rw [hx, hf]; rfl
  have h0 : x / 64 % 1024 = 6 := by rw [hx]; exact const_eq 6 10 _ ho (by rw [hp]; decide +kernel)
  have h1 : x % 16 = 0 := by rw [hx]; exact low_eq 4 _ ho (by rw [hp]; decide +kernel)
  have f0 : fld x 21 4 = d := by rw [hx]; exact fld_eq (field_eq ⟨21, 4, d⟩ 2 ho (by rw [hf]; rfl))
  have f1 : fld x 16 5 = a := by rw [hx]; exact fld_eq (field_eq ⟨16, 5, a⟩ 1 ho (by rw [hf]; rfl))
  have f2 : fld x 4 2 = w := by rw [hx]; exact fld_eq (field_eq ⟨4, 2, w⟩ 0 ho (by rw [hf]; rfl))
  have hm : x / 33554432 % 128 = 2 := by rw [hx]; exact const_eq 25 7 _ ho (by rw [hp]; decide +kernel)
  clear hx ho hp hf fs
  rw [hw, parse_alu1 hm]
  simp [parseAlu1, h0, h1, f0, f1, f2]

theorem sextw (d : Fin 16) (a : Fin 32) (w : Fin 4) : Statement (.sextw d a w) := by
  refine core rfl ?_
  obtain ⟨fs, hf⟩ : ∃ fs : List Field, fs = [⟨4, 2, w⟩, ⟨16, 5, a⟩, ⟨21, 4, d⟩] := ⟨_, rfl⟩
  have hp : places fs = [(4, 2), (16, 5), (21, 4)] := by rw [hf]; rfl
  have ho : ok 67109312 fs = true := sound_ok _ _ (by rw [hp]; decide +kernel)
  obtain ⟨x, hx⟩ : ∃ x, x = word 67109312 fs := ⟨_, rfl⟩
  have hw : encode (.sextw d a w) = x := by rw [hx, hf]; rfl
  have h0 : x / 64 % 1024 = 7 := by rw [hx]; exact const_eq 6 10 _ ho (by rw [hp]; decide +kernel)
  have h1 : x % 16 = 0 := by rw [hx]; exact low_eq 4 _ ho (by rw [hp]; decide +kernel)
  have f0 : fld x 21 4 = d := by rw [hx]; exact fld_eq (field_eq ⟨21, 4, d⟩ 2 ho (by rw [hf]; rfl))
  have f1 : fld x 16 5 = a := by rw [hx]; exact fld_eq (field_eq ⟨16, 5, a⟩ 1 ho (by rw [hf]; rfl))
  have f2 : fld x 4 2 = w := by rw [hx]; exact fld_eq (field_eq ⟨4, 2, w⟩ 0 ho (by rw [hf]; rfl))
  have hm : x / 33554432 % 128 = 2 := by rw [hx]; exact const_eq 25 7 _ ho (by rw [hp]; decide +kernel)
  clear hx ho hp hf fs
  rw [hw, parse_alu1 hm]
  simp [parseAlu1, h0, h1, f0, f1, f2]

theorem zextb (d : Fin 16) (a : Fin 32) (w : Fin 4) : Statement (.zextb d a w) := by
  refine core rfl ?_
  obtain ⟨fs, hf⟩ : ∃ fs : List Field, fs = [⟨4, 2, w⟩, ⟨16, 5, a⟩, ⟨21, 4, d⟩] := ⟨_, rfl⟩
  have hp : places fs = [(4, 2), (16, 5), (21, 4)] := by rw [hf]; rfl
  have ho : ok 67109376 fs = true := sound_ok _ _ (by rw [hp]; decide +kernel)
  obtain ⟨x, hx⟩ : ∃ x, x = word 67109376 fs := ⟨_, rfl⟩
  have hw : encode (.zextb d a w) = x := by rw [hx, hf]; rfl
  have h0 : x / 64 % 1024 = 8 := by rw [hx]; exact const_eq 6 10 _ ho (by rw [hp]; decide +kernel)
  have h1 : x % 16 = 0 := by rw [hx]; exact low_eq 4 _ ho (by rw [hp]; decide +kernel)
  have f0 : fld x 21 4 = d := by rw [hx]; exact fld_eq (field_eq ⟨21, 4, d⟩ 2 ho (by rw [hf]; rfl))
  have f1 : fld x 16 5 = a := by rw [hx]; exact fld_eq (field_eq ⟨16, 5, a⟩ 1 ho (by rw [hf]; rfl))
  have f2 : fld x 4 2 = w := by rw [hx]; exact fld_eq (field_eq ⟨4, 2, w⟩ 0 ho (by rw [hf]; rfl))
  have hm : x / 33554432 % 128 = 2 := by rw [hx]; exact const_eq 25 7 _ ho (by rw [hp]; decide +kernel)
  clear hx ho hp hf fs
  rw [hw, parse_alu1 hm]
  simp [parseAlu1, h0, h1, f0, f1, f2]

theorem zexth (d : Fin 16) (a : Fin 32) (w : Fin 4) : Statement (.zexth d a w) := by
  refine core rfl ?_
  obtain ⟨fs, hf⟩ : ∃ fs : List Field, fs = [⟨4, 2, w⟩, ⟨16, 5, a⟩, ⟨21, 4, d⟩] := ⟨_, rfl⟩
  have hp : places fs = [(4, 2), (16, 5), (21, 4)] := by rw [hf]; rfl
  have ho : ok 67109440 fs = true := sound_ok _ _ (by rw [hp]; decide +kernel)
  obtain ⟨x, hx⟩ : ∃ x, x = word 67109440 fs := ⟨_, rfl⟩
  have hw : encode (.zexth d a w) = x := by rw [hx, hf]; rfl
  have h0 : x / 64 % 1024 = 9 := by rw [hx]; exact const_eq 6 10 _ ho (by rw [hp]; decide +kernel)
  have h1 : x % 16 = 0 := by rw [hx]; exact low_eq 4 _ ho (by rw [hp]; decide +kernel)
  have f0 : fld x 21 4 = d := by rw [hx]; exact fld_eq (field_eq ⟨21, 4, d⟩ 2 ho (by rw [hf]; rfl))
  have f1 : fld x 16 5 = a := by rw [hx]; exact fld_eq (field_eq ⟨16, 5, a⟩ 1 ho (by rw [hf]; rfl))
  have f2 : fld x 4 2 = w := by rw [hx]; exact fld_eq (field_eq ⟨4, 2, w⟩ 0 ho (by rw [hf]; rfl))
  have hm : x / 33554432 % 128 = 2 := by rw [hx]; exact const_eq 25 7 _ ho (by rw [hp]; decide +kernel)
  clear hx ho hp hf fs
  rw [hw, parse_alu1 hm]
  simp [parseAlu1, h0, h1, f0, f1, f2]

theorem zextw (d : Fin 16) (a : Fin 32) (w : Fin 4) : Statement (.zextw d a w) := by
  refine core rfl ?_
  obtain ⟨fs, hf⟩ : ∃ fs : List Field, fs = [⟨4, 2, w⟩, ⟨16, 5, a⟩, ⟨21, 4, d⟩] := ⟨_, rfl⟩
  have hp : places fs = [(4, 2), (16, 5), (21, 4)] := by rw [hf]; rfl
  have ho : ok 67109504 fs = true := sound_ok _ _ (by rw [hp]; decide +kernel)
  obtain ⟨x, hx⟩ : ∃ x, x = word 67109504 fs := ⟨_, rfl⟩
  have hw : encode (.zextw d a w) = x := by rw [hx, hf]; rfl
  have h0 : x / 64 % 1024 = 10 := by rw [hx]; exact const_eq 6 10 _ ho (by rw [hp]; decide +kernel)
  have h1 : x % 16 = 0 := by rw [hx]; exact low_eq 4 _ ho (by rw [hp]; decide +kernel)
  have f0 : fld x 21 4 = d := by rw [hx]; exact fld_eq (field_eq ⟨21, 4, d⟩ 2 ho (by rw [hf]; rfl))
  have f1 : fld x 16 5 = a := by rw [hx]; exact fld_eq (field_eq ⟨16, 5, a⟩ 1 ho (by rw [hf]; rfl))
  have f2 : fld x 4 2 = w := by rw [hx]; exact fld_eq (field_eq ⟨4, 2, w⟩ 0 ho (by rw [hf]; rfl))
  have hm : x / 33554432 % 128 = 2 := by rw [hx]; exact const_eq 25 7 _ ho (by rw [hp]; decide +kernel)
  clear hx ho hp hf fs
  rw [hw, parse_alu1 hm]
  simp [parseAlu1, h0, h1, f0, f1, f2]

theorem neg (d : Fin 16) (a : Fin 32) (w : Fin 4) : Statement (.neg d a w) := by
  refine core rfl ?_
  obtain ⟨fs, hf⟩ : ∃ fs : List Field, fs = [⟨4, 2, w⟩, ⟨16, 5, a⟩, ⟨21, 4, d⟩] := ⟨_, rfl⟩
  have hp : places fs = [(4, 2), (16, 5), (21, 4)] := by rw [hf]; rfl
  have ho : ok 67109568 fs = true := sound_ok _ _ (by rw [hp]; decide +kernel)
  obtain ⟨x, hx⟩ : ∃ x, x = word 67109568 fs := ⟨_, rfl⟩
  have hw : encode (.neg d a w) = x := by rw [hx, hf]; rfl
  have h0 : x / 64 % 1024 = 11 := by rw [hx]; exact const_eq 6 10 _ ho (by rw [hp]; decide +kernel)
  have h1 : x % 16 = 0 := by rw [hx]; exact low_eq 4 _ ho (by rw [hp]; decide +kernel)
  have f0 : fld x 21 4 = d := by rw [hx]; exact fld_eq (field_eq ⟨21, 4, d⟩ 2 ho (by rw [hf]; rfl))
  have f1 : fld x 16 5 = a := by rw [hx]; exact fld_eq (field_eq ⟨16, 5, a⟩ 1 ho (by rw [hf]; rfl))
  have f2 : fld x 4 2 = w := by rw [hx]; exact fld_eq (field_eq ⟨4, 2, w⟩ 0 ho (by rw [hf]; rfl))
  have hm : x / 33554432 % 128 = 2 := by rw [hx]; exact const_eq 25 7 _ ho (by rw [hp]; decide +kernel)
  clear hx ho hp hf fs
  rw [hw, parse_alu1 hm]
  simp [parseAlu1, h0, h1, f0, f1, f2]

theorem not (d : Fin 16) (a : Fin 32) (w : Fin 4) : Statement (.not d a w) := by
  refine core rfl ?_
  obtain ⟨fs, hf⟩ : ∃ fs : List Field, fs = [⟨4, 2, w⟩, ⟨16, 5, a⟩, ⟨21, 4, d⟩] := ⟨_, rfl⟩
  have hp : places fs = [(4, 2), (16, 5), (21, 4)] := by rw [hf]; rfl
  have ho : ok 67109632 fs = true := sound_ok _ _ (by rw [hp]; decide +kernel)
  obtain ⟨x, hx⟩ : ∃ x, x = word 67109632 fs := ⟨_, rfl⟩
  have hw : encode (.not d a w) = x := by rw [hx, hf]; rfl
  have h0 : x / 64 % 1024 = 12 := by rw [hx]; exact const_eq 6 10 _ ho (by rw [hp]; decide +kernel)
  have h1 : x % 16 = 0 := by rw [hx]; exact low_eq 4 _ ho (by rw [hp]; decide +kernel)
  have f0 : fld x 21 4 = d := by rw [hx]; exact fld_eq (field_eq ⟨21, 4, d⟩ 2 ho (by rw [hf]; rfl))
  have f1 : fld x 16 5 = a := by rw [hx]; exact fld_eq (field_eq ⟨16, 5, a⟩ 1 ho (by rw [hf]; rfl))
  have f2 : fld x 4 2 = w := by rw [hx]; exact fld_eq (field_eq ⟨4, 2, w⟩ 0 ho (by rw [hf]; rfl))
  have hm : x / 33554432 % 128 = 2 := by rw [hx]; exact const_eq 25 7 _ ho (by rw [hp]; decide +kernel)
  clear hx ho hp hf fs
  rw [hw, parse_alu1 hm]
  simp [parseAlu1, h0, h1, f0, f1, f2]

theorem mov (d : Fin 16) (a : Fin 32) (w : Fin 4) : Statement (.mov d a w) := by
  refine core rfl ?_
  obtain ⟨fs, hf⟩ : ∃ fs : List Field, fs = [⟨4, 2, w⟩, ⟨16, 5, a⟩, ⟨21, 4, d⟩] := ⟨_, rfl⟩
  have hp : places fs = [(4, 2), (16, 5), (21, 4)] := by rw [hf]; rfl
  have ho : ok 67109696 fs = true := sound_ok _ _ (by rw [hp]; decide +kernel)
  obtain ⟨x, hx⟩ : ∃ x, x = word 67109696 fs := ⟨_, rfl⟩
  have hw : encode (.mov d a w) = x := by rw [hx, hf]; rfl
  have h0 : x / 64 % 1024 = 13 := by rw [hx]; exact const_eq 6 10 _ ho (by rw [hp]; decide +kernel)
  have h1 : x % 16 = 0 := by rw [hx]; exact low_eq 4 _ ho (by rw [hp]; decide +kernel)
  have f0 : fld x 21 4 = d := by rw [hx]; exact fld_eq (field_eq ⟨21, 4, d⟩ 2 ho (by rw [hf]; rfl))
  have f1 : fld x 16 5 = a := by rw [hx]; exact fld_eq (field_eq ⟨16, 5, a⟩ 1 ho (by rw [hf]; rfl))
  have f2 : fld x 4 2 = w := by rw [hx]; exact fld_eq (field_eq ⟨4, 2, w⟩ 0 ho (by rw [hf]; rfl))
  have hm : x / 33554432 % 128 = 2 := by rw [hx]; exact const_eq 25 7 _ ho (by rw [hp]; decide +kernel)
  clear hx ho hp hf fs
  rw [hw, parse_alu1 hm]
  simp [parseAlu1, h0, h1, f0, f1, f2]

theorem mul (d : Fin 16) (a b : Fin 32) (w : Fin 4) : Statement (.mul d a b w) := by
  refine core rfl ?_
  obtain ⟨fs, hf⟩ : ∃ fs : List Field, fs = [⟨4, 2, w⟩, ⟨11, 5, b⟩, ⟨16, 5, a⟩, ⟨21, 4, d⟩] := ⟨_, rfl⟩
  have hp : places fs = [(4, 2), (11, 5), (16, 5), (21, 4)] := by rw [hf]; rfl
  have ho : ok 100663296 fs = true := sound_ok _ _ (by rw [hp]; decide +kernel)
  obtain ⟨x, hx⟩ : ∃ x, x = word 100663296 fs := ⟨_, rfl⟩
  have hw : encode (.mul d a b w) = x := by rw [hx, hf]; rfl
  have h0 : x % 16 = 0 := by rw [hx]; exact low_eq 4 _ ho (by rw [hp]; decide +kernel)
  have h1 : x / 64 % 32 = 0 := by rw [hx]; exact const_eq 6 5 _ ho (by rw [hp]; decide +kernel)
  have f0 : fld x 21 4 = d := by rw [hx]; exact fld_eq (field_eq ⟨21, 4, d⟩ 3 ho (by rw [hf]; rfl))
  have f1 : fld x 16 5 = a := by rw [hx]; exact fld_eq (field_eq ⟨16, 5, a⟩ 2 ho (by rw [hf]; rfl))
  have f2 : fld x 11 5 = b := by rw [hx]; exact fld_eq (field_eq ⟨11, 5, b⟩ 1 ho (by rw [hf]; rfl))
  have f3 : fld x 4 2 = w := by rw [hx]; exact fld_eq (field_eq ⟨4, 2, w⟩ 0 ho (by rw [hf]; rfl))
  have hm : x / 33554432 % 128 = 3 := by rw [hx]; exact const_eq 25 7 _ ho (by rw [hp]; decide +kernel)
  clear hx ho hp hf fs
  rw [hw, parse_muldiv hm]
  simp [parseMulDiv, h0, h1, f0, f1, f2, f3]

theorem mulh (d : Fin 16) (a b : Fin 32) (w : Fin 4) : Statement (.mulh d a b w) := by
  refine core rfl ?_
  obtain ⟨fs, hf⟩ : ∃ fs : List Field, fs = [⟨4, 2, w⟩, ⟨11, 5, b⟩, ⟨16, 5, a⟩, ⟨21, 4, d⟩] := ⟨_, rfl⟩
  have hp : places fs = [(4, 2), (11, 5), (16, 5), (21, 4)] := by rw [hf]; rfl
  have ho : ok 100663360 fs = true := sound_ok _ _ (by rw [hp]; decide +kernel)
  obtain ⟨x, hx⟩ : ∃ x, x = word 100663360 fs := ⟨_, rfl⟩
  have hw : encode (.mulh d a b w) = x := by rw [hx, hf]; rfl
  have h0 : x / 64 % 32 = 1 := by rw [hx]; exact const_eq 6 5 _ ho (by rw [hp]; decide +kernel)
  have h1 : x % 16 = 0 := by rw [hx]; exact low_eq 4 _ ho (by rw [hp]; decide +kernel)
  have f0 : fld x 21 4 = d := by rw [hx]; exact fld_eq (field_eq ⟨21, 4, d⟩ 3 ho (by rw [hf]; rfl))
  have f1 : fld x 16 5 = a := by rw [hx]; exact fld_eq (field_eq ⟨16, 5, a⟩ 2 ho (by rw [hf]; rfl))
  have f2 : fld x 11 5 = b := by rw [hx]; exact fld_eq (field_eq ⟨11, 5, b⟩ 1 ho (by rw [hf]; rfl))
  have f3 : fld x 4 2 = w := by rw [hx]; exact fld_eq (field_eq ⟨4, 2, w⟩ 0 ho (by rw [hf]; rfl))
  have hm : x / 33554432 % 128 = 3 := by rw [hx]; exact const_eq 25 7 _ ho (by rw [hp]; decide +kernel)
  clear hx ho hp hf fs
  rw [hw, parse_muldiv hm]
  simp [parseMulDiv, h0, h1, f0, f1, f2, f3]

theorem mulhz (d : Fin 16) (a b : Fin 32) (w : Fin 4) : Statement (.mulhz d a b w) := by
  refine core rfl ?_
  obtain ⟨fs, hf⟩ : ∃ fs : List Field, fs = [⟨4, 2, w⟩, ⟨11, 5, b⟩, ⟨16, 5, a⟩, ⟨21, 4, d⟩] := ⟨_, rfl⟩
  have hp : places fs = [(4, 2), (11, 5), (16, 5), (21, 4)] := by rw [hf]; rfl
  have ho : ok 100663424 fs = true := sound_ok _ _ (by rw [hp]; decide +kernel)
  obtain ⟨x, hx⟩ : ∃ x, x = word 100663424 fs := ⟨_, rfl⟩
  have hw : encode (.mulhz d a b w) = x := by rw [hx, hf]; rfl
  have h0 : x / 64 % 32 = 2 := by rw [hx]; exact const_eq 6 5 _ ho (by rw [hp]; decide +kernel)
  have h1 : x % 16 = 0 := by rw [hx]; exact low_eq 4 _ ho (by rw [hp]; decide +kernel)
  have f0 : fld x 21 4 = d := by rw [hx]; exact fld_eq (field_eq ⟨21, 4, d⟩ 3 ho (by rw [hf]; rfl))
  have f1 : fld x 16 5 = a := by rw [hx]; exact fld_eq (field_eq ⟨16, 5, a⟩ 2 ho (by rw [hf]; rfl))
  have f2 : fld x 11 5 = b := by rw [hx]; exact fld_eq (field_eq ⟨11, 5, b⟩ 1 ho (by rw [hf]; rfl))
  have f3 : fld x 4 2 = w := by rw [hx]; exact fld_eq (field_eq ⟨4, 2, w⟩ 0 ho (by rw [hf]; rfl))
  have hm : x / 33554432 % 128 = 3 := by rw [hx]; exact const_eq 25 7 _ ho (by rw [hp]; decide +kernel)
  clear hx ho hp hf fs
  rw [hw, parse_muldiv hm]
  simp [parseMulDiv, h0, h1, f0, f1, f2, f3]

theorem mulhsz (d : Fin 16) (a b : Fin 32) (w : Fin 4) : Statement (.mulhsz d a b w) := by
  refine core rfl ?_
  obtain ⟨fs, hf⟩ : ∃ fs : List Field, fs = [⟨4, 2, w⟩, ⟨11, 5, b⟩, ⟨16, 5, a⟩, ⟨21, 4, d⟩] := ⟨_, rfl⟩
  have hp : places fs = [(4, 2), (11, 5), (16, 5), (21, 4)] := by rw [hf]; rfl
  have ho : ok 100663488 fs = true := sound_ok _ _ (by rw [hp]; decide +kernel)
  obtain ⟨x, hx⟩ : ∃ x, x = word 100663488 fs := ⟨_, rfl⟩
  have hw : encode (.mulhsz d a b w) = x := by rw [hx, hf]; rfl
  have h0 : x / 64 % 32 = 3 := by rw [hx]; exact const_eq 6 5 _ ho (by rw [hp]; decide +kernel)
  have h1 : x % 16 = 0 := by rw [hx]; exact low_eq 4 _ ho (by rw [hp]; decide +kernel)
  have f0 : fld x 21 4 = d := by rw [hx]; exact fld_eq (field_eq ⟨21, 4, d⟩ 3 ho (by rw [hf]; rfl))
  have f1 : fld x 16 5 = a := by rw [hx]; exact fld_eq (field_eq ⟨16, 5, a⟩ 2 ho (by rw [hf]; rfl))
  have f2 : fld x 11 5 = b := by rw [hx]; exact fld_eq (field_eq ⟨11, 5, b⟩ 1 ho (by rw [hf]; rfl))
  have f3 : fld x 4 2 = w := by rw [hx]; exact fld_eq (field_eq ⟨4, 2, w⟩ 0 ho (by rw [hf]; rfl))
  have hm : x / 33554432 % 128 = 3 := by rw [hx]; exact const_eq 25 7 _ ho (by rw [hp]; decide +kernel)
  clear hx ho hp hf fs
  rw [hw, parse_muldiv hm]
  simp [parseMulDiv, h0, h1, f0, f1, f2, f3]

theorem div (d : Fin 16) (a b : Fin 32) (w : Fin 4) : Statement (.div d a b w) := by
  refine core rfl ?_
  obtain ⟨fs, hf⟩ : ∃ fs : List Field, fs = [⟨4, 2, w⟩, ⟨11, 5, b⟩, ⟨16, 5, a⟩, ⟨21, 4, d⟩] := ⟨_, rfl⟩
  have hp : places fs = [(4, 2), (11, 5), (16, 5), (21, 4)] := by rw [hf]; rfl
  have ho : ok 100663552 fs = true := sound_ok _ _ (by rw [hp]; decide +kernel)
  obtain ⟨x, hx⟩ : ∃ x, x = word 100663552 fs := ⟨_, rfl⟩
  have hw : encode (.div d a b w) = x := by rw [hx, hf]; rfl
  have h0 : x / 64 % 32 = 4 := by rw [hx]; exact const_eq 6 5 _ ho (by rw [hp]; decide +kernel)
  have h1 : x % 16 = 0 := by rw [hx]; exact low_eq 4 _ ho (by rw [hp]; decide +kernel)
  have f0 : fld x 21 4 = d := by rw [hx]; exact fld_eq (field_eq ⟨21, 4, d⟩ 3 ho (by rw [hf]; rfl))
  have f1 : fld x 16 5 = a := by rw [hx]; exact fld_eq (field_eq ⟨16, 5, a⟩ 2 ho (by rw [hf]; rfl))
  have f2 : fld x 11 5 = b := by rw [hx]; exact fld_eq (field_eq ⟨11, 5, b⟩ 1 ho (by rw [hf]; rfl))
  have f3 : fld x 4 2 = w := by rw [hx]; exact fld_eq (field_eq ⟨4, 2, w⟩ 0 ho (by rw [hf]; rfl))
  have hm : x / 33554432 % 128 = 3 := by rw [hx]; exact const_eq 25 7 _ ho (by rw [hp]; decide +kernel)
  clear hx ho hp hf fs
  rw [hw, parse_muldiv hm]
  simp [parseMulDiv, h0, h1, f0, f1, f2, f3]

theorem divz (d : Fin 16) (a b : Fin 32) (w : Fin 4) : Statement (.divz d a b w) := by
  refine core rfl ?_
  obtain ⟨fs, hf⟩ : ∃ fs : List Field, fs = [⟨4, 2, w⟩, ⟨11, 5, b⟩, ⟨16, 5, a⟩, ⟨21, 4, d⟩] := ⟨_, rfl⟩
  have hp : places fs = [(4, 2), (11, 5), (16, 5), (21, 4)] := by rw [hf]; rfl
  have ho : ok 100663616 fs = true := sound_ok _ _ (by rw [hp]; decide +kernel)
  obtain ⟨x, hx⟩ : ∃ x, x = word 100663616 fs := ⟨_, rfl⟩
  have hw : encode (.divz d a b w) = x := by rw [hx, hf]; rfl
  have h0 : x / 64 % 32 = 5 := by rw [hx]; exact const_eq 6 5 _ ho (by rw [hp]; decide +kernel)
  have h1 : x % 16 = 0 := by rw [hx]; exact low_eq 4 _ ho (by rw [hp]; decide +kernel)
  have f0 : fld x 21 4 = d := by rw [hx]; exact fld_eq (field_eq ⟨21, 4, d⟩ 3 ho (by rw [hf]; rfl))
  have f1 : fld x 16 5 = a := by rw [hx]; exact fld_eq (field_eq ⟨16, 5, a⟩ 2 ho (by rw [hf]; rfl))
  have f2 : fld x 11 5 = b := by rw [hx]; exact fld_eq (field_eq ⟨11, 5, b⟩ 1 ho (by rw [hf]; rfl))
  have f3 : fld x 4 2 = w := by rw [hx]; exact fld_eq (field_eq ⟨4, 2, w⟩ 0 ho (by rw [hf]; rfl))
  have hm : x / 33554432 % 128 = 3 := by rw [hx]; exact const_eq 25 7 _ ho (by rw [hp]; decide +kernel)
  clear hx ho hp hf fs
  rw [hw, parse_muldiv hm]
  simp [parseMulDiv, h0, h1, f0, f1, f2, f3]

theorem rem (d : Fin 16) (a b : Fin 32) (w : Fin 4) : Statement (.rem d a b w) := by
  refine core rfl ?_
  obtain ⟨fs, hf⟩ : ∃ fs : List Field, fs = [⟨4, 2, w⟩, ⟨11, 5, b⟩, ⟨16, 5, a⟩, ⟨21, 4, d⟩] := ⟨_, rfl⟩
  have hp : places fs = [(4, 2), (11, 5), (16, 5), (21, 4)] := by rw [hf]; rfl
  have ho : ok 100663680 fs = true := sound_ok _ _ (by rw [hp]; decide +kernel)
  obtain ⟨x, hx⟩ : ∃ x, x = word 100663680 fs := ⟨_, rfl⟩
  have hw : encode (.rem d a b w) = x := by rw [hx, hf]; rfl
  have h0 : x / 64 % 32 = 6 := by rw [hx]; exact const_eq 6 5 _ ho (by rw [hp]; decide +kernel)
  have h1 : x % 16 = 0 := by rw [hx]; exact low_eq 4 _ ho (by rw [hp]; decide +kernel)
  have f0 : fld x 21 4 = d := by rw [hx]; exact fld_eq (field_eq ⟨21, 4, d⟩ 3 ho (by rw [hf]; rfl))
  have f1 : fld x 16 5 = a := by rw [hx]; exact fld_eq (field_eq ⟨16, 5, a⟩ 2 ho (by rw [hf]; rfl))
  have f2 : fld x 11 5 = b := by rw [hx]; exact fld_eq (field_eq ⟨11, 5, b⟩ 1 ho (by rw [hf]; rfl))
  have f3 : fld x 4 2 = w := by rw [hx]; exact fld_eq (field_eq ⟨4, 2, w⟩ 0 ho (by rw [hf]; rfl))
  have hm : x / 33554432 % 128 = 3 := by rw [hx]; exact const_eq 25 7 _ ho (by rw [hp]; decide +kernel)
  clear hx ho hp hf fs
  rw [hw, parse_muldiv hm]
  simp [parseMulDiv, h0, h1, f0, f1, f2, f3]

theorem remz (d : Fin 16) (a b : Fin 32) (w : Fin 4) : Statement (.remz d a b w) := by
  refine core rfl ?_
  obtain ⟨fs, hf⟩ : ∃ fs : List Field, fs = [⟨4, 2, w⟩, ⟨11, 5, b⟩, ⟨16, 5, a⟩, ⟨21, 4, d⟩] := ⟨_, rfl⟩
  have hp : places fs = [(4, 2), (11, 5), (16, 5), (21, 4)] := by rw [hf]; rfl
  have ho : ok 100663744 fs = true := sound_ok _ _ (by rw [hp]; decide +kernel)
  obtain ⟨x, hx⟩ : ∃ x, x = word 100663744 fs := ⟨_, rfl⟩
  have hw : encode (.remz d a b w) = x := by rw [hx, hf]; rfl
  have h0 : x / 64 % 32 = 7 := by rw [hx]; exact const_eq 6 5 _ ho (by rw [hp]; decide +kernel)
  have h1 : x % 16 = 0 := by rw [hx]; exact low_eq 4 _ ho (by rw [hp]; decide +kernel)
  have f0 : fld x 21 4 = d := by rw [hx]; exact fld_eq (field_eq ⟨21, 4, d⟩ 3 ho (by rw [hf]; rfl))
  have f1 : fld x 16 5 = a := by rw [hx]; exact fld_eq (field_eq ⟨16, 5, a⟩ 2 ho (by rw [hf]; rfl))
  have f2 : fld x 11 5 = b := by rw [hx]; exact fld_eq (field_eq ⟨11, 5, b⟩ 1 ho (by rw [hf]; rfl))
  have f3 : fld x 4 2 = w := by rw [hx]; exact fld_eq (field_eq ⟨4, 2, w⟩ 0 ho (by rw [hf]; rfl))
  have hm : x / 33554432 % 128 = 3 := by rw [hx]; exact const_eq 25 7 _ ho (by rw [hp]; decide +kernel)
  clear hx ho hp hf fs
  rw [hw, parse_muldiv hm]
  simp [parseMulDiv, h0, h1, f0, f1, f2, f3]

theorem seq (d : Fin 16) (a b : Fin 32) (w : Fin 4) : Statement (.seq d a b w) := by
  refine core rfl ?_
  obtain ⟨fs, hf⟩ : ∃ fs : List Field, fs = [⟨4, 2, w⟩, ⟨11, 5, b⟩, ⟨16, 5, a⟩, ⟨21, 4, d⟩] := ⟨_, rfl⟩
  have hp : places fs = [(4, 2), (11, 5), (16, 5), (21, 4)] := by rw [hf]; rfl
  have ho : ok 134217728 fs = true := sound_ok _ _ (by rw [hp]; decide +kernel)
  obtain ⟨x, hx⟩ : ∃ x, x = word 134217728 fs := ⟨_, rfl⟩
  have hw : encode (.seq d a b w) = x := by rw [hx, hf]; rfl
  have h0 : x % 16 = 0 := by rw [hx]; exact low_eq 4 _ ho (by rw [hp]; decide +kernel)
  have h1 : x / 64 % 32 = 0 := by rw [hx]; exact const_eq 6 5 _ ho (by rw [hp]; decide +kernel)
  have f0 : fld x 21 4 = d := by rw [hx]; exact fld_eq (field_eq ⟨21, 4, d⟩ 3 ho (by rw [hf]; rfl))
  have f1 : fld x 16 5 = a := by rw [hx]; exact fld_eq (field_eq ⟨16, 5, a⟩ 2 ho (by rw [hf]; rfl))
  have f2 : fld x 11 5 = b := by rw [hx]; exact fld_eq (field_eq ⟨11, 5, b⟩ 1 ho (by rw [hf]; rfl))
  have f3 : fld x 4 2 = w := by rw [hx]; exact fld_eq (field_eq ⟨4, 2, w⟩ 0 ho (by rw [hf]; rfl))
  have hm : x / 33554432 % 128 = 4 := by rw [hx]; exact const_eq 25 7 _ ho (by rw [hp]; decide +kernel)
  clear hx ho hp hf fs
  rw [hw, parse_cmp hm]
  simp [parseCmp, h0, h1, f0, f1, f2, f3]

theorem sne (d : Fin 16) (a b : Fin 32) (w : Fin 4) : Statement (.sne d a b w) := by
  refine core rfl ?_
  obtain ⟨fs, hf⟩ : ∃ fs : List Field, fs = [⟨4, 2, w⟩, ⟨11, 5, b⟩, ⟨16, 5, a⟩, ⟨21, 4, d⟩] := ⟨_, rfl⟩
  have hp : places fs = [(4, 2), (11, 5), (16, 5), (21, 4)] := by rw [hf]; rfl
  have ho : ok 134217792 fs = true := sound_ok _ _ (by rw [hp]; decide +kernel)
  obtain ⟨x, hx⟩ : ∃ x, x = word 134217792 fs := ⟨_, rfl⟩
  have hw : encode (.sne d a b w) = x := by rw [hx, hf]; rfl
  have h0 : x / 64 % 32 = 1 := by rw [hx]; exact const_eq 6 5 _ ho (by rw [hp]; decide +kernel)
  have h1 : x % 16 = 0 := by rw [hx]; exact low_eq 4 _ ho (by rw [hp]; decide +kernel)
  have f0 : fld x 21 4 = d := by rw [hx]; exact fld_eq (field_eq ⟨21, 4, d⟩ 3 ho (by rw [hf]; rfl))
  have f1 : fld x 16 5 = a := by rw [hx]; exact fld_eq (field_eq ⟨16, 5, a⟩ 2 ho (by rw [hf]; rfl))
  have f2 : fld x 11 5 = b := by rw [hx]; exact fld_eq (field_eq ⟨11, 5, b⟩ 1 ho (by rw [hf]; rfl))
  have f3 : fld x 4 2 = w := by rw [hx]; exact fld_eq (field_eq ⟨4, 2, w⟩ 0 ho (by rw [hf]; rfl))
  have hm : x / 33554432 % 128 = 4 := by rw [hx]; exact const_eq 25 7 _ ho (by rw [hp]; decide +kernel)
  clear hx ho hp hf fs
  rw [hw, parse_cmp hm]
  simp [parseCmp, h0, h1, f0, f1, f2, f3]

theorem slt (d : Fin 16) (a b : Fin 32) (w : Fin 4) : Statement (.slt d a b w) := by
  refine core rfl ?_
  obtain ⟨fs, hf⟩ : ∃ fs : List Field, fs = [⟨4, 2, w⟩, ⟨11, 5, b⟩, ⟨16, 5, a⟩, ⟨21, 4, d⟩] := ⟨_, rfl⟩
  have hp : places fs = [(4, 2), (11, 5), (16, 5), (21, 4)] := by rw [hf]; rfl
  have ho : ok 134217856 fs = true := sound_ok _ _ (by rw [hp]; decide +kernel)
  obtain ⟨x, hx⟩ : ∃ x, x = word 134217856 fs := ⟨_, rfl⟩
  have hw : encode (.slt d a b w) = x := by rw [hx, hf]; rfl
  have h0 : x / 64 % 32 = 2 := by rw [hx]; exact const_eq 6 5 _ ho (by rw [hp]; decide +kernel)
  have h1 : x % 16 = 0 := by rw [hx]; exact low_eq 4 _ ho (by rw [hp]; decide +kernel)
  have f0 : fld x 21 4 = d := by rw [hx]; exact fld_eq (field_eq ⟨21, 4, d⟩ 3 ho (by rw [hf]; rfl))
  have f1 : fld x 16 5 = a := by rw [hx]; exact fld_eq (field_eq ⟨16, 5, a⟩ 2 ho (by rw [hf]; rfl))
  have f2 : fld x 11 5 = b := by rw [hx]; exact fld_eq (field_eq ⟨11, 5, b⟩ 1 ho (by rw [hf]; rfl))
  have f3 : fld x 4 2 = w := by rw [hx]; exact fld_eq (field_eq ⟨4, 2, w⟩ 0 ho (by rw [hf]; rfl))
  have hm : x / 33554432 % 128 = 4 := by rw [hx]; exact const_eq 25 7 _ ho (by rw [hp]; decide +kernel)
  clear hx ho hp hf fs
  rw [hw, parse_cmp hm]
  simp [parseCmp, h0, h1, f0, f1, f2, f3]

theorem sge (d : Fin 16) (a b : Fin 32) (w : Fin 4) : Statement (.sge d a b w) := by
  refine core rfl ?_
  obtain ⟨fs, hf⟩ : ∃ fs : List Field, fs = [⟨4, 2, w⟩, ⟨11, 5, b⟩, ⟨16, 5, a⟩, ⟨21, 4, d⟩] := ⟨_, rfl⟩
  have hp : places fs = [(4, 2), (11, 5), (16, 5), (21, 4)] := by rw [hf]; rfl
  have ho : ok 134217920 fs = true := sound_ok _ _ (by rw [hp]; decide +kernel)
  obtain ⟨x, hx⟩ : ∃ x, x = word 134217920 fs := ⟨_, rfl⟩
  have hw : encode (.sge d a b w) = x := by rw [hx, hf]; rfl
  have h0 : x / 64 % 32 = 3 := by rw [hx]; exact const_eq 6 5 _ ho (by rw [hp]; decide +kernel)
  have h1 : x % 16 = 0 := by rw [hx]; exact low_eq 4 _ ho (by rw [hp]; decide +kernel)
  have f0 : fld x 21 4 = d := by rw [hx]; exact fld_eq (field_eq ⟨21, 4, d⟩ 3 ho (by rw [hf]; rfl))
  have f1 : fld x 16 5 = a := by rw [hx]; exact fld_eq (field_eq ⟨16, 5, a⟩ 2 ho (by rw [hf]; rfl))
  have f2 : fld x 11 5 = b := by rw [hx]; exact fld_eq (field_eq ⟨11, 5, b⟩ 1 ho (by rw [hf]; rfl))
  have f3 : fld x 4 2 = w := by rw [hx]; exact fld_eq (field_eq ⟨4, 2, w⟩ 0 ho (by rw [hf]; rfl))
  have hm : x / 33554432 % 128 = 4 := by rw [hx]; exact const_eq 25 7 _ ho (by rw [hp]; decide +kernel)
  clear hx ho hp hf fs
  rw [hw, parse_cmp hm]
  simp [parseCmp, h0, h1, f0, f1, f2, f3]

theorem slo (d : Fin 16) (a b : Fin 32) (w : Fin 4) : Statement (.slo d a b w) := by
  refine core rfl ?_
  obtain ⟨fs, hf⟩ : ∃ fs : List Field, fs = [⟨4, 2, w⟩, ⟨11, 5, b⟩, ⟨16, 5, a⟩, ⟨21, 4, d⟩] := ⟨_, rfl⟩
  have hp : places fs = [(4, 2), (11, 5), (16, 5), (21, 4)] := by rw [hf]; rfl
  have ho : ok 134217984 fs = true := sound_ok _ _ (by rw [hp]; decide +kernel)
  obtain ⟨x, hx⟩ : ∃ x, x = word 134217984 fs := ⟨_, rfl⟩
  have hw : encode (.slo d a b w) = x := by rw [hx, hf]; rfl
  have h0 : x / 64 % 32 = 4 := by rw [hx]; exact const_eq 6 5 _ ho (by rw [hp]; decide +kernel)
  have h1 : x % 16 = 0 := by rw [hx]; exact low_eq 4 _ ho (by rw [hp]; decide +kernel)
  have f0 : fld x 21 4 = d := by rw [hx]; exact fld_eq (field_eq ⟨21, 4, d⟩ 3 ho (by rw [hf]; rfl))
  have f1 : fld x 16 5 = a := by rw [hx]; exact fld_eq (field_eq ⟨16, 5, a⟩ 2 ho (by rw [hf]; rfl))
  have f2 : fld x 11 5 = b := by rw [hx]; exact fld_eq (field_eq ⟨11, 5, b⟩ 1 ho (by rw [hf]; rfl))
  have f3 : fld x 4 2 = w := by rw [hx]; exact fld_eq (field_eq ⟨4, 2, w⟩ 0 ho (by rw [hf]; rfl))
  have hm : x / 33554432 % 128 = 4 := by rw [hx]; exact const_eq 25 7 _ ho (by rw [hp]; decide +kernel)
  clear hx ho hp hf fs
  rw [hw, parse_cmp hm]
  simp [parseCmp, h0, h1, f0, f1, f2, f3]

theorem shs (d : Fin 16) (a b : Fin 32) (w : Fin 4) : Statement (.shs d a b w) := by
  refine core rfl ?_
  obtain ⟨fs, hf⟩ : ∃ fs : List Field, fs = [⟨4, 2, w⟩, ⟨11, 5, b⟩, ⟨16, 5, a⟩, ⟨21, 4, d⟩] := ⟨_, rfl⟩
  have hp : places fs = [(4, 2), (11, 5), (16, 5), (21, 4)] := by rw [hf]; rfl
  have ho : ok 134218048 fs = true := sound_ok _ _ (by rw [hp]; decide +kernel)
  obtain ⟨x, hx⟩ : ∃ x, x = word 134218048 fs := ⟨_, rfl⟩
  have hw : encode (.shs d a b w) = x := by rw [hx, hf]; rfl
  have h0 : x / 64 % 32 = 5 := by rw [hx]; exact const_eq 6 5 _ ho (by rw [hp]; decide +kernel)
  have h1 : x % 16 = 0 := by rw [hx]; exact low_eq 4 _ ho (by rw [hp]; decide +kernel)
  have f0 : fld x 21 4 = d := by rw [hx]; exact fld_eq (field_eq ⟨21, 4, d⟩ 3 ho (by rw [hf]; rfl))
  have f1 : fld x 16 5 = a := by rw [hx]; exact fld_eq (field_eq ⟨16, 5, a⟩ 2 ho (by rw [hf]; rfl))
  have f2 : fld x 11 5 = b := by rw [hx]; exact fld_eq (field_eq ⟨11, 5, b⟩ 1 ho (by rw [hf]; rfl))
  have f3 : fld x 4 2 = w := by rw [hx]; exact fld_eq (field_eq ⟨4, 2, w⟩ 0 ho (by rw [hf]; rfl))
  have hm : x / 33554432 % 128 = 4 := by rw [hx]; exact const_eq 25 7 _ ho (by rw [hp]; decide +kernel)
  clear hx ho hp hf fs
  rw [hw, parse_cmp hm]
  simp [parseCmp, h0, h1, f0, f1, f2, f3]

theorem sel (d : Fin 16) (a b : Fin 32) (w : Fin 4) (c : Fin 16) : Statement (.sel d a b w c) := by
  refine core rfl ?_
  obtain ⟨fs, hf⟩ : ∃ fs : List Field, fs = [⟨0, 4, c⟩, ⟨4, 2, w⟩, ⟨11, 5, b⟩, ⟨16, 5, a⟩, ⟨21, 4, d⟩] := ⟨_, rfl⟩
  have hp : places fs = [(0, 4), (4, 2), (11, 5), (16, 5), (21, 4)] := by rw [hf]; rfl
  have ho : ok 134218112 fs = true := sound_ok _ _ (by rw [hp]; decide +kernel)
  obtain ⟨x, hx⟩ : ∃ x, x = word 134218112 fs := ⟨_, rfl⟩
  have hw : encode (.sel d a b w c) = x := by rw [hx, hf, word_low]; rfl
  have h0 : x / 64 % 32 = 6 := by rw [hx]; exact const_eq 6 5 _ ho (by rw [hp]; decide +kernel)
  have f0 : fld x 21 4 = d := by rw [hx]; exact fld_eq (field_eq ⟨21, 4, d⟩ 4 ho (by rw [hf]; rfl))
  have f1 : fld x 16 5 = a := by rw [hx]; exact fld_eq (field_eq ⟨16, 5, a⟩ 3 ho (by rw [hf]; rfl))
  have f2 : fld x 11 5 = b := by rw [hx]; exact fld_eq (field_eq ⟨11, 5, b⟩ 2 ho (by rw [hf]; rfl))
  have f3 : fld x 4 2 = w := by rw [hx]; exact fld_eq (field_eq ⟨4, 2, w⟩ 1 ho (by rw [hf]; rfl))
  have f4 : fld x 0 4 = c := by rw [hx]; exact fld_eq (field_eq ⟨0, 4, c⟩ 0 ho (by rw [hf]; rfl))
  have hm : x / 33554432 % 128 = 4 := by rw [hx]; exact const_eq 25 7 _ ho (by rw [hp]; decide +kernel)
  clear hx ho hp hf fs
  rw [hw, parse_cmp hm]
  simp [parseCmp, h0, f0, f1, f2, f3, f4]

theorem bfx (d : Fin 16) (a b : Fin 32) (w : Fin 4) : Statement (.bfx d a b w) := by
  refine core rfl ?_
  obtain ⟨fs, hf⟩ : ∃ fs : List Field, fs = [⟨4, 2, w⟩, ⟨11, 5, b⟩, ⟨16, 5, a⟩, ⟨21, 4, d⟩] := ⟨_, rfl⟩
  have hp : places fs = [(4, 2), (11, 5), (16, 5), (21, 4)] := by rw [hf]; rfl
  have ho : ok 167772160 fs = true := sound_ok _ _ (by rw [hp]; decide +kernel)
  obtain ⟨x, hx⟩ : ∃ x, x = word 167772160 fs := ⟨_, rfl⟩
  have hw : encode (.bfx d a b w) = x := by rw [hx, hf]; rfl
  have h0 : x % 16 = 0 := by rw [hx]; exact low_eq 4 _ ho (by rw [hp]; decide +kernel)
  have h1 : x / 64 % 32 = 0 := by rw [hx]; exact const_eq 6 5 _ ho (by rw [hp]; decide +kernel)
  have f0 : fld x 21 4 = d := by rw [hx]; exact fld_eq (field_eq ⟨21, 4, d⟩ 3 ho (by rw [hf]; rfl))
  have f1 : fld x 16 5 = a := by rw [hx]; exact fld_eq (field_eq ⟨16, 5, a⟩ 2 ho (by rw [hf]; rfl))
  have f2 : fld x 11 5 = b := by rw [hx]; exact fld_eq (field_eq ⟨11, 5, b⟩ 1 ho (by rw [hf]; rfl))
  have f3 : fld x 4 2 = w := by rw [hx]; exact fld_eq (field_eq ⟨4, 2, w⟩ 0 ho (by rw [hf]; rfl))
  have hm : x / 33554432 % 128 = 5 := by rw [hx]; exact const_eq 25 7 _ ho (by rw [hp]; decide +kernel)
  clear hx ho hp hf fs
  rw [hw, parse_bitf hm]
  simp [parseBitf, h0, h1, f0, f1, f2, f3]

theorem bfxs (d : Fin 16) (a b : Fin 32) (w : Fin 4) : Statement (.bfxs d a b w) := by
  refine core rfl ?_
  obtain ⟨fs, hf⟩ : ∃ fs : List Field, fs = [⟨4, 2, w⟩, ⟨11, 5, b⟩, ⟨16, 5, a⟩, ⟨21, 4, d⟩] := ⟨_, rfl⟩
  have hp : places fs = [(4, 2), (11, 5), (16, 5), (21, 4)] := by rw [hf]; rfl
  have ho : ok 167772224 fs = true := sound_ok _ _ (by rw [hp]; decide +kernel)
  obtain ⟨x, hx⟩ : ∃ x, x = word 167772224 fs := ⟨_, rfl⟩
  have hw : encode (.bfxs d a b w) = x := by rw [hx, hf]; rfl
  have h0 : x / 64 % 32 = 1 := by rw [hx]; exact const_eq 6 5 _ ho (by rw [hp]; decide +kernel)
  have h1 : x % 16 = 0 := by rw [hx]; exact low_eq 4 _ ho (by rw [hp]; decide +kernel)
  have f0 : fld x 21 4 = d := by rw [hx]; exact fld_eq (field_eq ⟨21, 4, d⟩ 3 ho (by rw [hf]; rfl))
  have f1 : fld x 16 5 = a := by rw [hx]; exact fld_eq (field_eq ⟨16, 5, a⟩ 2 ho (by rw [hf]; rfl))
  have f2 : fld x 11 5 = b := by rw [hx]; exact fld_eq (field_eq ⟨11, 5, b⟩ 1 ho (by rw [hf]; rfl))
  have f3 : fld x 4 2 = w := by rw [hx]; exact fld_eq (field_eq ⟨4, 2, w⟩ 0 ho (by rw [hf]; rfl))
  have hm : x / 33554432 % 128 = 5 := by rw [hx]; exact const_eq 25 7 _ ho (by rw [hp]; decide +kernel)
  clear hx ho hp hf fs
  rw [hw, parse_bitf hm]
  simp [parseBitf, h0, h1, f0, f1, f2, f3]

theorem bfi (d : Fin 16) (a b : Fin 32) (w : Fin 4) : Statement (.bfi d a b w) := by
  refine core rfl ?_
  obtain ⟨fs, hf⟩ : ∃ fs : List Field, fs = [⟨4, 2, w⟩, ⟨11, 5, b⟩, ⟨16, 5, a⟩, ⟨21, 4, d⟩] := ⟨_, rfl⟩
  have hp : places fs = [(4, 2), (11, 5), (16, 5), (21, 4)] := by rw [hf]; rfl
  have ho : ok 167772288 fs = true := sound_ok _ _ (by rw [hp]; decide +kernel)
  obtain ⟨x, hx⟩ : ∃ x, x = word 167772288 fs := ⟨_, rfl⟩
  have hw : encode (.bfi d a b w) = x := by rw [hx, hf]; rfl
  have h0 : x / 64 % 32 = 2 := by rw [hx]; exact const_eq 6 5 _ ho (by rw [hp]; decide +kernel)
  have h1 : x % 16 = 0 := by rw [hx]; exact low_eq 4 _ ho (by rw [hp]; decide +kernel)
  have f0 : fld x 21 4 = d := by rw [hx]; exact fld_eq (field_eq ⟨21, 4, d⟩ 3 ho (by rw [hf]; rfl))
  have f1 : fld x 16 5 = a := by rw [hx]; exact fld_eq (field_eq ⟨16, 5, a⟩ 2 ho (by rw [hf]; rfl))
  have f2 : fld x 11 5 = b := by rw [hx]; exact fld_eq (field_eq ⟨11, 5, b⟩ 1 ho (by rw [hf]; rfl))
  have f3 : fld x 4 2 = w := by rw [hx]; exact fld_eq (field_eq ⟨4, 2, w⟩ 0 ho (by rw [hf]; rfl))
  have hm : x / 33554432 % 128 = 5 := by rw [hx]; exact const_eq 25 7 _ ho (by rw [hp]; decide +kernel)
  clear hx ho hp hf fs
  rw [hw, parse_bitf hm]
  simp [parseBitf, h0, h1, f0, f1, f2, f3]

theorem addi (d : Fin 16) (a : Fin 32) (i : Fin 65536) : Statement (.addi d a i) := by
  refine core rfl ?_
  obtain ⟨fs, hf⟩ : ∃ fs : List Field, fs = [⟨0, 16, i⟩, ⟨16, 5, a⟩, ⟨21, 4, d⟩] := ⟨_, rfl⟩
  have hp : places fs = [(0, 16), (16, 5), (21, 4)] := by rw [hf]; rfl
  have ho : ok 268435456 fs = true := sound_ok _ _ (by rw [hp]; decide +kernel)
  obtain ⟨x, hx⟩ : ∃ x, x = word 268435456 fs := ⟨_, rfl⟩
  have hw : encode (.addi d a i) = x := by rw [hx, hf, word_low]; rfl
  have f0 : fld x 21 4 = d := by rw [hx]; exact fld_eq (field_eq ⟨21, 4, d⟩ 2 ho (by rw [hf]; rfl))
  have f1 : fld x 16 5 = a := by rw [hx]; exact fld_eq (field_eq ⟨16, 5, a⟩ 1 ho (by rw [hf]; rfl))
  have f2 : fld x 0 16 = i := by rw [hx]; exact fld_eq (field_eq ⟨0, 16, i⟩ 0 ho (by rw [hf]; rfl))
  have hm : x / 33554432 % 128 = 8 := by rw [hx]; exact const_eq 25 7 _ ho (by rw [hp]; decide +kernel)
  clear hx ho hp hf fs
  rw [hw, parse_addi hm]
  simp [parseAddi, f0, f1, f2]

theorem andi (d : Fin 16) (a : Fin 32) (i : Fin 65536) : Statement (.andi d a i) := by
  refine core rfl ?_
  obtain ⟨fs, hf⟩ : ∃ fs : List Field, fs = [⟨0, 16, i⟩, ⟨16, 5, a⟩, ⟨21, 4, d⟩] := ⟨_, rfl⟩
  have hp : places fs = [(0, 16), (16, 5), (21, 4)] := by rw [hf]; rfl
  have ho : ok 301989888 fs = true := sound_ok _ _ (by rw [hp]; decide +kernel)
  obtain ⟨x, hx⟩ : ∃ x, x = word 301989888 fs := ⟨_, rfl⟩
  have hw : encode (.andi d a i) = x := by rw [hx, hf, word_low]; rfl
  have f0 : fld x 21 4 = d := by rw [hx]; exact fld_eq (field_eq ⟨21, 4, d⟩ 2 ho (by rw [hf]; rfl))
  have f1 : fld x 16 5 = a := by rw [hx]; exact fld_eq (field_eq ⟨16, 5, a⟩ 1 ho (by rw [hf]; rfl))
  have f2 : fld x 0 16 = i := by rw [hx]; exact fld_eq (field_eq ⟨0, 16, i⟩ 0 ho (by rw [hf]; rfl))
  have hm : x / 33554432 % 128 = 9 := by rw [hx]; exact const_eq 25 7 _ ho (by rw [hp]; decide +kernel)
  clear hx ho hp hf fs
  rw [hw, parse_andi hm]
  simp [parseAndi, f0, f1, f2]

theorem ori (d : Fin 16) (a : Fin 32) (i : Fin 65536) : Statement (.ori d a i) := by
  refine core rfl ?_
  obtain ⟨fs, hf⟩ : ∃ fs : List Field, fs = [⟨0, 16, i⟩, ⟨16, 5, a⟩, ⟨21, 4, d⟩] := ⟨_, rfl⟩
  have hp : places fs = [(0, 16), (16, 5), (21, 4)] := by rw [hf]; rfl
  have ho : ok 335544320 fs = true := sound_ok _ _ (by rw [hp]; decide +kernel)
  obtain ⟨x, hx⟩ : ∃ x, x = word 335544320 fs := ⟨_, rfl⟩
  have hw : encode (.ori d a i) = x := by rw [hx, hf, word_low]; rfl
  have f0 : fld x 21 4 = d := by rw [hx]; exact fld_eq (field_eq ⟨21, 4, d⟩ 2 ho (by rw [hf]; rfl))
  have f1 : fld x 16 5 = a := by rw [hx]; exact fld_eq (field_eq ⟨16, 5, a⟩ 1 ho (by rw [hf]; rfl))
  have f2 : fld x 0 16 = i := by rw [hx]; exact fld_eq (field_eq ⟨0, 16, i⟩ 0 ho (by rw [hf]; rfl))
  have hm : x / 33554432 % 128 = 10 := by rw [hx]; exact const_eq 25 7 _ ho (by rw [hp]; decide +kernel)
  clear hx ho hp hf fs
  rw [hw, parse_ori hm]
  simp [parseOri, f0, f1, f2]

theorem xori (d : Fin 16) (a : Fin 32) (i : Fin 65536) : Statement (.xori d a i) := by
  refine core rfl ?_
  obtain ⟨fs, hf⟩ : ∃ fs : List Field, fs = [⟨0, 16, i⟩, ⟨16, 5, a⟩, ⟨21, 4, d⟩] := ⟨_, rfl⟩
  have hp : places fs = [(0, 16), (16, 5), (21, 4)] := by rw [hf]; rfl
  have ho : ok 369098752 fs = true := sound_ok _ _ (by rw [hp]; decide +kernel)
  obtain ⟨x, hx⟩ : ∃ x, x = word 369098752 fs := ⟨_, rfl⟩
  have hw : encode (.xori d a i) = x := by rw [hx, hf, word_low]; rfl
  have f0 : fld x 21 4 = d := by rw [hx]; exact fld_eq (field_eq ⟨21, 4, d⟩ 2 ho (by rw [hf]; rfl))
  have f1 : fld x 16 5 = a := by rw [hx]; exact fld_eq (field_eq ⟨16, 5, a⟩ 1 ho (by rw [hf]; rfl))
  have f2 : fld x 0 16 = i := by rw [hx]; exact fld_eq (field_eq ⟨0, 16, i⟩ 0 ho (by rw [hf]; rfl))
  have hm : x / 33554432 % 128 = 11 := by rw [hx]; exact const_eq 25 7 _ ho (by rw [hp]; decide +kernel)
  clear hx ho hp hf fs
  rw [hw, parse_xori hm]
  simp [parseXori, f0, f1, f2]

theorem slli (d : Fin 16) (a : Fin 32) (w : Fin 2) (s : Fin 64) : Statement (.slli d a w s) := by
  refine core rfl ?_
  obtain ⟨fs, hf⟩ : ∃ fs : List Field, fs = [⟨0, 6, s⟩, ⟨8, 1, w⟩, ⟨16, 5, a⟩, ⟨21, 4, d⟩] := ⟨_, rfl⟩
  have hp : places fs = [(0, 6), (8, 1), (16, 5), (21, 4)] := by rw [hf]; rfl
  have ho : ok 402653184 fs = true := sound_ok _ _ (by rw [hp]; decide +kernel)
  obtain ⟨x, hx⟩ : ∃ x, x = word 402653184 fs := ⟨_, rfl⟩
  have hw : encode (.slli d a w s) = x := by rw [hx, hf, word_low]; rfl
  have h0 : x / 64 % 4 = 0 := by rw [hx]; exact const_eq 6 2 _ ho (by rw [hp]; decide +kernel)
  have h1 : x / 512 % 128 = 0 := by rw [hx]; exact const_eq 9 7 _ ho (by rw [hp]; decide +kernel)
  have f0 : fld x 21 4 = d := by rw [hx]; exact fld_eq (field_eq ⟨21, 4, d⟩ 3 ho (by rw [hf]; rfl))
  have f1 : fld x 16 5 = a := by rw [hx]; exact fld_eq (field_eq ⟨16, 5, a⟩ 2 ho (by rw [hf]; rfl))
  have f2 : fld x 8 1 = w := by rw [hx]; exact fld_eq (field_eq ⟨8, 1, w⟩ 1 ho (by rw [hf]; rfl))
  have f3 : fld x 0 6 = s := by rw [hx]; exact fld_eq (field_eq ⟨0, 6, s⟩ 0 ho (by rw [hf]; rfl))
  have hm : x / 33554432 % 128 = 12 := by rw [hx]; exact const_eq 25 7 _ ho (by rw [hp]; decide +kernel)
  clear hx ho hp hf fs
  rw [hw, parse_shi hm]
  simp [parseShi, h0, h1, f0, f1, f2, f3]

theorem srli (d : Fin 16) (a : Fin 32) (w : Fin 2) (s : Fin 64) : Statement (.srli d a w s) := by
  refine core rfl ?_
  obtain ⟨fs, hf⟩ : ∃ fs : List Field, fs = [⟨0, 6, s⟩, ⟨8, 1, w⟩, ⟨16, 5, a⟩, ⟨21, 4, d⟩] := ⟨_, rfl⟩
  have hp : places fs = [(0, 6), (8, 1), (16, 5), (21, 4)] := by rw [hf]; rfl
  have ho : ok 402653248 fs = true := sound_ok _ _ (by rw [hp]; decide +kernel)
  obtain ⟨x, hx⟩ : ∃ x, x = word 402653248 fs := ⟨_, rfl⟩
  have hw : encode (.srli d a w s) = x := by rw [hx, hf, word_low]; rfl
  have h0 : x / 64 % 4 = 1 := by rw [hx]; exact const_eq 6 2 _ ho (by rw [hp]; decide +kernel)
  have h1 : x / 512 % 128 = 0 := by rw [hx]; exact const_eq 9 7 _ ho (by rw [hp]; decide +kernel)
  have f0 : fld x 21 4 = d := by rw [hx]; exact fld_eq (field_eq ⟨21, 4, d⟩ 3 ho (by rw [hf]; rfl))
  have f1 : fld x 16 5 = a := by rw [hx]; exact fld_eq (field_eq ⟨16, 5, a⟩ 2 ho (by rw [hf]; rfl))
  have f2 : fld x 8 1 = w := by rw [hx]; exact fld_eq (field_eq ⟨8, 1, w⟩ 1 ho (by rw [hf]; rfl))
  have f3 : fld x 0 6 = s := by rw [hx]; exact fld_eq (field_eq ⟨0, 6, s⟩ 0 ho (by rw [hf]; rfl))
  have hm : x / 33554432 % 128 = 12 := by rw [hx]; exact const_eq 25 7 _ ho (by rw [hp]; decide +kernel)
  clear hx ho hp hf fs
  rw [hw, parse_shi hm]
  simp [parseShi, h0, h1, f0, f1, f2, f3]

theorem srai (d : Fin 16) (a : Fin 32) (w : Fin 2) (s : Fin 64) : Statement (.srai d a w s) := by
  refine core rfl ?_
  obtain ⟨fs, hf⟩ : ∃ fs : List Field, fs = [⟨0, 6, s⟩, ⟨8, 1, w⟩, ⟨16, 5, a⟩, ⟨21, 4, d⟩] := ⟨_, rfl⟩
  have hp : places fs = [(0, 6), (8, 1), (16, 5), (21, 4)] := by rw [hf]; rfl
  have ho : ok 402653312 fs = true := sound_ok _ _ (by rw [hp]; decide +kernel)
  obtain ⟨x, hx⟩ : ∃ x, x = word 402653312 fs := ⟨_, rfl⟩
  have hw : encode (.srai d a w s) = x := by rw [hx, hf, word_low]; rfl
  have h0 : x / 64 % 4 = 2 := by rw [hx]; exact const_eq 6 2 _ ho (by rw [hp]; decide +kernel)
  have h1 : x / 512 % 128 = 0 := by rw [hx]; exact const_eq 9 7 _ ho (by rw [hp]; decide +kernel)
  have f0 : fld x 21 4 = d := by rw [hx]; exact fld_eq (field_eq ⟨21, 4, d⟩ 3 ho (by rw [hf]; rfl))
  have f1 : fld x 16 5 = a := by rw [hx]; exact fld_eq (field_eq ⟨16, 5, a⟩ 2 ho (by rw [hf]; rfl))
  have f2 : fld x 8 1 = w := by rw [hx]; exact fld_eq (field_eq ⟨8, 1, w⟩ 1 ho (by rw [hf]; rfl))
  have f3 : fld x 0 6 = s := by rw [hx]; exact fld_eq (field_eq ⟨0, 6, s⟩ 0 ho (by rw [hf]; rfl))
  have hm : x / 33554432 % 128 = 12 := by rw [hx]; exact const_eq 25 7 _ ho (by rw [hp]; decide +kernel)
  clear hx ho hp hf fs
  rw [hw, parse_shi hm]
  simp [parseShi, h0, h1, f0, f1, f2, f3]

theorem roli (d : Fin 16) (a : Fin 32) (w : Fin 2) (s : Fin 64) : Statement (.roli d a w s) := by
  refine core rfl ?_
  obtain ⟨fs, hf⟩ : ∃ fs : List Field, fs = [⟨0, 6, s⟩, ⟨8, 1, w⟩, ⟨16, 5, a⟩, ⟨21, 4, d⟩] := ⟨_, rfl⟩
  have hp : places fs = [(0, 6), (8, 1), (16, 5), (21, 4)] := by rw [hf]; rfl
  have ho : ok 402653376 fs = true := sound_ok _ _ (by rw [hp]; decide +kernel)
  obtain ⟨x, hx⟩ : ∃ x, x = word 402653376 fs := ⟨_, rfl⟩
  have hw : encode (.roli d a w s) = x := by rw [hx, hf, word_low]; rfl
  have h0 : x / 64 % 4 = 3 := by rw [hx]; exact const_eq 6 2 _ ho (by rw [hp]; decide +kernel)
  have h1 : x / 512 % 128 = 0 := by rw [hx]; exact const_eq 9 7 _ ho (by rw [hp]; decide +kernel)
  have f0 : fld x 21 4 = d := by rw [hx]; exact fld_eq (field_eq ⟨21, 4, d⟩ 3 ho (by rw [hf]; rfl))
  have f1 : fld x 16 5 = a := by rw [hx]; exact fld_eq (field_eq ⟨16, 5, a⟩ 2 ho (by rw [hf]; rfl))
  have f2 : fld x 8 1 = w := by rw [hx]; exact fld_eq (field_eq ⟨8, 1, w⟩ 1 ho (by rw [hf]; rfl))
  have f3 : fld x 0 6 = s := by rw [hx]; exact fld_eq (field_eq ⟨0, 6, s⟩ 0 ho (by rw [hf]; rfl))
  have hm : x / 33554432 % 128 = 12 := by rw [hx]; exact const_eq 25 7 _ ho (by rw [hp]; decide +kernel)
  clear hx ho hp hf fs
  rw [hw, parse_shi hm]
  simp [parseShi, h0, h1, f0, f1, f2, f3]

theorem cmpi (d : Fin 16) (a : Fin 32) (c : Fin 8) (i : Fin 8192) : Statement (.cmpi d a c i) := by
  refine core rfl ?_
  obtain ⟨fs, hf⟩ : ∃ fs : List Field, fs = [⟨0, 13, i⟩, ⟨13, 3, c⟩, ⟨16, 5, a⟩, ⟨21, 4, d⟩] := ⟨_, rfl⟩
  have hp : places fs = [(0, 13), (13, 3), (16, 5), (21, 4)] := by rw [hf]; rfl
  have ho : ok 436207616 fs = true := sound_ok _ _ (by rw [hp]; decide +kernel)
  obtain ⟨x, hx⟩ : ∃ x, x = word 436207616 fs := ⟨_, rfl⟩
  have hw : encode (.cmpi d a c i) = x := by rw [hx, hf, word_low]; rfl
  have f0 : fld x 21 4 = d := by rw [hx]; exact fld_eq (field_eq ⟨21, 4, d⟩ 3 ho (by rw [hf]; rfl))
  have f1 : fld x 16 5 = a := by rw [hx]; exact fld_eq (field_eq ⟨16, 5, a⟩ 2 ho (by rw [hf]; rfl))
  have f2 : fld x 13 3 = c := by rw [hx]; exact fld_eq (field_eq ⟨13, 3, c⟩ 1 ho (by rw [hf]; rfl))
  have f3 : fld x 0 13 = i := by rw [hx]; exact fld_eq (field_eq ⟨0, 13, i⟩ 0 ho (by rw [hf]; rfl))
  have hm : x / 33554432 % 128 = 13 := by rw [hx]; exact const_eq 25 7 _ ho (by rw [hp]; decide +kernel)
  clear hx ho hp hf fs
  rw [hw, parse_cmpi hm]
  simp [parseCmpi, f0, f1, f2, f3]

theorem li (d : Fin 16) (i : Fin 65536) : Statement (.li d i) := by
  refine core rfl ?_
  obtain ⟨fs, hf⟩ : ∃ fs : List Field, fs = [⟨0, 16, i⟩, ⟨21, 4, d⟩] := ⟨_, rfl⟩
  have hp : places fs = [(0, 16), (21, 4)] := by rw [hf]; rfl
  have ho : ok 469762048 fs = true := sound_ok _ _ (by rw [hp]; decide +kernel)
  obtain ⟨x, hx⟩ : ∃ x, x = word 469762048 fs := ⟨_, rfl⟩
  have hw : encode (.li d i) = x := by rw [hx, hf, word_low]; rfl
  have h0 : x / 65536 % 32 = 0 := by rw [hx]; exact const_eq 16 5 _ ho (by rw [hp]; decide +kernel)
  have f0 : fld x 21 4 = d := by rw [hx]; exact fld_eq (field_eq ⟨21, 4, d⟩ 1 ho (by rw [hf]; rfl))
  have f1 : fld x 0 16 = i := by rw [hx]; exact fld_eq (field_eq ⟨0, 16, i⟩ 0 ho (by rw [hf]; rfl))
  have hm : x / 33554432 % 128 = 14 := by rw [hx]; exact const_eq 25 7 _ ho (by rw [hp]; decide +kernel)
  clear hx ho hp hf fs
  rw [hw, parse_li hm]
  simp [parseLi, h0, f0, f1]

theorem getc (d : Fin 16) (n : Fin 4096) : Statement (.getc d n) := by
  refine core rfl ?_
  obtain ⟨fs, hf⟩ : ∃ fs : List Field, fs = [⟨0, 12, n⟩, ⟨21, 4, d⟩] := ⟨_, rfl⟩
  have hp : places fs = [(0, 12), (21, 4)] := by rw [hf]; rfl
  have ho : ok 536870912 fs = true := sound_ok _ _ (by rw [hp]; decide +kernel)
  obtain ⟨x, hx⟩ : ∃ x, x = word 536870912 fs := ⟨_, rfl⟩
  have hw : encode (.getc d n) = x := by rw [hx, hf, word_low]; rfl
  have h0 : x / 4096 % 512 = 0 := by rw [hx]; exact const_eq 12 9 _ ho (by rw [hp]; decide +kernel)
  have f0 : fld x 21 4 = d := by rw [hx]; exact fld_eq (field_eq ⟨21, 4, d⟩ 1 ho (by rw [hf]; rfl))
  have f1 : fld x 0 12 = n := by rw [hx]; exact fld_eq (field_eq ⟨0, 12, n⟩ 0 ho (by rw [hf]; rfl))
  have hm : x / 33554432 % 128 = 16 := by rw [hx]; exact const_eq 25 7 _ ho (by rw [hp]; decide +kernel)
  clear hx ho hp hf fs
  rw [hw, parse_getc hm]
  simp [parseGetc, h0, f0, f1]

theorem setc (a : Fin 32) (n : Fin 4096) : Statement (.setc a n) := by
  intro hw hc
  refine core rfl ?_ hw hc
  have hn : n.val ∉ [0x041, 0x043, 0x060, 0x061, 0x064, 0x0C0, 0x0C4, 0x0C5] := of_decide_eq_true hc
  simp only [List.mem_cons, List.not_mem_nil, or_false, not_or] at hn
  have ha := a.isLt
  have hl := n.isLt
  obtain ⟨x, hx⟩ : ∃ x, x = 570425344 + a.val * 65536 + n.val := ⟨_, rfl⟩
  have hw : encode (.setc a n) = x := hx.symm
  have hm : x / 33554432 % 128 = 17 := by omega
  have f0 : fld x 16 5 = a := Fin.ext (by show x / 65536 % 32 = _; omega)
  have f1 : fld x 0 12 = n := Fin.ext (by show x / 1 % 4096 = _; omega)
  have h0 : ¬(x % 65536 = 192 ∧ x / 2097152 % 16 = 0) := by omega
  have h1 : ¬(x / 2 % 32768 = 98 ∧ x / 2097152 % 16 = 0) := by omega
  have h2 : ¬(x / 2 % 32768 = 48 ∧ x / 2097152 % 16 = 0) := by omega
  have h3 : ¬(x % 65536 = 100 ∧ x / 2097152 % 16 = 0) := by omega
  have h4 : ¬(x % 2 = 1 ∧ x / 4 % 16384 = 16 ∧ x / 2097152 % 16 = 0) := by omega
  have h5 : x / 4096 % 16 = 0 ∧ x / 2097152 % 16 = 0 := by omega
  rw [hw, parse_setc hm, parseSetc, if_neg h0, if_neg h1, if_neg h2, if_neg h3, if_neg h4, if_pos h5, f0, f1]


theorem setcLogBase (a : Fin 32) : Statement (.setcLogBase a) := by
  refine core rfl ?_
  obtain ⟨fs, hf⟩ : ∃ fs : List Field, fs = [⟨16, 5, a⟩] := ⟨_, rfl⟩
  have hp : places fs = [(16, 5)] := by rw [hf]; rfl
  have ho : ok 570425536 fs = true := sound_ok _ _ (by rw [hp]; decide +kernel)
  obtain ⟨x, hx⟩ : ∃ x, x = word 570425536 fs := ⟨_, rfl⟩
  have hw : encode (.setcLogBase a) = x := by rw [hx, hf]; rfl
  have h0 : x % 65536 = 192 := by rw [hx]; exact low_eq 16 _ ho (by rw [hp]; decide +kernel)
  have h1 : x / 2097152 % 16 = 0 := by rw [hx]; exact const_eq 21 4 _ ho (by rw [hp]; decide +kernel)
  have f0 : fld x 16 5 = a := by rw [hx]; exact fld_eq (field_eq ⟨16, 5, a⟩ 0 ho (by rw [hf]; rfl))
  have hm : x / 33554432 % 128 = 17 := by rw [hx]; exact const_eq 25 7 _ ho (by rw [hp]; decide +kernel)
  clear hx ho hp hf fs
  rw [hw, parse_setc hm]
  simp [parseSetc, h0, h1, f0]

theorem setcTrace (a : Fin 32) (n : Fin 2) : Statement (.setcTrace a n) := by
  refine core rfl ?_
  obtain ⟨fs, hf⟩ : ∃ fs : List Field, fs = [⟨0, 1, n⟩, ⟨16, 5, a⟩] := ⟨_, rfl⟩
  have hp : places fs = [(0, 1), (16, 5)] := by rw [hf]; rfl
  have ho : ok 570425540 fs = true := sound_ok _ _ (by rw [hp]; decide +kernel)
  obtain ⟨x, hx⟩ : ∃ x, x = word 570425540 fs := ⟨_, rfl⟩
  have hw : encode (.setcTrace a n) = x := by rw [hx, hf, word_low]; rfl
  have h0 : x % 65536 ≠ 192 := by rw [hx]; exact low_ne 16 2 _ 1 ho (by rw [hp]; decide +kernel) (by decide) (by decide +kernel)
  have h1 : x / 2 % 32768 = 98 := by rw [hx]; exact const_eq 1 15 _ ho (by rw [hp]; decide +kernel)
  have h2 : x / 2097152 % 16 = 0 := by rw [hx]; exact const_eq 21 4 _ ho (by rw [hp]; decide +kernel)
  have f0 : fld x 16 5 = a := by rw [hx]; exact fld_eq (field_eq ⟨16, 5, a⟩ 1 ho (by rw [hf]; rfl))
  have f1 : fld x 0 1 = n := by rw [hx]; exact fld_eq (field_eq ⟨0, 1, n⟩ 0 ho (by rw [hf]; rfl))
  have hm : x / 33554432 % 128 = 17 := by rw [hx]; exact const_eq 25 7 _ ho (by rw [hp]; decide +kernel)
  clear hx ho hp hf fs
  rw [hw, parse_setc hm]
  simp [parseSetc, h0, h1, h2, f0, f1]

theorem setcEvRebase (a : Fin 32) (n : Fin 2) : Statement (.setcEvRebase a n) := by
  refine core rfl ?_
  obtain ⟨fs, hf⟩ : ∃ fs : List Field, fs = [⟨0, 1, n⟩, ⟨16, 5, a⟩] := ⟨_, rfl⟩
  have hp : places fs = [(0, 1), (16, 5)] := by rw [hf]; rfl
  have ho : ok 570425440 fs = true := sound_ok _ _ (by rw [hp]; decide +kernel)
  obtain ⟨x, hx⟩ : ∃ x, x = word 570425440 fs := ⟨_, rfl⟩
  have hw : encode (.setcEvRebase a n) = x := by rw [hx, hf, word_low]; rfl
  have h0 : x % 65536 ≠ 192 := by rw [hx]; exact low_ne 16 5 _ 1 ho (by rw [hp]; decide +kernel) (by decide) (by decide +kernel)
  have h1 : x / 2 % 32768 = 48 := by rw [hx]; exact const_eq 1 15 _ ho (by rw [hp]; decide +kernel)
  have h2 : x / 2097152 % 16 = 0 := by rw [hx]; exact const_eq 21 4 _ ho (by rw [hp]; decide +kernel)
  have f0 : fld x 16 5 = a := by rw [hx]; exact fld_eq (field_eq ⟨16, 5, a⟩ 1 ho (by rw [hf]; rfl))
  have f1 : fld x 0 1 = n := by rw [hx]; exact fld_eq (field_eq ⟨0, 1, n⟩ 0 ho (by rw [hf]; rfl))
  have hm : x / 33554432 % 128 = 17 := by rw [hx]; exact const_eq 25 7 _ ho (by rw [hp]; decide +kernel)
  clear hx ho hp hf fs
  rw [hw, parse_setc hm]
  simp [parseSetc, h0, h1, h2, f0, f1]

theorem setcEvSpill (a : Fin 32) : Statement (.setcEvSpill a) := by
  refine core rfl ?_
  obtain ⟨fs, hf⟩ : ∃ fs : List Field, fs = [⟨16, 5, a⟩] := ⟨_, rfl⟩
  have hp : places fs = [(16, 5)] := by rw [hf]; rfl
  have ho : ok 570425444 fs = true := sound_ok _ _ (by rw [hp]; decide +kernel)
  obtain ⟨x, hx⟩ : ∃ x, x = word 570425444 fs := ⟨_, rfl⟩
  have hw : encode (.setcEvSpill a) = x := by rw [hx, hf]; rfl
  have h0 : x % 65536 = 100 := by rw [hx]; exact low_eq 16 _ ho (by rw [hp]; decide +kernel)
  have h1 : x / 2 % 32768 = 50 := by rw [hx]; exact const_eq 1 15 _ ho (by rw [hp]; decide +kernel)
  have h2 : x / 2097152 % 16 = 0 := by rw [hx]; exact const_eq 21 4 _ ho (by rw [hp]; decide +kernel)
  have f0 : fld x 16 5 = a := by rw [hx]; exact fld_eq (field_eq ⟨16, 5, a⟩ 0 ho (by rw [hf]; rfl))
  have hm : x / 33554432 % 128 = 17 := by rw [hx]; exact const_eq 25 7 _ ho (by rw [hp]; decide +kernel)
  clear hx ho hp hf fs
  rw [hw, parse_setc hm]
  simp [parseSetc, h0, h1, h2, f0]

theorem setcMxMode (a : Fin 32) (n : Fin 2) : Statement (.setcMxMode a n) := by
  refine core rfl ?_
  obtain ⟨fs, hf⟩ : ∃ fs : List Field, fs = [⟨1, 1, n⟩, ⟨16, 5, a⟩] := ⟨_, rfl⟩
  have hp : places fs = [(1, 1), (16, 5)] := by rw [hf]; rfl
  have ho : ok 570425409 fs = true := sound_ok _ _ (by rw [hp]; decide +kernel)
  obtain ⟨x, hx⟩ : ∃ x, x = word 570425409 fs := ⟨_, rfl⟩
  have hw : encode (.setcMxMode a n) = x := by rw [hx, hf]; rfl
  have h0 : x % 65536 ≠ 192 := by rw [hx]; exact low_ne 16 0 _ 1 ho (by rw [hp]; decide +kernel) (by decide) (by decide +kernel)
  have h1 : x / 2 % 32768 ≠ 98 := by rw [hx]; exact slice_ne 1 15 1 _ 0 ho (by rw [hp]; decide +kernel) (by decide) (by
      decide +kernel)
  have h2 : x / 2 % 32768 ≠ 48 := by rw [hx]; exact slice_ne 1 15 4 _ 0 ho (by rw [hp]; decide +kernel) (by decide) (by
      decide +kernel)
  have h3 : x % 65536 ≠ 100 := by rw [hx]; exact low_ne 16 0 _ 1 ho (by rw [hp]; decide +kernel) (by decide) (by decide +kernel)
  have h4 : x % 2 = 1 := by rw [hx]; exact low_eq 1 _ ho (by rw [hp]; decide +kernel)
  have h5 : x / 4 % 16384 = 16 := by rw [hx]; exact const_eq 2 14 _ ho (by rw [hp]; decide +kernel)
  have h6 : x / 2097152 % 16 = 0 := by rw [hx]; exact const_eq 21 4 _ ho (by rw [hp]; decide +kernel)
  have f0 : fld x 16 5 = a := by rw [hx]; exact fld_eq (field_eq ⟨16, 5, a⟩ 1 ho (by rw [hf]; rfl))
  have f1 : fld x 1 1 = n := by rw [hx]; exact fld_eq (field_eq ⟨1, 1, n⟩ 0 ho (by rw [hf]; rfl))
  have hm : x / 33554432 % 128 = 17 := by rw [hx]; exact const_eq 25 7 _ ho (by rw [hp]; decide +kernel)
  clear hx ho hp hf fs
  rw [hw, parse_setc hm]
  simp [parseSetc, h0, h1, h2, h3, h4, h5, h6, f0, f1]

theorem br (a b : Fin 32) (c : Fin 8) (p : Fin 4096) : Statement (.br a b c p) := by
  refine core rfl ?_
  obtain ⟨fs, hf⟩ : ∃ fs : List Field, fs = [⟨0, 12, p⟩, ⟨12, 3, c⟩, ⟨15, 5, b⟩, ⟨20, 5, a⟩] := ⟨_, rfl⟩
  have hp : places fs = [(0, 12), (12, 3), (15, 5), (20, 5)] := by rw [hf]; rfl
  have ho : ok 805306368 fs = true := sound_ok _ _ (by rw [hp]; decide +kernel)
  obtain ⟨x, hx⟩ : ∃ x, x = word 805306368 fs := ⟨_, rfl⟩
  have hw : encode (.br a b c p) = x := by rw [hx, hf, word_low]; rfl
  have f0 : fld x 20 5 = a := by rw [hx]; exact fld_eq (field_eq ⟨20, 5, a⟩ 3 ho (by rw [hf]; rfl))
  have f1 : fld x 15 5 = b := by rw [hx]; exact fld_eq (field_eq ⟨15, 5, b⟩ 2 ho (by rw [hf]; rfl))
  have f2 : fld x 12 3 = c := by rw [hx]; exact fld_eq (field_eq ⟨12, 3, c⟩ 1 ho (by rw [hf]; rfl))
  have f3 : fld x 0 12 = p := by rw [hx]; exact fld_eq (field_eq ⟨0, 12, p⟩ 0 ho (by rw [hf]; rfl))
  have hm : x / 33554432 % 128 = 24 := by rw [hx]; exact const_eq 25 7 _ ho (by rw [hp]; decide +kernel)
  clear hx ho hp hf fs
  rw [hw, parse_br hm]
  simp [parseBr, f0, f1, f2, f3]

theorem jmp (p : Fin 33554432) : Statement (.jmp p) := by
  refine core rfl ?_
  obtain ⟨fs, hf⟩ : ∃ fs : List Field, fs = [⟨0, 25, p⟩] := ⟨_, rfl⟩
  have hp : places fs = [(0, 25)] := by rw [hf]; rfl
  have ho : ok 838860800 fs = true := sound_ok _ _ (by rw [hp]; decide +kernel)
  obtain ⟨x, hx⟩ : ∃ x, x = word 838860800 fs := ⟨_, rfl⟩
  have hw : encode (.jmp p) = x := by rw [hx, hf, word_low]; rfl
  have f0 : fld x 0 25 = p := by rw [hx]; exact fld_eq (field_eq ⟨0, 25, p⟩ 0 ho (by rw [hf]; rfl))
  have hm : x / 33554432 % 128 = 25 := by rw [hx]; exact const_eq 25 7 _ ho (by rw [hp]; decide +kernel)
  clear hx ho hp hf fs
  rw [hw, parse_jmp hm]
  simp [parseJmp, f0]

theorem call (p : Fin 33554432) : Statement (.call p) := by
  refine core rfl ?_
  obtain ⟨fs, hf⟩ : ∃ fs : List Field, fs = [⟨0, 25, p⟩] := ⟨_, rfl⟩
  have hp : places fs = [(0, 25)] := by rw [hf]; rfl
  have ho : ok 872415232 fs = true := sound_ok _ _ (by rw [hp]; decide +kernel)
  obtain ⟨x, hx⟩ : ∃ x, x = word 872415232 fs := ⟨_, rfl⟩
  have hw : encode (.call p) = x := by rw [hx, hf, word_low]; rfl
  have f0 : fld x 0 25 = p := by rw [hx]; exact fld_eq (field_eq ⟨0, 25, p⟩ 0 ho (by rw [hf]; rfl))
  have hm : x / 33554432 % 128 = 26 := by rw [hx]; exact const_eq 25 7 _ ho (by rw [hp]; decide +kernel)
  clear hx ho hp hf fs
  rw [hw, parse_call hm]
  simp [parseCall, f0]

theorem jr (a : Fin 32) : Statement (.jr a) := by
  refine core rfl ?_
  obtain ⟨fs, hf⟩ : ∃ fs : List Field, fs = [⟨16, 5, a⟩] := ⟨_, rfl⟩
  have hp : places fs = [(16, 5)] := by rw [hf]; rfl
  have ho : ok 905969664 fs = true := sound_ok _ _ (by rw [hp]; decide +kernel)
  obtain ⟨x, hx⟩ : ∃ x, x = word 905969664 fs := ⟨_, rfl⟩
  have hw : encode (.jr a) = x := by rw [hx, hf]; rfl
  have h0 : x % 65536 = 0 := by rw [hx]; exact low_eq 16 _ ho (by rw [hp]; decide +kernel)
  have h1 : x / 2097152 % 16 = 0 := by rw [hx]; exact const_eq 21 4 _ ho (by rw [hp]; decide +kernel)
  have f0 : fld x 16 5 = a := by rw [hx]; exact fld_eq (field_eq ⟨16, 5, a⟩ 0 ho (by rw [hf]; rfl))
  have hm : x / 33554432 % 128 = 27 := by rw [hx]; exact const_eq 25 7 _ ho (by rw [hp]; decide +kernel)
  clear hx ho hp hf fs
  rw [hw, parse_jr hm]
  simp [parseJr, h0, h1, f0]

theorem callr (a : Fin 32) : Statement (.callr a) := by
  refine core rfl ?_
  obtain ⟨fs, hf⟩ : ∃ fs : List Field, fs = [⟨16, 5, a⟩] := ⟨_, rfl⟩
  have hp : places fs = [(16, 5)] := by rw [hf]; rfl
  have ho : ok 905969728 fs = true := sound_ok _ _ (by rw [hp]; decide +kernel)
  obtain ⟨x, hx⟩ : ∃ x, x = word 905969728 fs := ⟨_, rfl⟩
  have hw : encode (.callr a) = x := by rw [hx, hf]; rfl
  have h0 : x % 65536 = 64 := by rw [hx]; exact low_eq 16 _ ho (by rw [hp]; decide +kernel)
  have h1 : x / 2097152 % 16 = 0 := by rw [hx]; exact const_eq 21 4 _ ho (by rw [hp]; decide +kernel)
  have f0 : fld x 16 5 = a := by rw [hx]; exact fld_eq (field_eq ⟨16, 5, a⟩ 0 ho (by rw [hf]; rfl))
  have hm : x / 33554432 % 128 = 27 := by rw [hx]; exact const_eq 25 7 _ ho (by rw [hp]; decide +kernel)
  clear hx ho hp hf fs
  rw [hw, parse_jr hm]
  simp [parseJr, h0, h1, f0]

theorem lnest (d : Fin 16) (a : Fin 32) : Statement (.lnest d a) := by
  refine core rfl ?_
  obtain ⟨fs, hf⟩ : ∃ fs : List Field, fs = [⟨16, 5, a⟩, ⟨21, 4, d⟩] := ⟨_, rfl⟩
  have hp : places fs = [(16, 5), (21, 4)] := by rw [hf]; rfl
  have ho : ok 939524096 fs = true := sound_ok _ _ (by rw [hp]; decide +kernel)
  obtain ⟨x, hx⟩ : ∃ x, x = word 939524096 fs := ⟨_, rfl⟩
  have hw : encode (.lnest d a) = x := by rw [hx, hf]; rfl
  have h0 : x % 65536 = 0 := by rw [hx]; exact low_eq 16 _ ho (by rw [hp]; decide +kernel)
  have f0 : fld x 21 4 = d := by rw [hx]; exact fld_eq (field_eq ⟨21, 4, d⟩ 1 ho (by rw [hf]; rfl))
  have f1 : fld x 16 5 = a := by rw [hx]; exact fld_eq (field_eq ⟨16, 5, a⟩ 0 ho (by rw [hf]; rfl))
  have hm : x / 33554432 % 128 = 28 := by rw [hx]; exact const_eq 25 7 _ ho (by rw [hp]; decide +kernel)
  clear hx ho hp hf fs
  rw [hw, parse_lnest hm]
  simp [parseLnest, h0, f0, f1]

theorem lnext (p : Fin 4096) : Statement (.lnext p) := by
  refine core rfl ?_
  obtain ⟨fs, hf⟩ : ∃ fs : List Field, fs = [⟨0, 12, p⟩] := ⟨_, rfl⟩
  have hp : places fs = [(0, 12)] := by rw [hf]; rfl
  have ho : ok 973103104 fs = true := sound_ok _ _ (by rw [hp]; decide +kernel)
  obtain ⟨x, hx⟩ : ∃ x, x = word 973103104 fs := ⟨_, rfl⟩
  have hw : encode (.lnext p) = x := by rw [hx, hf, word_low]; rfl
  have h0 : x / 4096 % 8192 = 6 := by rw [hx]; exact const_eq 12 13 _ ho (by rw [hp]; decide +kernel)
  have f0 : fld x 0 12 = p := by rw [hx]; exact fld_eq (field_eq ⟨0, 12, p⟩ 0 ho (by rw [hf]; rfl))
  have hm : x / 33554432 % 128 = 29 := by rw [hx]; exact const_eq 25 7 _ ho (by rw [hp]; decide +kernel)
  clear hx ho hp hf fs
  rw [hw, parse_lnext hm]
  simp [parseLnext, h0, f0]

theorem rep (n : Fin 8) (a : Fin 32) (s t : Fin 8) (c : Fin 2048) : Statement (.rep n a s t c) := by
  refine core rfl ?_
  obtain ⟨fs, hf⟩ : ∃ fs : List Field, fs = [⟨0, 11, c⟩, ⟨11, 3, t⟩, ⟨14, 3, s⟩, ⟨17, 5, a⟩, ⟨22, 3, n⟩] := ⟨_, rfl⟩
  have hp : places fs = [(0, 11), (11, 3), (14, 3), (17, 5), (22, 3)] := by rw [hf]; rfl
  have ho : ok 1006632960 fs = true := sound_ok _ _ (by rw [hp]; decide +kernel)
  obtain ⟨x, hx⟩ : ∃ x, x = word 1006632960 fs := ⟨_, rfl⟩
  have hw : encode (.rep n a s t c) = x := by rw [hx, hf, word_low]; rfl
  have f0 : fld x 22 3 = n := by rw [hx]; exact fld_eq (field_eq ⟨22, 3, n⟩ 4 ho (by rw [hf]; rfl))
  have f1 : fld x 17 5 = a := by rw [hx]; exact fld_eq (field_eq ⟨17, 5, a⟩ 3 ho (by rw [hf]; rfl))
  have f2 : fld x 14 3 = s := by rw [hx]; exact fld_eq (field_eq ⟨14, 3, s⟩ 2 ho (by rw [hf]; rfl))
  have f3 : fld x 11 3 = t := by rw [hx]; exact fld_eq (field_eq ⟨11, 3, t⟩ 1 ho (by rw [hf]; rfl))
  have f4 : fld x 0 11 = c := by rw [hx]; exact fld_eq (field_eq ⟨0, 11, c⟩ 0 ho (by rw [hf]; rfl))
  have hm : x / 33554432 % 128 = 30 := by rw [hx]; exact const_eq 25 7 _ ho (by rw [hp]; decide +kernel)
  clear hx ho hp hf fs
  rw [hw, parse_rep hm]
  simp [parseRep, f0, f1, f2, f3, f4]

theorem repw : Statement (.repw) := by
  refine core rfl ?_
  obtain ⟨fs, hf⟩ : ∃ fs : List Field, fs = [] := ⟨_, rfl⟩
  have hp : places fs = [] := by rw [hf]; rfl
  have ho : ok 1040187392 fs = true := sound_ok _ _ (by rw [hp]; decide +kernel)
  obtain ⟨x, hx⟩ : ∃ x, x = word 1040187392 fs := ⟨_, rfl⟩
  have hw : encode (.repw) = x := by rw [hx, hf]; rfl
  have h0 : x % 33554432 = 0 := by rw [hx]; exact low_eq 25 _ ho (by rw [hp]; decide +kernel)
  have hm : x / 33554432 % 128 = 31 := by rw [hx]; exact const_eq 25 7 _ ho (by rw [hp]; decide +kernel)
  clear hx ho hp hf fs
  rw [hw, parse_repw hm]
  simp [parseRepw, h0]

theorem wait (d : Fin 16) (a b : Fin 32) : Statement (.wait d a b) := by
  refine core rfl ?_
  obtain ⟨fs, hf⟩ : ∃ fs : List Field, fs = [⟨11, 5, b⟩, ⟨16, 5, a⟩, ⟨21, 4, d⟩] := ⟨_, rfl⟩
  have hp : places fs = [(11, 5), (16, 5), (21, 4)] := by rw [hf]; rfl
  have ho : ok 1073741824 fs = true := sound_ok _ _ (by rw [hp]; decide +kernel)
  obtain ⟨x, hx⟩ : ∃ x, x = word 1073741824 fs := ⟨_, rfl⟩
  have hw : encode (.wait d a b) = x := by rw [hx, hf]; rfl
  have h0 : x % 2048 = 0 := by rw [hx]; exact low_eq 11 _ ho (by rw [hp]; decide +kernel)
  have f0 : fld x 21 4 = d := by rw [hx]; exact fld_eq (field_eq ⟨21, 4, d⟩ 2 ho (by rw [hf]; rfl))
  have f1 : fld x 16 5 = a := by rw [hx]; exact fld_eq (field_eq ⟨16, 5, a⟩ 1 ho (by rw [hf]; rfl))
  have f2 : fld x 11 5 = b := by rw [hx]; exact fld_eq (field_eq ⟨11, 5, b⟩ 0 ho (by rw [hf]; rfl))
  have hm : x / 33554432 % 128 = 32 := by rw [hx]; exact const_eq 25 7 _ ho (by rw [hp]; decide +kernel)
  clear hx ho hp hf fs
  rw [hw, parse_wait hm]
  simp [parseWait, h0, f0, f1, f2]

theorem done : Statement (.done) := by
  refine core rfl ?_
  obtain ⟨fs, hf⟩ : ∃ fs : List Field, fs = [] := ⟨_, rfl⟩
  have hp : places fs = [] := by rw [hf]; rfl
  have ho : ok 1107296256 fs = true := sound_ok _ _ (by rw [hp]; decide +kernel)
  obtain ⟨x, hx⟩ : ∃ x, x = word 1107296256 fs := ⟨_, rfl⟩
  have hw : encode (.done) = x := by rw [hx, hf]; rfl
  have h0 : x % 33554432 = 0 := by rw [hx]; exact low_eq 25 _ ho (by rw [hp]; decide +kernel)
  have hm : x / 33554432 % 128 = 33 := by rw [hx]; exact const_eq 25 7 _ ho (by rw [hp]; decide +kernel)
  clear hx ho hp hf fs
  rw [hw, parse_sys hm]
  simp [parseSys, h0]

theorem yield : Statement (.yield) := by
  refine core rfl ?_
  obtain ⟨fs, hf⟩ : ∃ fs : List Field, fs = [] := ⟨_, rfl⟩
  have hp : places fs = [] := by rw [hf]; rfl
  have ho : ok 1107296320 fs = true := sound_ok _ _ (by rw [hp]; decide +kernel)
  obtain ⟨x, hx⟩ : ∃ x, x = word 1107296320 fs := ⟨_, rfl⟩
  have hw : encode (.yield) = x := by rw [hx, hf]; rfl
  have h0 : x % 33554432 = 64 := by rw [hx]; exact low_eq 25 _ ho (by rw [hp]; decide +kernel)
  have hm : x / 33554432 % 128 = 33 := by rw [hx]; exact const_eq 25 7 _ ho (by rw [hp]; decide +kernel)
  clear hx ho hp hf fs
  rw [hw, parse_sys hm]
  simp [parseSys, h0]

theorem trap (a : Fin 32) : Statement (.trap a) := by
  refine core rfl ?_
  obtain ⟨fs, hf⟩ : ∃ fs : List Field, fs = [⟨16, 5, a⟩] := ⟨_, rfl⟩
  have hp : places fs = [(16, 5)] := by rw [hf]; rfl
  have ho : ok 1107296384 fs = true := sound_ok _ _ (by rw [hp]; decide +kernel)
  obtain ⟨x, hx⟩ : ∃ x, x = word 1107296384 fs := ⟨_, rfl⟩
  have hw : encode (.trap a) = x := by rw [hx, hf]; rfl
  have h0 : x % 33554432 ≠ 0 := by rw [hx]; exact low_ne 25 7 _ 1 ho (by rw [hp]; decide +kernel) (by decide) (by
      decide +kernel)
  have h1 : x % 33554432 ≠ 64 := by rw [hx]; exact low_ne 25 6 _ 0 ho (by rw [hp]; decide +kernel) (by decide) (by
      decide +kernel)
  have h2 : x % 65536 = 128 := by rw [hx]; exact low_eq 16 _ ho (by rw [hp]; decide +kernel)
  have h3 : x / 2097152 % 16 = 0 := by rw [hx]; exact const_eq 21 4 _ ho (by rw [hp]; decide +kernel)
  have f0 : fld x 16 5 = a := by rw [hx]; exact fld_eq (field_eq ⟨16, 5, a⟩ 0 ho (by rw [hf]; rfl))
  have hm : x / 33554432 % 128 = 33 := by rw [hx]; exact const_eq 25 7 _ ho (by rw [hp]; decide +kernel)
  clear hx ho hp hf fs
  rw [hw, parse_sys hm]
  simp [parseSys, h0, h1, h2, h3, f0]

theorem brk : Statement (.brk) := by
  refine core rfl ?_
  obtain ⟨fs, hf⟩ : ∃ fs : List Field, fs = [] := ⟨_, rfl⟩
  have hp : places fs = [] := by rw [hf]; rfl
  have ho : ok 1107296448 fs = true := sound_ok _ _ (by rw [hp]; decide +kernel)
  obtain ⟨x, hx⟩ : ∃ x, x = word 1107296448 fs := ⟨_, rfl⟩
  have hw : encode (.brk) = x := by rw [hx, hf]; rfl
  have h0 : x % 33554432 = 192 := by rw [hx]; exact low_eq 25 _ ho (by rw [hp]; decide +kernel)
  have h1 : x % 65536 = 192 := by rw [hx]; exact low_eq 16 _ ho (by rw [hp]; decide +kernel)
  have hm : x / 33554432 % 128 = 33 := by rw [hx]; exact const_eq 25 7 _ ho (by rw [hp]; decide +kernel)
  clear hx ho hp hf fs
  rw [hw, parse_sys hm]
  simp [parseSys, h0, h1]

theorem eret : Statement (.eret) := by
  refine core rfl ?_
  obtain ⟨fs, hf⟩ : ∃ fs : List Field, fs = [] := ⟨_, rfl⟩
  have hp : places fs = [] := by rw [hf]; rfl
  have ho : ok 1107296512 fs = true := sound_ok _ _ (by rw [hp]; decide +kernel)
  obtain ⟨x, hx⟩ : ∃ x, x = word 1107296512 fs := ⟨_, rfl⟩
  have hw : encode (.eret) = x := by rw [hx, hf]; rfl
  have h0 : x % 33554432 = 256 := by rw [hx]; exact low_eq 25 _ ho (by rw [hp]; decide +kernel)
  have h1 : x % 65536 = 256 := by rw [hx]; exact low_eq 16 _ ho (by rw [hp]; decide +kernel)
  have hm : x / 33554432 % 128 = 33 := by rw [hx]; exact const_eq 25 7 _ ho (by rw [hp]; decide +kernel)
  clear hx ho hp hf fs
  rw [hw, parse_sys hm]
  simp [parseSys, h0, h1]

theorem chk : Statement (.chk) := by
  refine core rfl ?_
  obtain ⟨fs, hf⟩ : ∃ fs : List Field, fs = [] := ⟨_, rfl⟩
  have hp : places fs = [] := by rw [hf]; rfl
  have ho : ok 1107296576 fs = true := sound_ok _ _ (by rw [hp]; decide +kernel)
  obtain ⟨x, hx⟩ : ∃ x, x = word 1107296576 fs := ⟨_, rfl⟩
  have hw : encode (.chk) = x := by rw [hx, hf]; rfl
  have h0 : x % 33554432 = 320 := by rw [hx]; exact low_eq 25 _ ho (by rw [hp]; decide +kernel)
  have h1 : x % 65536 = 320 := by rw [hx]; exact low_eq 16 _ ho (by rw [hp]; decide +kernel)
  have hm : x / 33554432 % 128 = 33 := by rw [hx]; exact const_eq 25 7 _ ho (by rw [hp]; decide +kernel)
  clear hx ho hp hf fs
  rw [hw, parse_sys hm]
  simp [parseSys, h0, h1]

theorem nop : Statement (.nop) := by
  refine core rfl ?_
  obtain ⟨fs, hf⟩ : ∃ fs : List Field, fs = [] := ⟨_, rfl⟩
  have hp : places fs = [] := by rw [hf]; rfl
  have ho : ok 1107296640 fs = true := sound_ok _ _ (by rw [hp]; decide +kernel)
  obtain ⟨x, hx⟩ : ∃ x, x = word 1107296640 fs := ⟨_, rfl⟩
  have hw : encode (.nop) = x := by rw [hx, hf]; rfl
  have h0 : x % 33554432 = 384 := by rw [hx]; exact low_eq 25 _ ho (by rw [hp]; decide +kernel)
  have h1 : x % 65536 = 384 := by rw [hx]; exact low_eq 16 _ ho (by rw [hp]; decide +kernel)
  have hm : x / 33554432 % 128 = 33 := by rw [hx]; exact const_eq 25 7 _ ho (by rw [hp]; decide +kernel)
  clear hx ho hp hf fs
  rw [hw, parse_sys hm]
  simp [parseSys, h0, h1]

theorem cancel (a b : Fin 32) : Statement (.cancel a b) := by
  refine core rfl ?_
  obtain ⟨fs, hf⟩ : ∃ fs : List Field, fs = [⟨11, 5, b⟩, ⟨16, 5, a⟩] := ⟨_, rfl⟩
  have hp : places fs = [(11, 5), (16, 5)] := by rw [hf]; rfl
  have ho : ok 1107296704 fs = true := sound_ok _ _ (by rw [hp]; decide +kernel)
  obtain ⟨x, hx⟩ : ∃ x, x = word 1107296704 fs := ⟨_, rfl⟩
  have hw : encode (.cancel a b) = x := by rw [hx, hf]; rfl
  have h0 : x % 33554432 ≠ 0 := by rw [hx]; exact low_ne 25 6 _ 1 ho (by rw [hp]; decide +kernel) (by decide) (by
      decide +kernel)
  have h1 : x % 33554432 ≠ 64 := by rw [hx]; exact low_ne 25 7 _ 1 ho (by rw [hp]; decide +kernel) (by decide) (by
      decide +kernel)
  have h2 : x % 65536 ≠ 128 := by rw [hx]; exact low_ne 16 6 _ 1 ho (by rw [hp]; decide +kernel) (by decide) (by decide +kernel)
  have h3 : x % 33554432 ≠ 192 := by rw [hx]; exact low_ne 25 8 _ 1 ho (by rw [hp]; decide +kernel) (by decide) (by
      decide +kernel)
  have h4 : x % 33554432 ≠ 256 := by rw [hx]; exact low_ne 25 6 _ 1 ho (by rw [hp]; decide +kernel) (by decide) (by
      decide +kernel)
  have h5 : x % 33554432 ≠ 320 := by rw [hx]; exact low_ne 25 7 _ 1 ho (by rw [hp]; decide +kernel) (by decide) (by
      decide +kernel)
  have h6 : x % 33554432 ≠ 384 := by rw [hx]; exact low_ne 25 6 _ 1 ho (by rw [hp]; decide +kernel) (by decide) (by
      decide +kernel)
  have h7 : x % 2048 = 448 := by rw [hx]; exact low_eq 11 _ ho (by rw [hp]; decide +kernel)
  have h8 : x / 2097152 % 16 = 0 := by rw [hx]; exact const_eq 21 4 _ ho (by rw [hp]; decide +kernel)
  have f0 : fld x 16 5 = a := by rw [hx]; exact fld_eq (field_eq ⟨16, 5, a⟩ 1 ho (by rw [hf]; rfl))
  have f1 : fld x 11 5 = b := by rw [hx]; exact fld_eq (field_eq ⟨11, 5, b⟩ 0 ho (by rw [hf]; rfl))
  have hm : x / 33554432 % 128 = 33 := by rw [hx]; exact const_eq 25 7 _ ho (by rw [hp]; decide +kernel)
  clear hx ho hp hf fs
  rw [hw, parse_sys hm]
  simp [parseSys, h0, h1, h2, h3, h4, h5, h6, h7, h8, f0, f1]

theorem cancelh (a b : Fin 32) : Statement (.cancelh a b) := by
  refine core rfl ?_
  obtain ⟨fs, hf⟩ : ∃ fs : List Field, fs = [⟨11, 5, b⟩, ⟨16, 5, a⟩] := ⟨_, rfl⟩
  have hp : places fs = [(11, 5), (16, 5)] := by rw [hf]; rfl
  have ho : ok 1107296768 fs = true := sound_ok _ _ (by rw [hp]; decide +kernel)
  obtain ⟨x, hx⟩ : ∃ x, x = word 1107296768 fs := ⟨_, rfl⟩
  have hw : encode (.cancelh a b) = x := by rw [hx, hf]; rfl
  have h0 : x % 33554432 ≠ 0 := by rw [hx]; exact low_ne 25 9 _ 1 ho (by rw [hp]; decide +kernel) (by decide) (by
      decide +kernel)
  have h1 : x % 33554432 ≠ 64 := by rw [hx]; exact low_ne 25 6 _ 0 ho (by rw [hp]; decide +kernel) (by decide) (by
      decide +kernel)
  have h2 : x % 65536 ≠ 128 := by rw [hx]; exact low_ne 16 7 _ 0 ho (by rw [hp]; decide +kernel) (by decide) (by decide +kernel)
  have h3 : x % 33554432 ≠ 192 := by rw [hx]; exact low_ne 25 6 _ 0 ho (by rw [hp]; decide +kernel) (by decide) (by
      decide +kernel)
  have h4 : x % 33554432 ≠ 256 := by rw [hx]; exact low_ne 25 8 _ 0 ho (by rw [hp]; decide +kernel) (by decide) (by
      decide +kernel)
  have h5 : x % 33554432 ≠ 320 := by rw [hx]; exact low_ne 25 6 _ 0 ho (by rw [hp]; decide +kernel) (by decide) (by
      decide +kernel)
  have h6 : x % 33554432 ≠ 384 := by rw [hx]; exact low_ne 25 7 _ 0 ho (by rw [hp]; decide +kernel) (by decide) (by
      decide +kernel)
  have h7 : x % 2048 = 512 := by rw [hx]; exact low_eq 11 _ ho (by rw [hp]; decide +kernel)
  have h8 : x / 2097152 % 16 = 0 := by rw [hx]; exact const_eq 21 4 _ ho (by rw [hp]; decide +kernel)
  have f0 : fld x 16 5 = a := by rw [hx]; exact fld_eq (field_eq ⟨16, 5, a⟩ 1 ho (by rw [hf]; rfl))
  have f1 : fld x 11 5 = b := by rw [hx]; exact fld_eq (field_eq ⟨11, 5, b⟩ 0 ho (by rw [hf]; rfl))
  have hm : x / 33554432 % 128 = 33 := by rw [hx]; exact const_eq 25 7 _ ho (by rw [hp]; decide +kernel)
  clear hx ho hp hf fs
  rw [hw, parse_sys hm]
  simp [parseSys, h0, h1, h2, h3, h4, h5, h6, h7, h8, f0, f1]

theorem tlbinv (a b : Fin 32) : Statement (.tlbinv a b) := by
  refine core rfl ?_
  obtain ⟨fs, hf⟩ : ∃ fs : List Field, fs = [⟨11, 5, b⟩, ⟨16, 5, a⟩] := ⟨_, rfl⟩
  have hp : places fs = [(11, 5), (16, 5)] := by rw [hf]; rfl
  have ho : ok 1107296832 fs = true := sound_ok _ _ (by rw [hp]; decide +kernel)
  obtain ⟨x, hx⟩ : ∃ x, x = word 1107296832 fs := ⟨_, rfl⟩
  have hw : encode (.tlbinv a b) = x := by rw [hx, hf]; rfl
  have h0 : x % 33554432 ≠ 0 := by rw [hx]; exact low_ne 25 6 _ 1 ho (by rw [hp]; decide +kernel) (by decide) (by
      decide +kernel)
  have h1 : x % 33554432 ≠ 64 := by rw [hx]; exact low_ne 25 9 _ 1 ho (by rw [hp]; decide +kernel) (by decide) (by
      decide +kernel)
  have h2 : x % 65536 ≠ 128 := by rw [hx]; exact low_ne 16 6 _ 1 ho (by rw [hp]; decide +kernel) (by decide) (by decide +kernel)
  have h3 : x % 33554432 ≠ 192 := by rw [hx]; exact low_ne 25 7 _ 0 ho (by rw [hp]; decide +kernel) (by decide) (by
      decide +kernel)
  have h4 : x % 33554432 ≠ 256 := by rw [hx]; exact low_ne 25 6 _ 1 ho (by rw [hp]; decide +kernel) (by decide) (by
      decide +kernel)
  have h5 : x % 33554432 ≠ 320 := by rw [hx]; exact low_ne 25 8 _ 0 ho (by rw [hp]; decide +kernel) (by decide) (by
      decide +kernel)
  have h6 : x % 33554432 ≠ 384 := by rw [hx]; exact low_ne 25 6 _ 1 ho (by rw [hp]; decide +kernel) (by decide) (by
      decide +kernel)
  have h7 : x % 2048 = 576 := by rw [hx]; exact low_eq 11 _ ho (by rw [hp]; decide +kernel)
  have h8 : x / 2097152 % 16 = 0 := by rw [hx]; exact const_eq 21 4 _ ho (by rw [hp]; decide +kernel)
  have f0 : fld x 16 5 = a := by rw [hx]; exact fld_eq (field_eq ⟨16, 5, a⟩ 1 ho (by rw [hf]; rfl))
  have f1 : fld x 11 5 = b := by rw [hx]; exact fld_eq (field_eq ⟨11, 5, b⟩ 0 ho (by rw [hf]; rfl))
  have hm : x / 33554432 % 128 = 33 := by rw [hx]; exact const_eq 25 7 _ ho (by rw [hp]; decide +kernel)
  clear hx ho hp hf fs
  rw [hw, parse_sys hm]
  simp [parseSys, h0, h1, h2, h3, h4, h5, h6, h7, h8, f0, f1]

theorem fbflush (d : Fin 16) (a : Fin 32) : Statement (.fbflush d a) := by
  refine core rfl ?_
  obtain ⟨fs, hf⟩ : ∃ fs : List Field, fs = [⟨16, 5, a⟩, ⟨21, 4, d⟩] := ⟨_, rfl⟩
  have hp : places fs = [(16, 5), (21, 4)] := by rw [hf]; rfl
  have ho : ok 1107296896 fs = true := sound_ok _ _ (by rw [hp]; decide +kernel)
  obtain ⟨x, hx⟩ : ∃ x, x = word 1107296896 fs := ⟨_, rfl⟩
  have hw : encode (.fbflush d a) = x := by rw [hx, hf]; rfl
  have h0 : x % 33554432 ≠ 0 := by rw [hx]; exact low_ne 25 7 _ 1 ho (by rw [hp]; decide +kernel) (by decide) (by
      decide +kernel)
  have h1 : x % 33554432 ≠ 64 := by rw [hx]; exact low_ne 25 6 _ 0 ho (by rw [hp]; decide +kernel) (by decide) (by
      decide +kernel)
  have h2 : x % 65536 = 640 := by rw [hx]; exact low_eq 16 _ ho (by rw [hp]; decide +kernel)
  have h3 : x % 33554432 ≠ 192 := by rw [hx]; exact low_ne 25 6 _ 0 ho (by rw [hp]; decide +kernel) (by decide) (by
      decide +kernel)
  have h4 : x % 33554432 ≠ 256 := by rw [hx]; exact low_ne 25 7 _ 1 ho (by rw [hp]; decide +kernel) (by decide) (by
      decide +kernel)
  have h5 : x % 33554432 ≠ 320 := by rw [hx]; exact low_ne 25 6 _ 0 ho (by rw [hp]; decide +kernel) (by decide) (by
      decide +kernel)
  have h6 : x % 33554432 ≠ 384 := by rw [hx]; exact low_ne 25 8 _ 0 ho (by rw [hp]; decide +kernel) (by decide) (by
      decide +kernel)
  have h7 : x % 2048 = 640 := by rw [hx]; exact low_eq 11 _ ho (by rw [hp]; decide +kernel)
  have f0 : fld x 21 4 = d := by rw [hx]; exact fld_eq (field_eq ⟨21, 4, d⟩ 1 ho (by rw [hf]; rfl))
  have f1 : fld x 16 5 = a := by rw [hx]; exact fld_eq (field_eq ⟨16, 5, a⟩ 0 ho (by rw [hf]; rfl))
  have hm : x / 33554432 % 128 = 33 := by rw [hx]; exact const_eq 25 7 _ ho (by rw [hp]; decide +kernel)
  clear hx ho hp hf fs
  rw [hw, parse_sys hm]
  simp [parseSys, h0, h1, h2, h3, h4, h5, h6, h7, f0, f1]

theorem halt : Statement (.halt) := by
  refine core rfl ?_
  obtain ⟨fs, hf⟩ : ∃ fs : List Field, fs = [] := ⟨_, rfl⟩
  have hp : places fs = [] := by rw [hf]; rfl
  have ho : ok 1107296960 fs = true := sound_ok _ _ (by rw [hp]; decide +kernel)
  obtain ⟨x, hx⟩ : ∃ x, x = word 1107296960 fs := ⟨_, rfl⟩
  have hw : encode (.halt) = x := by rw [hx, hf]; rfl
  have h0 : x % 33554432 = 704 := by rw [hx]; exact low_eq 25 _ ho (by rw [hp]; decide +kernel)
  have h1 : x % 65536 = 704 := by rw [hx]; exact low_eq 16 _ ho (by rw [hp]; decide +kernel)
  have h2 : x % 2048 = 704 := by rw [hx]; exact low_eq 11 _ ho (by rw [hp]; decide +kernel)
  have hm : x / 33554432 % 128 = 33 := by rw [hx]; exact const_eq 25 7 _ ho (by rw [hp]; decide +kernel)
  clear hx ho hp hf fs
  rw [hw, parse_sys hm]
  simp [parseSys, h0, h1, h2]

theorem ld (d : Fin 16) (a : Fin 32) (w : Fin 4) (s : Fin 2) (c : Fin 4) (o : Fin 2048) : Statement (.ld d a w s c o) := by
  refine core rfl ?_
  obtain ⟨fs, hf⟩ : ∃ fs : List Field, fs = [⟨0, 11, o⟩, ⟨11, 2, c⟩, ⟨13, 1, s⟩, ⟨14, 2, w⟩, ⟨16, 5, a⟩, ⟨21, 4, d⟩] := ⟨_, rfl⟩
  have hp : places fs = [(0, 11), (11, 2), (13, 1), (14, 2), (16, 5), (21, 4)] := by rw [hf]; rfl
  have ho : ok 1342177280 fs = true := sound_ok _ _ (by rw [hp]; decide +kernel)
  obtain ⟨x, hx⟩ : ∃ x, x = word 1342177280 fs := ⟨_, rfl⟩
  have hw : encode (.ld d a w s c o) = x := by rw [hx, hf, word_low]; rfl
  have f0 : fld x 21 4 = d := by rw [hx]; exact fld_eq (field_eq ⟨21, 4, d⟩ 5 ho (by rw [hf]; rfl))
  have f1 : fld x 16 5 = a := by rw [hx]; exact fld_eq (field_eq ⟨16, 5, a⟩ 4 ho (by rw [hf]; rfl))
  have f2 : fld x 14 2 = w := by rw [hx]; exact fld_eq (field_eq ⟨14, 2, w⟩ 3 ho (by rw [hf]; rfl))
  have f3 : fld x 13 1 = s := by rw [hx]; exact fld_eq (field_eq ⟨13, 1, s⟩ 2 ho (by rw [hf]; rfl))
  have f4 : fld x 11 2 = c := by rw [hx]; exact fld_eq (field_eq ⟨11, 2, c⟩ 1 ho (by rw [hf]; rfl))
  have f5 : fld x 0 11 = o := by rw [hx]; exact fld_eq (field_eq ⟨0, 11, o⟩ 0 ho (by rw [hf]; rfl))
  have hm : x / 33554432 % 128 = 40 := by rw [hx]; exact const_eq 25 7 _ ho (by rw [hp]; decide +kernel)
  clear hx ho hp hf fs
  rw [hw, parse_ld hm]
  simp [parseLd, f0, f1, f2, f3, f4, f5]

theorem st (b a : Fin 32) (w c : Fin 4) (o : Fin 2048) : Statement (.st b a w c o) := by
  refine core rfl ?_
  obtain ⟨fs, hf⟩ : ∃ fs : List Field, fs = [⟨0, 11, o⟩, ⟨11, 2, c⟩, ⟨13, 2, w⟩, ⟨15, 5, a⟩, ⟨20, 5, b⟩] := ⟨_, rfl⟩
  have hp : places fs = [(0, 11), (11, 2), (13, 2), (15, 5), (20, 5)] := by rw [hf]; rfl
  have ho : ok 1375731712 fs = true := sound_ok _ _ (by rw [hp]; decide +kernel)
  obtain ⟨x, hx⟩ : ∃ x, x = word 1375731712 fs := ⟨_, rfl⟩
  have hw : encode (.st b a w c o) = x := by rw [hx, hf, word_low]; rfl
  have f0 : fld x 20 5 = b := by rw [hx]; exact fld_eq (field_eq ⟨20, 5, b⟩ 4 ho (by rw [hf]; rfl))
  have f1 : fld x 15 5 = a := by rw [hx]; exact fld_eq (field_eq ⟨15, 5, a⟩ 3 ho (by rw [hf]; rfl))
  have f2 : fld x 13 2 = w := by rw [hx]; exact fld_eq (field_eq ⟨13, 2, w⟩ 2 ho (by rw [hf]; rfl))
  have f3 : fld x 11 2 = c := by rw [hx]; exact fld_eq (field_eq ⟨11, 2, c⟩ 1 ho (by rw [hf]; rfl))
  have f4 : fld x 0 11 = o := by rw [hx]; exact fld_eq (field_eq ⟨0, 11, o⟩ 0 ho (by rw [hf]; rfl))
  have hm : x / 33554432 % 128 = 41 := by rw [hx]; exact const_eq 25 7 _ ho (by rw [hp]; decide +kernel)
  clear hx ho hp hf fs
  rw [hw, parse_st hm]
  simp [parseSt, f0, f1, f2, f3, f4]

theorem ldx (d : Fin 16) (a b : Fin 32) (w : Fin 4) (s : Fin 2) (c : Fin 4) (k : Fin 2) : Statement (.ldx d a b w s c k) := by
  refine core rfl ?_
  obtain ⟨fs, hf⟩ : ∃ fs : List Field, fs = [⟨5, 1, k⟩, ⟨6, 2, c⟩, ⟨8, 1, s⟩, ⟨9, 2, w⟩, ⟨11, 5, b⟩, ⟨16, 5, a⟩, ⟨21, 4, d⟩]
      := ⟨_, rfl⟩
  have hp : places fs = [(5, 1), (6, 2), (8, 1), (9, 2), (11, 5), (16, 5), (21, 4)] := by rw [hf]; rfl
  have ho : ok 1409286144 fs = true := sound_ok _ _ (by rw [hp]; decide +kernel)
  obtain ⟨x, hx⟩ : ∃ x, x = word 1409286144 fs := ⟨_, rfl⟩
  have hw : encode (.ldx d a b w s c k) = x := by rw [hx, hf]; rfl
  have h0 : x % 32 = 0 := by rw [hx]; exact low_eq 5 _ ho (by rw [hp]; decide +kernel)
  have f0 : fld x 21 4 = d := by rw [hx]; exact fld_eq (field_eq ⟨21, 4, d⟩ 6 ho (by rw [hf]; rfl))
  have f1 : fld x 16 5 = a := by rw [hx]; exact fld_eq (field_eq ⟨16, 5, a⟩ 5 ho (by rw [hf]; rfl))
  have f2 : fld x 11 5 = b := by rw [hx]; exact fld_eq (field_eq ⟨11, 5, b⟩ 4 ho (by rw [hf]; rfl))
  have f3 : fld x 9 2 = w := by rw [hx]; exact fld_eq (field_eq ⟨9, 2, w⟩ 3 ho (by rw [hf]; rfl))
  have f4 : fld x 8 1 = s := by rw [hx]; exact fld_eq (field_eq ⟨8, 1, s⟩ 2 ho (by rw [hf]; rfl))
  have f5 : fld x 6 2 = c := by rw [hx]; exact fld_eq (field_eq ⟨6, 2, c⟩ 1 ho (by rw [hf]; rfl))
  have f6 : fld x 5 1 = k := by rw [hx]; exact fld_eq (field_eq ⟨5, 1, k⟩ 0 ho (by rw [hf]; rfl))
  have hm : x / 33554432 % 128 = 42 := by rw [hx]; exact const_eq 25 7 _ ho (by rw [hp]; decide +kernel)
  clear hx ho hp hf fs
  rw [hw, parse_ldx hm]
  simp [parseLdx, h0, f0, f1, f2, f3, f4, f5, f6]

theorem stx (d : Fin 16) (a b : Fin 32) (w c : Fin 4) (k : Fin 2) : Statement (.stx d a b w c k) := by
  refine core rfl ?_
  obtain ⟨fs, hf⟩ : ∃ fs : List Field, fs = [⟨5, 1, k⟩, ⟨6, 2, c⟩, ⟨9, 2, w⟩, ⟨11, 5, b⟩, ⟨16, 5, a⟩, ⟨21, 4, d⟩] := ⟨_, rfl⟩
  have hp : places fs = [(5, 1), (6, 2), (9, 2), (11, 5), (16, 5), (21, 4)] := by rw [hf]; rfl
  have ho : ok 1442840576 fs = true := sound_ok _ _ (by rw [hp]; decide +kernel)
  obtain ⟨x, hx⟩ : ∃ x, x = word 1442840576 fs := ⟨_, rfl⟩
  have hw : encode (.stx d a b w c k) = x := by rw [hx, hf]; rfl
  have h0 : x % 32 = 0 := by rw [hx]; exact low_eq 5 _ ho (by rw [hp]; decide +kernel)
  have h1 : x / 256 % 2 = 0 := by rw [hx]; exact const_eq 8 1 _ ho (by rw [hp]; decide +kernel)
  have f0 : fld x 21 4 = d := by rw [hx]; exact fld_eq (field_eq ⟨21, 4, d⟩ 5 ho (by rw [hf]; rfl))
  have f1 : fld x 16 5 = a := by rw [hx]; exact fld_eq (field_eq ⟨16, 5, a⟩ 4 ho (by rw [hf]; rfl))
  have f2 : fld x 11 5 = b := by rw [hx]; exact fld_eq (field_eq ⟨11, 5, b⟩ 3 ho (by rw [hf]; rfl))
  have f3 : fld x 9 2 = w := by rw [hx]; exact fld_eq (field_eq ⟨9, 2, w⟩ 2 ho (by rw [hf]; rfl))
  have f4 : fld x 6 2 = c := by rw [hx]; exact fld_eq (field_eq ⟨6, 2, c⟩ 1 ho (by rw [hf]; rfl))
  have f5 : fld x 5 1 = k := by rw [hx]; exact fld_eq (field_eq ⟨5, 1, k⟩ 0 ho (by rw [hf]; rfl))
  have hm : x / 33554432 % 128 = 43 := by rw [hx]; exact const_eq 25 7 _ ho (by rw [hp]; decide +kernel)
  clear hx ho hp hf fs
  rw [hw, parse_stx hm]
  simp [parseStx, h0, h1, f0, f1, f2, f3, f4, f5]

theorem ldAcq (d : Fin 16) (a : Fin 32) (p : Fin 8) (w : Fin 4) (s : Fin 2) : Statement (.ldAcq d a p w s) := by
  refine core rfl ?_
  obtain ⟨fs, hf⟩ : ∃ fs : List Field, fs = [⟨3, 1, s⟩, ⟨4, 2, w⟩, ⟨6, 3, p⟩, ⟨16, 5, a⟩, ⟨21, 4, d⟩] := ⟨_, rfl⟩
  have hp : places fs = [(3, 1), (4, 2), (6, 3), (16, 5), (21, 4)] := by rw [hf]; rfl
  have ho : ok 1476395008 fs = true := sound_ok _ _ (by rw [hp]; decide +kernel)
  obtain ⟨x, hx⟩ : ∃ x, x = word 1476395008 fs := ⟨_, rfl⟩
  have hw : encode (.ldAcq d a p w s) = x := by rw [hx, hf]; rfl
  have h0 : x % 8 = 0 := by rw [hx]; exact low_eq 3 _ ho (by rw [hp]; decide +kernel)
  have h1 : x / 512 % 128 = 0 := by rw [hx]; exact const_eq 9 7 _ ho (by rw [hp]; decide +kernel)
  have f0 : fld x 21 4 = d := by rw [hx]; exact fld_eq (field_eq ⟨21, 4, d⟩ 4 ho (by rw [hf]; rfl))
  have f1 : fld x 16 5 = a := by rw [hx]; exact fld_eq (field_eq ⟨16, 5, a⟩ 3 ho (by rw [hf]; rfl))
  have f2 : fld x 6 3 = p := by rw [hx]; exact fld_eq (field_eq ⟨6, 3, p⟩ 2 ho (by rw [hf]; rfl))
  have f3 : fld x 4 2 = w := by rw [hx]; exact fld_eq (field_eq ⟨4, 2, w⟩ 1 ho (by rw [hf]; rfl))
  have f4 : fld x 3 1 = s := by rw [hx]; exact fld_eq (field_eq ⟨3, 1, s⟩ 0 ho (by rw [hf]; rfl))
  have hm : x / 33554432 % 128 = 44 := by rw [hx]; exact const_eq 25 7 _ ho (by rw [hp]; decide +kernel)
  clear hx ho hp hf fs
  rw [hw, parse_ordered hm]
  simp [parseOrdered, h0, h1, f0, f1, f2, f3, f4]

theorem stRel (a b : Fin 32) (p : Fin 8) (w : Fin 4) : Statement (.stRel a b p w) := by
  refine core rfl ?_
  obtain ⟨fs, hf⟩ : ∃ fs : List Field, fs = [⟨4, 2, w⟩, ⟨6, 3, p⟩, ⟨11, 5, b⟩, ⟨16, 5, a⟩] := ⟨_, rfl⟩
  have hp : places fs = [(4, 2), (6, 3), (11, 5), (16, 5)] := by rw [hf]; rfl
  have ho : ok 1476395520 fs = true := sound_ok _ _ (by rw [hp]; decide +kernel)
  obtain ⟨x, hx⟩ : ∃ x, x = word 1476395520 fs := ⟨_, rfl⟩
  have hw : encode (.stRel a b p w) = x := by rw [hx, hf]; rfl
  have h0 : x / 512 % 128 ≠ 0 := by rw [hx]; exact slice_ne 9 7 0 _ 1 ho (by rw [hp]; decide +kernel) (by decide) (by
      decide +kernel)
  have h1 : x % 16 = 0 := by rw [hx]; exact low_eq 4 _ ho (by rw [hp]; decide +kernel)
  have h2 : x / 512 % 4 = 1 := by rw [hx]; exact const_eq 9 2 _ ho (by rw [hp]; decide +kernel)
  have h3 : x / 2097152 % 16 = 0 := by rw [hx]; exact const_eq 21 4 _ ho (by rw [hp]; decide +kernel)
  have f0 : fld x 16 5 = a := by rw [hx]; exact fld_eq (field_eq ⟨16, 5, a⟩ 3 ho (by rw [hf]; rfl))
  have f1 : fld x 11 5 = b := by rw [hx]; exact fld_eq (field_eq ⟨11, 5, b⟩ 2 ho (by rw [hf]; rfl))
  have f2 : fld x 6 3 = p := by rw [hx]; exact fld_eq (field_eq ⟨6, 3, p⟩ 1 ho (by rw [hf]; rfl))
  have f3 : fld x 4 2 = w := by rw [hx]; exact fld_eq (field_eq ⟨4, 2, w⟩ 0 ho (by rw [hf]; rfl))
  have hm : x / 33554432 % 128 = 44 := by rw [hx]; exact const_eq 25 7 _ ho (by rw [hp]; decide +kernel)
  clear hx ho hp hf fs
  rw [hw, parse_ordered hm]
  simp [parseOrdered, h0, h1, h2, h3, f0, f1, f2, f3]

theorem ldSc (d : Fin 16) (a : Fin 32) (p : Fin 8) (w : Fin 4) (s : Fin 2) : Statement (.ldSc d a p w s) := by
  refine core rfl ?_
  obtain ⟨fs, hf⟩ : ∃ fs : List Field, fs = [⟨3, 1, s⟩, ⟨4, 2, w⟩, ⟨6, 3, p⟩, ⟨16, 5, a⟩, ⟨21, 4, d⟩] := ⟨_, rfl⟩
  have hp : places fs = [(3, 1), (4, 2), (6, 3), (16, 5), (21, 4)] := by rw [hf]; rfl
  have ho : ok 1476396032 fs = true := sound_ok _ _ (by rw [hp]; decide +kernel)
  obtain ⟨x, hx⟩ : ∃ x, x = word 1476396032 fs := ⟨_, rfl⟩
  have hw : encode (.ldSc d a p w s) = x := by rw [hx, hf]; rfl
  have h0 : x / 512 % 128 = 2 := by rw [hx]; exact const_eq 9 7 _ ho (by rw [hp]; decide +kernel)
  have h1 : x / 512 % 4 = 2 := by rw [hx]; exact const_eq 9 2 _ ho (by rw [hp]; decide +kernel)
  have h2 : x % 8 = 0 := by rw [hx]; exact low_eq 3 _ ho (by rw [hp]; decide +kernel)
  have f0 : fld x 21 4 = d := by rw [hx]; exact fld_eq (field_eq ⟨21, 4, d⟩ 4 ho (by rw [hf]; rfl))
  have f1 : fld x 16 5 = a := by rw [hx]; exact fld_eq (field_eq ⟨16, 5, a⟩ 3 ho (by rw [hf]; rfl))
  have f2 : fld x 6 3 = p := by rw [hx]; exact fld_eq (field_eq ⟨6, 3, p⟩ 2 ho (by rw [hf]; rfl))
  have f3 : fld x 4 2 = w := by rw [hx]; exact fld_eq (field_eq ⟨4, 2, w⟩ 1 ho (by rw [hf]; rfl))
  have f4 : fld x 3 1 = s := by rw [hx]; exact fld_eq (field_eq ⟨3, 1, s⟩ 0 ho (by rw [hf]; rfl))
  have hm : x / 33554432 % 128 = 44 := by rw [hx]; exact const_eq 25 7 _ ho (by rw [hp]; decide +kernel)
  clear hx ho hp hf fs
  rw [hw, parse_ordered hm]
  simp [parseOrdered, h0, h1, h2, f0, f1, f2, f3, f4]

theorem stSc (a b : Fin 32) (p : Fin 8) (w : Fin 4) : Statement (.stSc a b p w) := by
  refine core rfl ?_
  obtain ⟨fs, hf⟩ : ∃ fs : List Field, fs = [⟨4, 2, w⟩, ⟨6, 3, p⟩, ⟨11, 5, b⟩, ⟨16, 5, a⟩] := ⟨_, rfl⟩
  have hp : places fs = [(4, 2), (6, 3), (11, 5), (16, 5)] := by rw [hf]; rfl
  have ho : ok 1476396544 fs = true := sound_ok _ _ (by rw [hp]; decide +kernel)
  obtain ⟨x, hx⟩ : ∃ x, x = word 1476396544 fs := ⟨_, rfl⟩
  have hw : encode (.stSc a b p w) = x := by rw [hx, hf]; rfl
  have h0 : x / 512 % 128 ≠ 0 := by rw [hx]; exact slice_ne 9 7 0 _ 1 ho (by rw [hp]; decide +kernel) (by decide) (by
      decide +kernel)
  have h1 : x / 512 % 4 = 3 := by rw [hx]; exact const_eq 9 2 _ ho (by rw [hp]; decide +kernel)
  have h2 : x / 512 % 128 ≠ 2 := by rw [hx]; exact slice_ne 9 7 0 _ 1 ho (by rw [hp]; decide +kernel) (by decide) (by
      decide +kernel)
  have h3 : x % 16 = 0 := by rw [hx]; exact low_eq 4 _ ho (by rw [hp]; decide +kernel)
  have h4 : x / 2097152 % 16 = 0 := by rw [hx]; exact const_eq 21 4 _ ho (by rw [hp]; decide +kernel)
  have f0 : fld x 16 5 = a := by rw [hx]; exact fld_eq (field_eq ⟨16, 5, a⟩ 3 ho (by rw [hf]; rfl))
  have f1 : fld x 11 5 = b := by rw [hx]; exact fld_eq (field_eq ⟨11, 5, b⟩ 2 ho (by rw [hf]; rfl))
  have f2 : fld x 6 3 = p := by rw [hx]; exact fld_eq (field_eq ⟨6, 3, p⟩ 1 ho (by rw [hf]; rfl))
  have f3 : fld x 4 2 = w := by rw [hx]; exact fld_eq (field_eq ⟨4, 2, w⟩ 0 ho (by rw [hf]; rfl))
  have hm : x / 33554432 % 128 = 44 := by rw [hx]; exact const_eq 25 7 _ ho (by rw [hp]; decide +kernel)
  clear hx ho hp hf fs
  rw [hw, parse_ordered hm]
  simp [parseOrdered, h0, h1, h2, h3, h4, f0, f1, f2, f3]

theorem amoAdd (d : Fin 16) (a b : Fin 32) (p : Fin 8) (o : Fin 4) (w : Fin 2) : Statement (.amoAdd d a b p o w) := by
  refine core rfl ?_
  obtain ⟨fs, hf⟩ : ∃ fs : List Field, fs = [⟨0, 1, w⟩, ⟨6, 2, o⟩, ⟨8, 3, p⟩, ⟨11, 5, b⟩, ⟨16, 5, a⟩, ⟨21, 4, d⟩] := ⟨_, rfl⟩
  have hp : places fs = [(0, 1), (6, 2), (8, 3), (11, 5), (16, 5), (21, 4)] := by rw [hf]; rfl
  have ho : ok 1509949440 fs = true := sound_ok _ _ (by rw [hp]; decide +kernel)
  obtain ⟨x, hx⟩ : ∃ x, x = word 1509949440 fs := ⟨_, rfl⟩
  have hw : encode (.amoAdd d a b p o w) = x := by rw [hx, hf, word_low]; rfl
  have h0 : x / 2 % 32 = 0 := by rw [hx]; exact const_eq 1 5 _ ho (by rw [hp]; decide +kernel)
  have f0 : fld x 21 4 = d := by rw [hx]; exact fld_eq (field_eq ⟨21, 4, d⟩ 5 ho (by rw [hf]; rfl))
  have f1 : fld x 16 5 = a := by rw [hx]; exact fld_eq (field_eq ⟨16, 5, a⟩ 4 ho (by rw [hf]; rfl))
  have f2 : fld x 11 5 = b := by rw [hx]; exact fld_eq (field_eq ⟨11, 5, b⟩ 3 ho (by rw [hf]; rfl))
  have f3 : fld x 8 3 = p := by rw [hx]; exact fld_eq (field_eq ⟨8, 3, p⟩ 2 ho (by rw [hf]; rfl))
  have f4 : fld x 6 2 = o := by rw [hx]; exact fld_eq (field_eq ⟨6, 2, o⟩ 1 ho (by rw [hf]; rfl))
  have f5 : fld x 0 1 = w := by rw [hx]; exact fld_eq (field_eq ⟨0, 1, w⟩ 0 ho (by rw [hf]; rfl))
  have hm : x / 33554432 % 128 = 45 := by rw [hx]; exact const_eq 25 7 _ ho (by rw [hp]; decide +kernel)
  clear hx ho hp hf fs
  rw [hw, parse_amo hm]
  simp [parseAmo, h0, f0, f1, f2, f3, f4, f5]

theorem amoAnd (d : Fin 16) (a b : Fin 32) (p : Fin 8) (o : Fin 4) (w : Fin 2) : Statement (.amoAnd d a b p o w) := by
  refine core rfl ?_
  obtain ⟨fs, hf⟩ : ∃ fs : List Field, fs = [⟨0, 1, w⟩, ⟨6, 2, o⟩, ⟨8, 3, p⟩, ⟨11, 5, b⟩, ⟨16, 5, a⟩, ⟨21, 4, d⟩] := ⟨_, rfl⟩
  have hp : places fs = [(0, 1), (6, 2), (8, 3), (11, 5), (16, 5), (21, 4)] := by rw [hf]; rfl
  have ho : ok 1509949442 fs = true := sound_ok _ _ (by rw [hp]; decide +kernel)
  obtain ⟨x, hx⟩ : ∃ x, x = word 1509949442 fs := ⟨_, rfl⟩
  have hw : encode (.amoAnd d a b p o w) = x := by rw [hx, hf, word_low]; rfl
  have h0 : x / 2 % 32 = 1 := by rw [hx]; exact const_eq 1 5 _ ho (by rw [hp]; decide +kernel)
  have f0 : fld x 21 4 = d := by rw [hx]; exact fld_eq (field_eq ⟨21, 4, d⟩ 5 ho (by rw [hf]; rfl))
  have f1 : fld x 16 5 = a := by rw [hx]; exact fld_eq (field_eq ⟨16, 5, a⟩ 4 ho (by rw [hf]; rfl))
  have f2 : fld x 11 5 = b := by rw [hx]; exact fld_eq (field_eq ⟨11, 5, b⟩ 3 ho (by rw [hf]; rfl))
  have f3 : fld x 8 3 = p := by rw [hx]; exact fld_eq (field_eq ⟨8, 3, p⟩ 2 ho (by rw [hf]; rfl))
  have f4 : fld x 6 2 = o := by rw [hx]; exact fld_eq (field_eq ⟨6, 2, o⟩ 1 ho (by rw [hf]; rfl))
  have f5 : fld x 0 1 = w := by rw [hx]; exact fld_eq (field_eq ⟨0, 1, w⟩ 0 ho (by rw [hf]; rfl))
  have hm : x / 33554432 % 128 = 45 := by rw [hx]; exact const_eq 25 7 _ ho (by rw [hp]; decide +kernel)
  clear hx ho hp hf fs
  rw [hw, parse_amo hm]
  simp [parseAmo, h0, f0, f1, f2, f3, f4, f5]

theorem amoOr (d : Fin 16) (a b : Fin 32) (p : Fin 8) (o : Fin 4) (w : Fin 2) : Statement (.amoOr d a b p o w) := by
  refine core rfl ?_
  obtain ⟨fs, hf⟩ : ∃ fs : List Field, fs = [⟨0, 1, w⟩, ⟨6, 2, o⟩, ⟨8, 3, p⟩, ⟨11, 5, b⟩, ⟨16, 5, a⟩, ⟨21, 4, d⟩] := ⟨_, rfl⟩
  have hp : places fs = [(0, 1), (6, 2), (8, 3), (11, 5), (16, 5), (21, 4)] := by rw [hf]; rfl
  have ho : ok 1509949444 fs = true := sound_ok _ _ (by rw [hp]; decide +kernel)
  obtain ⟨x, hx⟩ : ∃ x, x = word 1509949444 fs := ⟨_, rfl⟩
  have hw : encode (.amoOr d a b p o w) = x := by rw [hx, hf, word_low]; rfl
  have h0 : x / 2 % 32 = 2 := by rw [hx]; exact const_eq 1 5 _ ho (by rw [hp]; decide +kernel)
  have f0 : fld x 21 4 = d := by rw [hx]; exact fld_eq (field_eq ⟨21, 4, d⟩ 5 ho (by rw [hf]; rfl))
  have f1 : fld x 16 5 = a := by rw [hx]; exact fld_eq (field_eq ⟨16, 5, a⟩ 4 ho (by rw [hf]; rfl))
  have f2 : fld x 11 5 = b := by rw [hx]; exact fld_eq (field_eq ⟨11, 5, b⟩ 3 ho (by rw [hf]; rfl))
  have f3 : fld x 8 3 = p := by rw [hx]; exact fld_eq (field_eq ⟨8, 3, p⟩ 2 ho (by rw [hf]; rfl))
  have f4 : fld x 6 2 = o := by rw [hx]; exact fld_eq (field_eq ⟨6, 2, o⟩ 1 ho (by rw [hf]; rfl))
  have f5 : fld x 0 1 = w := by rw [hx]; exact fld_eq (field_eq ⟨0, 1, w⟩ 0 ho (by rw [hf]; rfl))
  have hm : x / 33554432 % 128 = 45 := by rw [hx]; exact const_eq 25 7 _ ho (by rw [hp]; decide +kernel)
  clear hx ho hp hf fs
  rw [hw, parse_amo hm]
  simp [parseAmo, h0, f0, f1, f2, f3, f4, f5]

theorem amoXor (d : Fin 16) (a b : Fin 32) (p : Fin 8) (o : Fin 4) (w : Fin 2) : Statement (.amoXor d a b p o w) := by
  refine core rfl ?_
  obtain ⟨fs, hf⟩ : ∃ fs : List Field, fs = [⟨0, 1, w⟩, ⟨6, 2, o⟩, ⟨8, 3, p⟩, ⟨11, 5, b⟩, ⟨16, 5, a⟩, ⟨21, 4, d⟩] := ⟨_, rfl⟩
  have hp : places fs = [(0, 1), (6, 2), (8, 3), (11, 5), (16, 5), (21, 4)] := by rw [hf]; rfl
  have ho : ok 1509949446 fs = true := sound_ok _ _ (by rw [hp]; decide +kernel)
  obtain ⟨x, hx⟩ : ∃ x, x = word 1509949446 fs := ⟨_, rfl⟩
  have hw : encode (.amoXor d a b p o w) = x := by rw [hx, hf, word_low]; rfl
  have h0 : x / 2 % 32 = 3 := by rw [hx]; exact const_eq 1 5 _ ho (by rw [hp]; decide +kernel)
  have f0 : fld x 21 4 = d := by rw [hx]; exact fld_eq (field_eq ⟨21, 4, d⟩ 5 ho (by rw [hf]; rfl))
  have f1 : fld x 16 5 = a := by rw [hx]; exact fld_eq (field_eq ⟨16, 5, a⟩ 4 ho (by rw [hf]; rfl))
  have f2 : fld x 11 5 = b := by rw [hx]; exact fld_eq (field_eq ⟨11, 5, b⟩ 3 ho (by rw [hf]; rfl))
  have f3 : fld x 8 3 = p := by rw [hx]; exact fld_eq (field_eq ⟨8, 3, p⟩ 2 ho (by rw [hf]; rfl))
  have f4 : fld x 6 2 = o := by rw [hx]; exact fld_eq (field_eq ⟨6, 2, o⟩ 1 ho (by rw [hf]; rfl))
  have f5 : fld x 0 1 = w := by rw [hx]; exact fld_eq (field_eq ⟨0, 1, w⟩ 0 ho (by rw [hf]; rfl))
  have hm : x / 33554432 % 128 = 45 := by rw [hx]; exact const_eq 25 7 _ ho (by rw [hp]; decide +kernel)
  clear hx ho hp hf fs
  rw [hw, parse_amo hm]
  simp [parseAmo, h0, f0, f1, f2, f3, f4, f5]

theorem amoMin (d : Fin 16) (a b : Fin 32) (p : Fin 8) (o : Fin 4) (w : Fin 2) : Statement (.amoMin d a b p o w) := by
  refine core rfl ?_
  obtain ⟨fs, hf⟩ : ∃ fs : List Field, fs = [⟨0, 1, w⟩, ⟨6, 2, o⟩, ⟨8, 3, p⟩, ⟨11, 5, b⟩, ⟨16, 5, a⟩, ⟨21, 4, d⟩] := ⟨_, rfl⟩
  have hp : places fs = [(0, 1), (6, 2), (8, 3), (11, 5), (16, 5), (21, 4)] := by rw [hf]; rfl
  have ho : ok 1509949448 fs = true := sound_ok _ _ (by rw [hp]; decide +kernel)
  obtain ⟨x, hx⟩ : ∃ x, x = word 1509949448 fs := ⟨_, rfl⟩
  have hw : encode (.amoMin d a b p o w) = x := by rw [hx, hf, word_low]; rfl
  have h0 : x / 2 % 32 = 4 := by rw [hx]; exact const_eq 1 5 _ ho (by rw [hp]; decide +kernel)
  have f0 : fld x 21 4 = d := by rw [hx]; exact fld_eq (field_eq ⟨21, 4, d⟩ 5 ho (by rw [hf]; rfl))
  have f1 : fld x 16 5 = a := by rw [hx]; exact fld_eq (field_eq ⟨16, 5, a⟩ 4 ho (by rw [hf]; rfl))
  have f2 : fld x 11 5 = b := by rw [hx]; exact fld_eq (field_eq ⟨11, 5, b⟩ 3 ho (by rw [hf]; rfl))
  have f3 : fld x 8 3 = p := by rw [hx]; exact fld_eq (field_eq ⟨8, 3, p⟩ 2 ho (by rw [hf]; rfl))
  have f4 : fld x 6 2 = o := by rw [hx]; exact fld_eq (field_eq ⟨6, 2, o⟩ 1 ho (by rw [hf]; rfl))
  have f5 : fld x 0 1 = w := by rw [hx]; exact fld_eq (field_eq ⟨0, 1, w⟩ 0 ho (by rw [hf]; rfl))
  have hm : x / 33554432 % 128 = 45 := by rw [hx]; exact const_eq 25 7 _ ho (by rw [hp]; decide +kernel)
  clear hx ho hp hf fs
  rw [hw, parse_amo hm]
  simp [parseAmo, h0, f0, f1, f2, f3, f4, f5]

theorem amoMax (d : Fin 16) (a b : Fin 32) (p : Fin 8) (o : Fin 4) (w : Fin 2) : Statement (.amoMax d a b p o w) := by
  refine core rfl ?_
  obtain ⟨fs, hf⟩ : ∃ fs : List Field, fs = [⟨0, 1, w⟩, ⟨6, 2, o⟩, ⟨8, 3, p⟩, ⟨11, 5, b⟩, ⟨16, 5, a⟩, ⟨21, 4, d⟩] := ⟨_, rfl⟩
  have hp : places fs = [(0, 1), (6, 2), (8, 3), (11, 5), (16, 5), (21, 4)] := by rw [hf]; rfl
  have ho : ok 1509949450 fs = true := sound_ok _ _ (by rw [hp]; decide +kernel)
  obtain ⟨x, hx⟩ : ∃ x, x = word 1509949450 fs := ⟨_, rfl⟩
  have hw : encode (.amoMax d a b p o w) = x := by rw [hx, hf, word_low]; rfl
  have h0 : x / 2 % 32 = 5 := by rw [hx]; exact const_eq 1 5 _ ho (by rw [hp]; decide +kernel)
  have f0 : fld x 21 4 = d := by rw [hx]; exact fld_eq (field_eq ⟨21, 4, d⟩ 5 ho (by rw [hf]; rfl))
  have f1 : fld x 16 5 = a := by rw [hx]; exact fld_eq (field_eq ⟨16, 5, a⟩ 4 ho (by rw [hf]; rfl))
  have f2 : fld x 11 5 = b := by rw [hx]; exact fld_eq (field_eq ⟨11, 5, b⟩ 3 ho (by rw [hf]; rfl))
  have f3 : fld x 8 3 = p := by rw [hx]; exact fld_eq (field_eq ⟨8, 3, p⟩ 2 ho (by rw [hf]; rfl))
  have f4 : fld x 6 2 = o := by rw [hx]; exact fld_eq (field_eq ⟨6, 2, o⟩ 1 ho (by rw [hf]; rfl))
  have f5 : fld x 0 1 = w := by rw [hx]; exact fld_eq (field_eq ⟨0, 1, w⟩ 0 ho (by rw [hf]; rfl))
  have hm : x / 33554432 % 128 = 45 := by rw [hx]; exact const_eq 25 7 _ ho (by rw [hp]; decide +kernel)
  clear hx ho hp hf fs
  rw [hw, parse_amo hm]
  simp [parseAmo, h0, f0, f1, f2, f3, f4, f5]

theorem amoMinz (d : Fin 16) (a b : Fin 32) (p : Fin 8) (o : Fin 4) (w : Fin 2) : Statement (.amoMinz d a b p o w) := by
  refine core rfl ?_
  obtain ⟨fs, hf⟩ : ∃ fs : List Field, fs = [⟨0, 1, w⟩, ⟨6, 2, o⟩, ⟨8, 3, p⟩, ⟨11, 5, b⟩, ⟨16, 5, a⟩, ⟨21, 4, d⟩] := ⟨_, rfl⟩
  have hp : places fs = [(0, 1), (6, 2), (8, 3), (11, 5), (16, 5), (21, 4)] := by rw [hf]; rfl
  have ho : ok 1509949452 fs = true := sound_ok _ _ (by rw [hp]; decide +kernel)
  obtain ⟨x, hx⟩ : ∃ x, x = word 1509949452 fs := ⟨_, rfl⟩
  have hw : encode (.amoMinz d a b p o w) = x := by rw [hx, hf, word_low]; rfl
  have h0 : x / 2 % 32 = 6 := by rw [hx]; exact const_eq 1 5 _ ho (by rw [hp]; decide +kernel)
  have f0 : fld x 21 4 = d := by rw [hx]; exact fld_eq (field_eq ⟨21, 4, d⟩ 5 ho (by rw [hf]; rfl))
  have f1 : fld x 16 5 = a := by rw [hx]; exact fld_eq (field_eq ⟨16, 5, a⟩ 4 ho (by rw [hf]; rfl))
  have f2 : fld x 11 5 = b := by rw [hx]; exact fld_eq (field_eq ⟨11, 5, b⟩ 3 ho (by rw [hf]; rfl))
  have f3 : fld x 8 3 = p := by rw [hx]; exact fld_eq (field_eq ⟨8, 3, p⟩ 2 ho (by rw [hf]; rfl))
  have f4 : fld x 6 2 = o := by rw [hx]; exact fld_eq (field_eq ⟨6, 2, o⟩ 1 ho (by rw [hf]; rfl))
  have f5 : fld x 0 1 = w := by rw [hx]; exact fld_eq (field_eq ⟨0, 1, w⟩ 0 ho (by rw [hf]; rfl))
  have hm : x / 33554432 % 128 = 45 := by rw [hx]; exact const_eq 25 7 _ ho (by rw [hp]; decide +kernel)
  clear hx ho hp hf fs
  rw [hw, parse_amo hm]
  simp [parseAmo, h0, f0, f1, f2, f3, f4, f5]

theorem amoMaxz (d : Fin 16) (a b : Fin 32) (p : Fin 8) (o : Fin 4) (w : Fin 2) : Statement (.amoMaxz d a b p o w) := by
  refine core rfl ?_
  obtain ⟨fs, hf⟩ : ∃ fs : List Field, fs = [⟨0, 1, w⟩, ⟨6, 2, o⟩, ⟨8, 3, p⟩, ⟨11, 5, b⟩, ⟨16, 5, a⟩, ⟨21, 4, d⟩] := ⟨_, rfl⟩
  have hp : places fs = [(0, 1), (6, 2), (8, 3), (11, 5), (16, 5), (21, 4)] := by rw [hf]; rfl
  have ho : ok 1509949454 fs = true := sound_ok _ _ (by rw [hp]; decide +kernel)
  obtain ⟨x, hx⟩ : ∃ x, x = word 1509949454 fs := ⟨_, rfl⟩
  have hw : encode (.amoMaxz d a b p o w) = x := by rw [hx, hf, word_low]; rfl
  have h0 : x / 2 % 32 = 7 := by rw [hx]; exact const_eq 1 5 _ ho (by rw [hp]; decide +kernel)
  have f0 : fld x 21 4 = d := by rw [hx]; exact fld_eq (field_eq ⟨21, 4, d⟩ 5 ho (by rw [hf]; rfl))
  have f1 : fld x 16 5 = a := by rw [hx]; exact fld_eq (field_eq ⟨16, 5, a⟩ 4 ho (by rw [hf]; rfl))
  have f2 : fld x 11 5 = b := by rw [hx]; exact fld_eq (field_eq ⟨11, 5, b⟩ 3 ho (by rw [hf]; rfl))
  have f3 : fld x 8 3 = p := by rw [hx]; exact fld_eq (field_eq ⟨8, 3, p⟩ 2 ho (by rw [hf]; rfl))
  have f4 : fld x 6 2 = o := by rw [hx]; exact fld_eq (field_eq ⟨6, 2, o⟩ 1 ho (by rw [hf]; rfl))
  have f5 : fld x 0 1 = w := by rw [hx]; exact fld_eq (field_eq ⟨0, 1, w⟩ 0 ho (by rw [hf]; rfl))
  have hm : x / 33554432 % 128 = 45 := by rw [hx]; exact const_eq 25 7 _ ho (by rw [hp]; decide +kernel)
  clear hx ho hp hf fs
  rw [hw, parse_amo hm]
  simp [parseAmo, h0, f0, f1, f2, f3, f4, f5]

theorem amoSwap (d : Fin 16) (a b : Fin 32) (p : Fin 8) (o : Fin 4) (w : Fin 2) : Statement (.amoSwap d a b p o w) := by
  refine core rfl ?_
  obtain ⟨fs, hf⟩ : ∃ fs : List Field, fs = [⟨0, 1, w⟩, ⟨6, 2, o⟩, ⟨8, 3, p⟩, ⟨11, 5, b⟩, ⟨16, 5, a⟩, ⟨21, 4, d⟩] := ⟨_, rfl⟩
  have hp : places fs = [(0, 1), (6, 2), (8, 3), (11, 5), (16, 5), (21, 4)] := by rw [hf]; rfl
  have ho : ok 1509949456 fs = true := sound_ok _ _ (by rw [hp]; decide +kernel)
  obtain ⟨x, hx⟩ : ∃ x, x = word 1509949456 fs := ⟨_, rfl⟩
  have hw : encode (.amoSwap d a b p o w) = x := by rw [hx, hf, word_low]; rfl
  have h0 : x / 2 % 32 = 8 := by rw [hx]; exact const_eq 1 5 _ ho (by rw [hp]; decide +kernel)
  have f0 : fld x 21 4 = d := by rw [hx]; exact fld_eq (field_eq ⟨21, 4, d⟩ 5 ho (by rw [hf]; rfl))
  have f1 : fld x 16 5 = a := by rw [hx]; exact fld_eq (field_eq ⟨16, 5, a⟩ 4 ho (by rw [hf]; rfl))
  have f2 : fld x 11 5 = b := by rw [hx]; exact fld_eq (field_eq ⟨11, 5, b⟩ 3 ho (by rw [hf]; rfl))
  have f3 : fld x 8 3 = p := by rw [hx]; exact fld_eq (field_eq ⟨8, 3, p⟩ 2 ho (by rw [hf]; rfl))
  have f4 : fld x 6 2 = o := by rw [hx]; exact fld_eq (field_eq ⟨6, 2, o⟩ 1 ho (by rw [hf]; rfl))
  have f5 : fld x 0 1 = w := by rw [hx]; exact fld_eq (field_eq ⟨0, 1, w⟩ 0 ho (by rw [hf]; rfl))
  have hm : x / 33554432 % 128 = 45 := by rw [hx]; exact const_eq 25 7 _ ho (by rw [hp]; decide +kernel)
  clear hx ho hp hf fs
  rw [hw, parse_amo hm]
  simp [parseAmo, h0, f0, f1, f2, f3, f4, f5]

theorem amoFadd (d : Fin 16) (a b : Fin 32) (p : Fin 8) (o : Fin 4) (w : Fin 2) : Statement (.amoFadd d a b p o w) := by
  refine core rfl ?_
  obtain ⟨fs, hf⟩ : ∃ fs : List Field, fs = [⟨0, 1, w⟩, ⟨6, 2, o⟩, ⟨8, 3, p⟩, ⟨11, 5, b⟩, ⟨16, 5, a⟩, ⟨21, 4, d⟩] := ⟨_, rfl⟩
  have hp : places fs = [(0, 1), (6, 2), (8, 3), (11, 5), (16, 5), (21, 4)] := by rw [hf]; rfl
  have ho : ok 1509949458 fs = true := sound_ok _ _ (by rw [hp]; decide +kernel)
  obtain ⟨x, hx⟩ : ∃ x, x = word 1509949458 fs := ⟨_, rfl⟩
  have hw : encode (.amoFadd d a b p o w) = x := by rw [hx, hf, word_low]; rfl
  have h0 : x / 2 % 32 = 9 := by rw [hx]; exact const_eq 1 5 _ ho (by rw [hp]; decide +kernel)
  have f0 : fld x 21 4 = d := by rw [hx]; exact fld_eq (field_eq ⟨21, 4, d⟩ 5 ho (by rw [hf]; rfl))
  have f1 : fld x 16 5 = a := by rw [hx]; exact fld_eq (field_eq ⟨16, 5, a⟩ 4 ho (by rw [hf]; rfl))
  have f2 : fld x 11 5 = b := by rw [hx]; exact fld_eq (field_eq ⟨11, 5, b⟩ 3 ho (by rw [hf]; rfl))
  have f3 : fld x 8 3 = p := by rw [hx]; exact fld_eq (field_eq ⟨8, 3, p⟩ 2 ho (by rw [hf]; rfl))
  have f4 : fld x 6 2 = o := by rw [hx]; exact fld_eq (field_eq ⟨6, 2, o⟩ 1 ho (by rw [hf]; rfl))
  have f5 : fld x 0 1 = w := by rw [hx]; exact fld_eq (field_eq ⟨0, 1, w⟩ 0 ho (by rw [hf]; rfl))
  have hm : x / 33554432 % 128 = 45 := by rw [hx]; exact const_eq 25 7 _ ho (by rw [hp]; decide +kernel)
  clear hx ho hp hf fs
  rw [hw, parse_amo hm]
  simp [parseAmo, h0, f0, f1, f2, f3, f4, f5]

theorem amoIncw (d : Fin 16) (a b : Fin 32) (p : Fin 8) (o : Fin 4) (w : Fin 2) : Statement (.amoIncw d a b p o w) := by
  refine core rfl ?_
  obtain ⟨fs, hf⟩ : ∃ fs : List Field, fs = [⟨0, 1, w⟩, ⟨6, 2, o⟩, ⟨8, 3, p⟩, ⟨11, 5, b⟩, ⟨16, 5, a⟩, ⟨21, 4, d⟩] := ⟨_, rfl⟩
  have hp : places fs = [(0, 1), (6, 2), (8, 3), (11, 5), (16, 5), (21, 4)] := by rw [hf]; rfl
  have ho : ok 1509949460 fs = true := sound_ok _ _ (by rw [hp]; decide +kernel)
  obtain ⟨x, hx⟩ : ∃ x, x = word 1509949460 fs := ⟨_, rfl⟩
  have hw : encode (.amoIncw d a b p o w) = x := by rw [hx, hf, word_low]; rfl
  have h0 : x / 2 % 32 = 10 := by rw [hx]; exact const_eq 1 5 _ ho (by rw [hp]; decide +kernel)
  have f0 : fld x 21 4 = d := by rw [hx]; exact fld_eq (field_eq ⟨21, 4, d⟩ 5 ho (by rw [hf]; rfl))
  have f1 : fld x 16 5 = a := by rw [hx]; exact fld_eq (field_eq ⟨16, 5, a⟩ 4 ho (by rw [hf]; rfl))
  have f2 : fld x 11 5 = b := by rw [hx]; exact fld_eq (field_eq ⟨11, 5, b⟩ 3 ho (by rw [hf]; rfl))
  have f3 : fld x 8 3 = p := by rw [hx]; exact fld_eq (field_eq ⟨8, 3, p⟩ 2 ho (by rw [hf]; rfl))
  have f4 : fld x 6 2 = o := by rw [hx]; exact fld_eq (field_eq ⟨6, 2, o⟩ 1 ho (by rw [hf]; rfl))
  have f5 : fld x 0 1 = w := by rw [hx]; exact fld_eq (field_eq ⟨0, 1, w⟩ 0 ho (by rw [hf]; rfl))
  have hm : x / 33554432 % 128 = 45 := by rw [hx]; exact const_eq 25 7 _ ho (by rw [hp]; decide +kernel)
  clear hx ho hp hf fs
  rw [hw, parse_amo hm]
  simp [parseAmo, h0, f0, f1, f2, f3, f4, f5]

theorem redAdd (a b : Fin 32) (p : Fin 8) (w : Fin 2) : Statement (.redAdd a b p w) := by
  refine core rfl ?_
  obtain ⟨fs, hf⟩ : ∃ fs : List Field, fs = [⟨0, 1, w⟩, ⟨8, 3, p⟩, ⟨11, 5, b⟩, ⟨16, 5, a⟩] := ⟨_, rfl⟩
  have hp : places fs = [(0, 1), (8, 3), (11, 5), (16, 5)] := by rw [hf]; rfl
  have ho : ok 1543503872 fs = true := sound_ok _ _ (by rw [hp]; decide +kernel)
  obtain ⟨x, hx⟩ : ∃ x, x = word 1543503872 fs := ⟨_, rfl⟩
  have hw : encode (.redAdd a b p w) = x := by rw [hx, hf, word_low]; rfl
  have h0 : x / 2 % 128 = 0 := by rw [hx]; exact const_eq 1 7 _ ho (by rw [hp]; decide +kernel)
  have h1 : x / 2097152 % 16 = 0 := by rw [hx]; exact const_eq 21 4 _ ho (by rw [hp]; decide +kernel)
  have f0 : fld x 16 5 = a := by rw [hx]; exact fld_eq (field_eq ⟨16, 5, a⟩ 3 ho (by rw [hf]; rfl))
  have f1 : fld x 11 5 = b := by rw [hx]; exact fld_eq (field_eq ⟨11, 5, b⟩ 2 ho (by rw [hf]; rfl))
  have f2 : fld x 8 3 = p := by rw [hx]; exact fld_eq (field_eq ⟨8, 3, p⟩ 1 ho (by rw [hf]; rfl))
  have f3 : fld x 0 1 = w := by rw [hx]; exact fld_eq (field_eq ⟨0, 1, w⟩ 0 ho (by rw [hf]; rfl))
  have hm : x / 33554432 % 128 = 46 := by rw [hx]; exact const_eq 25 7 _ ho (by rw [hp]; decide +kernel)
  clear hx ho hp hf fs
  rw [hw, parse_red hm]
  simp [parseRed, h0, h1, f0, f1, f2, f3]

theorem redAnd (a b : Fin 32) (p : Fin 8) (w : Fin 2) : Statement (.redAnd a b p w) := by
  refine core rfl ?_
  obtain ⟨fs, hf⟩ : ∃ fs : List Field, fs = [⟨0, 1, w⟩, ⟨8, 3, p⟩, ⟨11, 5, b⟩, ⟨16, 5, a⟩] := ⟨_, rfl⟩
  have hp : places fs = [(0, 1), (8, 3), (11, 5), (16, 5)] := by rw [hf]; rfl
  have ho : ok 1543503874 fs = true := sound_ok _ _ (by rw [hp]; decide +kernel)
  obtain ⟨x, hx⟩ : ∃ x, x = word 1543503874 fs := ⟨_, rfl⟩
  have hw : encode (.redAnd a b p w) = x := by rw [hx, hf, word_low]; rfl
  have h0 : x / 2 % 128 = 1 := by rw [hx]; exact const_eq 1 7 _ ho (by rw [hp]; decide +kernel)
  have h1 : x / 2097152 % 16 = 0 := by rw [hx]; exact const_eq 21 4 _ ho (by rw [hp]; decide +kernel)
  have f0 : fld x 16 5 = a := by rw [hx]; exact fld_eq (field_eq ⟨16, 5, a⟩ 3 ho (by rw [hf]; rfl))
  have f1 : fld x 11 5 = b := by rw [hx]; exact fld_eq (field_eq ⟨11, 5, b⟩ 2 ho (by rw [hf]; rfl))
  have f2 : fld x 8 3 = p := by rw [hx]; exact fld_eq (field_eq ⟨8, 3, p⟩ 1 ho (by rw [hf]; rfl))
  have f3 : fld x 0 1 = w := by rw [hx]; exact fld_eq (field_eq ⟨0, 1, w⟩ 0 ho (by rw [hf]; rfl))
  have hm : x / 33554432 % 128 = 46 := by rw [hx]; exact const_eq 25 7 _ ho (by rw [hp]; decide +kernel)
  clear hx ho hp hf fs
  rw [hw, parse_red hm]
  simp [parseRed, h0, h1, f0, f1, f2, f3]

theorem redOr (a b : Fin 32) (p : Fin 8) (w : Fin 2) : Statement (.redOr a b p w) := by
  refine core rfl ?_
  obtain ⟨fs, hf⟩ : ∃ fs : List Field, fs = [⟨0, 1, w⟩, ⟨8, 3, p⟩, ⟨11, 5, b⟩, ⟨16, 5, a⟩] := ⟨_, rfl⟩
  have hp : places fs = [(0, 1), (8, 3), (11, 5), (16, 5)] := by rw [hf]; rfl
  have ho : ok 1543503876 fs = true := sound_ok _ _ (by rw [hp]; decide +kernel)
  obtain ⟨x, hx⟩ : ∃ x, x = word 1543503876 fs := ⟨_, rfl⟩
  have hw : encode (.redOr a b p w) = x := by rw [hx, hf, word_low]; rfl
  have h0 : x / 2 % 128 = 2 := by rw [hx]; exact const_eq 1 7 _ ho (by rw [hp]; decide +kernel)
  have h1 : x / 2097152 % 16 = 0 := by rw [hx]; exact const_eq 21 4 _ ho (by rw [hp]; decide +kernel)
  have f0 : fld x 16 5 = a := by rw [hx]; exact fld_eq (field_eq ⟨16, 5, a⟩ 3 ho (by rw [hf]; rfl))
  have f1 : fld x 11 5 = b := by rw [hx]; exact fld_eq (field_eq ⟨11, 5, b⟩ 2 ho (by rw [hf]; rfl))
  have f2 : fld x 8 3 = p := by rw [hx]; exact fld_eq (field_eq ⟨8, 3, p⟩ 1 ho (by rw [hf]; rfl))
  have f3 : fld x 0 1 = w := by rw [hx]; exact fld_eq (field_eq ⟨0, 1, w⟩ 0 ho (by rw [hf]; rfl))
  have hm : x / 33554432 % 128 = 46 := by rw [hx]; exact const_eq 25 7 _ ho (by rw [hp]; decide +kernel)
  clear hx ho hp hf fs
  rw [hw, parse_red hm]
  simp [parseRed, h0, h1, f0, f1, f2, f3]

theorem redXor (a b : Fin 32) (p : Fin 8) (w : Fin 2) : Statement (.redXor a b p w) := by
  refine core rfl ?_
  obtain ⟨fs, hf⟩ : ∃ fs : List Field, fs = [⟨0, 1, w⟩, ⟨8, 3, p⟩, ⟨11, 5, b⟩, ⟨16, 5, a⟩] := ⟨_, rfl⟩
  have hp : places fs = [(0, 1), (8, 3), (11, 5), (16, 5)] := by rw [hf]; rfl
  have ho : ok 1543503878 fs = true := sound_ok _ _ (by rw [hp]; decide +kernel)
  obtain ⟨x, hx⟩ : ∃ x, x = word 1543503878 fs := ⟨_, rfl⟩
  have hw : encode (.redXor a b p w) = x := by rw [hx, hf, word_low]; rfl
  have h0 : x / 2 % 128 = 3 := by rw [hx]; exact const_eq 1 7 _ ho (by rw [hp]; decide +kernel)
  have h1 : x / 2097152 % 16 = 0 := by rw [hx]; exact const_eq 21 4 _ ho (by rw [hp]; decide +kernel)
  have f0 : fld x 16 5 = a := by rw [hx]; exact fld_eq (field_eq ⟨16, 5, a⟩ 3 ho (by rw [hf]; rfl))
  have f1 : fld x 11 5 = b := by rw [hx]; exact fld_eq (field_eq ⟨11, 5, b⟩ 2 ho (by rw [hf]; rfl))
  have f2 : fld x 8 3 = p := by rw [hx]; exact fld_eq (field_eq ⟨8, 3, p⟩ 1 ho (by rw [hf]; rfl))
  have f3 : fld x 0 1 = w := by rw [hx]; exact fld_eq (field_eq ⟨0, 1, w⟩ 0 ho (by rw [hf]; rfl))
  have hm : x / 33554432 % 128 = 46 := by rw [hx]; exact const_eq 25 7 _ ho (by rw [hp]; decide +kernel)
  clear hx ho hp hf fs
  rw [hw, parse_red hm]
  simp [parseRed, h0, h1, f0, f1, f2, f3]

theorem redMin (a b : Fin 32) (p : Fin 8) (w : Fin 2) : Statement (.redMin a b p w) := by
  refine core rfl ?_
  obtain ⟨fs, hf⟩ : ∃ fs : List Field, fs = [⟨0, 1, w⟩, ⟨8, 3, p⟩, ⟨11, 5, b⟩, ⟨16, 5, a⟩] := ⟨_, rfl⟩
  have hp : places fs = [(0, 1), (8, 3), (11, 5), (16, 5)] := by rw [hf]; rfl
  have ho : ok 1543503880 fs = true := sound_ok _ _ (by rw [hp]; decide +kernel)
  obtain ⟨x, hx⟩ : ∃ x, x = word 1543503880 fs := ⟨_, rfl⟩
  have hw : encode (.redMin a b p w) = x := by rw [hx, hf, word_low]; rfl
  have h0 : x / 2 % 128 = 4 := by rw [hx]; exact const_eq 1 7 _ ho (by rw [hp]; decide +kernel)
  have h1 : x / 2097152 % 16 = 0 := by rw [hx]; exact const_eq 21 4 _ ho (by rw [hp]; decide +kernel)
  have f0 : fld x 16 5 = a := by rw [hx]; exact fld_eq (field_eq ⟨16, 5, a⟩ 3 ho (by rw [hf]; rfl))
  have f1 : fld x 11 5 = b := by rw [hx]; exact fld_eq (field_eq ⟨11, 5, b⟩ 2 ho (by rw [hf]; rfl))
  have f2 : fld x 8 3 = p := by rw [hx]; exact fld_eq (field_eq ⟨8, 3, p⟩ 1 ho (by rw [hf]; rfl))
  have f3 : fld x 0 1 = w := by rw [hx]; exact fld_eq (field_eq ⟨0, 1, w⟩ 0 ho (by rw [hf]; rfl))
  have hm : x / 33554432 % 128 = 46 := by rw [hx]; exact const_eq 25 7 _ ho (by rw [hp]; decide +kernel)
  clear hx ho hp hf fs
  rw [hw, parse_red hm]
  simp [parseRed, h0, h1, f0, f1, f2, f3]

theorem redMax (a b : Fin 32) (p : Fin 8) (w : Fin 2) : Statement (.redMax a b p w) := by
  refine core rfl ?_
  obtain ⟨fs, hf⟩ : ∃ fs : List Field, fs = [⟨0, 1, w⟩, ⟨8, 3, p⟩, ⟨11, 5, b⟩, ⟨16, 5, a⟩] := ⟨_, rfl⟩
  have hp : places fs = [(0, 1), (8, 3), (11, 5), (16, 5)] := by rw [hf]; rfl
  have ho : ok 1543503882 fs = true := sound_ok _ _ (by rw [hp]; decide +kernel)
  obtain ⟨x, hx⟩ : ∃ x, x = word 1543503882 fs := ⟨_, rfl⟩
  have hw : encode (.redMax a b p w) = x := by rw [hx, hf, word_low]; rfl
  have h0 : x / 2 % 128 = 5 := by rw [hx]; exact const_eq 1 7 _ ho (by rw [hp]; decide +kernel)
  have h1 : x / 2097152 % 16 = 0 := by rw [hx]; exact const_eq 21 4 _ ho (by rw [hp]; decide +kernel)
  have f0 : fld x 16 5 = a := by rw [hx]; exact fld_eq (field_eq ⟨16, 5, a⟩ 3 ho (by rw [hf]; rfl))
  have f1 : fld x 11 5 = b := by rw [hx]; exact fld_eq (field_eq ⟨11, 5, b⟩ 2 ho (by rw [hf]; rfl))
  have f2 : fld x 8 3 = p := by rw [hx]; exact fld_eq (field_eq ⟨8, 3, p⟩ 1 ho (by rw [hf]; rfl))
  have f3 : fld x 0 1 = w := by rw [hx]; exact fld_eq (field_eq ⟨0, 1, w⟩ 0 ho (by rw [hf]; rfl))
  have hm : x / 33554432 % 128 = 46 := by rw [hx]; exact const_eq 25 7 _ ho (by rw [hp]; decide +kernel)
  clear hx ho hp hf fs
  rw [hw, parse_red hm]
  simp [parseRed, h0, h1, f0, f1, f2, f3]

theorem redMinz (a b : Fin 32) (p : Fin 8) (w : Fin 2) : Statement (.redMinz a b p w) := by
  refine core rfl ?_
  obtain ⟨fs, hf⟩ : ∃ fs : List Field, fs = [⟨0, 1, w⟩, ⟨8, 3, p⟩, ⟨11, 5, b⟩, ⟨16, 5, a⟩] := ⟨_, rfl⟩
  have hp : places fs = [(0, 1), (8, 3), (11, 5), (16, 5)] := by rw [hf]; rfl
  have ho : ok 1543503884 fs = true := sound_ok _ _ (by rw [hp]; decide +kernel)
  obtain ⟨x, hx⟩ : ∃ x, x = word 1543503884 fs := ⟨_, rfl⟩
  have hw : encode (.redMinz a b p w) = x := by rw [hx, hf, word_low]; rfl
  have h0 : x / 2 % 128 = 6 := by rw [hx]; exact const_eq 1 7 _ ho (by rw [hp]; decide +kernel)
  have h1 : x / 2097152 % 16 = 0 := by rw [hx]; exact const_eq 21 4 _ ho (by rw [hp]; decide +kernel)
  have f0 : fld x 16 5 = a := by rw [hx]; exact fld_eq (field_eq ⟨16, 5, a⟩ 3 ho (by rw [hf]; rfl))
  have f1 : fld x 11 5 = b := by rw [hx]; exact fld_eq (field_eq ⟨11, 5, b⟩ 2 ho (by rw [hf]; rfl))
  have f2 : fld x 8 3 = p := by rw [hx]; exact fld_eq (field_eq ⟨8, 3, p⟩ 1 ho (by rw [hf]; rfl))
  have f3 : fld x 0 1 = w := by rw [hx]; exact fld_eq (field_eq ⟨0, 1, w⟩ 0 ho (by rw [hf]; rfl))
  have hm : x / 33554432 % 128 = 46 := by rw [hx]; exact const_eq 25 7 _ ho (by rw [hp]; decide +kernel)
  clear hx ho hp hf fs
  rw [hw, parse_red hm]
  simp [parseRed, h0, h1, f0, f1, f2, f3]

theorem redMaxz (a b : Fin 32) (p : Fin 8) (w : Fin 2) : Statement (.redMaxz a b p w) := by
  refine core rfl ?_
  obtain ⟨fs, hf⟩ : ∃ fs : List Field, fs = [⟨0, 1, w⟩, ⟨8, 3, p⟩, ⟨11, 5, b⟩, ⟨16, 5, a⟩] := ⟨_, rfl⟩
  have hp : places fs = [(0, 1), (8, 3), (11, 5), (16, 5)] := by rw [hf]; rfl
  have ho : ok 1543503886 fs = true := sound_ok _ _ (by rw [hp]; decide +kernel)
  obtain ⟨x, hx⟩ : ∃ x, x = word 1543503886 fs := ⟨_, rfl⟩
  have hw : encode (.redMaxz a b p w) = x := by rw [hx, hf, word_low]; rfl
  have h0 : x / 2 % 128 = 7 := by rw [hx]; exact const_eq 1 7 _ ho (by rw [hp]; decide +kernel)
  have h1 : x / 2097152 % 16 = 0 := by rw [hx]; exact const_eq 21 4 _ ho (by rw [hp]; decide +kernel)
  have f0 : fld x 16 5 = a := by rw [hx]; exact fld_eq (field_eq ⟨16, 5, a⟩ 3 ho (by rw [hf]; rfl))
  have f1 : fld x 11 5 = b := by rw [hx]; exact fld_eq (field_eq ⟨11, 5, b⟩ 2 ho (by rw [hf]; rfl))
  have f2 : fld x 8 3 = p := by rw [hx]; exact fld_eq (field_eq ⟨8, 3, p⟩ 1 ho (by rw [hf]; rfl))
  have f3 : fld x 0 1 = w := by rw [hx]; exact fld_eq (field_eq ⟨0, 1, w⟩ 0 ho (by rw [hf]; rfl))
  have hm : x / 33554432 % 128 = 46 := by rw [hx]; exact const_eq 25 7 _ ho (by rw [hp]; decide +kernel)
  clear hx ho hp hf fs
  rw [hw, parse_red hm]
  simp [parseRed, h0, h1, f0, f1, f2, f3]

theorem redSwap (a b : Fin 32) (p : Fin 8) (w : Fin 2) : Statement (.redSwap a b p w) := by
  refine core rfl ?_
  obtain ⟨fs, hf⟩ : ∃ fs : List Field, fs = [⟨0, 1, w⟩, ⟨8, 3, p⟩, ⟨11, 5, b⟩, ⟨16, 5, a⟩] := ⟨_, rfl⟩
  have hp : places fs = [(0, 1), (8, 3), (11, 5), (16, 5)] := by rw [hf]; rfl
  have ho : ok 1543503888 fs = true := sound_ok _ _ (by rw [hp]; decide +kernel)
  obtain ⟨x, hx⟩ : ∃ x, x = word 1543503888 fs := ⟨_, rfl⟩
  have hw : encode (.redSwap a b p w) = x := by rw [hx, hf, word_low]; rfl
  have h0 : x / 2 % 128 = 8 := by rw [hx]; exact const_eq 1 7 _ ho (by rw [hp]; decide +kernel)
  have h1 : x / 2097152 % 16 = 0 := by rw [hx]; exact const_eq 21 4 _ ho (by rw [hp]; decide +kernel)
  have f0 : fld x 16 5 = a := by rw [hx]; exact fld_eq (field_eq ⟨16, 5, a⟩ 3 ho (by rw [hf]; rfl))
  have f1 : fld x 11 5 = b := by rw [hx]; exact fld_eq (field_eq ⟨11, 5, b⟩ 2 ho (by rw [hf]; rfl))
  have f2 : fld x 8 3 = p := by rw [hx]; exact fld_eq (field_eq ⟨8, 3, p⟩ 1 ho (by rw [hf]; rfl))
  have f3 : fld x 0 1 = w := by rw [hx]; exact fld_eq (field_eq ⟨0, 1, w⟩ 0 ho (by rw [hf]; rfl))
  have hm : x / 33554432 % 128 = 46 := by rw [hx]; exact const_eq 25 7 _ ho (by rw [hp]; decide +kernel)
  clear hx ho hp hf fs
  rw [hw, parse_red hm]
  simp [parseRed, h0, h1, f0, f1, f2, f3]

theorem redFadd (a b : Fin 32) (p : Fin 8) (w : Fin 2) : Statement (.redFadd a b p w) := by
  refine core rfl ?_
  obtain ⟨fs, hf⟩ : ∃ fs : List Field, fs = [⟨0, 1, w⟩, ⟨8, 3, p⟩, ⟨11, 5, b⟩, ⟨16, 5, a⟩] := ⟨_, rfl⟩
  have hp : places fs = [(0, 1), (8, 3), (11, 5), (16, 5)] := by rw [hf]; rfl
  have ho : ok 1543503890 fs = true := sound_ok _ _ (by rw [hp]; decide +kernel)
  obtain ⟨x, hx⟩ : ∃ x, x = word 1543503890 fs := ⟨_, rfl⟩
  have hw : encode (.redFadd a b p w) = x := by rw [hx, hf, word_low]; rfl
  have h0 : x / 2 % 128 = 9 := by rw [hx]; exact const_eq 1 7 _ ho (by rw [hp]; decide +kernel)
  have h1 : x / 2097152 % 16 = 0 := by rw [hx]; exact const_eq 21 4 _ ho (by rw [hp]; decide +kernel)
  have f0 : fld x 16 5 = a := by rw [hx]; exact fld_eq (field_eq ⟨16, 5, a⟩ 3 ho (by rw [hf]; rfl))
  have f1 : fld x 11 5 = b := by rw [hx]; exact fld_eq (field_eq ⟨11, 5, b⟩ 2 ho (by rw [hf]; rfl))
  have f2 : fld x 8 3 = p := by rw [hx]; exact fld_eq (field_eq ⟨8, 3, p⟩ 1 ho (by rw [hf]; rfl))
  have f3 : fld x 0 1 = w := by rw [hx]; exact fld_eq (field_eq ⟨0, 1, w⟩ 0 ho (by rw [hf]; rfl))
  have hm : x / 33554432 % 128 = 46 := by rw [hx]; exact const_eq 25 7 _ ho (by rw [hp]; decide +kernel)
  clear hx ho hp hf fs
  rw [hw, parse_red hm]
  simp [parseRed, h0, h1, f0, f1, f2, f3]

theorem cas (d : Fin 16) (a b : Fin 32) (p : Fin 8) (o : Fin 4) (w : Fin 2) (c : Fin 16) : Statement (.cas d a b p o w c) := by
  refine core rfl ?_
  obtain ⟨fs, hf⟩ : ∃ fs : List Field, fs = [⟨0, 4, c⟩, ⟨5, 1, w⟩, ⟨6, 2, o⟩, ⟨8, 3, p⟩, ⟨11, 5, b⟩, ⟨16, 5, a⟩, ⟨21, 4, d⟩]
      := ⟨_, rfl⟩
  have hp : places fs = [(0, 4), (5, 1), (6, 2), (8, 3), (11, 5), (16, 5), (21, 4)] := by rw [hf]; rfl
  have ho : ok 1577058304 fs = true := sound_ok _ _ (by rw [hp]; decide +kernel)
  obtain ⟨x, hx⟩ : ∃ x, x = word 1577058304 fs := ⟨_, rfl⟩
  have hw : encode (.cas d a b p o w c) = x := by rw [hx, hf, word_low]; rfl
  have h0 : x / 16 % 2 = 0 := by rw [hx]; exact const_eq 4 1 _ ho (by rw [hp]; decide +kernel)
  have f0 : fld x 21 4 = d := by rw [hx]; exact fld_eq (field_eq ⟨21, 4, d⟩ 6 ho (by rw [hf]; rfl))
  have f1 : fld x 16 5 = a := by rw [hx]; exact fld_eq (field_eq ⟨16, 5, a⟩ 5 ho (by rw [hf]; rfl))
  have f2 : fld x 11 5 = b := by rw [hx]; exact fld_eq (field_eq ⟨11, 5, b⟩ 4 ho (by rw [hf]; rfl))
  have f3 : fld x 8 3 = p := by rw [hx]; exact fld_eq (field_eq ⟨8, 3, p⟩ 3 ho (by rw [hf]; rfl))
  have f4 : fld x 6 2 = o := by rw [hx]; exact fld_eq (field_eq ⟨6, 2, o⟩ 2 ho (by rw [hf]; rfl))
  have f5 : fld x 5 1 = w := by rw [hx]; exact fld_eq (field_eq ⟨5, 1, w⟩ 1 ho (by rw [hf]; rfl))
  have f6 : fld x 0 4 = c := by rw [hx]; exact fld_eq (field_eq ⟨0, 4, c⟩ 0 ho (by rw [hf]; rfl))
  have hm : x / 33554432 % 128 = 47 := by rw [hx]; exact const_eq 25 7 _ ho (by rw [hp]; decide +kernel)
  clear hx ho hp hf fs
  rw [hw, parse_cas hm]
  simp [parseCas, h0, f0, f1, f2, f3, f4, f5, f6]

theorem fenceAcq (p : Fin 8) : Statement (.fenceAcq p) := by
  refine core rfl ?_
  obtain ⟨fs, hf⟩ : ∃ fs : List Field, fs = [⟨3, 3, p⟩] := ⟨_, rfl⟩
  have hp : places fs = [(3, 3)] := by rw [hf]; rfl
  have ho : ok 1610612736 fs = true := sound_ok _ _ (by rw [hp]; decide +kernel)
  obtain ⟨x, hx⟩ : ∃ x, x = word 1610612736 fs := ⟨_, rfl⟩
  have hw : encode (.fenceAcq p) = x := by rw [hx, hf]; rfl
  have h0 : x % 8 = 0 := by rw [hx]; exact low_eq 3 _ ho (by rw [hp]; decide +kernel)
  have h1 : x / 64 % 524288 = 0 := by rw [hx]; exact const_eq 6 19 _ ho (by rw [hp]; decide +kernel)
  have f0 : fld x 3 3 = p := by rw [hx]; exact fld_eq (field_eq ⟨3, 3, p⟩ 0 ho (by rw [hf]; rfl))
  have hm : x / 33554432 % 128 = 48 := by rw [hx]; exact const_eq 25 7 _ ho (by rw [hp]; decide +kernel)
  clear hx ho hp hf fs
  rw [hw, parse_fence hm]
  simp [parseFence, h0, h1, f0]

theorem fenceRel (p : Fin 8) : Statement (.fenceRel p) := by
  refine core rfl ?_
  obtain ⟨fs, hf⟩ : ∃ fs : List Field, fs = [⟨3, 3, p⟩] := ⟨_, rfl⟩
  have hp : places fs = [(3, 3)] := by rw [hf]; rfl
  have ho : ok 1610612800 fs = true := sound_ok _ _ (by rw [hp]; decide +kernel)
  obtain ⟨x, hx⟩ : ∃ x, x = word 1610612800 fs := ⟨_, rfl⟩
  have hw : encode (.fenceRel p) = x := by rw [hx, hf]; rfl
  have h0 : x / 64 % 524288 = 1 := by rw [hx]; exact const_eq 6 19 _ ho (by rw [hp]; decide +kernel)
  have h1 : x % 8 = 0 := by rw [hx]; exact low_eq 3 _ ho (by rw [hp]; decide +kernel)
  have f0 : fld x 3 3 = p := by rw [hx]; exact fld_eq (field_eq ⟨3, 3, p⟩ 0 ho (by rw [hf]; rfl))
  have hm : x / 33554432 % 128 = 48 := by rw [hx]; exact const_eq 25 7 _ ho (by rw [hp]; decide +kernel)
  clear hx ho hp hf fs
  rw [hw, parse_fence hm]
  simp [parseFence, h0, h1, f0]

theorem fenceFull (p : Fin 8) : Statement (.fenceFull p) := by
  refine core rfl ?_
  obtain ⟨fs, hf⟩ : ∃ fs : List Field, fs = [⟨3, 3, p⟩] := ⟨_, rfl⟩
  have hp : places fs = [(3, 3)] := by rw [hf]; rfl
  have ho : ok 1610612864 fs = true := sound_ok _ _ (by rw [hp]; decide +kernel)
  obtain ⟨x, hx⟩ : ∃ x, x = word 1610612864 fs := ⟨_, rfl⟩
  have hw : encode (.fenceFull p) = x := by rw [hx, hf]; rfl
  have h0 : x / 64 % 524288 = 2 := by rw [hx]; exact const_eq 6 19 _ ho (by rw [hp]; decide +kernel)
  have h1 : x % 8 = 0 := by rw [hx]; exact low_eq 3 _ ho (by rw [hp]; decide +kernel)
  have f0 : fld x 3 3 = p := by rw [hx]; exact fld_eq (field_eq ⟨3, 3, p⟩ 0 ho (by rw [hf]; rfl))
  have hm : x / 33554432 % 128 = 48 := by rw [hx]; exact const_eq 25 7 _ ho (by rw [hp]; decide +kernel)
  clear hx ho hp hf fs
  rw [hw, parse_fence hm]
  simp [parseFence, h0, h1, f0]

theorem pf (a : Fin 32) : Statement (.pf a) := by
  refine core rfl ?_
  obtain ⟨fs, hf⟩ : ∃ fs : List Field, fs = [⟨16, 5, a⟩] := ⟨_, rfl⟩
  have hp : places fs = [(16, 5)] := by rw [hf]; rfl
  have ho : ok 1610612928 fs = true := sound_ok _ _ (by rw [hp]; decide +kernel)
  obtain ⟨x, hx⟩ : ∃ x, x = word 1610612928 fs := ⟨_, rfl⟩
  have hw : encode (.pf a) = x := by rw [hx, hf]; rfl
  have h0 : x / 64 % 524288 ≠ 0 := by rw [hx]; exact slice_ne 6 19 0 _ 1 ho (by rw [hp]; decide +kernel) (by decide) (by
      decide +kernel)
  have h1 : x / 64 % 524288 ≠ 1 := by rw [hx]; exact slice_ne 6 19 1 _ 1 ho (by rw [hp]; decide +kernel) (by decide) (by
      decide +kernel)
  have h2 : x / 64 % 524288 ≠ 2 := by rw [hx]; exact slice_ne 6 19 0 _ 1 ho (by rw [hp]; decide +kernel) (by decide) (by
      decide +kernel)
  have h3 : x % 65536 = 192 := by rw [hx]; exact low_eq 16 _ ho (by rw [hp]; decide +kernel)
  have h4 : x / 2097152 % 16 = 0 := by rw [hx]; exact const_eq 21 4 _ ho (by rw [hp]; decide +kernel)
  have f0 : fld x 16 5 = a := by rw [hx]; exact fld_eq (field_eq ⟨16, 5, a⟩ 0 ho (by rw [hf]; rfl))
  have hm : x / 33554432 % 128 = 48 := by rw [hx]; exact const_eq 25 7 _ ho (by rw [hp]; decide +kernel)
  clear hx ho hp hf fs
  rw [hw, parse_fence hm]
  simp [parseFence, h0, h1, h2, h3, h4, f0]

theorem l1inv (a b : Fin 32) : Statement (.l1inv a b) := by
  refine core rfl ?_
  obtain ⟨fs, hf⟩ : ∃ fs : List Field, fs = [⟨11, 5, b⟩, ⟨16, 5, a⟩] := ⟨_, rfl⟩
  have hp : places fs = [(11, 5), (16, 5)] := by rw [hf]; rfl
  have ho : ok 1610612992 fs = true := sound_ok _ _ (by rw [hp]; decide +kernel)
  obtain ⟨x, hx⟩ : ∃ x, x = word 1610612992 fs := ⟨_, rfl⟩
  have hw : encode (.l1inv a b) = x := by rw [hx, hf]; rfl
  have h0 : x / 64 % 524288 ≠ 0 := by rw [hx]; exact slice_ne 6 19 2 _ 1 ho (by rw [hp]; decide +kernel) (by decide) (by
      decide +kernel)
  have h1 : x / 64 % 524288 ≠ 1 := by rw [hx]; exact slice_ne 6 19 0 _ 0 ho (by rw [hp]; decide +kernel) (by decide) (by
      decide +kernel)
  have h2 : x / 64 % 524288 ≠ 2 := by rw [hx]; exact slice_ne 6 19 1 _ 0 ho (by rw [hp]; decide +kernel) (by decide) (by
      decide +kernel)
  have h3 : x % 65536 ≠ 192 := by rw [hx]; exact low_ne 16 6 _ 0 ho (by rw [hp]; decide +kernel) (by decide) (by decide +kernel)
  have h4 : x % 2048 = 256 := by rw [hx]; exact low_eq 11 _ ho (by rw [hp]; decide +kernel)
  have h5 : x / 2097152 % 16 = 0 := by rw [hx]; exact const_eq 21 4 _ ho (by rw [hp]; decide +kernel)
  have f0 : fld x 16 5 = a := by rw [hx]; exact fld_eq (field_eq ⟨16, 5, a⟩ 1 ho (by rw [hf]; rfl))
  have f1 : fld x 11 5 = b := by rw [hx]; exact fld_eq (field_eq ⟨11, 5, b⟩ 0 ho (by rw [hf]; rfl))
  have hm : x / 33554432 % 128 = 48 := by rw [hx]; exact const_eq 25 7 _ ho (by rw [hp]; decide +kernel)
  clear hx ho hp hf fs
  rw [hw, parse_fence hm]
  simp [parseFence, h0, h1, h2, h3, h4, h5, f0, f1]

theorem sbind (s : Fin 8) (b : Fin 32) : Statement (.sbind s b) := by
  refine core rfl ?_
  obtain ⟨fs, hf⟩ : ∃ fs : List Field, fs = [⟨11, 5, b⟩, ⟨16, 3, s⟩] := ⟨_, rfl⟩
  have hp : places fs = [(11, 5), (16, 3)] := by rw [hf]; rfl
  have ho : ok 1644167168 fs = true := sound_ok _ _ (by rw [hp]; decide +kernel)
  obtain ⟨x, hx⟩ : ∃ x, x = word 1644167168 fs := ⟨_, rfl⟩
  have hw : encode (.sbind s b) = x := by rw [hx, hf]; rfl
  have h0 : x % 2048 = 0 := by rw [hx]; exact low_eq 11 _ ho (by rw [hp]; decide +kernel)
  have h1 : x / 524288 % 64 = 0 := by rw [hx]; exact const_eq 19 6 _ ho (by rw [hp]; decide +kernel)
  have f0 : fld x 16 3 = s := by rw [hx]; exact fld_eq (field_eq ⟨16, 3, s⟩ 1 ho (by rw [hf]; rfl))
  have f1 : fld x 11 5 = b := by rw [hx]; exact fld_eq (field_eq ⟨11, 5, b⟩ 0 ho (by rw [hf]; rfl))
  have hm : x / 33554432 % 128 = 49 := by rw [hx]; exact const_eq 25 7 _ ho (by rw [hp]; decide +kernel)
  clear hx ho hp hf fs
  rw [hw, parse_stream hm]
  simp [parseStream, h0, h1, f0, f1]

theorem sunbind (s : Fin 8) : Statement (.sunbind s) := by
  refine core rfl ?_
  obtain ⟨fs, hf⟩ : ∃ fs : List Field, fs = [⟨16, 3, s⟩] := ⟨_, rfl⟩
  have hp : places fs = [(16, 3)] := by rw [hf]; rfl
  have ho : ok 1644167232 fs = true := sound_ok _ _ (by rw [hp]; decide +kernel)
  obtain ⟨x, hx⟩ : ∃ x, x = word 1644167232 fs := ⟨_, rfl⟩
  have hw : encode (.sunbind s) = x := by rw [hx, hf]; rfl
  have h0 : x % 2048 = 64 := by rw [hx]; exact low_eq 11 _ ho (by rw [hp]; decide +kernel)
  have h1 : x % 65536 = 64 := by rw [hx]; exact low_eq 16 _ ho (by rw [hp]; decide +kernel)
  have h2 : x / 524288 % 64 = 0 := by rw [hx]; exact const_eq 19 6 _ ho (by rw [hp]; decide +kernel)
  have f0 : fld x 16 3 = s := by rw [hx]; exact fld_eq (field_eq ⟨16, 3, s⟩ 0 ho (by rw [hf]; rfl))
  have hm : x / 33554432 % 128 = 49 := by rw [hx]; exact const_eq 25 7 _ ho (by rw [hp]; decide +kernel)
  clear hx ho hp hf fs
  rw [hw, parse_stream hm]
  simp [parseStream, h0, h1, h2, f0]

theorem sstat (d : Fin 16) (s : Fin 8) : Statement (.sstat d s) := by
  refine core rfl ?_
  obtain ⟨fs, hf⟩ : ∃ fs : List Field, fs = [⟨16, 3, s⟩, ⟨21, 4, d⟩] := ⟨_, rfl⟩
  have hp : places fs = [(16, 3), (21, 4)] := by rw [hf]; rfl
  have ho : ok 1644167296 fs = true := sound_ok _ _ (by rw [hp]; decide +kernel)
  obtain ⟨x, hx⟩ : ∃ x, x = word 1644167296 fs := ⟨_, rfl⟩
  have hw : encode (.sstat d s) = x := by rw [hx, hf]; rfl
  have h0 : x % 2048 = 128 := by rw [hx]; exact low_eq 11 _ ho (by rw [hp]; decide +kernel)
  have h1 : x % 65536 = 128 := by rw [hx]; exact low_eq 16 _ ho (by rw [hp]; decide +kernel)
  have h2 : x / 524288 % 4 = 0 := by rw [hx]; exact const_eq 19 2 _ ho (by rw [hp]; decide +kernel)
  have f0 : fld x 21 4 = d := by rw [hx]; exact fld_eq (field_eq ⟨21, 4, d⟩ 1 ho (by rw [hf]; rfl))
  have f1 : fld x 16 3 = s := by rw [hx]; exact fld_eq (field_eq ⟨16, 3, s⟩ 0 ho (by rw [hf]; rfl))
  have hm : x / 33554432 % 128 = 49 := by rw [hx]; exact const_eq 25 7 _ ho (by rw [hp]; decide +kernel)
  clear hx ho hp hf fs
  rw [hw, parse_stream hm]
  simp [parseStream, h0, h1, h2, f0, f1]

theorem ejob (a : Fin 32) : Statement (.ejob a) := by
  refine core rfl ?_
  obtain ⟨fs, hf⟩ : ∃ fs : List Field, fs = [⟨16, 5, a⟩] := ⟨_, rfl⟩
  have hp : places fs = [(16, 5)] := by rw [hf]; rfl
  have ho : ok 1677721600 fs = true := sound_ok _ _ (by rw [hp]; decide +kernel)
  obtain ⟨x, hx⟩ : ∃ x, x = word 1677721600 fs := ⟨_, rfl⟩
  have hw : encode (.ejob a) = x := by rw [hx, hf]; rfl
  have h0 : x % 65536 = 0 := by rw [hx]; exact low_eq 16 _ ho (by rw [hp]; decide +kernel)
  have h1 : x / 2097152 % 16 = 0 := by rw [hx]; exact const_eq 21 4 _ ho (by rw [hp]; decide +kernel)
  have f0 : fld x 16 5 = a := by rw [hx]; exact fld_eq (field_eq ⟨16, 5, a⟩ 0 ho (by rw [hf]; rfl))
  have hm : x / 33554432 % 128 = 50 := by rw [hx]; exact const_eq 25 7 _ ho (by rw [hp]; decide +kernel)
  clear hx ho hp hf fs
  rw [hw, parse_ejob hm]
  simp [parseEjob, h0, h1, f0]

theorem vaddFp (d : Fin 16) (a b : Fin 32) (t m : Fin 8) : Statement (.vaddFp d a b t m) := by
  refine core rfl ?_
  obtain ⟨fs, hf⟩ : ∃ fs : List Field, fs = [⟨0, 3, m⟩, ⟨3, 3, t⟩, ⟨11, 5, b⟩, ⟨16, 5, a⟩, ⟨21, 4, d⟩] := ⟨_, rfl⟩
  have hp : places fs = [(0, 3), (3, 3), (11, 5), (16, 5), (21, 4)] := by rw [hf]; rfl
  have ho : ok 1879048192 fs = true := sound_ok _ _ (by rw [hp]; decide +kernel)
  obtain ⟨x, hx⟩ : ∃ x, x = word 1879048192 fs := ⟨_, rfl⟩
  have hw : encode (.vaddFp d a b t m) = x := by rw [hx, hf, word_low]; rfl
  have h0 : x / 64 % 32 = 0 := by rw [hx]; exact const_eq 6 5 _ ho (by rw [hp]; decide +kernel)
  have f0 : fld x 21 4 = d := by rw [hx]; exact fld_eq (field_eq ⟨21, 4, d⟩ 4 ho (by rw [hf]; rfl))
  have f1 : fld x 16 5 = a := by rw [hx]; exact fld_eq (field_eq ⟨16, 5, a⟩ 3 ho (by rw [hf]; rfl))
  have f2 : fld x 11 5 = b := by rw [hx]; exact fld_eq (field_eq ⟨11, 5, b⟩ 2 ho (by rw [hf]; rfl))
  have f3 : fld x 3 3 = t := by rw [hx]; exact fld_eq (field_eq ⟨3, 3, t⟩ 1 ho (by rw [hf]; rfl))
  have f4 : fld x 0 3 = m := by rw [hx]; exact fld_eq (field_eq ⟨0, 3, m⟩ 0 ho (by rw [hf]; rfl))
  have hm : x / 33554432 % 128 = 56 := by rw [hx]; exact const_eq 25 7 _ ho (by rw [hp]; decide +kernel)
  clear hx ho hp hf fs
  rw [hw, parse_vfp hm]
  simp [parseVfp, h0, f0, f1, f2, f3, f4]

theorem vsubFp (d : Fin 16) (a b : Fin 32) (t m : Fin 8) : Statement (.vsubFp d a b t m) := by
  refine core rfl ?_
  obtain ⟨fs, hf⟩ : ∃ fs : List Field, fs = [⟨0, 3, m⟩, ⟨3, 3, t⟩, ⟨11, 5, b⟩, ⟨16, 5, a⟩, ⟨21, 4, d⟩] := ⟨_, rfl⟩
  have hp : places fs = [(0, 3), (3, 3), (11, 5), (16, 5), (21, 4)] := by rw [hf]; rfl
  have ho : ok 1879048256 fs = true := sound_ok _ _ (by rw [hp]; decide +kernel)
  obtain ⟨x, hx⟩ : ∃ x, x = word 1879048256 fs := ⟨_, rfl⟩
  have hw : encode (.vsubFp d a b t m) = x := by rw [hx, hf, word_low]; rfl
  have h0 : x / 64 % 32 = 1 := by rw [hx]; exact const_eq 6 5 _ ho (by rw [hp]; decide +kernel)
  have f0 : fld x 21 4 = d := by rw [hx]; exact fld_eq (field_eq ⟨21, 4, d⟩ 4 ho (by rw [hf]; rfl))
  have f1 : fld x 16 5 = a := by rw [hx]; exact fld_eq (field_eq ⟨16, 5, a⟩ 3 ho (by rw [hf]; rfl))
  have f2 : fld x 11 5 = b := by rw [hx]; exact fld_eq (field_eq ⟨11, 5, b⟩ 2 ho (by rw [hf]; rfl))
  have f3 : fld x 3 3 = t := by rw [hx]; exact fld_eq (field_eq ⟨3, 3, t⟩ 1 ho (by rw [hf]; rfl))
  have f4 : fld x 0 3 = m := by rw [hx]; exact fld_eq (field_eq ⟨0, 3, m⟩ 0 ho (by rw [hf]; rfl))
  have hm : x / 33554432 % 128 = 56 := by rw [hx]; exact const_eq 25 7 _ ho (by rw [hp]; decide +kernel)
  clear hx ho hp hf fs
  rw [hw, parse_vfp hm]
  simp [parseVfp, h0, f0, f1, f2, f3, f4]

theorem vmulFp (d : Fin 16) (a b : Fin 32) (t m : Fin 8) : Statement (.vmulFp d a b t m) := by
  refine core rfl ?_
  obtain ⟨fs, hf⟩ : ∃ fs : List Field, fs = [⟨0, 3, m⟩, ⟨3, 3, t⟩, ⟨11, 5, b⟩, ⟨16, 5, a⟩, ⟨21, 4, d⟩] := ⟨_, rfl⟩
  have hp : places fs = [(0, 3), (3, 3), (11, 5), (16, 5), (21, 4)] := by rw [hf]; rfl
  have ho : ok 1879048320 fs = true := sound_ok _ _ (by rw [hp]; decide +kernel)
  obtain ⟨x, hx⟩ : ∃ x, x = word 1879048320 fs := ⟨_, rfl⟩
  have hw : encode (.vmulFp d a b t m) = x := by rw [hx, hf, word_low]; rfl
  have h0 : x / 64 % 32 = 2 := by rw [hx]; exact const_eq 6 5 _ ho (by rw [hp]; decide +kernel)
  have f0 : fld x 21 4 = d := by rw [hx]; exact fld_eq (field_eq ⟨21, 4, d⟩ 4 ho (by rw [hf]; rfl))
  have f1 : fld x 16 5 = a := by rw [hx]; exact fld_eq (field_eq ⟨16, 5, a⟩ 3 ho (by rw [hf]; rfl))
  have f2 : fld x 11 5 = b := by rw [hx]; exact fld_eq (field_eq ⟨11, 5, b⟩ 2 ho (by rw [hf]; rfl))
  have f3 : fld x 3 3 = t := by rw [hx]; exact fld_eq (field_eq ⟨3, 3, t⟩ 1 ho (by rw [hf]; rfl))
  have f4 : fld x 0 3 = m := by rw [hx]; exact fld_eq (field_eq ⟨0, 3, m⟩ 0 ho (by rw [hf]; rfl))
  have hm : x / 33554432 % 128 = 56 := by rw [hx]; exact const_eq 25 7 _ ho (by rw [hp]; decide +kernel)
  clear hx ho hp hf fs
  rw [hw, parse_vfp hm]
  simp [parseVfp, h0, f0, f1, f2, f3, f4]

theorem vmlaFp (d : Fin 16) (a b : Fin 32) (t m : Fin 8) : Statement (.vmlaFp d a b t m) := by
  refine core rfl ?_
  obtain ⟨fs, hf⟩ : ∃ fs : List Field, fs = [⟨0, 3, m⟩, ⟨3, 3, t⟩, ⟨11, 5, b⟩, ⟨16, 5, a⟩, ⟨21, 4, d⟩] := ⟨_, rfl⟩
  have hp : places fs = [(0, 3), (3, 3), (11, 5), (16, 5), (21, 4)] := by rw [hf]; rfl
  have ho : ok 1879048384 fs = true := sound_ok _ _ (by rw [hp]; decide +kernel)
  obtain ⟨x, hx⟩ : ∃ x, x = word 1879048384 fs := ⟨_, rfl⟩
  have hw : encode (.vmlaFp d a b t m) = x := by rw [hx, hf, word_low]; rfl
  have h0 : x / 64 % 32 = 3 := by rw [hx]; exact const_eq 6 5 _ ho (by rw [hp]; decide +kernel)
  have f0 : fld x 21 4 = d := by rw [hx]; exact fld_eq (field_eq ⟨21, 4, d⟩ 4 ho (by rw [hf]; rfl))
  have f1 : fld x 16 5 = a := by rw [hx]; exact fld_eq (field_eq ⟨16, 5, a⟩ 3 ho (by rw [hf]; rfl))
  have f2 : fld x 11 5 = b := by rw [hx]; exact fld_eq (field_eq ⟨11, 5, b⟩ 2 ho (by rw [hf]; rfl))
  have f3 : fld x 3 3 = t := by rw [hx]; exact fld_eq (field_eq ⟨3, 3, t⟩ 1 ho (by rw [hf]; rfl))
  have f4 : fld x 0 3 = m := by rw [hx]; exact fld_eq (field_eq ⟨0, 3, m⟩ 0 ho (by rw [hf]; rfl))
  have hm : x / 33554432 % 128 = 56 := by rw [hx]; exact const_eq 25 7 _ ho (by rw [hp]; decide +kernel)
  clear hx ho hp hf fs
  rw [hw, parse_vfp hm]
  simp [parseVfp, h0, f0, f1, f2, f3, f4]

theorem vmlsFp (d : Fin 16) (a b : Fin 32) (t m : Fin 8) : Statement (.vmlsFp d a b t m) := by
  refine core rfl ?_
  obtain ⟨fs, hf⟩ : ∃ fs : List Field, fs = [⟨0, 3, m⟩, ⟨3, 3, t⟩, ⟨11, 5, b⟩, ⟨16, 5, a⟩, ⟨21, 4, d⟩] := ⟨_, rfl⟩
  have hp : places fs = [(0, 3), (3, 3), (11, 5), (16, 5), (21, 4)] := by rw [hf]; rfl
  have ho : ok 1879048448 fs = true := sound_ok _ _ (by rw [hp]; decide +kernel)
  obtain ⟨x, hx⟩ : ∃ x, x = word 1879048448 fs := ⟨_, rfl⟩
  have hw : encode (.vmlsFp d a b t m) = x := by rw [hx, hf, word_low]; rfl
  have h0 : x / 64 % 32 = 4 := by rw [hx]; exact const_eq 6 5 _ ho (by rw [hp]; decide +kernel)
  have f0 : fld x 21 4 = d := by rw [hx]; exact fld_eq (field_eq ⟨21, 4, d⟩ 4 ho (by rw [hf]; rfl))
  have f1 : fld x 16 5 = a := by rw [hx]; exact fld_eq (field_eq ⟨16, 5, a⟩ 3 ho (by rw [hf]; rfl))
  have f2 : fld x 11 5 = b := by rw [hx]; exact fld_eq (field_eq ⟨11, 5, b⟩ 2 ho (by rw [hf]; rfl))
  have f3 : fld x 3 3 = t := by rw [hx]; exact fld_eq (field_eq ⟨3, 3, t⟩ 1 ho (by rw [hf]; rfl))
  have f4 : fld x 0 3 = m := by rw [hx]; exact fld_eq (field_eq ⟨0, 3, m⟩ 0 ho (by rw [hf]; rfl))
  have hm : x / 33554432 % 128 = 56 := by rw [hx]; exact const_eq 25 7 _ ho (by rw [hp]; decide +kernel)
  clear hx ho hp hf fs
  rw [hw, parse_vfp hm]
  simp [parseVfp, h0, f0, f1, f2, f3, f4]

theorem vminFp (d : Fin 16) (a b : Fin 32) (t m : Fin 8) : Statement (.vminFp d a b t m) := by
  refine core rfl ?_
  obtain ⟨fs, hf⟩ : ∃ fs : List Field, fs = [⟨0, 3, m⟩, ⟨3, 3, t⟩, ⟨11, 5, b⟩, ⟨16, 5, a⟩, ⟨21, 4, d⟩] := ⟨_, rfl⟩
  have hp : places fs = [(0, 3), (3, 3), (11, 5), (16, 5), (21, 4)] := by rw [hf]; rfl
  have ho : ok 1879048512 fs = true := sound_ok _ _ (by rw [hp]; decide +kernel)
  obtain ⟨x, hx⟩ : ∃ x, x = word 1879048512 fs := ⟨_, rfl⟩
  have hw : encode (.vminFp d a b t m) = x := by rw [hx, hf, word_low]; rfl
  have h0 : x / 64 % 32 = 5 := by rw [hx]; exact const_eq 6 5 _ ho (by rw [hp]; decide +kernel)
  have f0 : fld x 21 4 = d := by rw [hx]; exact fld_eq (field_eq ⟨21, 4, d⟩ 4 ho (by rw [hf]; rfl))
  have f1 : fld x 16 5 = a := by rw [hx]; exact fld_eq (field_eq ⟨16, 5, a⟩ 3 ho (by rw [hf]; rfl))
  have f2 : fld x 11 5 = b := by rw [hx]; exact fld_eq (field_eq ⟨11, 5, b⟩ 2 ho (by rw [hf]; rfl))
  have f3 : fld x 3 3 = t := by rw [hx]; exact fld_eq (field_eq ⟨3, 3, t⟩ 1 ho (by rw [hf]; rfl))
  have f4 : fld x 0 3 = m := by rw [hx]; exact fld_eq (field_eq ⟨0, 3, m⟩ 0 ho (by rw [hf]; rfl))
  have hm : x / 33554432 % 128 = 56 := by rw [hx]; exact const_eq 25 7 _ ho (by rw [hp]; decide +kernel)
  clear hx ho hp hf fs
  rw [hw, parse_vfp hm]
  simp [parseVfp, h0, f0, f1, f2, f3, f4]

theorem vmaxFp (d : Fin 16) (a b : Fin 32) (t m : Fin 8) : Statement (.vmaxFp d a b t m) := by
  refine core rfl ?_
  obtain ⟨fs, hf⟩ : ∃ fs : List Field, fs = [⟨0, 3, m⟩, ⟨3, 3, t⟩, ⟨11, 5, b⟩, ⟨16, 5, a⟩, ⟨21, 4, d⟩] := ⟨_, rfl⟩
  have hp : places fs = [(0, 3), (3, 3), (11, 5), (16, 5), (21, 4)] := by rw [hf]; rfl
  have ho : ok 1879048576 fs = true := sound_ok _ _ (by rw [hp]; decide +kernel)
  obtain ⟨x, hx⟩ : ∃ x, x = word 1879048576 fs := ⟨_, rfl⟩
  have hw : encode (.vmaxFp d a b t m) = x := by rw [hx, hf, word_low]; rfl
  have h0 : x / 64 % 32 = 6 := by rw [hx]; exact const_eq 6 5 _ ho (by rw [hp]; decide +kernel)
  have f0 : fld x 21 4 = d := by rw [hx]; exact fld_eq (field_eq ⟨21, 4, d⟩ 4 ho (by rw [hf]; rfl))
  have f1 : fld x 16 5 = a := by rw [hx]; exact fld_eq (field_eq ⟨16, 5, a⟩ 3 ho (by rw [hf]; rfl))
  have f2 : fld x 11 5 = b := by rw [hx]; exact fld_eq (field_eq ⟨11, 5, b⟩ 2 ho (by rw [hf]; rfl))
  have f3 : fld x 3 3 = t := by rw [hx]; exact fld_eq (field_eq ⟨3, 3, t⟩ 1 ho (by rw [hf]; rfl))
  have f4 : fld x 0 3 = m := by rw [hx]; exact fld_eq (field_eq ⟨0, 3, m⟩ 0 ho (by rw [hf]; rfl))
  have hm : x / 33554432 % 128 = 56 := by rw [hx]; exact const_eq 25 7 _ ho (by rw [hp]; decide +kernel)
  clear hx ho hp hf fs
  rw [hw, parse_vfp hm]
  simp [parseVfp, h0, f0, f1, f2, f3, f4]

theorem vabsFp (d : Fin 16) (a : Fin 32) (t m : Fin 8) : Statement (.vabsFp d a t m) := by
  refine core rfl ?_
  obtain ⟨fs, hf⟩ : ∃ fs : List Field, fs = [⟨0, 3, m⟩, ⟨3, 3, t⟩, ⟨16, 5, a⟩, ⟨21, 4, d⟩] := ⟨_, rfl⟩
  have hp : places fs = [(0, 3), (3, 3), (16, 5), (21, 4)] := by rw [hf]; rfl
  have ho : ok 1879048640 fs = true := sound_ok _ _ (by rw [hp]; decide +kernel)
  obtain ⟨x, hx⟩ : ∃ x, x = word 1879048640 fs := ⟨_, rfl⟩
  have hw : encode (.vabsFp d a t m) = x := by rw [hx, hf, word_low]; rfl
  have h0 : x / 64 % 32 = 7 := by rw [hx]; exact const_eq 6 5 _ ho (by rw [hp]; decide +kernel)
  have h1 : x / 64 % 1024 = 7 := by rw [hx]; exact const_eq 6 10 _ ho (by rw [hp]; decide +kernel)
  have f0 : fld x 21 4 = d := by rw [hx]; exact fld_eq (field_eq ⟨21, 4, d⟩ 3 ho (by rw [hf]; rfl))
  have f1 : fld x 16 5 = a := by rw [hx]; exact fld_eq (field_eq ⟨16, 5, a⟩ 2 ho (by rw [hf]; rfl))
  have f2 : fld x 3 3 = t := by rw [hx]; exact fld_eq (field_eq ⟨3, 3, t⟩ 1 ho (by rw [hf]; rfl))
  have f3 : fld x 0 3 = m := by rw [hx]; exact fld_eq (field_eq ⟨0, 3, m⟩ 0 ho (by rw [hf]; rfl))
  have hm : x / 33554432 % 128 = 56 := by rw [hx]; exact const_eq 25 7 _ ho (by rw [hp]; decide +kernel)
  clear hx ho hp hf fs
  rw [hw, parse_vfp hm]
  simp [parseVfp, h0, h1, f0, f1, f2, f3]

theorem vnegFp (d : Fin 16) (a : Fin 32) (t m : Fin 8) : Statement (.vnegFp d a t m) := by
  refine core rfl ?_
  obtain ⟨fs, hf⟩ : ∃ fs : List Field, fs = [⟨0, 3, m⟩, ⟨3, 3, t⟩, ⟨16, 5, a⟩, ⟨21, 4, d⟩] := ⟨_, rfl⟩
  have hp : places fs = [(0, 3), (3, 3), (16, 5), (21, 4)] := by rw [hf]; rfl
  have ho : ok 1879048704 fs = true := sound_ok _ _ (by rw [hp]; decide +kernel)
  obtain ⟨x, hx⟩ : ∃ x, x = word 1879048704 fs := ⟨_, rfl⟩
  have hw : encode (.vnegFp d a t m) = x := by rw [hx, hf, word_low]; rfl
  have h0 : x / 64 % 32 = 8 := by rw [hx]; exact const_eq 6 5 _ ho (by rw [hp]; decide +kernel)
  have h1 : x / 64 % 1024 = 8 := by rw [hx]; exact const_eq 6 10 _ ho (by rw [hp]; decide +kernel)
  have f0 : fld x 21 4 = d := by rw [hx]; exact fld_eq (field_eq ⟨21, 4, d⟩ 3 ho (by rw [hf]; rfl))
  have f1 : fld x 16 5 = a := by rw [hx]; exact fld_eq (field_eq ⟨16, 5, a⟩ 2 ho (by rw [hf]; rfl))
  have f2 : fld x 3 3 = t := by rw [hx]; exact fld_eq (field_eq ⟨3, 3, t⟩ 1 ho (by rw [hf]; rfl))
  have f3 : fld x 0 3 = m := by rw [hx]; exact fld_eq (field_eq ⟨0, 3, m⟩ 0 ho (by rw [hf]; rfl))
  have hm : x / 33554432 % 128 = 56 := by rw [hx]; exact const_eq 25 7 _ ho (by rw [hp]; decide +kernel)
  clear hx ho hp hf fs
  rw [hw, parse_vfp hm]
  simp [parseVfp, h0, h1, f0, f1, f2, f3]

theorem vdiv (d : Fin 16) (a b : Fin 32) (t m : Fin 8) : Statement (.vdiv d a b t m) := by
  refine core rfl ?_
  obtain ⟨fs, hf⟩ : ∃ fs : List Field, fs = [⟨0, 3, m⟩, ⟨3, 3, t⟩, ⟨11, 5, b⟩, ⟨16, 5, a⟩, ⟨21, 4, d⟩] := ⟨_, rfl⟩
  have hp : places fs = [(0, 3), (3, 3), (11, 5), (16, 5), (21, 4)] := by rw [hf]; rfl
  have ho : ok 1879048768 fs = true := sound_ok _ _ (by rw [hp]; decide +kernel)
  obtain ⟨x, hx⟩ : ∃ x, x = word 1879048768 fs := ⟨_, rfl⟩
  have hw : encode (.vdiv d a b t m) = x := by rw [hx, hf, word_low]; rfl
  have h0 : x / 64 % 32 = 9 := by rw [hx]; exact const_eq 6 5 _ ho (by rw [hp]; decide +kernel)
  have h1 : x / 64 % 1024 ≠ 7 := by rw [hx]; exact slice_ne 6 10 1 _ 0 ho (by rw [hp]; decide +kernel) (by decide) (by
      decide +kernel)
  have h2 : x / 64 % 1024 ≠ 8 := by rw [hx]; exact slice_ne 6 10 0 _ 1 ho (by rw [hp]; decide +kernel) (by decide) (by
      decide +kernel)
  have f0 : fld x 21 4 = d := by rw [hx]; exact fld_eq (field_eq ⟨21, 4, d⟩ 4 ho (by rw [hf]; rfl))
  have f1 : fld x 16 5 = a := by rw [hx]; exact fld_eq (field_eq ⟨16, 5, a⟩ 3 ho (by rw [hf]; rfl))
  have f2 : fld x 11 5 = b := by rw [hx]; exact fld_eq (field_eq ⟨11, 5, b⟩ 2 ho (by rw [hf]; rfl))
  have f3 : fld x 3 3 = t := by rw [hx]; exact fld_eq (field_eq ⟨3, 3, t⟩ 1 ho (by rw [hf]; rfl))
  have f4 : fld x 0 3 = m := by rw [hx]; exact fld_eq (field_eq ⟨0, 3, m⟩ 0 ho (by rw [hf]; rfl))
  have hm : x / 33554432 % 128 = 56 := by rw [hx]; exact const_eq 25 7 _ ho (by rw [hp]; decide +kernel)
  clear hx ho hp hf fs
  rw [hw, parse_vfp hm]
  simp [parseVfp, h0, h1, h2, f0, f1, f2, f3, f4]

theorem vsqrt (d : Fin 16) (a : Fin 32) (t m : Fin 8) : Statement (.vsqrt d a t m) := by
  refine core rfl ?_
  obtain ⟨fs, hf⟩ : ∃ fs : List Field, fs = [⟨0, 3, m⟩, ⟨3, 3, t⟩, ⟨16, 5, a⟩, ⟨21, 4, d⟩] := ⟨_, rfl⟩
  have hp : places fs = [(0, 3), (3, 3), (16, 5), (21, 4)] := by rw [hf]; rfl
  have ho : ok 1879048832 fs = true := sound_ok _ _ (by rw [hp]; decide +kernel)
  obtain ⟨x, hx⟩ : ∃ x, x = word 1879048832 fs := ⟨_, rfl⟩
  have hw : encode (.vsqrt d a t m) = x := by rw [hx, hf, word_low]; rfl
  have h0 : x / 64 % 32 = 10 := by rw [hx]; exact const_eq 6 5 _ ho (by rw [hp]; decide +kernel)
  have h1 : x / 64 % 1024 = 10 := by rw [hx]; exact const_eq 6 10 _ ho (by rw [hp]; decide +kernel)
  have f0 : fld x 21 4 = d := by rw [hx]; exact fld_eq (field_eq ⟨21, 4, d⟩ 3 ho (by rw [hf]; rfl))
  have f1 : fld x 16 5 = a := by rw [hx]; exact fld_eq (field_eq ⟨16, 5, a⟩ 2 ho (by rw [hf]; rfl))
  have f2 : fld x 3 3 = t := by rw [hx]; exact fld_eq (field_eq ⟨3, 3, t⟩ 1 ho (by rw [hf]; rfl))
  have f3 : fld x 0 3 = m := by rw [hx]; exact fld_eq (field_eq ⟨0, 3, m⟩ 0 ho (by rw [hf]; rfl))
  have hm : x / 33554432 % 128 = 56 := by rw [hx]; exact const_eq 25 7 _ ho (by rw [hp]; decide +kernel)
  clear hx ho hp hf fs
  rw [hw, parse_vfp hm]
  simp [parseVfp, h0, h1, f0, f1, f2, f3]

theorem vrcp (d : Fin 16) (a : Fin 32) (t m : Fin 8) : Statement (.vrcp d a t m) := by
  refine core rfl ?_
  obtain ⟨fs, hf⟩ : ∃ fs : List Field, fs = [⟨0, 3, m⟩, ⟨3, 3, t⟩, ⟨16, 5, a⟩, ⟨21, 4, d⟩] := ⟨_, rfl⟩
  have hp : places fs = [(0, 3), (3, 3), (16, 5), (21, 4)] := by rw [hf]; rfl
  have ho : ok 1879048896 fs = true := sound_ok _ _ (by rw [hp]; decide +kernel)
  obtain ⟨x, hx⟩ : ∃ x, x = word 1879048896 fs := ⟨_, rfl⟩
  have hw : encode (.vrcp d a t m) = x := by rw [hx, hf, word_low]; rfl
  have h0 : x / 64 % 32 = 11 := by rw [hx]; exact const_eq 6 5 _ ho (by rw [hp]; decide +kernel)
  have h1 : x / 64 % 1024 = 11 := by rw [hx]; exact const_eq 6 10 _ ho (by rw [hp]; decide +kernel)
  have f0 : fld x 21 4 = d := by rw [hx]; exact fld_eq (field_eq ⟨21, 4, d⟩ 3 ho (by rw [hf]; rfl))
  have f1 : fld x 16 5 = a := by rw [hx]; exact fld_eq (field_eq ⟨16, 5, a⟩ 2 ho (by rw [hf]; rfl))
  have f2 : fld x 3 3 = t := by rw [hx]; exact fld_eq (field_eq ⟨3, 3, t⟩ 1 ho (by rw [hf]; rfl))
  have f3 : fld x 0 3 = m := by rw [hx]; exact fld_eq (field_eq ⟨0, 3, m⟩ 0 ho (by rw [hf]; rfl))
  have hm : x / 33554432 % 128 = 56 := by rw [hx]; exact const_eq 25 7 _ ho (by rw [hp]; decide +kernel)
  clear hx ho hp hf fs
  rw [hw, parse_vfp hm]
  simp [parseVfp, h0, h1, f0, f1, f2, f3]

theorem vrsq (d : Fin 16) (a : Fin 32) (t m : Fin 8) : Statement (.vrsq d a t m) := by
  refine core rfl ?_
  obtain ⟨fs, hf⟩ : ∃ fs : List Field, fs = [⟨0, 3, m⟩, ⟨3, 3, t⟩, ⟨16, 5, a⟩, ⟨21, 4, d⟩] := ⟨_, rfl⟩
  have hp : places fs = [(0, 3), (3, 3), (16, 5), (21, 4)] := by rw [hf]; rfl
  have ho : ok 1879048960 fs = true := sound_ok _ _ (by rw [hp]; decide +kernel)
  obtain ⟨x, hx⟩ : ∃ x, x = word 1879048960 fs := ⟨_, rfl⟩
  have hw : encode (.vrsq d a t m) = x := by rw [hx, hf, word_low]; rfl
  have h0 : x / 64 % 32 = 12 := by rw [hx]; exact const_eq 6 5 _ ho (by rw [hp]; decide +kernel)
  have h1 : x / 64 % 1024 = 12 := by rw [hx]; exact const_eq 6 10 _ ho (by rw [hp]; decide +kernel)
  have f0 : fld x 21 4 = d := by rw [hx]; exact fld_eq (field_eq ⟨21, 4, d⟩ 3 ho (by rw [hf]; rfl))
  have f1 : fld x 16 5 = a := by rw [hx]; exact fld_eq (field_eq ⟨16, 5, a⟩ 2 ho (by rw [hf]; rfl))
  have f2 : fld x 3 3 = t := by rw [hx]; exact fld_eq (field_eq ⟨3, 3, t⟩ 1 ho (by rw [hf]; rfl))
  have f3 : fld x 0 3 = m := by rw [hx]; exact fld_eq (field_eq ⟨0, 3, m⟩ 0 ho (by rw [hf]; rfl))
  have hm : x / 33554432 % 128 = 56 := by rw [hx]; exact const_eq 25 7 _ ho (by rw [hp]; decide +kernel)
  clear hx ho hp hf fs
  rw [hw, parse_vfp hm]
  simp [parseVfp, h0, h1, f0, f1, f2, f3]

theorem vaddInt (d : Fin 16) (a b : Fin 32) (t m : Fin 8) : Statement (.vaddInt d a b t m) := by
  refine core rfl ?_
  obtain ⟨fs, hf⟩ : ∃ fs : List Field, fs = [⟨0, 3, m⟩, ⟨3, 3, t⟩, ⟨11, 5, b⟩, ⟨16, 5, a⟩, ⟨21, 4, d⟩] := ⟨_, rfl⟩
  have hp : places fs = [(0, 3), (3, 3), (11, 5), (16, 5), (21, 4)] := by rw [hf]; rfl
  have ho : ok 1912602624 fs = true := sound_ok _ _ (by rw [hp]; decide +kernel)
  obtain ⟨x, hx⟩ : ∃ x, x = word 1912602624 fs := ⟨_, rfl⟩
  have hw : encode (.vaddInt d a b t m) = x := by rw [hx, hf, word_low]; rfl
  have h0 : x / 64 % 32 = 0 := by rw [hx]; exact const_eq 6 5 _ ho (by rw [hp]; decide +kernel)
  have f0 : fld x 21 4 = d := by rw [hx]; exact fld_eq (field_eq ⟨21, 4, d⟩ 4 ho (by rw [hf]; rfl))
  have f1 : fld x 16 5 = a := by rw [hx]; exact fld_eq (field_eq ⟨16, 5, a⟩ 3 ho (by rw [hf]; rfl))
  have f2 : fld x 11 5 = b := by rw [hx]; exact fld_eq (field_eq ⟨11, 5, b⟩ 2 ho (by rw [hf]; rfl))
  have f3 : fld x 3 3 = t := by rw [hx]; exact fld_eq (field_eq ⟨3, 3, t⟩ 1 ho (by rw [hf]; rfl))
  have f4 : fld x 0 3 = m := by rw [hx]; exact fld_eq (field_eq ⟨0, 3, m⟩ 0 ho (by rw [hf]; rfl))
  have hm : x / 33554432 % 128 = 57 := by rw [hx]; exact const_eq 25 7 _ ho (by rw [hp]; decide +kernel)
  clear hx ho hp hf fs
  rw [hw, parse_vint hm]
  simp [parseVint, h0, f0, f1, f2, f3, f4]

theorem vsubInt (d : Fin 16) (a b : Fin 32) (t m : Fin 8) : Statement (.vsubInt d a b t m) := by
  refine core rfl ?_
  obtain ⟨fs, hf⟩ : ∃ fs : List Field, fs = [⟨0, 3, m⟩, ⟨3, 3, t⟩, ⟨11, 5, b⟩, ⟨16, 5, a⟩, ⟨21, 4, d⟩] := ⟨_, rfl⟩
  have hp : places fs = [(0, 3), (3, 3), (11, 5), (16, 5), (21, 4)] := by rw [hf]; rfl
  have ho : ok 1912602688 fs = true := sound_ok _ _ (by rw [hp]; decide +kernel)
  obtain ⟨x, hx⟩ : ∃ x, x = word 1912602688 fs := ⟨_, rfl⟩
  have hw : encode (.vsubInt d a b t m) = x := by rw [hx, hf, word_low]; rfl
  have h0 : x / 64 % 32 = 1 := by rw [hx]; exact const_eq 6 5 _ ho (by rw [hp]; decide +kernel)
  have f0 : fld x 21 4 = d := by rw [hx]; exact fld_eq (field_eq ⟨21, 4, d⟩ 4 ho (by rw [hf]; rfl))
  have f1 : fld x 16 5 = a := by rw [hx]; exact fld_eq (field_eq ⟨16, 5, a⟩ 3 ho (by rw [hf]; rfl))
  have f2 : fld x 11 5 = b := by rw [hx]; exact fld_eq (field_eq ⟨11, 5, b⟩ 2 ho (by rw [hf]; rfl))
  have f3 : fld x 3 3 = t := by rw [hx]; exact fld_eq (field_eq ⟨3, 3, t⟩ 1 ho (by rw [hf]; rfl))
  have f4 : fld x 0 3 = m := by rw [hx]; exact fld_eq (field_eq ⟨0, 3, m⟩ 0 ho (by rw [hf]; rfl))
  have hm : x / 33554432 % 128 = 57 := by rw [hx]; exact const_eq 25 7 _ ho (by rw [hp]; decide +kernel)
  clear hx ho hp hf fs
  rw [hw, parse_vint hm]
  simp [parseVint, h0, f0, f1, f2, f3, f4]

theorem vmulInt (d : Fin 16) (a b : Fin 32) (t m : Fin 8) : Statement (.vmulInt d a b t m) := by
  refine core rfl ?_
  obtain ⟨fs, hf⟩ : ∃ fs : List Field, fs = [⟨0, 3, m⟩, ⟨3, 3, t⟩, ⟨11, 5, b⟩, ⟨16, 5, a⟩, ⟨21, 4, d⟩] := ⟨_, rfl⟩
  have hp : places fs = [(0, 3), (3, 3), (11, 5), (16, 5), (21, 4)] := by rw [hf]; rfl
  have ho : ok 1912602752 fs = true := sound_ok _ _ (by rw [hp]; decide +kernel)
  obtain ⟨x, hx⟩ : ∃ x, x = word 1912602752 fs := ⟨_, rfl⟩
  have hw : encode (.vmulInt d a b t m) = x := by rw [hx, hf, word_low]; rfl
  have h0 : x / 64 % 32 = 2 := by rw [hx]; exact const_eq 6 5 _ ho (by rw [hp]; decide +kernel)
  have f0 : fld x 21 4 = d := by rw [hx]; exact fld_eq (field_eq ⟨21, 4, d⟩ 4 ho (by rw [hf]; rfl))
  have f1 : fld x 16 5 = a := by rw [hx]; exact fld_eq (field_eq ⟨16, 5, a⟩ 3 ho (by rw [hf]; rfl))
  have f2 : fld x 11 5 = b := by rw [hx]; exact fld_eq (field_eq ⟨11, 5, b⟩ 2 ho (by rw [hf]; rfl))
  have f3 : fld x 3 3 = t := by rw [hx]; exact fld_eq (field_eq ⟨3, 3, t⟩ 1 ho (by rw [hf]; rfl))
  have f4 : fld x 0 3 = m := by rw [hx]; exact fld_eq (field_eq ⟨0, 3, m⟩ 0 ho (by rw [hf]; rfl))
  have hm : x / 33554432 % 128 = 57 := by rw [hx]; exact const_eq 25 7 _ ho (by rw [hp]; decide +kernel)
  clear hx ho hp hf fs
  rw [hw, parse_vint hm]
  simp [parseVint, h0, f0, f1, f2, f3, f4]

theorem vmlaInt (d : Fin 16) (a b : Fin 32) (t m : Fin 8) : Statement (.vmlaInt d a b t m) := by
  refine core rfl ?_
  obtain ⟨fs, hf⟩ : ∃ fs : List Field, fs = [⟨0, 3, m⟩, ⟨3, 3, t⟩, ⟨11, 5, b⟩, ⟨16, 5, a⟩, ⟨21, 4, d⟩] := ⟨_, rfl⟩
  have hp : places fs = [(0, 3), (3, 3), (11, 5), (16, 5), (21, 4)] := by rw [hf]; rfl
  have ho : ok 1912602816 fs = true := sound_ok _ _ (by rw [hp]; decide +kernel)
  obtain ⟨x, hx⟩ : ∃ x, x = word 1912602816 fs := ⟨_, rfl⟩
  have hw : encode (.vmlaInt d a b t m) = x := by rw [hx, hf, word_low]; rfl
  have h0 : x / 64 % 32 = 3 := by rw [hx]; exact const_eq 6 5 _ ho (by rw [hp]; decide +kernel)
  have f0 : fld x 21 4 = d := by rw [hx]; exact fld_eq (field_eq ⟨21, 4, d⟩ 4 ho (by rw [hf]; rfl))
  have f1 : fld x 16 5 = a := by rw [hx]; exact fld_eq (field_eq ⟨16, 5, a⟩ 3 ho (by rw [hf]; rfl))
  have f2 : fld x 11 5 = b := by rw [hx]; exact fld_eq (field_eq ⟨11, 5, b⟩ 2 ho (by rw [hf]; rfl))
  have f3 : fld x 3 3 = t := by rw [hx]; exact fld_eq (field_eq ⟨3, 3, t⟩ 1 ho (by rw [hf]; rfl))
  have f4 : fld x 0 3 = m := by rw [hx]; exact fld_eq (field_eq ⟨0, 3, m⟩ 0 ho (by rw [hf]; rfl))
  have hm : x / 33554432 % 128 = 57 := by rw [hx]; exact const_eq 25 7 _ ho (by rw [hp]; decide +kernel)
  clear hx ho hp hf fs
  rw [hw, parse_vint hm]
  simp [parseVint, h0, f0, f1, f2, f3, f4]

theorem vminInt (d : Fin 16) (a b : Fin 32) (t m : Fin 8) : Statement (.vminInt d a b t m) := by
  refine core rfl ?_
  obtain ⟨fs, hf⟩ : ∃ fs : List Field, fs = [⟨0, 3, m⟩, ⟨3, 3, t⟩, ⟨11, 5, b⟩, ⟨16, 5, a⟩, ⟨21, 4, d⟩] := ⟨_, rfl⟩
  have hp : places fs = [(0, 3), (3, 3), (11, 5), (16, 5), (21, 4)] := by rw [hf]; rfl
  have ho : ok 1912602880 fs = true := sound_ok _ _ (by rw [hp]; decide +kernel)
  obtain ⟨x, hx⟩ : ∃ x, x = word 1912602880 fs := ⟨_, rfl⟩
  have hw : encode (.vminInt d a b t m) = x := by rw [hx, hf, word_low]; rfl
  have h0 : x / 64 % 32 = 4 := by rw [hx]; exact const_eq 6 5 _ ho (by rw [hp]; decide +kernel)
  have f0 : fld x 21 4 = d := by rw [hx]; exact fld_eq (field_eq ⟨21, 4, d⟩ 4 ho (by rw [hf]; rfl))
  have f1 : fld x 16 5 = a := by rw [hx]; exact fld_eq (field_eq ⟨16, 5, a⟩ 3 ho (by rw [hf]; rfl))
  have f2 : fld x 11 5 = b := by rw [hx]; exact fld_eq (field_eq ⟨11, 5, b⟩ 2 ho (by rw [hf]; rfl))
  have f3 : fld x 3 3 = t := by rw [hx]; exact fld_eq (field_eq ⟨3, 3, t⟩ 1 ho (by rw [hf]; rfl))
  have f4 : fld x 0 3 = m := by rw [hx]; exact fld_eq (field_eq ⟨0, 3, m⟩ 0 ho (by rw [hf]; rfl))
  have hm : x / 33554432 % 128 = 57 := by rw [hx]; exact const_eq 25 7 _ ho (by rw [hp]; decide +kernel)
  clear hx ho hp hf fs
  rw [hw, parse_vint hm]
  simp [parseVint, h0, f0, f1, f2, f3, f4]

theorem vmaxInt (d : Fin 16) (a b : Fin 32) (t m : Fin 8) : Statement (.vmaxInt d a b t m) := by
  refine core rfl ?_
  obtain ⟨fs, hf⟩ : ∃ fs : List Field, fs = [⟨0, 3, m⟩, ⟨3, 3, t⟩, ⟨11, 5, b⟩, ⟨16, 5, a⟩, ⟨21, 4, d⟩] := ⟨_, rfl⟩
  have hp : places fs = [(0, 3), (3, 3), (11, 5), (16, 5), (21, 4)] := by rw [hf]; rfl
  have ho : ok 1912602944 fs = true := sound_ok _ _ (by rw [hp]; decide +kernel)
  obtain ⟨x, hx⟩ : ∃ x, x = word 1912602944 fs := ⟨_, rfl⟩
  have hw : encode (.vmaxInt d a b t m) = x := by rw [hx, hf, word_low]; rfl
  have h0 : x / 64 % 32 = 5 := by rw [hx]; exact const_eq 6 5 _ ho (by rw [hp]; decide +kernel)
  have f0 : fld x 21 4 = d := by rw [hx]; exact fld_eq (field_eq ⟨21, 4, d⟩ 4 ho (by rw [hf]; rfl))
  have f1 : fld x 16 5 = a := by rw [hx]; exact fld_eq (field_eq ⟨16, 5, a⟩ 3 ho (by rw [hf]; rfl))
  have f2 : fld x 11 5 = b := by rw [hx]; exact fld_eq (field_eq ⟨11, 5, b⟩ 2 ho (by rw [hf]; rfl))
  have f3 : fld x 3 3 = t := by rw [hx]; exact fld_eq (field_eq ⟨3, 3, t⟩ 1 ho (by rw [hf]; rfl))
  have f4 : fld x 0 3 = m := by rw [hx]; exact fld_eq (field_eq ⟨0, 3, m⟩ 0 ho (by rw [hf]; rfl))
  have hm : x / 33554432 % 128 = 57 := by rw [hx]; exact const_eq 25 7 _ ho (by rw [hp]; decide +kernel)
  clear hx ho hp hf fs
  rw [hw, parse_vint hm]
  simp [parseVint, h0, f0, f1, f2, f3, f4]

theorem vminz (d : Fin 16) (a b : Fin 32) (t m : Fin 8) : Statement (.vminz d a b t m) := by
  refine core rfl ?_
  obtain ⟨fs, hf⟩ : ∃ fs : List Field, fs = [⟨0, 3, m⟩, ⟨3, 3, t⟩, ⟨11, 5, b⟩, ⟨16, 5, a⟩, ⟨21, 4, d⟩] := ⟨_, rfl⟩
  have hp : places fs = [(0, 3), (3, 3), (11, 5), (16, 5), (21, 4)] := by rw [hf]; rfl
  have ho : ok 1912603008 fs = true := sound_ok _ _ (by rw [hp]; decide +kernel)
  obtain ⟨x, hx⟩ : ∃ x, x = word 1912603008 fs := ⟨_, rfl⟩
  have hw : encode (.vminz d a b t m) = x := by rw [hx, hf, word_low]; rfl
  have h0 : x / 64 % 32 = 6 := by rw [hx]; exact const_eq 6 5 _ ho (by rw [hp]; decide +kernel)
  have f0 : fld x 21 4 = d := by rw [hx]; exact fld_eq (field_eq ⟨21, 4, d⟩ 4 ho (by rw [hf]; rfl))
  have f1 : fld x 16 5 = a := by rw [hx]; exact fld_eq (field_eq ⟨16, 5, a⟩ 3 ho (by rw [hf]; rfl))
  have f2 : fld x 11 5 = b := by rw [hx]; exact fld_eq (field_eq ⟨11, 5, b⟩ 2 ho (by rw [hf]; rfl))
  have f3 : fld x 3 3 = t := by rw [hx]; exact fld_eq (field_eq ⟨3, 3, t⟩ 1 ho (by rw [hf]; rfl))
  have f4 : fld x 0 3 = m := by rw [hx]; exact fld_eq (field_eq ⟨0, 3, m⟩ 0 ho (by rw [hf]; rfl))
  have hm : x / 33554432 % 128 = 57 := by rw [hx]; exact const_eq 25 7 _ ho (by rw [hp]; decide +kernel)
  clear hx ho hp hf fs
  rw [hw, parse_vint hm]
  simp [parseVint, h0, f0, f1, f2, f3, f4]

theorem vmaxz (d : Fin 16) (a b : Fin 32) (t m : Fin 8) : Statement (.vmaxz d a b t m) := by
  refine core rfl ?_
  obtain ⟨fs, hf⟩ : ∃ fs : List Field, fs = [⟨0, 3, m⟩, ⟨3, 3, t⟩, ⟨11, 5, b⟩, ⟨16, 5, a⟩, ⟨21, 4, d⟩] := ⟨_, rfl⟩
  have hp : places fs = [(0, 3), (3, 3), (11, 5), (16, 5), (21, 4)] := by rw [hf]; rfl
  have ho : ok 1912603072 fs = true := sound_ok _ _ (by rw [hp]; decide +kernel)
  obtain ⟨x, hx⟩ : ∃ x, x = word 1912603072 fs := ⟨_, rfl⟩
  have hw : encode (.vmaxz d a b t m) = x := by rw [hx, hf, word_low]; rfl
  have h0 : x / 64 % 32 = 7 := by rw [hx]; exact const_eq 6 5 _ ho (by rw [hp]; decide +kernel)
  have f0 : fld x 21 4 = d := by rw [hx]; exact fld_eq (field_eq ⟨21, 4, d⟩ 4 ho (by rw [hf]; rfl))
  have f1 : fld x 16 5 = a := by rw [hx]; exact fld_eq (field_eq ⟨16, 5, a⟩ 3 ho (by rw [hf]; rfl))
  have f2 : fld x 11 5 = b := by rw [hx]; exact fld_eq (field_eq ⟨11, 5, b⟩ 2 ho (by rw [hf]; rfl))
  have f3 : fld x 3 3 = t := by rw [hx]; exact fld_eq (field_eq ⟨3, 3, t⟩ 1 ho (by rw [hf]; rfl))
  have f4 : fld x 0 3 = m := by rw [hx]; exact fld_eq (field_eq ⟨0, 3, m⟩ 0 ho (by rw [hf]; rfl))
  have hm : x / 33554432 % 128 = 57 := by rw [hx]; exact const_eq 25 7 _ ho (by rw [hp]; decide +kernel)
  clear hx ho hp hf fs
  rw [hw, parse_vint hm]
  simp [parseVint, h0, f0, f1, f2, f3, f4]

theorem vabsInt (d : Fin 16) (a : Fin 32) (t m : Fin 8) : Statement (.vabsInt d a t m) := by
  refine core rfl ?_
  obtain ⟨fs, hf⟩ : ∃ fs : List Field, fs = [⟨0, 3, m⟩, ⟨3, 3, t⟩, ⟨16, 5, a⟩, ⟨21, 4, d⟩] := ⟨_, rfl⟩
  have hp : places fs = [(0, 3), (3, 3), (16, 5), (21, 4)] := by rw [hf]; rfl
  have ho : ok 1912603136 fs = true := sound_ok _ _ (by rw [hp]; decide +kernel)
  obtain ⟨x, hx⟩ : ∃ x, x = word 1912603136 fs := ⟨_, rfl⟩
  have hw : encode (.vabsInt d a t m) = x := by rw [hx, hf, word_low]; rfl
  have h0 : x / 64 % 32 = 8 := by rw [hx]; exact const_eq 6 5 _ ho (by rw [hp]; decide +kernel)
  have h1 : x / 64 % 1024 = 8 := by rw [hx]; exact const_eq 6 10 _ ho (by rw [hp]; decide +kernel)
  have f0 : fld x 21 4 = d := by rw [hx]; exact fld_eq (field_eq ⟨21, 4, d⟩ 3 ho (by rw [hf]; rfl))
  have f1 : fld x 16 5 = a := by rw [hx]; exact fld_eq (field_eq ⟨16, 5, a⟩ 2 ho (by rw [hf]; rfl))
  have f2 : fld x 3 3 = t := by rw [hx]; exact fld_eq (field_eq ⟨3, 3, t⟩ 1 ho (by rw [hf]; rfl))
  have f3 : fld x 0 3 = m := by rw [hx]; exact fld_eq (field_eq ⟨0, 3, m⟩ 0 ho (by rw [hf]; rfl))
  have hm : x / 33554432 % 128 = 57 := by rw [hx]; exact const_eq 25 7 _ ho (by rw [hp]; decide +kernel)
  clear hx ho hp hf fs
  rw [hw, parse_vint hm]
  simp [parseVint, h0, h1, f0, f1, f2, f3]

theorem vnegInt (d : Fin 16) (a : Fin 32) (t m : Fin 8) : Statement (.vnegInt d a t m) := by
  refine core rfl ?_
  obtain ⟨fs, hf⟩ : ∃ fs : List Field, fs = [⟨0, 3, m⟩, ⟨3, 3, t⟩, ⟨16, 5, a⟩, ⟨21, 4, d⟩] := ⟨_, rfl⟩
  have hp : places fs = [(0, 3), (3, 3), (16, 5), (21, 4)] := by rw [hf]; rfl
  have ho : ok 1912603200 fs = true := sound_ok _ _ (by rw [hp]; decide +kernel)
  obtain ⟨x, hx⟩ : ∃ x, x = word 1912603200 fs := ⟨_, rfl⟩
  have hw : encode (.vnegInt d a t m) = x := by rw [hx, hf, word_low]; rfl
  have h0 : x / 64 % 32 = 9 := by rw [hx]; exact const_eq 6 5 _ ho (by rw [hp]; decide +kernel)
  have h1 : x / 64 % 1024 = 9 := by rw [hx]; exact const_eq 6 10 _ ho (by rw [hp]; decide +kernel)
  have f0 : fld x 21 4 = d := by rw [hx]; exact fld_eq (field_eq ⟨21, 4, d⟩ 3 ho (by rw [hf]; rfl))
  have f1 : fld x 16 5 = a := by rw [hx]; exact fld_eq (field_eq ⟨16, 5, a⟩ 2 ho (by rw [hf]; rfl))
  have f2 : fld x 3 3 = t := by rw [hx]; exact fld_eq (field_eq ⟨3, 3, t⟩ 1 ho (by rw [hf]; rfl))
  have f3 : fld x 0 3 = m := by rw [hx]; exact fld_eq (field_eq ⟨0, 3, m⟩ 0 ho (by rw [hf]; rfl))
  have hm : x / 33554432 % 128 = 57 := by rw [hx]; exact const_eq 25 7 _ ho (by rw [hp]; decide +kernel)
  clear hx ho hp hf fs
  rw [hw, parse_vint hm]
  simp [parseVint, h0, h1, f0, f1, f2, f3]

theorem vadds (d : Fin 16) (a b : Fin 32) (t m : Fin 8) : Statement (.vadds d a b t m) := by
  refine core rfl ?_
  obtain ⟨fs, hf⟩ : ∃ fs : List Field, fs = [⟨0, 3, m⟩, ⟨3, 3, t⟩, ⟨11, 5, b⟩, ⟨16, 5, a⟩, ⟨21, 4, d⟩] := ⟨_, rfl⟩
  have hp : places fs = [(0, 3), (3, 3), (11, 5), (16, 5), (21, 4)] := by rw [hf]; rfl
  have ho : ok 1912603264 fs = true := sound_ok _ _ (by rw [hp]; decide +kernel)
  obtain ⟨x, hx⟩ : ∃ x, x = word 1912603264 fs := ⟨_, rfl⟩
  have hw : encode (.vadds d a b t m) = x := by rw [hx, hf, word_low]; rfl
  have h0 : x / 64 % 32 = 10 := by rw [hx]; exact const_eq 6 5 _ ho (by rw [hp]; decide +kernel)
  have h1 : x / 64 % 1024 ≠ 8 := by rw [hx]; exact slice_ne 6 10 1 _ 1 ho (by rw [hp]; decide +kernel) (by decide) (by
      decide +kernel)
  have h2 : x / 64 % 1024 ≠ 9 := by rw [hx]; exact slice_ne 6 10 0 _ 0 ho (by rw [hp]; decide +kernel) (by decide) (by
      decide +kernel)
  have f0 : fld x 21 4 = d := by rw [hx]; exact fld_eq (field_eq ⟨21, 4, d⟩ 4 ho (by rw [hf]; rfl))
  have f1 : fld x 16 5 = a := by rw [hx]; exact fld_eq (field_eq ⟨16, 5, a⟩ 3 ho (by rw [hf]; rfl))
  have f2 : fld x 11 5 = b := by rw [hx]; exact fld_eq (field_eq ⟨11, 5, b⟩ 2 ho (by rw [hf]; rfl))
  have f3 : fld x 3 3 = t := by rw [hx]; exact fld_eq (field_eq ⟨3, 3, t⟩ 1 ho (by rw [hf]; rfl))
  have f4 : fld x 0 3 = m := by rw [hx]; exact fld_eq (field_eq ⟨0, 3, m⟩ 0 ho (by rw [hf]; rfl))
  have hm : x / 33554432 % 128 = 57 := by rw [hx]; exact const_eq 25 7 _ ho (by rw [hp]; decide +kernel)
  clear hx ho hp hf fs
  rw [hw, parse_vint hm]
  simp [parseVint, h0, h1, h2, f0, f1, f2, f3, f4]

theorem vsubs (d : Fin 16) (a b : Fin 32) (t m : Fin 8) : Statement (.vsubs d a b t m) := by
  refine core rfl ?_
  obtain ⟨fs, hf⟩ : ∃ fs : List Field, fs = [⟨0, 3, m⟩, ⟨3, 3, t⟩, ⟨11, 5, b⟩, ⟨16, 5, a⟩, ⟨21, 4, d⟩] := ⟨_, rfl⟩
  have hp : places fs = [(0, 3), (3, 3), (11, 5), (16, 5), (21, 4)] := by rw [hf]; rfl
  have ho : ok 1912603328 fs = true := sound_ok _ _ (by rw [hp]; decide +kernel)
  obtain ⟨x, hx⟩ : ∃ x, x = word 1912603328 fs := ⟨_, rfl⟩
  have hw : encode (.vsubs d a b t m) = x := by rw [hx, hf, word_low]; rfl
  have h0 : x / 64 % 32 = 11 := by rw [hx]; exact const_eq 6 5 _ ho (by rw [hp]; decide +kernel)
  have h1 : x / 64 % 1024 ≠ 8 := by rw [hx]; exact slice_ne 6 10 0 _ 1 ho (by rw [hp]; decide +kernel) (by decide) (by
      decide +kernel)
  have h2 : x / 64 % 1024 ≠ 9 := by rw [hx]; exact slice_ne 6 10 1 _ 1 ho (by rw [hp]; decide +kernel) (by decide) (by
      decide +kernel)
  have f0 : fld x 21 4 = d := by rw [hx]; exact fld_eq (field_eq ⟨21, 4, d⟩ 4 ho (by rw [hf]; rfl))
  have f1 : fld x 16 5 = a := by rw [hx]; exact fld_eq (field_eq ⟨16, 5, a⟩ 3 ho (by rw [hf]; rfl))
  have f2 : fld x 11 5 = b := by rw [hx]; exact fld_eq (field_eq ⟨11, 5, b⟩ 2 ho (by rw [hf]; rfl))
  have f3 : fld x 3 3 = t := by rw [hx]; exact fld_eq (field_eq ⟨3, 3, t⟩ 1 ho (by rw [hf]; rfl))
  have f4 : fld x 0 3 = m := by rw [hx]; exact fld_eq (field_eq ⟨0, 3, m⟩ 0 ho (by rw [hf]; rfl))
  have hm : x / 33554432 % 128 = 57 := by rw [hx]; exact const_eq 25 7 _ ho (by rw [hp]; decide +kernel)
  clear hx ho hp hf fs
  rw [hw, parse_vint hm]
  simp [parseVint, h0, h1, h2, f0, f1, f2, f3, f4]

theorem vaddsz (d : Fin 16) (a b : Fin 32) (t m : Fin 8) : Statement (.vaddsz d a b t m) := by
  refine core rfl ?_
  obtain ⟨fs, hf⟩ : ∃ fs : List Field, fs = [⟨0, 3, m⟩, ⟨3, 3, t⟩, ⟨11, 5, b⟩, ⟨16, 5, a⟩, ⟨21, 4, d⟩] := ⟨_, rfl⟩
  have hp : places fs = [(0, 3), (3, 3), (11, 5), (16, 5), (21, 4)] := by rw [hf]; rfl
  have ho : ok 1912603392 fs = true := sound_ok _ _ (by rw [hp]; decide +kernel)
  obtain ⟨x, hx⟩ : ∃ x, x = word 1912603392 fs := ⟨_, rfl⟩
  have hw : encode (.vaddsz d a b t m) = x := by rw [hx, hf, word_low]; rfl
  have h0 : x / 64 % 32 = 12 := by rw [hx]; exact const_eq 6 5 _ ho (by rw [hp]; decide +kernel)
  have h1 : x / 64 % 1024 ≠ 8 := by rw [hx]; exact slice_ne 6 10 2 _ 1 ho (by rw [hp]; decide +kernel) (by decide) (by
      decide +kernel)
  have h2 : x / 64 % 1024 ≠ 9 := by rw [hx]; exact slice_ne 6 10 0 _ 0 ho (by rw [hp]; decide +kernel) (by decide) (by
      decide +kernel)
  have f0 : fld x 21 4 = d := by rw [hx]; exact fld_eq (field_eq ⟨21, 4, d⟩ 4 ho (by rw [hf]; rfl))
  have f1 : fld x 16 5 = a := by rw [hx]; exact fld_eq (field_eq ⟨16, 5, a⟩ 3 ho (by rw [hf]; rfl))
  have f2 : fld x 11 5 = b := by rw [hx]; exact fld_eq (field_eq ⟨11, 5, b⟩ 2 ho (by rw [hf]; rfl))
  have f3 : fld x 3 3 = t := by rw [hx]; exact fld_eq (field_eq ⟨3, 3, t⟩ 1 ho (by rw [hf]; rfl))
  have f4 : fld x 0 3 = m := by rw [hx]; exact fld_eq (field_eq ⟨0, 3, m⟩ 0 ho (by rw [hf]; rfl))
  have hm : x / 33554432 % 128 = 57 := by rw [hx]; exact const_eq 25 7 _ ho (by rw [hp]; decide +kernel)
  clear hx ho hp hf fs
  rw [hw, parse_vint hm]
  simp [parseVint, h0, h1, h2, f0, f1, f2, f3, f4]

theorem vsubsz (d : Fin 16) (a b : Fin 32) (t m : Fin 8) : Statement (.vsubsz d a b t m) := by
  refine core rfl ?_
  obtain ⟨fs, hf⟩ : ∃ fs : List Field, fs = [⟨0, 3, m⟩, ⟨3, 3, t⟩, ⟨11, 5, b⟩, ⟨16, 5, a⟩, ⟨21, 4, d⟩] := ⟨_, rfl⟩
  have hp : places fs = [(0, 3), (3, 3), (11, 5), (16, 5), (21, 4)] := by rw [hf]; rfl
  have ho : ok 1912603456 fs = true := sound_ok _ _ (by rw [hp]; decide +kernel)
  obtain ⟨x, hx⟩ : ∃ x, x = word 1912603456 fs := ⟨_, rfl⟩
  have hw : encode (.vsubsz d a b t m) = x := by rw [hx, hf, word_low]; rfl
  have h0 : x / 64 % 32 = 13 := by rw [hx]; exact const_eq 6 5 _ ho (by rw [hp]; decide +kernel)
  have h1 : x / 64 % 1024 ≠ 8 := by rw [hx]; exact slice_ne 6 10 0 _ 1 ho (by rw [hp]; decide +kernel) (by decide) (by
      decide +kernel)
  have h2 : x / 64 % 1024 ≠ 9 := by rw [hx]; exact slice_ne 6 10 2 _ 1 ho (by rw [hp]; decide +kernel) (by decide) (by
      decide +kernel)
  have f0 : fld x 21 4 = d := by rw [hx]; exact fld_eq (field_eq ⟨21, 4, d⟩ 4 ho (by rw [hf]; rfl))
  have f1 : fld x 16 5 = a := by rw [hx]; exact fld_eq (field_eq ⟨16, 5, a⟩ 3 ho (by rw [hf]; rfl))
  have f2 : fld x 11 5 = b := by rw [hx]; exact fld_eq (field_eq ⟨11, 5, b⟩ 2 ho (by rw [hf]; rfl))
  have f3 : fld x 3 3 = t := by rw [hx]; exact fld_eq (field_eq ⟨3, 3, t⟩ 1 ho (by rw [hf]; rfl))
  have f4 : fld x 0 3 = m := by rw [hx]; exact fld_eq (field_eq ⟨0, 3, m⟩ 0 ho (by rw [hf]; rfl))
  have hm : x / 33554432 % 128 = 57 := by rw [hx]; exact const_eq 25 7 _ ho (by rw [hp]; decide +kernel)
  clear hx ho hp hf fs
  rw [hw, parse_vint hm]
  simp [parseVint, h0, h1, h2, f0, f1, f2, f3, f4]

theorem vmulh (d : Fin 16) (a b : Fin 32) (t m : Fin 8) : Statement (.vmulh d a b t m) := by
  refine core rfl ?_
  obtain ⟨fs, hf⟩ : ∃ fs : List Field, fs = [⟨0, 3, m⟩, ⟨3, 3, t⟩, ⟨11, 5, b⟩, ⟨16, 5, a⟩, ⟨21, 4, d⟩] := ⟨_, rfl⟩
  have hp : places fs = [(0, 3), (3, 3), (11, 5), (16, 5), (21, 4)] := by rw [hf]; rfl
  have ho : ok 1912603520 fs = true := sound_ok _ _ (by rw [hp]; decide +kernel)
  obtain ⟨x, hx⟩ : ∃ x, x = word 1912603520 fs := ⟨_, rfl⟩
  have hw : encode (.vmulh d a b t m) = x := by rw [hx, hf, word_low]; rfl
  have h0 : x / 64 % 32 = 14 := by rw [hx]; exact const_eq 6 5 _ ho (by rw [hp]; decide +kernel)
  have h1 : x / 64 % 1024 ≠ 8 := by rw [hx]; exact slice_ne 6 10 1 _ 1 ho (by rw [hp]; decide +kernel) (by decide) (by
      decide +kernel)
  have h2 : x / 64 % 1024 ≠ 9 := by rw [hx]; exact slice_ne 6 10 0 _ 0 ho (by rw [hp]; decide +kernel) (by decide) (by
      decide +kernel)
  have f0 : fld x 21 4 = d := by rw [hx]; exact fld_eq (field_eq ⟨21, 4, d⟩ 4 ho (by rw [hf]; rfl))
  have f1 : fld x 16 5 = a := by rw [hx]; exact fld_eq (field_eq ⟨16, 5, a⟩ 3 ho (by rw [hf]; rfl))
  have f2 : fld x 11 5 = b := by rw [hx]; exact fld_eq (field_eq ⟨11, 5, b⟩ 2 ho (by rw [hf]; rfl))
  have f3 : fld x 3 3 = t := by rw [hx]; exact fld_eq (field_eq ⟨3, 3, t⟩ 1 ho (by rw [hf]; rfl))
  have f4 : fld x 0 3 = m := by rw [hx]; exact fld_eq (field_eq ⟨0, 3, m⟩ 0 ho (by rw [hf]; rfl))
  have hm : x / 33554432 % 128 = 57 := by rw [hx]; exact const_eq 25 7 _ ho (by rw [hp]; decide +kernel)
  clear hx ho hp hf fs
  rw [hw, parse_vint hm]
  simp [parseVint, h0, h1, h2, f0, f1, f2, f3, f4]

theorem vdot4 (d : Fin 16) (a b : Fin 32) (t m : Fin 8) : Statement (.vdot4 d a b t m) := by
  refine core rfl ?_
  obtain ⟨fs, hf⟩ : ∃ fs : List Field, fs = [⟨0, 3, m⟩, ⟨3, 3, t⟩, ⟨11, 5, b⟩, ⟨16, 5, a⟩, ⟨21, 4, d⟩] := ⟨_, rfl⟩
  have hp : places fs = [(0, 3), (3, 3), (11, 5), (16, 5), (21, 4)] := by rw [hf]; rfl
  have ho : ok 1912603584 fs = true := sound_ok _ _ (by rw [hp]; decide +kernel)
  obtain ⟨x, hx⟩ : ∃ x, x = word 1912603584 fs := ⟨_, rfl⟩
  have hw : encode (.vdot4 d a b t m) = x := by rw [hx, hf, word_low]; rfl
  have h0 : x / 64 % 32 = 15 := by rw [hx]; exact const_eq 6 5 _ ho (by rw [hp]; decide +kernel)
  have h1 : x / 64 % 1024 ≠ 8 := by rw [hx]; exact slice_ne 6 10 0 _ 1 ho (by rw [hp]; decide +kernel) (by decide) (by
      decide +kernel)
  have h2 : x / 64 % 1024 ≠ 9 := by rw [hx]; exact slice_ne 6 10 1 _ 1 ho (by rw [hp]; decide +kernel) (by decide) (by
      decide +kernel)
  have f0 : fld x 21 4 = d := by rw [hx]; exact fld_eq (field_eq ⟨21, 4, d⟩ 4 ho (by rw [hf]; rfl))
  have f1 : fld x 16 5 = a := by rw [hx]; exact fld_eq (field_eq ⟨16, 5, a⟩ 3 ho (by rw [hf]; rfl))
  have f2 : fld x 11 5 = b := by rw [hx]; exact fld_eq (field_eq ⟨11, 5, b⟩ 2 ho (by rw [hf]; rfl))
  have f3 : fld x 3 3 = t := by rw [hx]; exact fld_eq (field_eq ⟨3, 3, t⟩ 1 ho (by rw [hf]; rfl))
  have f4 : fld x 0 3 = m := by rw [hx]; exact fld_eq (field_eq ⟨0, 3, m⟩ 0 ho (by rw [hf]; rfl))
  have hm : x / 33554432 % 128 = 57 := by rw [hx]; exact const_eq 25 7 _ ho (by rw [hp]; decide +kernel)
  clear hx ho hp hf fs
  rw [hw, parse_vint hm]
  simp [parseVint, h0, h1, h2, f0, f1, f2, f3, f4]

theorem vdot4z (d : Fin 16) (a b : Fin 32) (t m : Fin 8) : Statement (.vdot4z d a b t m) := by
  refine core rfl ?_
  obtain ⟨fs, hf⟩ : ∃ fs : List Field, fs = [⟨0, 3, m⟩, ⟨3, 3, t⟩, ⟨11, 5, b⟩, ⟨16, 5, a⟩, ⟨21, 4, d⟩] := ⟨_, rfl⟩
  have hp : places fs = [(0, 3), (3, 3), (11, 5), (16, 5), (21, 4)] := by rw [hf]; rfl
  have ho : ok 1912603648 fs = true := sound_ok _ _ (by rw [hp]; decide +kernel)
  obtain ⟨x, hx⟩ : ∃ x, x = word 1912603648 fs := ⟨_, rfl⟩
  have hw : encode (.vdot4z d a b t m) = x := by rw [hx, hf, word_low]; rfl
  have h0 : x / 64 % 32 = 16 := by rw [hx]; exact const_eq 6 5 _ ho (by rw [hp]; decide +kernel)
  have h1 : x / 64 % 1024 ≠ 8 := by rw [hx]; exact slice_ne 6 10 3 _ 0 ho (by rw [hp]; decide +kernel) (by decide) (by
      decide +kernel)
  have h2 : x / 64 % 1024 ≠ 9 := by rw [hx]; exact slice_ne 6 10 0 _ 0 ho (by rw [hp]; decide +kernel) (by decide) (by
      decide +kernel)
  have f0 : fld x 21 4 = d := by rw [hx]; exact fld_eq (field_eq ⟨21, 4, d⟩ 4 ho (by rw [hf]; rfl))
  have f1 : fld x 16 5 = a := by rw [hx]; exact fld_eq (field_eq ⟨16, 5, a⟩ 3 ho (by rw [hf]; rfl))
  have f2 : fld x 11 5 = b := by rw [hx]; exact fld_eq (field_eq ⟨11, 5, b⟩ 2 ho (by rw [hf]; rfl))
  have f3 : fld x 3 3 = t := by rw [hx]; exact fld_eq (field_eq ⟨3, 3, t⟩ 1 ho (by rw [hf]; rfl))
  have f4 : fld x 0 3 = m := by rw [hx]; exact fld_eq (field_eq ⟨0, 3, m⟩ 0 ho (by rw [hf]; rfl))
  have hm : x / 33554432 % 128 = 57 := by rw [hx]; exact const_eq 25 7 _ ho (by rw [hp]; decide +kernel)
  clear hx ho hp hf fs
  rw [hw, parse_vint hm]
  simp [parseVint, h0, h1, h2, f0, f1, f2, f3, f4]

theorem vclmul (d : Fin 16) (a b : Fin 32) (t m : Fin 8) : Statement (.vclmul d a b t m) := by
  refine core rfl ?_
  obtain ⟨fs, hf⟩ : ∃ fs : List Field, fs = [⟨0, 3, m⟩, ⟨3, 3, t⟩, ⟨11, 5, b⟩, ⟨16, 5, a⟩, ⟨21, 4, d⟩] := ⟨_, rfl⟩
  have hp : places fs = [(0, 3), (3, 3), (11, 5), (16, 5), (21, 4)] := by rw [hf]; rfl
  have ho : ok 1912603712 fs = true := sound_ok _ _ (by rw [hp]; decide +kernel)
  obtain ⟨x, hx⟩ : ∃ x, x = word 1912603712 fs := ⟨_, rfl⟩
  have hw : encode (.vclmul d a b t m) = x := by rw [hx, hf, word_low]; rfl
  have h0 : x / 64 % 32 = 17 := by rw [hx]; exact const_eq 6 5 _ ho (by rw [hp]; decide +kernel)
  have h1 : x / 64 % 1024 ≠ 8 := by rw [hx]; exact slice_ne 6 10 0 _ 1 ho (by rw [hp]; decide +kernel) (by decide) (by
      decide +kernel)
  have h2 : x / 64 % 1024 ≠ 9 := by rw [hx]; exact slice_ne 6 10 3 _ 0 ho (by rw [hp]; decide +kernel) (by decide) (by
      decide +kernel)
  have f0 : fld x 21 4 = d := by rw [hx]; exact fld_eq (field_eq ⟨21, 4, d⟩ 4 ho (by rw [hf]; rfl))
  have f1 : fld x 16 5 = a := by rw [hx]; exact fld_eq (field_eq ⟨16, 5, a⟩ 3 ho (by rw [hf]; rfl))
  have f2 : fld x 11 5 = b := by rw [hx]; exact fld_eq (field_eq ⟨11, 5, b⟩ 2 ho (by rw [hf]; rfl))
  have f3 : fld x 3 3 = t := by rw [hx]; exact fld_eq (field_eq ⟨3, 3, t⟩ 1 ho (by rw [hf]; rfl))
  have f4 : fld x 0 3 = m := by rw [hx]; exact fld_eq (field_eq ⟨0, 3, m⟩ 0 ho (by rw [hf]; rfl))
  have hm : x / 33554432 % 128 = 57 := by rw [hx]; exact const_eq 25 7 _ ho (by rw [hp]; decide +kernel)
  clear hx ho hp hf fs
  rw [hw, parse_vint hm]
  simp [parseVint, h0, h1, h2, f0, f1, f2, f3, f4]

theorem vclmulh (d : Fin 16) (a b : Fin 32) (t m : Fin 8) : Statement (.vclmulh d a b t m) := by
  refine core rfl ?_
  obtain ⟨fs, hf⟩ : ∃ fs : List Field, fs = [⟨0, 3, m⟩, ⟨3, 3, t⟩, ⟨11, 5, b⟩, ⟨16, 5, a⟩, ⟨21, 4, d⟩] := ⟨_, rfl⟩
  have hp : places fs = [(0, 3), (3, 3), (11, 5), (16, 5), (21, 4)] := by rw [hf]; rfl
  have ho : ok 1912603776 fs = true := sound_ok _ _ (by rw [hp]; decide +kernel)
  obtain ⟨x, hx⟩ : ∃ x, x = word 1912603776 fs := ⟨_, rfl⟩
  have hw : encode (.vclmulh d a b t m) = x := by rw [hx, hf, word_low]; rfl
  have h0 : x / 64 % 32 = 18 := by rw [hx]; exact const_eq 6 5 _ ho (by rw [hp]; decide +kernel)
  have h1 : x / 64 % 1024 ≠ 8 := by rw [hx]; exact slice_ne 6 10 1 _ 1 ho (by rw [hp]; decide +kernel) (by decide) (by
      decide +kernel)
  have h2 : x / 64 % 1024 ≠ 9 := by rw [hx]; exact slice_ne 6 10 0 _ 0 ho (by rw [hp]; decide +kernel) (by decide) (by
      decide +kernel)
  have f0 : fld x 21 4 = d := by rw [hx]; exact fld_eq (field_eq ⟨21, 4, d⟩ 4 ho (by rw [hf]; rfl))
  have f1 : fld x 16 5 = a := by rw [hx]; exact fld_eq (field_eq ⟨16, 5, a⟩ 3 ho (by rw [hf]; rfl))
  have f2 : fld x 11 5 = b := by rw [hx]; exact fld_eq (field_eq ⟨11, 5, b⟩ 2 ho (by rw [hf]; rfl))
  have f3 : fld x 3 3 = t := by rw [hx]; exact fld_eq (field_eq ⟨3, 3, t⟩ 1 ho (by rw [hf]; rfl))
  have f4 : fld x 0 3 = m := by rw [hx]; exact fld_eq (field_eq ⟨0, 3, m⟩ 0 ho (by rw [hf]; rfl))
  have hm : x / 33554432 % 128 = 57 := by rw [hx]; exact const_eq 25 7 _ ho (by rw [hp]; decide +kernel)
  clear hx ho hp hf fs
  rw [hw, parse_vint hm]
  simp [parseVint, h0, h1, h2, f0, f1, f2, f3, f4]

theorem vand (d : Fin 16) (a b : Fin 32) (t m : Fin 8) : Statement (.vand d a b t m) := by
  refine core rfl ?_
  obtain ⟨fs, hf⟩ : ∃ fs : List Field, fs = [⟨0, 3, m⟩, ⟨3, 3, t⟩, ⟨11, 5, b⟩, ⟨16, 5, a⟩, ⟨21, 4, d⟩] := ⟨_, rfl⟩
  have hp : places fs = [(0, 3), (3, 3), (11, 5), (16, 5), (21, 4)] := by rw [hf]; rfl
  have ho : ok 1946157056 fs = true := sound_ok _ _ (by rw [hp]; decide +kernel)
  obtain ⟨x, hx⟩ : ∃ x, x = word 1946157056 fs := ⟨_, rfl⟩
  have hw : encode (.vand d a b t m) = x := by rw [hx, hf, word_low]; rfl
  have h0 : x / 64 % 32 = 0 := by rw [hx]; exact const_eq 6 5 _ ho (by rw [hp]; decide +kernel)
  have f0 : fld x 21 4 = d := by rw [hx]; exact fld_eq (field_eq ⟨21, 4, d⟩ 4 ho (by rw [hf]; rfl))
  have f1 : fld x 16 5 = a := by rw [hx]; exact fld_eq (field_eq ⟨16, 5, a⟩ 3 ho (by rw [hf]; rfl))
  have f2 : fld x 11 5 = b := by rw [hx]; exact fld_eq (field_eq ⟨11, 5, b⟩ 2 ho (by rw [hf]; rfl))
  have f3 : fld x 3 3 = t := by rw [hx]; exact fld_eq (field_eq ⟨3, 3, t⟩ 1 ho (by rw [hf]; rfl))
  have f4 : fld x 0 3 = m := by rw [hx]; exact fld_eq (field_eq ⟨0, 3, m⟩ 0 ho (by rw [hf]; rfl))
  have hm : x / 33554432 % 128 = 58 := by rw [hx]; exact const_eq 25 7 _ ho (by rw [hp]; decide +kernel)
  clear hx ho hp hf fs
  rw [hw, parse_vlogic hm]
  simp [parseVlogic, h0, f0, f1, f2, f3, f4]

theorem vor (d : Fin 16) (a b : Fin 32) (t m : Fin 8) : Statement (.vor d a b t m) := by
  refine core rfl ?_
  obtain ⟨fs, hf⟩ : ∃ fs : List Field, fs = [⟨0, 3, m⟩, ⟨3, 3, t⟩, ⟨11, 5, b⟩, ⟨16, 5, a⟩, ⟨21, 4, d⟩] := ⟨_, rfl⟩
  have hp : places fs = [(0, 3), (3, 3), (11, 5), (16, 5), (21, 4)] := by rw [hf]; rfl
  have ho : ok 1946157120 fs = true := sound_ok _ _ (by rw [hp]; decide +kernel)
  obtain ⟨x, hx⟩ : ∃ x, x = word 1946157120 fs := ⟨_, rfl⟩
  have hw : encode (.vor d a b t m) = x := by rw [hx, hf, word_low]; rfl
  have h0 : x / 64 % 32 = 1 := by rw [hx]; exact const_eq 6 5 _ ho (by rw [hp]; decide +kernel)
  have f0 : fld x 21 4 = d := by rw [hx]; exact fld_eq (field_eq ⟨21, 4, d⟩ 4 ho (by rw [hf]; rfl))
  have f1 : fld x 16 5 = a := by rw [hx]; exact fld_eq (field_eq ⟨16, 5, a⟩ 3 ho (by rw [hf]; rfl))
  have f2 : fld x 11 5 = b := by rw [hx]; exact fld_eq (field_eq ⟨11, 5, b⟩ 2 ho (by rw [hf]; rfl))
  have f3 : fld x 3 3 = t := by rw [hx]; exact fld_eq (field_eq ⟨3, 3, t⟩ 1 ho (by rw [hf]; rfl))
  have f4 : fld x 0 3 = m := by rw [hx]; exact fld_eq (field_eq ⟨0, 3, m⟩ 0 ho (by rw [hf]; rfl))
  have hm : x / 33554432 % 128 = 58 := by rw [hx]; exact const_eq 25 7 _ ho (by rw [hp]; decide +kernel)
  clear hx ho hp hf fs
  rw [hw, parse_vlogic hm]
  simp [parseVlogic, h0, f0, f1, f2, f3, f4]

theorem vxor (d : Fin 16) (a b : Fin 32) (t m : Fin 8) : Statement (.vxor d a b t m) := by
  refine core rfl ?_
  obtain ⟨fs, hf⟩ : ∃ fs : List Field, fs = [⟨0, 3, m⟩, ⟨3, 3, t⟩, ⟨11, 5, b⟩, ⟨16, 5, a⟩, ⟨21, 4, d⟩] := ⟨_, rfl⟩
  have hp : places fs = [(0, 3), (3, 3), (11, 5), (16, 5), (21, 4)] := by rw [hf]; rfl
  have ho : ok 1946157184 fs = true := sound_ok _ _ (by rw [hp]; decide +kernel)
  obtain ⟨x, hx⟩ : ∃ x, x = word 1946157184 fs := ⟨_, rfl⟩
  have hw : encode (.vxor d a b t m) = x := by rw [hx, hf, word_low]; rfl
  have h0 : x / 64 % 32 = 2 := by rw [hx]; exact const_eq 6 5 _ ho (by rw [hp]; decide +kernel)
  have f0 : fld x 21 4 = d := by rw [hx]; exact fld_eq (field_eq ⟨21, 4, d⟩ 4 ho (by rw [hf]; rfl))
  have f1 : fld x 16 5 = a := by rw [hx]; exact fld_eq (field_eq ⟨16, 5, a⟩ 3 ho (by rw [hf]; rfl))
  have f2 : fld x 11 5 = b := by rw [hx]; exact fld_eq (field_eq ⟨11, 5, b⟩ 2 ho (by rw [hf]; rfl))
  have f3 : fld x 3 3 = t := by rw [hx]; exact fld_eq (field_eq ⟨3, 3, t⟩ 1 ho (by rw [hf]; rfl))
  have f4 : fld x 0 3 = m := by rw [hx]; exact fld_eq (field_eq ⟨0, 3, m⟩ 0 ho (by rw [hf]; rfl))
  have hm : x / 33554432 % 128 = 58 := by rw [hx]; exact const_eq 25 7 _ ho (by rw [hp]; decide +kernel)
  clear hx ho hp hf fs
  rw [hw, parse_vlogic hm]
  simp [parseVlogic, h0, f0, f1, f2, f3, f4]

theorem vandn (d : Fin 16) (a b : Fin 32) (t m : Fin 8) : Statement (.vandn d a b t m) := by
  refine core rfl ?_
  obtain ⟨fs, hf⟩ : ∃ fs : List Field, fs = [⟨0, 3, m⟩, ⟨3, 3, t⟩, ⟨11, 5, b⟩, ⟨16, 5, a⟩, ⟨21, 4, d⟩] := ⟨_, rfl⟩
  have hp : places fs = [(0, 3), (3, 3), (11, 5), (16, 5), (21, 4)] := by rw [hf]; rfl
  have ho : ok 1946157248 fs = true := sound_ok _ _ (by rw [hp]; decide +kernel)
  obtain ⟨x, hx⟩ : ∃ x, x = word 1946157248 fs := ⟨_, rfl⟩
  have hw : encode (.vandn d a b t m) = x := by rw [hx, hf, word_low]; rfl
  have h0 : x / 64 % 32 = 3 := by rw [hx]; exact const_eq 6 5 _ ho (by rw [hp]; decide +kernel)
  have f0 : fld x 21 4 = d := by rw [hx]; exact fld_eq (field_eq ⟨21, 4, d⟩ 4 ho (by rw [hf]; rfl))
  have f1 : fld x 16 5 = a := by rw [hx]; exact fld_eq (field_eq ⟨16, 5, a⟩ 3 ho (by rw [hf]; rfl))
  have f2 : fld x 11 5 = b := by rw [hx]; exact fld_eq (field_eq ⟨11, 5, b⟩ 2 ho (by rw [hf]; rfl))
  have f3 : fld x 3 3 = t := by rw [hx]; exact fld_eq (field_eq ⟨3, 3, t⟩ 1 ho (by rw [hf]; rfl))
  have f4 : fld x 0 3 = m := by rw [hx]; exact fld_eq (field_eq ⟨0, 3, m⟩ 0 ho (by rw [hf]; rfl))
  have hm : x / 33554432 % 128 = 58 := by rw [hx]; exact const_eq 25 7 _ ho (by rw [hp]; decide +kernel)
  clear hx ho hp hf fs
  rw [hw, parse_vlogic hm]
  simp [parseVlogic, h0, f0, f1, f2, f3, f4]

theorem vnot (d : Fin 16) (a : Fin 32) (t m : Fin 8) : Statement (.vnot d a t m) := by
  refine core rfl ?_
  obtain ⟨fs, hf⟩ : ∃ fs : List Field, fs = [⟨0, 3, m⟩, ⟨3, 3, t⟩, ⟨16, 5, a⟩, ⟨21, 4, d⟩] := ⟨_, rfl⟩
  have hp : places fs = [(0, 3), (3, 3), (16, 5), (21, 4)] := by rw [hf]; rfl
  have ho : ok 1946157312 fs = true := sound_ok _ _ (by rw [hp]; decide +kernel)
  obtain ⟨x, hx⟩ : ∃ x, x = word 1946157312 fs := ⟨_, rfl⟩
  have hw : encode (.vnot d a t m) = x := by rw [hx, hf, word_low]; rfl
  have h0 : x / 64 % 32 = 4 := by rw [hx]; exact const_eq 6 5 _ ho (by rw [hp]; decide +kernel)
  have h1 : x / 64 % 1024 = 4 := by rw [hx]; exact const_eq 6 10 _ ho (by rw [hp]; decide +kernel)
  have f0 : fld x 21 4 = d := by rw [hx]; exact fld_eq (field_eq ⟨21, 4, d⟩ 3 ho (by rw [hf]; rfl))
  have f1 : fld x 16 5 = a := by rw [hx]; exact fld_eq (field_eq ⟨16, 5, a⟩ 2 ho (by rw [hf]; rfl))
  have f2 : fld x 3 3 = t := by rw [hx]; exact fld_eq (field_eq ⟨3, 3, t⟩ 1 ho (by rw [hf]; rfl))
  have f3 : fld x 0 3 = m := by rw [hx]; exact fld_eq (field_eq ⟨0, 3, m⟩ 0 ho (by rw [hf]; rfl))
  have hm : x / 33554432 % 128 = 58 := by rw [hx]; exact const_eq 25 7 _ ho (by rw [hp]; decide +kernel)
  clear hx ho hp hf fs
  rw [hw, parse_vlogic hm]
  simp [parseVlogic, h0, h1, f0, f1, f2, f3]

theorem vshl (d : Fin 16) (a b : Fin 32) (t m : Fin 8) : Statement (.vshl d a b t m) := by
  refine core rfl ?_
  obtain ⟨fs, hf⟩ : ∃ fs : List Field, fs = [⟨0, 3, m⟩, ⟨3, 3, t⟩, ⟨11, 5, b⟩, ⟨16, 5, a⟩, ⟨21, 4, d⟩] := ⟨_, rfl⟩
  have hp : places fs = [(0, 3), (3, 3), (11, 5), (16, 5), (21, 4)] := by rw [hf]; rfl
  have ho : ok 1946157376 fs = true := sound_ok _ _ (by rw [hp]; decide +kernel)
  obtain ⟨x, hx⟩ : ∃ x, x = word 1946157376 fs := ⟨_, rfl⟩
  have hw : encode (.vshl d a b t m) = x := by rw [hx, hf, word_low]; rfl
  have h0 : x / 64 % 32 = 5 := by rw [hx]; exact const_eq 6 5 _ ho (by rw [hp]; decide +kernel)
  have h1 : x / 64 % 1024 ≠ 4 := by rw [hx]; exact slice_ne 6 10 0 _ 1 ho (by rw [hp]; decide +kernel) (by decide) (by
      decide +kernel)
  have f0 : fld x 21 4 = d := by rw [hx]; exact fld_eq (field_eq ⟨21, 4, d⟩ 4 ho (by rw [hf]; rfl))
  have f1 : fld x 16 5 = a := by rw [hx]; exact fld_eq (field_eq ⟨16, 5, a⟩ 3 ho (by rw [hf]; rfl))
  have f2 : fld x 11 5 = b := by rw [hx]; exact fld_eq (field_eq ⟨11, 5, b⟩ 2 ho (by rw [hf]; rfl))
  have f3 : fld x 3 3 = t := by rw [hx]; exact fld_eq (field_eq ⟨3, 3, t⟩ 1 ho (by rw [hf]; rfl))
  have f4 : fld x 0 3 = m := by rw [hx]; exact fld_eq (field_eq ⟨0, 3, m⟩ 0 ho (by rw [hf]; rfl))
  have hm : x / 33554432 % 128 = 58 := by rw [hx]; exact const_eq 25 7 _ ho (by rw [hp]; decide +kernel)
  clear hx ho hp hf fs
  rw [hw, parse_vlogic hm]
  simp [parseVlogic, h0, h1, f0, f1, f2, f3, f4]

theorem vshr (d : Fin 16) (a b : Fin 32) (t m : Fin 8) : Statement (.vshr d a b t m) := by
  refine core rfl ?_
  obtain ⟨fs, hf⟩ : ∃ fs : List Field, fs = [⟨0, 3, m⟩, ⟨3, 3, t⟩, ⟨11, 5, b⟩, ⟨16, 5, a⟩, ⟨21, 4, d⟩] := ⟨_, rfl⟩
  have hp : places fs = [(0, 3), (3, 3), (11, 5), (16, 5), (21, 4)] := by rw [hf]; rfl
  have ho : ok 1946157440 fs = true := sound_ok _ _ (by rw [hp]; decide +kernel)
  obtain ⟨x, hx⟩ : ∃ x, x = word 1946157440 fs := ⟨_, rfl⟩
  have hw : encode (.vshr d a b t m) = x := by rw [hx, hf, word_low]; rfl
  have h0 : x / 64 % 32 = 6 := by rw [hx]; exact const_eq 6 5 _ ho (by rw [hp]; decide +kernel)
  have h1 : x / 64 % 1024 ≠ 4 := by rw [hx]; exact slice_ne 6 10 1 _ 1 ho (by rw [hp]; decide +kernel) (by decide) (by
      decide +kernel)
  have f0 : fld x 21 4 = d := by rw [hx]; exact fld_eq (field_eq ⟨21, 4, d⟩ 4 ho (by rw [hf]; rfl))
  have f1 : fld x 16 5 = a := by rw [hx]; exact fld_eq (field_eq ⟨16, 5, a⟩ 3 ho (by rw [hf]; rfl))
  have f2 : fld x 11 5 = b := by rw [hx]; exact fld_eq (field_eq ⟨11, 5, b⟩ 2 ho (by rw [hf]; rfl))
  have f3 : fld x 3 3 = t := by rw [hx]; exact fld_eq (field_eq ⟨3, 3, t⟩ 1 ho (by rw [hf]; rfl))
  have f4 : fld x 0 3 = m := by rw [hx]; exact fld_eq (field_eq ⟨0, 3, m⟩ 0 ho (by rw [hf]; rfl))
  have hm : x / 33554432 % 128 = 58 := by rw [hx]; exact const_eq 25 7 _ ho (by rw [hp]; decide +kernel)
  clear hx ho hp hf fs
  rw [hw, parse_vlogic hm]
  simp [parseVlogic, h0, h1, f0, f1, f2, f3, f4]

theorem vsra (d : Fin 16) (a b : Fin 32) (t m : Fin 8) : Statement (.vsra d a b t m) := by
  refine core rfl ?_
  obtain ⟨fs, hf⟩ : ∃ fs : List Field, fs = [⟨0, 3, m⟩, ⟨3, 3, t⟩, ⟨11, 5, b⟩, ⟨16, 5, a⟩, ⟨21, 4, d⟩] := ⟨_, rfl⟩
  have hp : places fs = [(0, 3), (3, 3), (11, 5), (16, 5), (21, 4)] := by rw [hf]; rfl
  have ho : ok 1946157504 fs = true := sound_ok _ _ (by rw [hp]; decide +kernel)
  obtain ⟨x, hx⟩ : ∃ x, x = word 1946157504 fs := ⟨_, rfl⟩
  have hw : encode (.vsra d a b t m) = x := by rw [hx, hf, word_low]; rfl
  have h0 : x / 64 % 32 = 7 := by rw [hx]; exact const_eq 6 5 _ ho (by rw [hp]; decide +kernel)
  have h1 : x / 64 % 1024 ≠ 4 := by rw [hx]; exact slice_ne 6 10 0 _ 1 ho (by rw [hp]; decide +kernel) (by decide) (by
      decide +kernel)
  have f0 : fld x 21 4 = d := by rw [hx]; exact fld_eq (field_eq ⟨21, 4, d⟩ 4 ho (by rw [hf]; rfl))
  have f1 : fld x 16 5 = a := by rw [hx]; exact fld_eq (field_eq ⟨16, 5, a⟩ 3 ho (by rw [hf]; rfl))
  have f2 : fld x 11 5 = b := by rw [hx]; exact fld_eq (field_eq ⟨11, 5, b⟩ 2 ho (by rw [hf]; rfl))
  have f3 : fld x 3 3 = t := by rw [hx]; exact fld_eq (field_eq ⟨3, 3, t⟩ 1 ho (by rw [hf]; rfl))
  have f4 : fld x 0 3 = m := by rw [hx]; exact fld_eq (field_eq ⟨0, 3, m⟩ 0 ho (by rw [hf]; rfl))
  have hm : x / 33554432 % 128 = 58 := by rw [hx]; exact const_eq 25 7 _ ho (by rw [hp]; decide +kernel)
  clear hx ho hp hf fs
  rw [hw, parse_vlogic hm]
  simp [parseVlogic, h0, h1, f0, f1, f2, f3, f4]

theorem vpopc (d : Fin 16) (a : Fin 32) (t m : Fin 8) : Statement (.vpopc d a t m) := by
  refine core rfl ?_
  obtain ⟨fs, hf⟩ : ∃ fs : List Field, fs = [⟨0, 3, m⟩, ⟨3, 3, t⟩, ⟨16, 5, a⟩, ⟨21, 4, d⟩] := ⟨_, rfl⟩
  have hp : places fs = [(0, 3), (3, 3), (16, 5), (21, 4)] := by rw [hf]; rfl
  have ho : ok 1946157568 fs = true := sound_ok _ _ (by rw [hp]; decide +kernel)
  obtain ⟨x, hx⟩ : ∃ x, x = word 1946157568 fs := ⟨_, rfl⟩
  have hw : encode (.vpopc d a t m) = x := by rw [hx, hf, word_low]; rfl
  have h0 : x / 64 % 32 = 8 := by rw [hx]; exact const_eq 6 5 _ ho (by rw [hp]; decide +kernel)
  have h1 : x / 64 % 1024 = 8 := by rw [hx]; exact const_eq 6 10 _ ho (by rw [hp]; decide +kernel)
  have f0 : fld x 21 4 = d := by rw [hx]; exact fld_eq (field_eq ⟨21, 4, d⟩ 3 ho (by rw [hf]; rfl))
  have f1 : fld x 16 5 = a := by rw [hx]; exact fld_eq (field_eq ⟨16, 5, a⟩ 2 ho (by rw [hf]; rfl))
  have f2 : fld x 3 3 = t := by rw [hx]; exact fld_eq (field_eq ⟨3, 3, t⟩ 1 ho (by rw [hf]; rfl))
  have f3 : fld x 0 3 = m := by rw [hx]; exact fld_eq (field_eq ⟨0, 3, m⟩ 0 ho (by rw [hf]; rfl))
  have hm : x / 33554432 % 128 = 58 := by rw [hx]; exact const_eq 25 7 _ ho (by rw [hp]; decide +kernel)
  clear hx ho hp hf fs
  rw [hw, parse_vlogic hm]
  simp [parseVlogic, h0, h1, f0, f1, f2, f3]

theorem vclz (d : Fin 16) (a : Fin 32) (t m : Fin 8) : Statement (.vclz d a t m) := by
  refine core rfl ?_
  obtain ⟨fs, hf⟩ : ∃ fs : List Field, fs = [⟨0, 3, m⟩, ⟨3, 3, t⟩, ⟨16, 5, a⟩, ⟨21, 4, d⟩] := ⟨_, rfl⟩
  have hp : places fs = [(0, 3), (3, 3), (16, 5), (21, 4)] := by rw [hf]; rfl
  have ho : ok 1946157632 fs = true := sound_ok _ _ (by rw [hp]; decide +kernel)
  obtain ⟨x, hx⟩ : ∃ x, x = word 1946157632 fs := ⟨_, rfl⟩
  have hw : encode (.vclz d a t m) = x := by rw [hx, hf, word_low]; rfl
  have h0 : x / 64 % 32 = 9 := by rw [hx]; exact const_eq 6 5 _ ho (by rw [hp]; decide +kernel)
  have h1 : x / 64 % 1024 = 9 := by rw [hx]; exact const_eq 6 10 _ ho (by rw [hp]; decide +kernel)
  have f0 : fld x 21 4 = d := by rw [hx]; exact fld_eq (field_eq ⟨21, 4, d⟩ 3 ho (by rw [hf]; rfl))
  have f1 : fld x 16 5 = a := by rw [hx]; exact fld_eq (field_eq ⟨16, 5, a⟩ 2 ho (by rw [hf]; rfl))
  have f2 : fld x 3 3 = t := by rw [hx]; exact fld_eq (field_eq ⟨3, 3, t⟩ 1 ho (by rw [hf]; rfl))
  have f3 : fld x 0 3 = m := by rw [hx]; exact fld_eq (field_eq ⟨0, 3, m⟩ 0 ho (by rw [hf]; rfl))
  have hm : x / 33554432 % 128 = 58 := by rw [hx]; exact const_eq 25 7 _ ho (by rw [hp]; decide +kernel)
  clear hx ho hp hf fs
  rw [hw, parse_vlogic hm]
  simp [parseVlogic, h0, h1, f0, f1, f2, f3]

theorem vshli (d : Fin 16) (a i : Fin 32) (t m : Fin 8) : Statement (.vshli d a i t m) := by
  refine core rfl ?_
  obtain ⟨fs, hf⟩ : ∃ fs : List Field, fs = [⟨0, 3, m⟩, ⟨3, 3, t⟩, ⟨11, 5, i⟩, ⟨16, 5, a⟩, ⟨21, 4, d⟩] := ⟨_, rfl⟩
  have hp : places fs = [(0, 3), (3, 3), (11, 5), (16, 5), (21, 4)] := by rw [hf]; rfl
  have ho : ok 1946157696 fs = true := sound_ok _ _ (by rw [hp]; decide +kernel)
  obtain ⟨x, hx⟩ : ∃ x, x = word 1946157696 fs := ⟨_, rfl⟩
  have hw : encode (.vshli d a i t m) = x := by rw [hx, hf, word_low]; rfl
  have h0 : x / 64 % 32 = 10 := by rw [hx]; exact const_eq 6 5 _ ho (by rw [hp]; decide +kernel)
  have h1 : x / 64 % 1024 ≠ 4 := by rw [hx]; exact slice_ne 6 10 1 _ 1 ho (by rw [hp]; decide +kernel) (by decide) (by
      decide +kernel)
  have h2 : x / 64 % 1024 ≠ 8 := by rw [hx]; exact slice_ne 6 10 1 _ 1 ho (by rw [hp]; decide +kernel) (by decide) (by
      decide +kernel)
  have h3 : x / 64 % 1024 ≠ 9 := by rw [hx]; exact slice_ne 6 10 0 _ 0 ho (by rw [hp]; decide +kernel) (by decide) (by
      decide +kernel)
  have f0 : fld x 21 4 = d := by rw [hx]; exact fld_eq (field_eq ⟨21, 4, d⟩ 4 ho (by rw [hf]; rfl))
  have f1 : fld x 16 5 = a := by rw [hx]; exact fld_eq (field_eq ⟨16, 5, a⟩ 3 ho (by rw [hf]; rfl))
  have f2 : fld x 11 5 = i := by rw [hx]; exact fld_eq (field_eq ⟨11, 5, i⟩ 2 ho (by rw [hf]; rfl))
  have f3 : fld x 3 3 = t := by rw [hx]; exact fld_eq (field_eq ⟨3, 3, t⟩ 1 ho (by rw [hf]; rfl))
  have f4 : fld x 0 3 = m := by rw [hx]; exact fld_eq (field_eq ⟨0, 3, m⟩ 0 ho (by rw [hf]; rfl))
  have hm : x / 33554432 % 128 = 58 := by rw [hx]; exact const_eq 25 7 _ ho (by rw [hp]; decide +kernel)
  clear hx ho hp hf fs
  rw [hw, parse_vlogic hm]
  simp [parseVlogic, h0, h1, h2, h3, f0, f1, f2, f3, f4]

theorem vshri (d : Fin 16) (a i : Fin 32) (t m : Fin 8) : Statement (.vshri d a i t m) := by
  refine core rfl ?_
  obtain ⟨fs, hf⟩ : ∃ fs : List Field, fs = [⟨0, 3, m⟩, ⟨3, 3, t⟩, ⟨11, 5, i⟩, ⟨16, 5, a⟩, ⟨21, 4, d⟩] := ⟨_, rfl⟩
  have hp : places fs = [(0, 3), (3, 3), (11, 5), (16, 5), (21, 4)] := by rw [hf]; rfl
  have ho : ok 1946157760 fs = true := sound_ok _ _ (by rw [hp]; decide +kernel)
  obtain ⟨x, hx⟩ : ∃ x, x = word 1946157760 fs := ⟨_, rfl⟩
  have hw : encode (.vshri d a i t m) = x := by rw [hx, hf, word_low]; rfl
  have h0 : x / 64 % 32 = 11 := by rw [hx]; exact const_eq 6 5 _ ho (by rw [hp]; decide +kernel)
  have h1 : x / 64 % 1024 ≠ 4 := by rw [hx]; exact slice_ne 6 10 0 _ 1 ho (by rw [hp]; decide +kernel) (by decide) (by
      decide +kernel)
  have h2 : x / 64 % 1024 ≠ 8 := by rw [hx]; exact slice_ne 6 10 0 _ 1 ho (by rw [hp]; decide +kernel) (by decide) (by
      decide +kernel)
  have h3 : x / 64 % 1024 ≠ 9 := by rw [hx]; exact slice_ne 6 10 1 _ 1 ho (by rw [hp]; decide +kernel) (by decide) (by
      decide +kernel)
  have f0 : fld x 21 4 = d := by rw [hx]; exact fld_eq (field_eq ⟨21, 4, d⟩ 4 ho (by rw [hf]; rfl))
  have f1 : fld x 16 5 = a := by rw [hx]; exact fld_eq (field_eq ⟨16, 5, a⟩ 3 ho (by rw [hf]; rfl))
  have f2 : fld x 11 5 = i := by rw [hx]; exact fld_eq (field_eq ⟨11, 5, i⟩ 2 ho (by rw [hf]; rfl))
  have f3 : fld x 3 3 = t := by rw [hx]; exact fld_eq (field_eq ⟨3, 3, t⟩ 1 ho (by rw [hf]; rfl))
  have f4 : fld x 0 3 = m := by rw [hx]; exact fld_eq (field_eq ⟨0, 3, m⟩ 0 ho (by rw [hf]; rfl))
  have hm : x / 33554432 % 128 = 58 := by rw [hx]; exact const_eq 25 7 _ ho (by rw [hp]; decide +kernel)
  clear hx ho hp hf fs
  rw [hw, parse_vlogic hm]
  simp [parseVlogic, h0, h1, h2, h3, f0, f1, f2, f3, f4]

theorem vsrai (d : Fin 16) (a i : Fin 32) (t m : Fin 8) : Statement (.vsrai d a i t m) := by
  refine core rfl ?_
  obtain ⟨fs, hf⟩ : ∃ fs : List Field, fs = [⟨0, 3, m⟩, ⟨3, 3, t⟩, ⟨11, 5, i⟩, ⟨16, 5, a⟩, ⟨21, 4, d⟩] := ⟨_, rfl⟩
  have hp : places fs = [(0, 3), (3, 3), (11, 5), (16, 5), (21, 4)] := by rw [hf]; rfl
  have ho : ok 1946157824 fs = true := sound_ok _ _ (by rw [hp]; decide +kernel)
  obtain ⟨x, hx⟩ : ∃ x, x = word 1946157824 fs := ⟨_, rfl⟩
  have hw : encode (.vsrai d a i t m) = x := by rw [hx, hf, word_low]; rfl
  have h0 : x / 64 % 32 = 12 := by rw [hx]; exact const_eq 6 5 _ ho (by rw [hp]; decide +kernel)
  have h1 : x / 64 % 1024 ≠ 4 := by rw [hx]; exact slice_ne 6 10 3 _ 1 ho (by rw [hp]; decide +kernel) (by decide) (by
      decide +kernel)
  have h2 : x / 64 % 1024 ≠ 8 := by rw [hx]; exact slice_ne 6 10 2 _ 1 ho (by rw [hp]; decide +kernel) (by decide) (by
      decide +kernel)
  have h3 : x / 64 % 1024 ≠ 9 := by rw [hx]; exact slice_ne 6 10 0 _ 0 ho (by rw [hp]; decide +kernel) (by decide) (by
      decide +kernel)
  have f0 : fld x 21 4 = d := by rw [hx]; exact fld_eq (field_eq ⟨21, 4, d⟩ 4 ho (by rw [hf]; rfl))
  have f1 : fld x 16 5 = a := by rw [hx]; exact fld_eq (field_eq ⟨16, 5, a⟩ 3 ho (by rw [hf]; rfl))
  have f2 : fld x 11 5 = i := by rw [hx]; exact fld_eq (field_eq ⟨11, 5, i⟩ 2 ho (by rw [hf]; rfl))
  have f3 : fld x 3 3 = t := by rw [hx]; exact fld_eq (field_eq ⟨3, 3, t⟩ 1 ho (by rw [hf]; rfl))
  have f4 : fld x 0 3 = m := by rw [hx]; exact fld_eq (field_eq ⟨0, 3, m⟩ 0 ho (by rw [hf]; rfl))
  have hm : x / 33554432 % 128 = 58 := by rw [hx]; exact const_eq 25 7 _ ho (by rw [hp]; decide +kernel)
  clear hx ho hp hf fs
  rw [hw, parse_vlogic hm]
  simp [parseVlogic, h0, h1, h2, h3, f0, f1, f2, f3, f4]

theorem veq (d : Fin 16) (a b : Fin 32) (t m : Fin 8) : Statement (.veq d a b t m) := by
  refine core rfl ?_
  obtain ⟨fs, hf⟩ : ∃ fs : List Field, fs = [⟨0, 3, m⟩, ⟨3, 3, t⟩, ⟨11, 5, b⟩, ⟨16, 5, a⟩, ⟨21, 4, d⟩] := ⟨_, rfl⟩
  have hp : places fs = [(0, 3), (3, 3), (11, 5), (16, 5), (21, 4)] := by rw [hf]; rfl
  have ho : ok 1979711488 fs = true := sound_ok _ _ (by rw [hp]; decide +kernel)
  obtain ⟨x, hx⟩ : ∃ x, x = word 1979711488 fs := ⟨_, rfl⟩
  have hw : encode (.veq d a b t m) = x := by rw [hx, hf, word_low]; rfl
  have h0 : x / 64 % 32 = 0 := by rw [hx]; exact const_eq 6 5 _ ho (by rw [hp]; decide +kernel)
  have f0 : fld x 21 4 = d := by rw [hx]; exact fld_eq (field_eq ⟨21, 4, d⟩ 4 ho (by rw [hf]; rfl))
  have f1 : fld x 16 5 = a := by rw [hx]; exact fld_eq (field_eq ⟨16, 5, a⟩ 3 ho (by rw [hf]; rfl))
  have f2 : fld x 11 5 = b := by rw [hx]; exact fld_eq (field_eq ⟨11, 5, b⟩ 2 ho (by rw [hf]; rfl))
  have f3 : fld x 3 3 = t := by rw [hx]; exact fld_eq (field_eq ⟨3, 3, t⟩ 1 ho (by rw [hf]; rfl))
  have f4 : fld x 0 3 = m := by rw [hx]; exact fld_eq (field_eq ⟨0, 3, m⟩ 0 ho (by rw [hf]; rfl))
  have hm : x / 33554432 % 128 = 59 := by rw [hx]; exact const_eq 25 7 _ ho (by rw [hp]; decide +kernel)
  clear hx ho hp hf fs
  rw [hw, parse_vcmp hm]
  simp [parseVcmp, h0, f0, f1, f2, f3, f4]

theorem vne (d : Fin 16) (a b : Fin 32) (t m : Fin 8) : Statement (.vne d a b t m) := by
  refine core rfl ?_
  obtain ⟨fs, hf⟩ : ∃ fs : List Field, fs = [⟨0, 3, m⟩, ⟨3, 3, t⟩, ⟨11, 5, b⟩, ⟨16, 5, a⟩, ⟨21, 4, d⟩] := ⟨_, rfl⟩
  have hp : places fs = [(0, 3), (3, 3), (11, 5), (16, 5), (21, 4)] := by rw [hf]; rfl
  have ho : ok 1979711552 fs = true := sound_ok _ _ (by rw [hp]; decide +kernel)
  obtain ⟨x, hx⟩ : ∃ x, x = word 1979711552 fs := ⟨_, rfl⟩
  have hw : encode (.vne d a b t m) = x := by rw [hx, hf, word_low]; rfl
  have h0 : x / 64 % 32 = 1 := by rw [hx]; exact const_eq 6 5 _ ho (by rw [hp]; decide +kernel)
  have f0 : fld x 21 4 = d := by rw [hx]; exact fld_eq (field_eq ⟨21, 4, d⟩ 4 ho (by rw [hf]; rfl))
  have f1 : fld x 16 5 = a := by rw [hx]; exact fld_eq (field_eq ⟨16, 5, a⟩ 3 ho (by rw [hf]; rfl))
  have f2 : fld x 11 5 = b := by rw [hx]; exact fld_eq (field_eq ⟨11, 5, b⟩ 2 ho (by rw [hf]; rfl))
  have f3 : fld x 3 3 = t := by rw [hx]; exact fld_eq (field_eq ⟨3, 3, t⟩ 1 ho (by rw [hf]; rfl))
  have f4 : fld x 0 3 = m := by rw [hx]; exact fld_eq (field_eq ⟨0, 3, m⟩ 0 ho (by rw [hf]; rfl))
  have hm : x / 33554432 % 128 = 59 := by rw [hx]; exact const_eq 25 7 _ ho (by rw [hp]; decide +kernel)
  clear hx ho hp hf fs
  rw [hw, parse_vcmp hm]
  simp [parseVcmp, h0, f0, f1, f2, f3, f4]

theorem vlt (d : Fin 16) (a b : Fin 32) (t m : Fin 8) : Statement (.vlt d a b t m) := by
  refine core rfl ?_
  obtain ⟨fs, hf⟩ : ∃ fs : List Field, fs = [⟨0, 3, m⟩, ⟨3, 3, t⟩, ⟨11, 5, b⟩, ⟨16, 5, a⟩, ⟨21, 4, d⟩] := ⟨_, rfl⟩
  have hp : places fs = [(0, 3), (3, 3), (11, 5), (16, 5), (21, 4)] := by rw [hf]; rfl
  have ho : ok 1979711616 fs = true := sound_ok _ _ (by rw [hp]; decide +kernel)
  obtain ⟨x, hx⟩ : ∃ x, x = word 1979711616 fs := ⟨_, rfl⟩
  have hw : encode (.vlt d a b t m) = x := by rw [hx, hf, word_low]; rfl
  have h0 : x / 64 % 32 = 2 := by rw [hx]; exact const_eq 6 5 _ ho (by rw [hp]; decide +kernel)
  have f0 : fld x 21 4 = d := by rw [hx]; exact fld_eq (field_eq ⟨21, 4, d⟩ 4 ho (by rw [hf]; rfl))
  have f1 : fld x 16 5 = a := by rw [hx]; exact fld_eq (field_eq ⟨16, 5, a⟩ 3 ho (by rw [hf]; rfl))
  have f2 : fld x 11 5 = b := by rw [hx]; exact fld_eq (field_eq ⟨11, 5, b⟩ 2 ho (by rw [hf]; rfl))
  have f3 : fld x 3 3 = t := by rw [hx]; exact fld_eq (field_eq ⟨3, 3, t⟩ 1 ho (by rw [hf]; rfl))
  have f4 : fld x 0 3 = m := by rw [hx]; exact fld_eq (field_eq ⟨0, 3, m⟩ 0 ho (by rw [hf]; rfl))
  have hm : x / 33554432 % 128 = 59 := by rw [hx]; exact const_eq 25 7 _ ho (by rw [hp]; decide +kernel)
  clear hx ho hp hf fs
  rw [hw, parse_vcmp hm]
  simp [parseVcmp, h0, f0, f1, f2, f3, f4]

theorem vge (d : Fin 16) (a b : Fin 32) (t m : Fin 8) : Statement (.vge d a b t m) := by
  refine core rfl ?_
  obtain ⟨fs, hf⟩ : ∃ fs : List Field, fs = [⟨0, 3, m⟩, ⟨3, 3, t⟩, ⟨11, 5, b⟩, ⟨16, 5, a⟩, ⟨21, 4, d⟩] := ⟨_, rfl⟩
  have hp : places fs = [(0, 3), (3, 3), (11, 5), (16, 5), (21, 4)] := by rw [hf]; rfl
  have ho : ok 1979711680 fs = true := sound_ok _ _ (by rw [hp]; decide +kernel)
  obtain ⟨x, hx⟩ : ∃ x, x = word 1979711680 fs := ⟨_, rfl⟩
  have hw : encode (.vge d a b t m) = x := by rw [hx, hf, word_low]; rfl
  have h0 : x / 64 % 32 = 3 := by rw [hx]; exact const_eq 6 5 _ ho (by rw [hp]; decide +kernel)
  have f0 : fld x 21 4 = d := by rw [hx]; exact fld_eq (field_eq ⟨21, 4, d⟩ 4 ho (by rw [hf]; rfl))
  have f1 : fld x 16 5 = a := by rw [hx]; exact fld_eq (field_eq ⟨16, 5, a⟩ 3 ho (by rw [hf]; rfl))
  have f2 : fld x 11 5 = b := by rw [hx]; exact fld_eq (field_eq ⟨11, 5, b⟩ 2 ho (by rw [hf]; rfl))
  have f3 : fld x 3 3 = t := by rw [hx]; exact fld_eq (field_eq ⟨3, 3, t⟩ 1 ho (by rw [hf]; rfl))
  have f4 : fld x 0 3 = m := by rw [hx]; exact fld_eq (field_eq ⟨0, 3, m⟩ 0 ho (by rw [hf]; rfl))
  have hm : x / 33554432 % 128 = 59 := by rw [hx]; exact const_eq 25 7 _ ho (by rw [hp]; decide +kernel)
  clear hx ho hp hf fs
  rw [hw, parse_vcmp hm]
  simp [parseVcmp, h0, f0, f1, f2, f3, f4]

theorem vlo (d : Fin 16) (a b : Fin 32) (t m : Fin 8) : Statement (.vlo d a b t m) := by
  refine core rfl ?_
  obtain ⟨fs, hf⟩ : ∃ fs : List Field, fs = [⟨0, 3, m⟩, ⟨3, 3, t⟩, ⟨11, 5, b⟩, ⟨16, 5, a⟩, ⟨21, 4, d⟩] := ⟨_, rfl⟩
  have hp : places fs = [(0, 3), (3, 3), (11, 5), (16, 5), (21, 4)] := by rw [hf]; rfl
  have ho : ok 1979711744 fs = true := sound_ok _ _ (by rw [hp]; decide +kernel)
  obtain ⟨x, hx⟩ : ∃ x, x = word 1979711744 fs := ⟨_, rfl⟩
  have hw : encode (.vlo d a b t m) = x := by rw [hx, hf, word_low]; rfl
  have h0 : x / 64 % 32 = 4 := by rw [hx]; exact const_eq 6 5 _ ho (by rw [hp]; decide +kernel)
  have f0 : fld x 21 4 = d := by rw [hx]; exact fld_eq (field_eq ⟨21, 4, d⟩ 4 ho (by rw [hf]; rfl))
  have f1 : fld x 16 5 = a := by rw [hx]; exact fld_eq (field_eq ⟨16, 5, a⟩ 3 ho (by rw [hf]; rfl))
  have f2 : fld x 11 5 = b := by rw [hx]; exact fld_eq (field_eq ⟨11, 5, b⟩ 2 ho (by rw [hf]; rfl))
  have f3 : fld x 3 3 = t := by rw [hx]; exact fld_eq (field_eq ⟨3, 3, t⟩ 1 ho (by rw [hf]; rfl))
  have f4 : fld x 0 3 = m := by rw [hx]; exact fld_eq (field_eq ⟨0, 3, m⟩ 0 ho (by rw [hf]; rfl))
  have hm : x / 33554432 % 128 = 59 := by rw [hx]; exact const_eq 25 7 _ ho (by rw [hp]; decide +kernel)
  clear hx ho hp hf fs
  rw [hw, parse_vcmp hm]
  simp [parseVcmp, h0, f0, f1, f2, f3, f4]

theorem vhs (d : Fin 16) (a b : Fin 32) (t m : Fin 8) : Statement (.vhs d a b t m) := by
  refine core rfl ?_
  obtain ⟨fs, hf⟩ : ∃ fs : List Field, fs = [⟨0, 3, m⟩, ⟨3, 3, t⟩, ⟨11, 5, b⟩, ⟨16, 5, a⟩, ⟨21, 4, d⟩] := ⟨_, rfl⟩
  have hp : places fs = [(0, 3), (3, 3), (11, 5), (16, 5), (21, 4)] := by rw [hf]; rfl
  have ho : ok 1979711808 fs = true := sound_ok _ _ (by rw [hp]; decide +kernel)
  obtain ⟨x, hx⟩ : ∃ x, x = word 1979711808 fs := ⟨_, rfl⟩
  have hw : encode (.vhs d a b t m) = x := by rw [hx, hf, word_low]; rfl
  have h0 : x / 64 % 32 = 5 := by rw [hx]; exact const_eq 6 5 _ ho (by rw [hp]; decide +kernel)
  have f0 : fld x 21 4 = d := by rw [hx]; exact fld_eq (field_eq ⟨21, 4, d⟩ 4 ho (by rw [hf]; rfl))
  have f1 : fld x 16 5 = a := by rw [hx]; exact fld_eq (field_eq ⟨16, 5, a⟩ 3 ho (by rw [hf]; rfl))
  have f2 : fld x 11 5 = b := by rw [hx]; exact fld_eq (field_eq ⟨11, 5, b⟩ 2 ho (by rw [hf]; rfl))
  have f3 : fld x 3 3 = t := by rw [hx]; exact fld_eq (field_eq ⟨3, 3, t⟩ 1 ho (by rw [hf]; rfl))
  have f4 : fld x 0 3 = m := by rw [hx]; exact fld_eq (field_eq ⟨0, 3, m⟩ 0 ho (by rw [hf]; rfl))
  have hm : x / 33554432 % 128 = 59 := by rw [hx]; exact const_eq 25 7 _ ho (by rw [hp]; decide +kernel)
  clear hx ho hp hf fs
  rw [hw, parse_vcmp hm]
  simp [parseVcmp, h0, f0, f1, f2, f3, f4]

theorem vfeq (d : Fin 16) (a b : Fin 32) (t m : Fin 8) : Statement (.vfeq d a b t m) := by
  refine core rfl ?_
  obtain ⟨fs, hf⟩ : ∃ fs : List Field, fs = [⟨0, 3, m⟩, ⟨3, 3, t⟩, ⟨11, 5, b⟩, ⟨16, 5, a⟩, ⟨21, 4, d⟩] := ⟨_, rfl⟩
  have hp : places fs = [(0, 3), (3, 3), (11, 5), (16, 5), (21, 4)] := by rw [hf]; rfl
  have ho : ok 1979711872 fs = true := sound_ok _ _ (by rw [hp]; decide +kernel)
  obtain ⟨x, hx⟩ : ∃ x, x = word 1979711872 fs := ⟨_, rfl⟩
  have hw : encode (.vfeq d a b t m) = x := by rw [hx, hf, word_low]; rfl
  have h0 : x / 64 % 32 = 6 := by rw [hx]; exact const_eq 6 5 _ ho (by rw [hp]; decide +kernel)
  have f0 : fld x 21 4 = d := by rw [hx]; exact fld_eq (field_eq ⟨21, 4, d⟩ 4 ho (by rw [hf]; rfl))
  have f1 : fld x 16 5 = a := by rw [hx]; exact fld_eq (field_eq ⟨16, 5, a⟩ 3 ho (by rw [hf]; rfl))
  have f2 : fld x 11 5 = b := by rw [hx]; exact fld_eq (field_eq ⟨11, 5, b⟩ 2 ho (by rw [hf]; rfl))
  have f3 : fld x 3 3 = t := by rw [hx]; exact fld_eq (field_eq ⟨3, 3, t⟩ 1 ho (by rw [hf]; rfl))
  have f4 : fld x 0 3 = m := by rw [hx]; exact fld_eq (field_eq ⟨0, 3, m⟩ 0 ho (by rw [hf]; rfl))
  have hm : x / 33554432 % 128 = 59 := by rw [hx]; exact const_eq 25 7 _ ho (by rw [hp]; decide +kernel)
  clear hx ho hp hf fs
  rw [hw, parse_vcmp hm]
  simp [parseVcmp, h0, f0, f1, f2, f3, f4]

theorem vflt (d : Fin 16) (a b : Fin 32) (t m : Fin 8) : Statement (.vflt d a b t m) := by
  refine core rfl ?_
  obtain ⟨fs, hf⟩ : ∃ fs : List Field, fs = [⟨0, 3, m⟩, ⟨3, 3, t⟩, ⟨11, 5, b⟩, ⟨16, 5, a⟩, ⟨21, 4, d⟩] := ⟨_, rfl⟩
  have hp : places fs = [(0, 3), (3, 3), (11, 5), (16, 5), (21, 4)] := by rw [hf]; rfl
  have ho : ok 1979711936 fs = true := sound_ok _ _ (by rw [hp]; decide +kernel)
  obtain ⟨x, hx⟩ : ∃ x, x = word 1979711936 fs := ⟨_, rfl⟩
  have hw : encode (.vflt d a b t m) = x := by rw [hx, hf, word_low]; rfl
  have h0 : x / 64 % 32 = 7 := by rw [hx]; exact const_eq 6 5 _ ho (by rw [hp]; decide +kernel)
  have f0 : fld x 21 4 = d := by rw [hx]; exact fld_eq (field_eq ⟨21, 4, d⟩ 4 ho (by rw [hf]; rfl))
  have f1 : fld x 16 5 = a := by rw [hx]; exact fld_eq (field_eq ⟨16, 5, a⟩ 3 ho (by rw [hf]; rfl))
  have f2 : fld x 11 5 = b := by rw [hx]; exact fld_eq (field_eq ⟨11, 5, b⟩ 2 ho (by rw [hf]; rfl))
  have f3 : fld x 3 3 = t := by rw [hx]; exact fld_eq (field_eq ⟨3, 3, t⟩ 1 ho (by rw [hf]; rfl))
  have f4 : fld x 0 3 = m := by rw [hx]; exact fld_eq (field_eq ⟨0, 3, m⟩ 0 ho (by rw [hf]; rfl))
  have hm : x / 33554432 % 128 = 59 := by rw [hx]; exact const_eq 25 7 _ ho (by rw [hp]; decide +kernel)
  clear hx ho hp hf fs
  rw [hw, parse_vcmp hm]
  simp [parseVcmp, h0, f0, f1, f2, f3, f4]

theorem vfle (d : Fin 16) (a b : Fin 32) (t m : Fin 8) : Statement (.vfle d a b t m) := by
  refine core rfl ?_
  obtain ⟨fs, hf⟩ : ∃ fs : List Field, fs = [⟨0, 3, m⟩, ⟨3, 3, t⟩, ⟨11, 5, b⟩, ⟨16, 5, a⟩, ⟨21, 4, d⟩] := ⟨_, rfl⟩
  have hp : places fs = [(0, 3), (3, 3), (11, 5), (16, 5), (21, 4)] := by rw [hf]; rfl
  have ho : ok 1979712000 fs = true := sound_ok _ _ (by rw [hp]; decide +kernel)
  obtain ⟨x, hx⟩ : ∃ x, x = word 1979712000 fs := ⟨_, rfl⟩
  have hw : encode (.vfle d a b t m) = x := by rw [hx, hf, word_low]; rfl
  have h0 : x / 64 % 32 = 8 := by rw [hx]; exact const_eq 6 5 _ ho (by rw [hp]; decide +kernel)
  have f0 : fld x 21 4 = d := by rw [hx]; exact fld_eq (field_eq ⟨21, 4, d⟩ 4 ho (by rw [hf]; rfl))
  have f1 : fld x 16 5 = a := by rw [hx]; exact fld_eq (field_eq ⟨16, 5, a⟩ 3 ho (by rw [hf]; rfl))
  have f2 : fld x 11 5 = b := by rw [hx]; exact fld_eq (field_eq ⟨11, 5, b⟩ 2 ho (by rw [hf]; rfl))
  have f3 : fld x 3 3 = t := by rw [hx]; exact fld_eq (field_eq ⟨3, 3, t⟩ 1 ho (by rw [hf]; rfl))
  have f4 : fld x 0 3 = m := by rw [hx]; exact fld_eq (field_eq ⟨0, 3, m⟩ 0 ho (by rw [hf]; rfl))
  have hm : x / 33554432 % 128 = 59 := by rw [hx]; exact const_eq 25 7 _ ho (by rw [hp]; decide +kernel)
  clear hx ho hp hf fs
  rw [hw, parse_vcmp hm]
  simp [parseVcmp, h0, f0, f1, f2, f3, f4]

theorem vfun (d : Fin 16) (a b : Fin 32) (t m : Fin 8) : Statement (.vfun d a b t m) := by
  refine core rfl ?_
  obtain ⟨fs, hf⟩ : ∃ fs : List Field, fs = [⟨0, 3, m⟩, ⟨3, 3, t⟩, ⟨11, 5, b⟩, ⟨16, 5, a⟩, ⟨21, 4, d⟩] := ⟨_, rfl⟩
  have hp : places fs = [(0, 3), (3, 3), (11, 5), (16, 5), (21, 4)] := by rw [hf]; rfl
  have ho : ok 1979712064 fs = true := sound_ok _ _ (by rw [hp]; decide +kernel)
  obtain ⟨x, hx⟩ : ∃ x, x = word 1979712064 fs := ⟨_, rfl⟩
  have hw : encode (.vfun d a b t m) = x := by rw [hx, hf, word_low]; rfl
  have h0 : x / 64 % 32 = 9 := by rw [hx]; exact const_eq 6 5 _ ho (by rw [hp]; decide +kernel)
  have f0 : fld x 21 4 = d := by rw [hx]; exact fld_eq (field_eq ⟨21, 4, d⟩ 4 ho (by rw [hf]; rfl))
  have f1 : fld x 16 5 = a := by rw [hx]; exact fld_eq (field_eq ⟨16, 5, a⟩ 3 ho (by rw [hf]; rfl))
  have f2 : fld x 11 5 = b := by rw [hx]; exact fld_eq (field_eq ⟨11, 5, b⟩ 2 ho (by rw [hf]; rfl))
  have f3 : fld x 3 3 = t := by rw [hx]; exact fld_eq (field_eq ⟨3, 3, t⟩ 1 ho (by rw [hf]; rfl))
  have f4 : fld x 0 3 = m := by rw [hx]; exact fld_eq (field_eq ⟨0, 3, m⟩ 0 ho (by rw [hf]; rfl))
  have hm : x / 33554432 % 128 = 59 := by rw [hx]; exact const_eq 25 7 _ ho (by rw [hp]; decide +kernel)
  clear hx ho hp hf fs
  rw [hw, parse_vcmp hm]
  simp [parseVcmp, h0, f0, f1, f2, f3, f4]

theorem mand (d : Fin 16) (a b : Fin 32) (t : Fin 8) : Statement (.mand d a b t) := by
  refine core rfl ?_
  obtain ⟨fs, hf⟩ : ∃ fs : List Field, fs = [⟨3, 3, t⟩, ⟨11, 5, b⟩, ⟨16, 5, a⟩, ⟨21, 4, d⟩] := ⟨_, rfl⟩
  have hp : places fs = [(3, 3), (11, 5), (16, 5), (21, 4)] := by rw [hf]; rfl
  have ho : ok 1979712512 fs = true := sound_ok _ _ (by rw [hp]; decide +kernel)
  obtain ⟨x, hx⟩ : ∃ x, x = word 1979712512 fs := ⟨_, rfl⟩
  have hw : encode (.mand d a b t) = x := by rw [hx, hf]; rfl
  have h0 : x / 64 % 32 = 16 := by rw [hx]; exact const_eq 6 5 _ ho (by rw [hp]; decide +kernel)
  have h1 : x % 8 = 0 := by rw [hx]; exact low_eq 3 _ ho (by rw [hp]; decide +kernel)
  have f0 : fld x 21 4 = d := by rw [hx]; exact fld_eq (field_eq ⟨21, 4, d⟩ 3 ho (by rw [hf]; rfl))
  have f1 : fld x 16 5 = a := by rw [hx]; exact fld_eq (field_eq ⟨16, 5, a⟩ 2 ho (by rw [hf]; rfl))
  have f2 : fld x 11 5 = b := by rw [hx]; exact fld_eq (field_eq ⟨11, 5, b⟩ 1 ho (by rw [hf]; rfl))
  have f3 : fld x 3 3 = t := by rw [hx]; exact fld_eq (field_eq ⟨3, 3, t⟩ 0 ho (by rw [hf]; rfl))
  have hm : x / 33554432 % 128 = 59 := by rw [hx]; exact const_eq 25 7 _ ho (by rw [hp]; decide +kernel)
  clear hx ho hp hf fs
  rw [hw, parse_vcmp hm]
  simp [parseVcmp, h0, h1, f0, f1, f2, f3]

theorem mor (d : Fin 16) (a b : Fin 32) (t : Fin 8) : Statement (.mor d a b t) := by
  refine core rfl ?_
  obtain ⟨fs, hf⟩ : ∃ fs : List Field, fs = [⟨3, 3, t⟩, ⟨11, 5, b⟩, ⟨16, 5, a⟩, ⟨21, 4, d⟩] := ⟨_, rfl⟩
  have hp : places fs = [(3, 3), (11, 5), (16, 5), (21, 4)] := by rw [hf]; rfl
  have ho : ok 1979712576 fs = true := sound_ok _ _ (by rw [hp]; decide +kernel)
  obtain ⟨x, hx⟩ : ∃ x, x = word 1979712576 fs := ⟨_, rfl⟩
  have hw : encode (.mor d a b t) = x := by rw [hx, hf]; rfl
  have h0 : x / 64 % 32 = 17 := by rw [hx]; exact const_eq 6 5 _ ho (by rw [hp]; decide +kernel)
  have h1 : x % 8 = 0 := by rw [hx]; exact low_eq 3 _ ho (by rw [hp]; decide +kernel)
  have f0 : fld x 21 4 = d := by rw [hx]; exact fld_eq (field_eq ⟨21, 4, d⟩ 3 ho (by rw [hf]; rfl))
  have f1 : fld x 16 5 = a := by rw [hx]; exact fld_eq (field_eq ⟨16, 5, a⟩ 2 ho (by rw [hf]; rfl))
  have f2 : fld x 11 5 = b := by rw [hx]; exact fld_eq (field_eq ⟨11, 5, b⟩ 1 ho (by rw [hf]; rfl))
  have f3 : fld x 3 3 = t := by rw [hx]; exact fld_eq (field_eq ⟨3, 3, t⟩ 0 ho (by rw [hf]; rfl))
  have hm : x / 33554432 % 128 = 59 := by rw [hx]; exact const_eq 25 7 _ ho (by rw [hp]; decide +kernel)
  clear hx ho hp hf fs
  rw [hw, parse_vcmp hm]
  simp [parseVcmp, h0, h1, f0, f1, f2, f3]

theorem mxor (d : Fin 16) (a b : Fin 32) (t : Fin 8) : Statement (.mxor d a b t) := by
  refine core rfl ?_
  obtain ⟨fs, hf⟩ : ∃ fs : List Field, fs = [⟨3, 3, t⟩, ⟨11, 5, b⟩, ⟨16, 5, a⟩, ⟨21, 4, d⟩] := ⟨_, rfl⟩
  have hp : places fs = [(3, 3), (11, 5), (16, 5), (21, 4)] := by rw [hf]; rfl
  have ho : ok 1979712640 fs = true := sound_ok _ _ (by rw [hp]; decide +kernel)
  obtain ⟨x, hx⟩ : ∃ x, x = word 1979712640 fs := ⟨_, rfl⟩
  have hw : encode (.mxor d a b t) = x := by rw [hx, hf]; rfl
  have h0 : x / 64 % 32 = 18 := by rw [hx]; exact const_eq 6 5 _ ho (by rw [hp]; decide +kernel)
  have h1 : x % 8 = 0 := by rw [hx]; exact low_eq 3 _ ho (by rw [hp]; decide +kernel)
  have f0 : fld x 21 4 = d := by rw [hx]; exact fld_eq (field_eq ⟨21, 4, d⟩ 3 ho (by rw [hf]; rfl))
  have f1 : fld x 16 5 = a := by rw [hx]; exact fld_eq (field_eq ⟨16, 5, a⟩ 2 ho (by rw [hf]; rfl))
  have f2 : fld x 11 5 = b := by rw [hx]; exact fld_eq (field_eq ⟨11, 5, b⟩ 1 ho (by rw [hf]; rfl))
  have f3 : fld x 3 3 = t := by rw [hx]; exact fld_eq (field_eq ⟨3, 3, t⟩ 0 ho (by rw [hf]; rfl))
  have hm : x / 33554432 % 128 = 59 := by rw [hx]; exact const_eq 25 7 _ ho (by rw [hp]; decide +kernel)
  clear hx ho hp hf fs
  rw [hw, parse_vcmp hm]
  simp [parseVcmp, h0, h1, f0, f1, f2, f3]

theorem mandn (d : Fin 16) (a b : Fin 32) (t : Fin 8) : Statement (.mandn d a b t) := by
  refine core rfl ?_
  obtain ⟨fs, hf⟩ : ∃ fs : List Field, fs = [⟨3, 3, t⟩, ⟨11, 5, b⟩, ⟨16, 5, a⟩, ⟨21, 4, d⟩] := ⟨_, rfl⟩
  have hp : places fs = [(3, 3), (11, 5), (16, 5), (21, 4)] := by rw [hf]; rfl
  have ho : ok 1979712704 fs = true := sound_ok _ _ (by rw [hp]; decide +kernel)
  obtain ⟨x, hx⟩ : ∃ x, x = word 1979712704 fs := ⟨_, rfl⟩
  have hw : encode (.mandn d a b t) = x := by rw [hx, hf]; rfl
  have h0 : x / 64 % 32 = 19 := by rw [hx]; exact const_eq 6 5 _ ho (by rw [hp]; decide +kernel)
  have h1 : x % 8 = 0 := by rw [hx]; exact low_eq 3 _ ho (by rw [hp]; decide +kernel)
  have f0 : fld x 21 4 = d := by rw [hx]; exact fld_eq (field_eq ⟨21, 4, d⟩ 3 ho (by rw [hf]; rfl))
  have f1 : fld x 16 5 = a := by rw [hx]; exact fld_eq (field_eq ⟨16, 5, a⟩ 2 ho (by rw [hf]; rfl))
  have f2 : fld x 11 5 = b := by rw [hx]; exact fld_eq (field_eq ⟨11, 5, b⟩ 1 ho (by rw [hf]; rfl))
  have f3 : fld x 3 3 = t := by rw [hx]; exact fld_eq (field_eq ⟨3, 3, t⟩ 0 ho (by rw [hf]; rfl))
  have hm : x / 33554432 % 128 = 59 := by rw [hx]; exact const_eq 25 7 _ ho (by rw [hp]; decide +kernel)
  clear hx ho hp hf fs
  rw [hw, parse_vcmp hm]
  simp [parseVcmp, h0, h1, f0, f1, f2, f3]

theorem mpop (d : Fin 16) (a : Fin 32) (t : Fin 8) : Statement (.mpop d a t) := by
  refine core rfl ?_
  obtain ⟨fs, hf⟩ : ∃ fs : List Field, fs = [⟨3, 3, t⟩, ⟨16, 5, a⟩, ⟨21, 4, d⟩] := ⟨_, rfl⟩
  have hp : places fs = [(3, 3), (16, 5), (21, 4)] := by rw [hf]; rfl
  have ho : ok 1979712768 fs = true := sound_ok _ _ (by rw [hp]; decide +kernel)
  obtain ⟨x, hx⟩ : ∃ x, x = word 1979712768 fs := ⟨_, rfl⟩
  have hw : encode (.mpop d a t) = x := by rw [hx, hf]; rfl
  have h0 : x / 64 % 32 = 20 := by rw [hx]; exact const_eq 6 5 _ ho (by rw [hp]; decide +kernel)
  have h1 : x % 8 = 0 := by rw [hx]; exact low_eq 3 _ ho (by rw [hp]; decide +kernel)
  have h2 : x / 64 % 1024 = 20 := by rw [hx]; exact const_eq 6 10 _ ho (by rw [hp]; decide +kernel)
  have f0 : fld x 21 4 = d := by rw [hx]; exact fld_eq (field_eq ⟨21, 4, d⟩ 2 ho (by rw [hf]; rfl))
  have f1 : fld x 16 5 = a := by rw [hx]; exact fld_eq (field_eq ⟨16, 5, a⟩ 1 ho (by rw [hf]; rfl))
  have f2 : fld x 3 3 = t := by rw [hx]; exact fld_eq (field_eq ⟨3, 3, t⟩ 0 ho (by rw [hf]; rfl))
  have hm : x / 33554432 % 128 = 59 := by rw [hx]; exact const_eq 25 7 _ ho (by rw [hp]; decide +kernel)
  clear hx ho hp hf fs
  rw [hw, parse_vcmp hm]
  simp [parseVcmp, h0, h1, h2, f0, f1, f2]

theorem mffs (d : Fin 16) (a : Fin 32) (t : Fin 8) : Statement (.mffs d a t) := by
  refine core rfl ?_
  obtain ⟨fs, hf⟩ : ∃ fs : List Field, fs = [⟨3, 3, t⟩, ⟨16, 5, a⟩, ⟨21, 4, d⟩] := ⟨_, rfl⟩
  have hp : places fs = [(3, 3), (16, 5), (21, 4)] := by rw [hf]; rfl
  have ho : ok 1979712832 fs = true := sound_ok _ _ (by rw [hp]; decide +kernel)
  obtain ⟨x, hx⟩ : ∃ x, x = word 1979712832 fs := ⟨_, rfl⟩
  have hw : encode (.mffs d a t) = x := by rw [hx, hf]; rfl
  have h0 : x / 64 % 32 = 21 := by rw [hx]; exact const_eq 6 5 _ ho (by rw [hp]; decide +kernel)
  have h1 : x / 64 % 1024 = 21 := by rw [hx]; exact const_eq 6 10 _ ho (by rw [hp]; decide +kernel)
  have h2 : x % 8 = 0 := by rw [hx]; exact low_eq 3 _ ho (by rw [hp]; decide +kernel)
  have f0 : fld x 21 4 = d := by rw [hx]; exact fld_eq (field_eq ⟨21, 4, d⟩ 2 ho (by rw [hf]; rfl))
  have f1 : fld x 16 5 = a := by rw [hx]; exact fld_eq (field_eq ⟨16, 5, a⟩ 1 ho (by rw [hf]; rfl))
  have f2 : fld x 3 3 = t := by rw [hx]; exact fld_eq (field_eq ⟨3, 3, t⟩ 0 ho (by rw [hf]; rfl))
  have hm : x / 33554432 % 128 = 59 := by rw [hx]; exact const_eq 25 7 _ ho (by rw [hp]; decide +kernel)
  clear hx ho hp hf fs
  rw [hw, parse_vcmp hm]
  simp [parseVcmp, h0, h1, h2, f0, f1, f2]

theorem vsel (d : Fin 16) (a b : Fin 32) (t m : Fin 8) : Statement (.vsel d a b t m) := by
  refine core rfl ?_
  obtain ⟨fs, hf⟩ : ∃ fs : List Field, fs = [⟨0, 3, m⟩, ⟨3, 3, t⟩, ⟨11, 5, b⟩, ⟨16, 5, a⟩, ⟨21, 4, d⟩] := ⟨_, rfl⟩
  have hp : places fs = [(0, 3), (3, 3), (11, 5), (16, 5), (21, 4)] := by rw [hf]; rfl
  have ho : ok 1979712896 fs = true := sound_ok _ _ (by rw [hp]; decide +kernel)
  obtain ⟨x, hx⟩ : ∃ x, x = word 1979712896 fs := ⟨_, rfl⟩
  have hw : encode (.vsel d a b t m) = x := by rw [hx, hf, word_low]; rfl
  have h0 : x / 64 % 32 = 22 := by rw [hx]; exact const_eq 6 5 _ ho (by rw [hp]; decide +kernel)
  have h1 : x / 64 % 1024 ≠ 20 := by rw [hx]; exact slice_ne 6 10 1 _ 1 ho (by rw [hp]; decide +kernel) (by decide) (by
      decide +kernel)
  have h2 : x / 64 % 1024 ≠ 21 := by rw [hx]; exact slice_ne 6 10 0 _ 0 ho (by rw [hp]; decide +kernel) (by decide) (by
      decide +kernel)
  have f0 : fld x 21 4 = d := by rw [hx]; exact fld_eq (field_eq ⟨21, 4, d⟩ 4 ho (by rw [hf]; rfl))
  have f1 : fld x 16 5 = a := by rw [hx]; exact fld_eq (field_eq ⟨16, 5, a⟩ 3 ho (by rw [hf]; rfl))
  have f2 : fld x 11 5 = b := by rw [hx]; exact fld_eq (field_eq ⟨11, 5, b⟩ 2 ho (by rw [hf]; rfl))
  have f3 : fld x 3 3 = t := by rw [hx]; exact fld_eq (field_eq ⟨3, 3, t⟩ 1 ho (by rw [hf]; rfl))
  have f4 : fld x 0 3 = m := by rw [hx]; exact fld_eq (field_eq ⟨0, 3, m⟩ 0 ho (by rw [hf]; rfl))
  have hm : x / 33554432 % 128 = 59 := by rw [hx]; exact const_eq 25 7 _ ho (by rw [hp]; decide +kernel)
  clear hx ho hp hf fs
  rw [hw, parse_vcmp hm]
  simp [parseVcmp, h0, h1, h2, f0, f1, f2, f3, f4]

theorem vcvt (d : Fin 16) (a : Fin 32) (r : Fin 4) (s t m : Fin 8) : Statement (.vcvt d a r s t m) := by
  refine core rfl ?_
  obtain ⟨fs, hf⟩ : ∃ fs : List Field, fs = [⟨0, 3, m⟩, ⟨3, 3, t⟩, ⟨11, 3, s⟩, ⟨14, 2, r⟩, ⟨16, 5, a⟩, ⟨21, 4, d⟩] := ⟨_, rfl⟩
  have hp : places fs = [(0, 3), (3, 3), (11, 3), (14, 2), (16, 5), (21, 4)] := by rw [hf]; rfl
  have ho : ok 2013265920 fs = true := sound_ok _ _ (by rw [hp]; decide +kernel)
  obtain ⟨x, hx⟩ : ∃ x, x = word 2013265920 fs := ⟨_, rfl⟩
  have hw : encode (.vcvt d a r s t m) = x := by rw [hx, hf, word_low]; rfl
  have h0 : x / 64 % 32 = 0 := by rw [hx]; exact const_eq 6 5 _ ho (by rw [hp]; decide +kernel)
  have f0 : fld x 21 4 = d := by rw [hx]; exact fld_eq (field_eq ⟨21, 4, d⟩ 5 ho (by rw [hf]; rfl))
  have f1 : fld x 16 5 = a := by rw [hx]; exact fld_eq (field_eq ⟨16, 5, a⟩ 4 ho (by rw [hf]; rfl))
  have f2 : fld x 14 2 = r := by rw [hx]; exact fld_eq (field_eq ⟨14, 2, r⟩ 3 ho (by rw [hf]; rfl))
  have f3 : fld x 11 3 = s := by rw [hx]; exact fld_eq (field_eq ⟨11, 3, s⟩ 2 ho (by rw [hf]; rfl))
  have f4 : fld x 3 3 = t := by rw [hx]; exact fld_eq (field_eq ⟨3, 3, t⟩ 1 ho (by rw [hf]; rfl))
  have f5 : fld x 0 3 = m := by rw [hx]; exact fld_eq (field_eq ⟨0, 3, m⟩ 0 ho (by rw [hf]; rfl))
  have hm : x / 33554432 % 128 = 60 := by rw [hx]; exact const_eq 25 7 _ ho (by rw [hp]; decide +kernel)
  clear hx ho hp hf fs
  rw [hw, parse_vcvt hm]
  simp [parseVcvt, h0, f0, f1, f2, f3, f4, f5]

theorem vf2i (d : Fin 16) (a : Fin 32) (r : Fin 4) (s t m : Fin 8) : Statement (.vf2i d a r s t m) := by
  refine core rfl ?_
  obtain ⟨fs, hf⟩ : ∃ fs : List Field, fs = [⟨0, 3, m⟩, ⟨3, 3, t⟩, ⟨11, 3, s⟩, ⟨14, 2, r⟩, ⟨16, 5, a⟩, ⟨21, 4, d⟩] := ⟨_, rfl⟩
  have hp : places fs = [(0, 3), (3, 3), (11, 3), (14, 2), (16, 5), (21, 4)] := by rw [hf]; rfl
  have ho : ok 2013265984 fs = true := sound_ok _ _ (by rw [hp]; decide +kernel)
  obtain ⟨x, hx⟩ : ∃ x, x = word 2013265984 fs := ⟨_, rfl⟩
  have hw : encode (.vf2i d a r s t m) = x := by rw [hx, hf, word_low]; rfl
  have h0 : x / 64 % 32 = 1 := by rw [hx]; exact const_eq 6 5 _ ho (by rw [hp]; decide +kernel)
  have f0 : fld x 21 4 = d := by rw [hx]; exact fld_eq (field_eq ⟨21, 4, d⟩ 5 ho (by rw [hf]; rfl))
  have f1 : fld x 16 5 = a := by rw [hx]; exact fld_eq (field_eq ⟨16, 5, a⟩ 4 ho (by rw [hf]; rfl))
  have f2 : fld x 14 2 = r := by rw [hx]; exact fld_eq (field_eq ⟨14, 2, r⟩ 3 ho (by rw [hf]; rfl))
  have f3 : fld x 11 3 = s := by rw [hx]; exact fld_eq (field_eq ⟨11, 3, s⟩ 2 ho (by rw [hf]; rfl))
  have f4 : fld x 3 3 = t := by rw [hx]; exact fld_eq (field_eq ⟨3, 3, t⟩ 1 ho (by rw [hf]; rfl))
  have f5 : fld x 0 3 = m := by rw [hx]; exact fld_eq (field_eq ⟨0, 3, m⟩ 0 ho (by rw [hf]; rfl))
  have hm : x / 33554432 % 128 = 60 := by rw [hx]; exact const_eq 25 7 _ ho (by rw [hp]; decide +kernel)
  clear hx ho hp hf fs
  rw [hw, parse_vcvt hm]
  simp [parseVcvt, h0, f0, f1, f2, f3, f4, f5]

theorem vi2f (d : Fin 16) (a : Fin 32) (r : Fin 4) (s t m : Fin 8) : Statement (.vi2f d a r s t m) := by
  refine core rfl ?_
  obtain ⟨fs, hf⟩ : ∃ fs : List Field, fs = [⟨0, 3, m⟩, ⟨3, 3, t⟩, ⟨11, 3, s⟩, ⟨14, 2, r⟩, ⟨16, 5, a⟩, ⟨21, 4, d⟩] := ⟨_, rfl⟩
  have hp : places fs = [(0, 3), (3, 3), (11, 3), (14, 2), (16, 5), (21, 4)] := by rw [hf]; rfl
  have ho : ok 2013266048 fs = true := sound_ok _ _ (by rw [hp]; decide +kernel)
  obtain ⟨x, hx⟩ : ∃ x, x = word 2013266048 fs := ⟨_, rfl⟩
  have hw : encode (.vi2f d a r s t m) = x := by rw [hx, hf, word_low]; rfl
  have h0 : x / 64 % 32 = 2 := by rw [hx]; exact const_eq 6 5 _ ho (by rw [hp]; decide +kernel)
  have f0 : fld x 21 4 = d := by rw [hx]; exact fld_eq (field_eq ⟨21, 4, d⟩ 5 ho (by rw [hf]; rfl))
  have f1 : fld x 16 5 = a := by rw [hx]; exact fld_eq (field_eq ⟨16, 5, a⟩ 4 ho (by rw [hf]; rfl))
  have f2 : fld x 14 2 = r := by rw [hx]; exact fld_eq (field_eq ⟨14, 2, r⟩ 3 ho (by rw [hf]; rfl))
  have f3 : fld x 11 3 = s := by rw [hx]; exact fld_eq (field_eq ⟨11, 3, s⟩ 2 ho (by rw [hf]; rfl))
  have f4 : fld x 3 3 = t := by rw [hx]; exact fld_eq (field_eq ⟨3, 3, t⟩ 1 ho (by rw [hf]; rfl))
  have f5 : fld x 0 3 = m := by rw [hx]; exact fld_eq (field_eq ⟨0, 3, m⟩ 0 ho (by rw [hf]; rfl))
  have hm : x / 33554432 % 128 = 60 := by rw [hx]; exact const_eq 25 7 _ ho (by rw [hp]; decide +kernel)
  clear hx ho hp hf fs
  rw [hw, parse_vcvt hm]
  simp [parseVcvt, h0, f0, f1, f2, f3, f4, f5]

theorem vnarrow (d : Fin 16) (a : Fin 32) (q : Fin 4) (s t m : Fin 8) : Statement (.vnarrow d a q s t m) := by
  refine core rfl ?_
  obtain ⟨fs, hf⟩ : ∃ fs : List Field, fs = [⟨0, 3, m⟩, ⟨3, 3, t⟩, ⟨11, 3, s⟩, ⟨14, 2, q⟩, ⟨16, 5, a⟩, ⟨21, 4, d⟩] := ⟨_, rfl⟩
  have hp : places fs = [(0, 3), (3, 3), (11, 3), (14, 2), (16, 5), (21, 4)] := by rw [hf]; rfl
  have ho : ok 2013266112 fs = true := sound_ok _ _ (by rw [hp]; decide +kernel)
  obtain ⟨x, hx⟩ : ∃ x, x = word 2013266112 fs := ⟨_, rfl⟩
  have hw : encode (.vnarrow d a q s t m) = x := by rw [hx, hf, word_low]; rfl
  have h0 : x / 64 % 32 = 3 := by rw [hx]; exact const_eq 6 5 _ ho (by rw [hp]; decide +kernel)
  have f0 : fld x 21 4 = d := by rw [hx]; exact fld_eq (field_eq ⟨21, 4, d⟩ 5 ho (by rw [hf]; rfl))
  have f1 : fld x 16 5 = a := by rw [hx]; exact fld_eq (field_eq ⟨16, 5, a⟩ 4 ho (by rw [hf]; rfl))
  have f2 : fld x 14 2 = q := by rw [hx]; exact fld_eq (field_eq ⟨14, 2, q⟩ 3 ho (by rw [hf]; rfl))
  have f3 : fld x 11 3 = s := by rw [hx]; exact fld_eq (field_eq ⟨11, 3, s⟩ 2 ho (by rw [hf]; rfl))
  have f4 : fld x 3 3 = t := by rw [hx]; exact fld_eq (field_eq ⟨3, 3, t⟩ 1 ho (by rw [hf]; rfl))
  have f5 : fld x 0 3 = m := by rw [hx]; exact fld_eq (field_eq ⟨0, 3, m⟩ 0 ho (by rw [hf]; rfl))
  have hm : x / 33554432 % 128 = 60 := by rw [hx]; exact const_eq 25 7 _ ho (by rw [hp]; decide +kernel)
  clear hx ho hp hf fs
  rw [hw, parse_vcvt hm]
  simp [parseVcvt, h0, f0, f1, f2, f3, f4, f5]

theorem vwiden (d : Fin 16) (a : Fin 32) (h e : Fin 2) (s t m : Fin 8) : Statement (.vwiden d a h e s t m) := by
  refine core rfl ?_
  obtain ⟨fs, hf⟩ : ∃ fs : List Field, fs = [⟨0, 3, m⟩, ⟨3, 3, t⟩, ⟨11, 3, s⟩, ⟨14, 1, e⟩, ⟨15, 1, h⟩, ⟨16, 5, a⟩, ⟨21, 4,
      d⟩] := ⟨_, rfl⟩
  have hp : places fs = [(0, 3), (3, 3), (11, 3), (14, 1), (15, 1), (16, 5), (21, 4)] := by rw [hf]; rfl
  have ho : ok 2013266176 fs = true := sound_ok _ _ (by rw [hp]; decide +kernel)
  obtain ⟨x, hx⟩ : ∃ x, x = word 2013266176 fs := ⟨_, rfl⟩
  have hw : encode (.vwiden d a h e s t m) = x := by rw [hx, hf, word_low]; rfl
  have h0 : x / 64 % 32 = 4 := by rw [hx]; exact const_eq 6 5 _ ho (by rw [hp]; decide +kernel)
  have f0 : fld x 21 4 = d := by rw [hx]; exact fld_eq (field_eq ⟨21, 4, d⟩ 6 ho (by rw [hf]; rfl))
  have f1 : fld x 16 5 = a := by rw [hx]; exact fld_eq (field_eq ⟨16, 5, a⟩ 5 ho (by rw [hf]; rfl))
  have f2 : fld x 15 1 = h := by rw [hx]; exact fld_eq (field_eq ⟨15, 1, h⟩ 4 ho (by rw [hf]; rfl))
  have f3 : fld x 14 1 = e := by rw [hx]; exact fld_eq (field_eq ⟨14, 1, e⟩ 3 ho (by rw [hf]; rfl))
  have f4 : fld x 11 3 = s := by rw [hx]; exact fld_eq (field_eq ⟨11, 3, s⟩ 2 ho (by rw [hf]; rfl))
  have f5 : fld x 3 3 = t := by rw [hx]; exact fld_eq (field_eq ⟨3, 3, t⟩ 1 ho (by rw [hf]; rfl))
  have f6 : fld x 0 3 = m := by rw [hx]; exact fld_eq (field_eq ⟨0, 3, m⟩ 0 ho (by rw [hf]; rfl))
  have hm : x / 33554432 % 128 = 60 := by rw [hx]; exact const_eq 25 7 _ ho (by rw [hp]; decide +kernel)
  clear hx ho hp hf fs
  rw [hw, parse_vcvt hm]
  simp [parseVcvt, h0, f0, f1, f2, f3, f4, f5, f6]

theorem vperm (d : Fin 16) (a b : Fin 32) (t m : Fin 8) : Statement (.vperm d a b t m) := by
  refine core rfl ?_
  obtain ⟨fs, hf⟩ : ∃ fs : List Field, fs = [⟨0, 3, m⟩, ⟨3, 3, t⟩, ⟨11, 5, b⟩, ⟨16, 5, a⟩, ⟨21, 4, d⟩] := ⟨_, rfl⟩
  have hp : places fs = [(0, 3), (3, 3), (11, 5), (16, 5), (21, 4)] := by rw [hf]; rfl
  have ho : ok 2046820352 fs = true := sound_ok _ _ (by rw [hp]; decide +kernel)
  obtain ⟨x, hx⟩ : ∃ x, x = word 2046820352 fs := ⟨_, rfl⟩
  have hw : encode (.vperm d a b t m) = x := by rw [hx, hf, word_low]; rfl
  have h0 : x / 64 % 32 = 0 := by rw [hx]; exact const_eq 6 5 _ ho (by rw [hp]; decide +kernel)
  have f0 : fld x 21 4 = d := by rw [hx]; exact fld_eq (field_eq ⟨21, 4, d⟩ 4 ho (by rw [hf]; rfl))
  have f1 : fld x 16 5 = a := by rw [hx]; exact fld_eq (field_eq ⟨16, 5, a⟩ 3 ho (by rw [hf]; rfl))
  have f2 : fld x 11 5 = b := by rw [hx]; exact fld_eq (field_eq ⟨11, 5, b⟩ 2 ho (by rw [hf]; rfl))
  have f3 : fld x 3 3 = t := by rw [hx]; exact fld_eq (field_eq ⟨3, 3, t⟩ 1 ho (by rw [hf]; rfl))
  have f4 : fld x 0 3 = m := by rw [hx]; exact fld_eq (field_eq ⟨0, 3, m⟩ 0 ho (by rw [hf]; rfl))
  have hm : x / 33554432 % 128 = 61 := by rw [hx]; exact const_eq 25 7 _ ho (by rw [hp]; decide +kernel)
  clear hx ho hp hf fs
  rw [hw, parse_vperm hm]
  simp [parseVperm, h0, f0, f1, f2, f3, f4]

theorem vslideup (d : Fin 16) (a b : Fin 32) (t m : Fin 8) : Statement (.vslideup d a b t m) := by
  refine core rfl ?_
  obtain ⟨fs, hf⟩ : ∃ fs : List Field, fs = [⟨0, 3, m⟩, ⟨3, 3, t⟩, ⟨11, 5, b⟩, ⟨16, 5, a⟩, ⟨21, 4, d⟩] := ⟨_, rfl⟩
  have hp : places fs = [(0, 3), (3, 3), (11, 5), (16, 5), (21, 4)] := by rw [hf]; rfl
  have ho : ok 2046820416 fs = true := sound_ok _ _ (by rw [hp]; decide +kernel)
  obtain ⟨x, hx⟩ : ∃ x, x = word 2046820416 fs := ⟨_, rfl⟩
  have hw : encode (.vslideup d a b t m) = x := by rw [hx, hf, word_low]; rfl
  have h0 : x / 64 % 32 = 1 := by rw [hx]; exact const_eq 6 5 _ ho (by rw [hp]; decide +kernel)
  have f0 : fld x 21 4 = d := by rw [hx]; exact fld_eq (field_eq ⟨21, 4, d⟩ 4 ho (by rw [hf]; rfl))
  have f1 : fld x 16 5 = a := by rw [hx]; exact fld_eq (field_eq ⟨16, 5, a⟩ 3 ho (by rw [hf]; rfl))
  have f2 : fld x 11 5 = b := by rw [hx]; exact fld_eq (field_eq ⟨11, 5, b⟩ 2 ho (by rw [hf]; rfl))
  have f3 : fld x 3 3 = t := by rw [hx]; exact fld_eq (field_eq ⟨3, 3, t⟩ 1 ho (by rw [hf]; rfl))
  have f4 : fld x 0 3 = m := by rw [hx]; exact fld_eq (field_eq ⟨0, 3, m⟩ 0 ho (by rw [hf]; rfl))
  have hm : x / 33554432 % 128 = 61 := by rw [hx]; exact const_eq 25 7 _ ho (by rw [hp]; decide +kernel)
  clear hx ho hp hf fs
  rw [hw, parse_vperm hm]
  simp [parseVperm, h0, f0, f1, f2, f3, f4]

theorem vslidedn (d : Fin 16) (a b : Fin 32) (t m : Fin 8) : Statement (.vslidedn d a b t m) := by
  refine core rfl ?_
  obtain ⟨fs, hf⟩ : ∃ fs : List Field, fs = [⟨0, 3, m⟩, ⟨3, 3, t⟩, ⟨11, 5, b⟩, ⟨16, 5, a⟩, ⟨21, 4, d⟩] := ⟨_, rfl⟩
  have hp : places fs = [(0, 3), (3, 3), (11, 5), (16, 5), (21, 4)] := by rw [hf]; rfl
  have ho : ok 2046820480 fs = true := sound_ok _ _ (by rw [hp]; decide +kernel)
  obtain ⟨x, hx⟩ : ∃ x, x = word 2046820480 fs := ⟨_, rfl⟩
  have hw : encode (.vslidedn d a b t m) = x := by rw [hx, hf, word_low]; rfl
  have h0 : x / 64 % 32 = 2 := by rw [hx]; exact const_eq 6 5 _ ho (by rw [hp]; decide +kernel)
  have f0 : fld x 21 4 = d := by rw [hx]; exact fld_eq (field_eq ⟨21, 4, d⟩ 4 ho (by rw [hf]; rfl))
  have f1 : fld x 16 5 = a := by rw [hx]; exact fld_eq (field_eq ⟨16, 5, a⟩ 3 ho (by rw [hf]; rfl))
  have f2 : fld x 11 5 = b := by rw [hx]; exact fld_eq (field_eq ⟨11, 5, b⟩ 2 ho (by rw [hf]; rfl))
  have f3 : fld x 3 3 = t := by rw [hx]; exact fld_eq (field_eq ⟨3, 3, t⟩ 1 ho (by rw [hf]; rfl))
  have f4 : fld x 0 3 = m := by rw [hx]; exact fld_eq (field_eq ⟨0, 3, m⟩ 0 ho (by rw [hf]; rfl))
  have hm : x / 33554432 % 128 = 61 := by rw [hx]; exact const_eq 25 7 _ ho (by rw [hp]; decide +kernel)
  clear hx ho hp hf fs
  rw [hw, parse_vperm hm]
  simp [parseVperm, h0, f0, f1, f2, f3, f4]

theorem vcompress (d : Fin 16) (a : Fin 32) (t m : Fin 8) : Statement (.vcompress d a t m) := by
  refine core rfl ?_
  obtain ⟨fs, hf⟩ : ∃ fs : List Field, fs = [⟨0, 3, m⟩, ⟨3, 3, t⟩, ⟨16, 5, a⟩, ⟨21, 4, d⟩] := ⟨_, rfl⟩
  have hp : places fs = [(0, 3), (3, 3), (16, 5), (21, 4)] := by rw [hf]; rfl
  have ho : ok 2046820544 fs = true := sound_ok _ _ (by rw [hp]; decide +kernel)
  obtain ⟨x, hx⟩ : ∃ x, x = word 2046820544 fs := ⟨_, rfl⟩
  have hw : encode (.vcompress d a t m) = x := by rw [hx, hf, word_low]; rfl
  have h0 : x / 64 % 32 = 3 := by rw [hx]; exact const_eq 6 5 _ ho (by rw [hp]; decide +kernel)
  have h1 : x / 64 % 1024 = 3 := by rw [hx]; exact const_eq 6 10 _ ho (by rw [hp]; decide +kernel)
  have f0 : fld x 21 4 = d := by rw [hx]; exact fld_eq (field_eq ⟨21, 4, d⟩ 3 ho (by rw [hf]; rfl))
  have f1 : fld x 16 5 = a := by rw [hx]; exact fld_eq (field_eq ⟨16, 5, a⟩ 2 ho (by rw [hf]; rfl))
  have f2 : fld x 3 3 = t := by rw [hx]; exact fld_eq (field_eq ⟨3, 3, t⟩ 1 ho (by rw [hf]; rfl))
  have f3 : fld x 0 3 = m := by rw [hx]; exact fld_eq (field_eq ⟨0, 3, m⟩ 0 ho (by rw [hf]; rfl))
  have hm : x / 33554432 % 128 = 61 := by rw [hx]; exact const_eq 25 7 _ ho (by rw [hp]; decide +kernel)
  clear hx ho hp hf fs
  rw [hw, parse_vperm hm]
  simp [parseVperm, h0, h1, f0, f1, f2, f3]

theorem vexpand (d : Fin 16) (a : Fin 32) (t m : Fin 8) : Statement (.vexpand d a t m) := by
  refine core rfl ?_
  obtain ⟨fs, hf⟩ : ∃ fs : List Field, fs = [⟨0, 3, m⟩, ⟨3, 3, t⟩, ⟨16, 5, a⟩, ⟨21, 4, d⟩] := ⟨_, rfl⟩
  have hp : places fs = [(0, 3), (3, 3), (16, 5), (21, 4)] := by rw [hf]; rfl
  have ho : ok 2046820608 fs = true := sound_ok _ _ (by rw [hp]; decide +kernel)
  obtain ⟨x, hx⟩ : ∃ x, x = word 2046820608 fs := ⟨_, rfl⟩
  have hw : encode (.vexpand d a t m) = x := by rw [hx, hf, word_low]; rfl
  have h0 : x / 64 % 32 = 4 := by rw [hx]; exact const_eq 6 5 _ ho (by rw [hp]; decide +kernel)
  have h1 : x / 64 % 1024 = 4 := by rw [hx]; exact const_eq 6 10 _ ho (by rw [hp]; decide +kernel)
  have f0 : fld x 21 4 = d := by rw [hx]; exact fld_eq (field_eq ⟨21, 4, d⟩ 3 ho (by rw [hf]; rfl))
  have f1 : fld x 16 5 = a := by rw [hx]; exact fld_eq (field_eq ⟨16, 5, a⟩ 2 ho (by rw [hf]; rfl))
  have f2 : fld x 3 3 = t := by rw [hx]; exact fld_eq (field_eq ⟨3, 3, t⟩ 1 ho (by rw [hf]; rfl))
  have f3 : fld x 0 3 = m := by rw [hx]; exact fld_eq (field_eq ⟨0, 3, m⟩ 0 ho (by rw [hf]; rfl))
  have hm : x / 33554432 % 128 = 61 := by rw [hx]; exact const_eq 25 7 _ ho (by rw [hp]; decide +kernel)
  clear hx ho hp hf fs
  rw [hw, parse_vperm hm]
  simp [parseVperm, h0, h1, f0, f1, f2, f3]

theorem vzipLo (d : Fin 16) (a b : Fin 32) (t m : Fin 8) : Statement (.vzipLo d a b t m) := by
  refine core rfl ?_
  obtain ⟨fs, hf⟩ : ∃ fs : List Field, fs = [⟨0, 3, m⟩, ⟨3, 3, t⟩, ⟨11, 5, b⟩, ⟨16, 5, a⟩, ⟨21, 4, d⟩] := ⟨_, rfl⟩
  have hp : places fs = [(0, 3), (3, 3), (11, 5), (16, 5), (21, 4)] := by rw [hf]; rfl
  have ho : ok 2046820672 fs = true := sound_ok _ _ (by rw [hp]; decide +kernel)
  obtain ⟨x, hx⟩ : ∃ x, x = word 2046820672 fs := ⟨_, rfl⟩
  have hw : encode (.vzipLo d a b t m) = x := by rw [hx, hf, word_low]; rfl
  have h0 : x / 64 % 32 = 5 := by rw [hx]; exact const_eq 6 5 _ ho (by rw [hp]; decide +kernel)
  have h1 : x / 64 % 1024 ≠ 3 := by rw [hx]; exact slice_ne 6 10 1 _ 0 ho (by rw [hp]; decide +kernel) (by decide) (by
      decide +kernel)
  have h2 : x / 64 % 1024 ≠ 4 := by rw [hx]; exact slice_ne 6 10 0 _ 1 ho (by rw [hp]; decide +kernel) (by decide) (by
      decide +kernel)
  have f0 : fld x 21 4 = d := by rw [hx]; exact fld_eq (field_eq ⟨21, 4, d⟩ 4 ho (by rw [hf]; rfl))
  have f1 : fld x 16 5 = a := by rw [hx]; exact fld_eq (field_eq ⟨16, 5, a⟩ 3 ho (by rw [hf]; rfl))
  have f2 : fld x 11 5 = b := by rw [hx]; exact fld_eq (field_eq ⟨11, 5, b⟩ 2 ho (by rw [hf]; rfl))
  have f3 : fld x 3 3 = t := by rw [hx]; exact fld_eq (field_eq ⟨3, 3, t⟩ 1 ho (by rw [hf]; rfl))
  have f4 : fld x 0 3 = m := by rw [hx]; exact fld_eq (field_eq ⟨0, 3, m⟩ 0 ho (by rw [hf]; rfl))
  have hm : x / 33554432 % 128 = 61 := by rw [hx]; exact const_eq 25 7 _ ho (by rw [hp]; decide +kernel)
  clear hx ho hp hf fs
  rw [hw, parse_vperm hm]
  simp [parseVperm, h0, h1, h2, f0, f1, f2, f3, f4]

theorem vzipHi (d : Fin 16) (a b : Fin 32) (t m : Fin 8) : Statement (.vzipHi d a b t m) := by
  refine core rfl ?_
  obtain ⟨fs, hf⟩ : ∃ fs : List Field, fs = [⟨0, 3, m⟩, ⟨3, 3, t⟩, ⟨11, 5, b⟩, ⟨16, 5, a⟩, ⟨21, 4, d⟩] := ⟨_, rfl⟩
  have hp : places fs = [(0, 3), (3, 3), (11, 5), (16, 5), (21, 4)] := by rw [hf]; rfl
  have ho : ok 2046820736 fs = true := sound_ok _ _ (by rw [hp]; decide +kernel)
  obtain ⟨x, hx⟩ : ∃ x, x = word 2046820736 fs := ⟨_, rfl⟩
  have hw : encode (.vzipHi d a b t m) = x := by rw [hx, hf, word_low]; rfl
  have h0 : x / 64 % 32 = 6 := by rw [hx]; exact const_eq 6 5 _ ho (by rw [hp]; decide +kernel)
  have h1 : x / 64 % 1024 ≠ 3 := by rw [hx]; exact slice_ne 6 10 0 _ 0 ho (by rw [hp]; decide +kernel) (by decide) (by
      decide +kernel)
  have h2 : x / 64 % 1024 ≠ 4 := by rw [hx]; exact slice_ne 6 10 1 _ 1 ho (by rw [hp]; decide +kernel) (by decide) (by
      decide +kernel)
  have f0 : fld x 21 4 = d := by rw [hx]; exact fld_eq (field_eq ⟨21, 4, d⟩ 4 ho (by rw [hf]; rfl))
  have f1 : fld x 16 5 = a := by rw [hx]; exact fld_eq (field_eq ⟨16, 5, a⟩ 3 ho (by rw [hf]; rfl))
  have f2 : fld x 11 5 = b := by rw [hx]; exact fld_eq (field_eq ⟨11, 5, b⟩ 2 ho (by rw [hf]; rfl))
  have f3 : fld x 3 3 = t := by rw [hx]; exact fld_eq (field_eq ⟨3, 3, t⟩ 1 ho (by rw [hf]; rfl))
  have f4 : fld x 0 3 = m := by rw [hx]; exact fld_eq (field_eq ⟨0, 3, m⟩ 0 ho (by rw [hf]; rfl))
  have hm : x / 33554432 % 128 = 61 := by rw [hx]; exact const_eq 25 7 _ ho (by rw [hp]; decide +kernel)
  clear hx ho hp hf fs
  rw [hw, parse_vperm hm]
  simp [parseVperm, h0, h1, h2, f0, f1, f2, f3, f4]

theorem vuzpEv (d : Fin 16) (a b : Fin 32) (t m : Fin 8) : Statement (.vuzpEv d a b t m) := by
  refine core rfl ?_
  obtain ⟨fs, hf⟩ : ∃ fs : List Field, fs = [⟨0, 3, m⟩, ⟨3, 3, t⟩, ⟨11, 5, b⟩, ⟨16, 5, a⟩, ⟨21, 4, d⟩] := ⟨_, rfl⟩
  have hp : places fs = [(0, 3), (3, 3), (11, 5), (16, 5), (21, 4)] := by rw [hf]; rfl
  have ho : ok 2046820800 fs = true := sound_ok _ _ (by rw [hp]; decide +kernel)
  obtain ⟨x, hx⟩ : ∃ x, x = word 2046820800 fs := ⟨_, rfl⟩
  have hw : encode (.vuzpEv d a b t m) = x := by rw [hx, hf, word_low]; rfl
  have h0 : x / 64 % 32 = 7 := by rw [hx]; exact const_eq 6 5 _ ho (by rw [hp]; decide +kernel)
  have h1 : x / 64 % 1024 ≠ 3 := by rw [hx]; exact slice_ne 6 10 2 _ 1 ho (by rw [hp]; decide +kernel) (by decide) (by
      decide +kernel)
  have h2 : x / 64 % 1024 ≠ 4 := by rw [hx]; exact slice_ne 6 10 0 _ 1 ho (by rw [hp]; decide +kernel) (by decide) (by
      decide +kernel)
  have f0 : fld x 21 4 = d := by rw [hx]; exact fld_eq (field_eq ⟨21, 4, d⟩ 4 ho (by rw [hf]; rfl))
  have f1 : fld x 16 5 = a := by rw [hx]; exact fld_eq (field_eq ⟨16, 5, a⟩ 3 ho (by rw [hf]; rfl))
  have f2 : fld x 11 5 = b := by rw [hx]; exact fld_eq (field_eq ⟨11, 5, b⟩ 2 ho (by rw [hf]; rfl))
  have f3 : fld x 3 3 = t := by rw [hx]; exact fld_eq (field_eq ⟨3, 3, t⟩ 1 ho (by rw [hf]; rfl))
  have f4 : fld x 0 3 = m := by rw [hx]; exact fld_eq (field_eq ⟨0, 3, m⟩ 0 ho (by rw [hf]; rfl))
  have hm : x / 33554432 % 128 = 61 := by rw [hx]; exact const_eq 25 7 _ ho (by rw [hp]; decide +kernel)
  clear hx ho hp hf fs
  rw [hw, parse_vperm hm]
  simp [parseVperm, h0, h1, h2, f0, f1, f2, f3, f4]

theorem vuzpOd (d : Fin 16) (a b : Fin 32) (t m : Fin 8) : Statement (.vuzpOd d a b t m) := by
  refine core rfl ?_
  obtain ⟨fs, hf⟩ : ∃ fs : List Field, fs = [⟨0, 3, m⟩, ⟨3, 3, t⟩, ⟨11, 5, b⟩, ⟨16, 5, a⟩, ⟨21, 4, d⟩] := ⟨_, rfl⟩
  have hp : places fs = [(0, 3), (3, 3), (11, 5), (16, 5), (21, 4)] := by rw [hf]; rfl
  have ho : ok 2046820864 fs = true := sound_ok _ _ (by rw [hp]; decide +kernel)
  obtain ⟨x, hx⟩ : ∃ x, x = word 2046820864 fs := ⟨_, rfl⟩
  have hw : encode (.vuzpOd d a b t m) = x := by rw [hx, hf, word_low]; rfl
  have h0 : x / 64 % 32 = 8 := by rw [hx]; exact const_eq 6 5 _ ho (by rw [hp]; decide +kernel)
  have h1 : x / 64 % 1024 ≠ 3 := by rw [hx]; exact slice_ne 6 10 0 _ 0 ho (by rw [hp]; decide +kernel) (by decide) (by
      decide +kernel)
  have h2 : x / 64 % 1024 ≠ 4 := by rw [hx]; exact slice_ne 6 10 2 _ 0 ho (by rw [hp]; decide +kernel) (by decide) (by
      decide +kernel)
  have f0 : fld x 21 4 = d := by rw [hx]; exact fld_eq (field_eq ⟨21, 4, d⟩ 4 ho (by rw [hf]; rfl))
  have f1 : fld x 16 5 = a := by rw [hx]; exact fld_eq (field_eq ⟨16, 5, a⟩ 3 ho (by rw [hf]; rfl))
  have f2 : fld x 11 5 = b := by rw [hx]; exact fld_eq (field_eq ⟨11, 5, b⟩ 2 ho (by rw [hf]; rfl))
  have f3 : fld x 3 3 = t := by rw [hx]; exact fld_eq (field_eq ⟨3, 3, t⟩ 1 ho (by rw [hf]; rfl))
  have f4 : fld x 0 3 = m := by rw [hx]; exact fld_eq (field_eq ⟨0, 3, m⟩ 0 ho (by rw [hf]; rfl))
  have hm : x / 33554432 % 128 = 61 := by rw [hx]; exact const_eq 25 7 _ ho (by rw [hp]; decide +kernel)
  clear hx ho hp hf fs
  rw [hw, parse_vperm hm]
  simp [parseVperm, h0, h1, h2, f0, f1, f2, f3, f4]

theorem vrev (d : Fin 16) (a : Fin 32) (t m : Fin 8) : Statement (.vrev d a t m) := by
  refine core rfl ?_
  obtain ⟨fs, hf⟩ : ∃ fs : List Field, fs = [⟨0, 3, m⟩, ⟨3, 3, t⟩, ⟨16, 5, a⟩, ⟨21, 4, d⟩] := ⟨_, rfl⟩
  have hp : places fs = [(0, 3), (3, 3), (16, 5), (21, 4)] := by rw [hf]; rfl
  have ho : ok 2046820928 fs = true := sound_ok _ _ (by rw [hp]; decide +kernel)
  obtain ⟨x, hx⟩ : ∃ x, x = word 2046820928 fs := ⟨_, rfl⟩
  have hw : encode (.vrev d a t m) = x := by rw [hx, hf, word_low]; rfl
  have h0 : x / 64 % 32 = 9 := by rw [hx]; exact const_eq 6 5 _ ho (by rw [hp]; decide +kernel)
  have h1 : x / 64 % 1024 = 9 := by rw [hx]; exact const_eq 6 10 _ ho (by rw [hp]; decide +kernel)
  have f0 : fld x 21 4 = d := by rw [hx]; exact fld_eq (field_eq ⟨21, 4, d⟩ 3 ho (by rw [hf]; rfl))
  have f1 : fld x 16 5 = a := by rw [hx]; exact fld_eq (field_eq ⟨16, 5, a⟩ 2 ho (by rw [hf]; rfl))
  have f2 : fld x 3 3 = t := by rw [hx]; exact fld_eq (field_eq ⟨3, 3, t⟩ 1 ho (by rw [hf]; rfl))
  have f3 : fld x 0 3 = m := by rw [hx]; exact fld_eq (field_eq ⟨0, 3, m⟩ 0 ho (by rw [hf]; rfl))
  have hm : x / 33554432 % 128 = 61 := by rw [hx]; exact const_eq 25 7 _ ho (by rw [hp]; decide +kernel)
  clear hx ho hp hf fs
  rw [hw, parse_vperm hm]
  simp [parseVperm, h0, h1, f0, f1, f2, f3]

theorem vpack (d : Fin 16) (a b : Fin 32) (t m : Fin 8) : Statement (.vpack d a b t m) := by
  refine core rfl ?_
  obtain ⟨fs, hf⟩ : ∃ fs : List Field, fs = [⟨0, 3, m⟩, ⟨3, 3, t⟩, ⟨11, 5, b⟩, ⟨16, 5, a⟩, ⟨21, 4, d⟩] := ⟨_, rfl⟩
  have hp : places fs = [(0, 3), (3, 3), (11, 5), (16, 5), (21, 4)] := by rw [hf]; rfl
  have ho : ok 2046820992 fs = true := sound_ok _ _ (by rw [hp]; decide +kernel)
  obtain ⟨x, hx⟩ : ∃ x, x = word 2046820992 fs := ⟨_, rfl⟩
  have hw : encode (.vpack d a b t m) = x := by rw [hx, hf, word_low]; rfl
  have h0 : x / 64 % 32 = 10 := by rw [hx]; exact const_eq 6 5 _ ho (by rw [hp]; decide +kernel)
  have h1 : x / 64 % 1024 ≠ 3 := by rw [hx]; exact slice_ne 6 10 0 _ 0 ho (by rw [hp]; decide +kernel) (by decide) (by
      decide +kernel)
  have h2 : x / 64 % 1024 ≠ 4 := by rw [hx]; exact slice_ne 6 10 1 _ 1 ho (by rw [hp]; decide +kernel) (by decide) (by
      decide +kernel)
  have h3 : x / 64 % 1024 ≠ 9 := by rw [hx]; exact slice_ne 6 10 0 _ 0 ho (by rw [hp]; decide +kernel) (by decide) (by
      decide +kernel)
  have f0 : fld x 21 4 = d := by rw [hx]; exact fld_eq (field_eq ⟨21, 4, d⟩ 4 ho (by rw [hf]; rfl))
  have f1 : fld x 16 5 = a := by rw [hx]; exact fld_eq (field_eq ⟨16, 5, a⟩ 3 ho (by rw [hf]; rfl))
  have f2 : fld x 11 5 = b := by rw [hx]; exact fld_eq (field_eq ⟨11, 5, b⟩ 2 ho (by rw [hf]; rfl))
  have f3 : fld x 3 3 = t := by rw [hx]; exact fld_eq (field_eq ⟨3, 3, t⟩ 1 ho (by rw [hf]; rfl))
  have f4 : fld x 0 3 = m := by rw [hx]; exact fld_eq (field_eq ⟨0, 3, m⟩ 0 ho (by rw [hf]; rfl))
  have hm : x / 33554432 % 128 = 61 := by rw [hx]; exact const_eq 25 7 _ ho (by rw [hp]; decide +kernel)
  clear hx ho hp hf fs
  rw [hw, parse_vperm hm]
  simp [parseVperm, h0, h1, h2, h3, f0, f1, f2, f3, f4]

theorem vradd (d : Fin 16) (a : Fin 32) (t m : Fin 8) : Statement (.vradd d a t m) := by
  refine core rfl ?_
  obtain ⟨fs, hf⟩ : ∃ fs : List Field, fs = [⟨0, 3, m⟩, ⟨3, 3, t⟩, ⟨16, 5, a⟩, ⟨21, 4, d⟩] := ⟨_, rfl⟩
  have hp : places fs = [(0, 3), (3, 3), (16, 5), (21, 4)] := by rw [hf]; rfl
  have ho : ok 2080374784 fs = true := sound_ok _ _ (by rw [hp]; decide +kernel)
  obtain ⟨x, hx⟩ : ∃ x, x = word 2080374784 fs := ⟨_, rfl⟩
  have hw : encode (.vradd d a t m) = x := by rw [hx, hf, word_low]; rfl
  have h0 : x / 64 % 1024 = 0 := by rw [hx]; exact const_eq 6 10 _ ho (by rw [hp]; decide +kernel)
  have f0 : fld x 21 4 = d := by rw [hx]; exact fld_eq (field_eq ⟨21, 4, d⟩ 3 ho (by rw [hf]; rfl))
  have f1 : fld x 16 5 = a := by rw [hx]; exact fld_eq (field_eq ⟨16, 5, a⟩ 2 ho (by rw [hf]; rfl))
  have f2 : fld x 3 3 = t := by rw [hx]; exact fld_eq (field_eq ⟨3, 3, t⟩ 1 ho (by rw [hf]; rfl))
  have f3 : fld x 0 3 = m := by rw [hx]; exact fld_eq (field_eq ⟨0, 3, m⟩ 0 ho (by rw [hf]; rfl))
  have hm : x / 33554432 % 128 = 62 := by rw [hx]; exact const_eq 25 7 _ ho (by rw [hp]; decide +kernel)
  clear hx ho hp hf fs
  rw [hw, parse_vred hm]
  simp [parseVred, h0, f0, f1, f2, f3]

theorem vrmin (d : Fin 16) (a : Fin 32) (t m : Fin 8) : Statement (.vrmin d a t m) := by
  refine core rfl ?_
  obtain ⟨fs, hf⟩ : ∃ fs : List Field, fs = [⟨0, 3, m⟩, ⟨3, 3, t⟩, ⟨16, 5, a⟩, ⟨21, 4, d⟩] := ⟨_, rfl⟩
  have hp : places fs = [(0, 3), (3, 3), (16, 5), (21, 4)] := by rw [hf]; rfl
  have ho : ok 2080374848 fs = true := sound_ok _ _ (by rw [hp]; decide +kernel)
  obtain ⟨x, hx⟩ : ∃ x, x = word 2080374848 fs := ⟨_, rfl⟩
  have hw : encode (.vrmin d a t m) = x := by rw [hx, hf, word_low]; rfl
  have h0 : x / 64 % 1024 = 1 := by rw [hx]; exact const_eq 6 10 _ ho (by rw [hp]; decide +kernel)
  have f0 : fld x 21 4 = d := by rw [hx]; exact fld_eq (field_eq ⟨21, 4, d⟩ 3 ho (by rw [hf]; rfl))
  have f1 : fld x 16 5 = a := by rw [hx]; exact fld_eq (field_eq ⟨16, 5, a⟩ 2 ho (by rw [hf]; rfl))
  have f2 : fld x 3 3 = t := by rw [hx]; exact fld_eq (field_eq ⟨3, 3, t⟩ 1 ho (by rw [hf]; rfl))
  have f3 : fld x 0 3 = m := by rw [hx]; exact fld_eq (field_eq ⟨0, 3, m⟩ 0 ho (by rw [hf]; rfl))
  have hm : x / 33554432 % 128 = 62 := by rw [hx]; exact const_eq 25 7 _ ho (by rw [hp]; decide +kernel)
  clear hx ho hp hf fs
  rw [hw, parse_vred hm]
  simp [parseVred, h0, f0, f1, f2, f3]

theorem vrmax (d : Fin 16) (a : Fin 32) (t m : Fin 8) : Statement (.vrmax d a t m) := by
  refine core rfl ?_
  obtain ⟨fs, hf⟩ : ∃ fs : List Field, fs = [⟨0, 3, m⟩, ⟨3, 3, t⟩, ⟨16, 5, a⟩, ⟨21, 4, d⟩] := ⟨_, rfl⟩
  have hp : places fs = [(0, 3), (3, 3), (16, 5), (21, 4)] := by rw [hf]; rfl
  have ho : ok 2080374912 fs = true := sound_ok _ _ (by rw [hp]; decide +kernel)
  obtain ⟨x, hx⟩ : ∃ x, x = word 2080374912 fs := ⟨_, rfl⟩
  have hw : encode (.vrmax d a t m) = x := by rw [hx, hf, word_low]; rfl
  have h0 : x / 64 % 1024 = 2 := by rw [hx]; exact const_eq 6 10 _ ho (by rw [hp]; decide +kernel)
  have f0 : fld x 21 4 = d := by rw [hx]; exact fld_eq (field_eq ⟨21, 4, d⟩ 3 ho (by rw [hf]; rfl))
  have f1 : fld x 16 5 = a := by rw [hx]; exact fld_eq (field_eq ⟨16, 5, a⟩ 2 ho (by rw [hf]; rfl))
  have f2 : fld x 3 3 = t := by rw [hx]; exact fld_eq (field_eq ⟨3, 3, t⟩ 1 ho (by rw [hf]; rfl))
  have f3 : fld x 0 3 = m := by rw [hx]; exact fld_eq (field_eq ⟨0, 3, m⟩ 0 ho (by rw [hf]; rfl))
  have hm : x / 33554432 % 128 = 62 := by rw [hx]; exact const_eq 25 7 _ ho (by rw [hp]; decide +kernel)
  clear hx ho hp hf fs
  rw [hw, parse_vred hm]
  simp [parseVred, h0, f0, f1, f2, f3]

theorem vrminz (d : Fin 16) (a : Fin 32) (t m : Fin 8) : Statement (.vrminz d a t m) := by
  refine core rfl ?_
  obtain ⟨fs, hf⟩ : ∃ fs : List Field, fs = [⟨0, 3, m⟩, ⟨3, 3, t⟩, ⟨16, 5, a⟩, ⟨21, 4, d⟩] := ⟨_, rfl⟩
  have hp : places fs = [(0, 3), (3, 3), (16, 5), (21, 4)] := by rw [hf]; rfl
  have ho : ok 2080374976 fs = true := sound_ok _ _ (by rw [hp]; decide +kernel)
  obtain ⟨x, hx⟩ : ∃ x, x = word 2080374976 fs := ⟨_, rfl⟩
  have hw : encode (.vrminz d a t m) = x := by rw [hx, hf, word_low]; rfl
  have h0 : x / 64 % 1024 = 3 := by rw [hx]; exact const_eq 6 10 _ ho (by rw [hp]; decide +kernel)
  have f0 : fld x 21 4 = d := by rw [hx]; exact fld_eq (field_eq ⟨21, 4, d⟩ 3 ho (by rw [hf]; rfl))
  have f1 : fld x 16 5 = a := by rw [hx]; exact fld_eq (field_eq ⟨16, 5, a⟩ 2 ho (by rw [hf]; rfl))
  have f2 : fld x 3 3 = t := by rw [hx]; exact fld_eq (field_eq ⟨3, 3, t⟩ 1 ho (by rw [hf]; rfl))
  have f3 : fld x 0 3 = m := by rw [hx]; exact fld_eq (field_eq ⟨0, 3, m⟩ 0 ho (by rw [hf]; rfl))
  have hm : x / 33554432 % 128 = 62 := by rw [hx]; exact const_eq 25 7 _ ho (by rw [hp]; decide +kernel)
  clear hx ho hp hf fs
  rw [hw, parse_vred hm]
  simp [parseVred, h0, f0, f1, f2, f3]

theorem vrmaxz (d : Fin 16) (a : Fin 32) (t m : Fin 8) : Statement (.vrmaxz d a t m) := by
  refine core rfl ?_
  obtain ⟨fs, hf⟩ : ∃ fs : List Field, fs = [⟨0, 3, m⟩, ⟨3, 3, t⟩, ⟨16, 5, a⟩, ⟨21, 4, d⟩] := ⟨_, rfl⟩
  have hp : places fs = [(0, 3), (3, 3), (16, 5), (21, 4)] := by rw [hf]; rfl
  have ho : ok 2080375040 fs = true := sound_ok _ _ (by rw [hp]; decide +kernel)
  obtain ⟨x, hx⟩ : ∃ x, x = word 2080375040 fs := ⟨_, rfl⟩
  have hw : encode (.vrmaxz d a t m) = x := by rw [hx, hf, word_low]; rfl
  have h0 : x / 64 % 1024 = 4 := by rw [hx]; exact const_eq 6 10 _ ho (by rw [hp]; decide +kernel)
  have f0 : fld x 21 4 = d := by rw [hx]; exact fld_eq (field_eq ⟨21, 4, d⟩ 3 ho (by rw [hf]; rfl))
  have f1 : fld x 16 5 = a := by rw [hx]; exact fld_eq (field_eq ⟨16, 5, a⟩ 2 ho (by rw [hf]; rfl))
  have f2 : fld x 3 3 = t := by rw [hx]; exact fld_eq (field_eq ⟨3, 3, t⟩ 1 ho (by rw [hf]; rfl))
  have f3 : fld x 0 3 = m := by rw [hx]; exact fld_eq (field_eq ⟨0, 3, m⟩ 0 ho (by rw [hf]; rfl))
  have hm : x / 33554432 % 128 = 62 := by rw [hx]; exact const_eq 25 7 _ ho (by rw [hp]; decide +kernel)
  clear hx ho hp hf fs
  rw [hw, parse_vred hm]
  simp [parseVred, h0, f0, f1, f2, f3]

theorem vrand (d : Fin 16) (a : Fin 32) (t m : Fin 8) : Statement (.vrand d a t m) := by
  refine core rfl ?_
  obtain ⟨fs, hf⟩ : ∃ fs : List Field, fs = [⟨0, 3, m⟩, ⟨3, 3, t⟩, ⟨16, 5, a⟩, ⟨21, 4, d⟩] := ⟨_, rfl⟩
  have hp : places fs = [(0, 3), (3, 3), (16, 5), (21, 4)] := by rw [hf]; rfl
  have ho : ok 2080375104 fs = true := sound_ok _ _ (by rw [hp]; decide +kernel)
  obtain ⟨x, hx⟩ : ∃ x, x = word 2080375104 fs := ⟨_, rfl⟩
  have hw : encode (.vrand d a t m) = x := by rw [hx, hf, word_low]; rfl
  have h0 : x / 64 % 1024 = 5 := by rw [hx]; exact const_eq 6 10 _ ho (by rw [hp]; decide +kernel)
  have f0 : fld x 21 4 = d := by rw [hx]; exact fld_eq (field_eq ⟨21, 4, d⟩ 3 ho (by rw [hf]; rfl))
  have f1 : fld x 16 5 = a := by rw [hx]; exact fld_eq (field_eq ⟨16, 5, a⟩ 2 ho (by rw [hf]; rfl))
  have f2 : fld x 3 3 = t := by rw [hx]; exact fld_eq (field_eq ⟨3, 3, t⟩ 1 ho (by rw [hf]; rfl))
  have f3 : fld x 0 3 = m := by rw [hx]; exact fld_eq (field_eq ⟨0, 3, m⟩ 0 ho (by rw [hf]; rfl))
  have hm : x / 33554432 % 128 = 62 := by rw [hx]; exact const_eq 25 7 _ ho (by rw [hp]; decide +kernel)
  clear hx ho hp hf fs
  rw [hw, parse_vred hm]
  simp [parseVred, h0, f0, f1, f2, f3]

theorem vror (d : Fin 16) (a : Fin 32) (t m : Fin 8) : Statement (.vror d a t m) := by
  refine core rfl ?_
  obtain ⟨fs, hf⟩ : ∃ fs : List Field, fs = [⟨0, 3, m⟩, ⟨3, 3, t⟩, ⟨16, 5, a⟩, ⟨21, 4, d⟩] := ⟨_, rfl⟩
  have hp : places fs = [(0, 3), (3, 3), (16, 5), (21, 4)] := by rw [hf]; rfl
  have ho : ok 2080375168 fs = true := sound_ok _ _ (by rw [hp]; decide +kernel)
  obtain ⟨x, hx⟩ : ∃ x, x = word 2080375168 fs := ⟨_, rfl⟩
  have hw : encode (.vror d a t m) = x := by rw [hx, hf, word_low]; rfl
  have h0 : x / 64 % 1024 = 6 := by rw [hx]; exact const_eq 6 10 _ ho (by rw [hp]; decide +kernel)
  have f0 : fld x 21 4 = d := by rw [hx]; exact fld_eq (field_eq ⟨21, 4, d⟩ 3 ho (by rw [hf]; rfl))
  have f1 : fld x 16 5 = a := by rw [hx]; exact fld_eq (field_eq ⟨16, 5, a⟩ 2 ho (by rw [hf]; rfl))
  have f2 : fld x 3 3 = t := by rw [hx]; exact fld_eq (field_eq ⟨3, 3, t⟩ 1 ho (by rw [hf]; rfl))
  have f3 : fld x 0 3 = m := by rw [hx]; exact fld_eq (field_eq ⟨0, 3, m⟩ 0 ho (by rw [hf]; rfl))
  have hm : x / 33554432 % 128 = 62 := by rw [hx]; exact const_eq 25 7 _ ho (by rw [hp]; decide +kernel)
  clear hx ho hp hf fs
  rw [hw, parse_vred hm]
  simp [parseVred, h0, f0, f1, f2, f3]

theorem vrxor (d : Fin 16) (a : Fin 32) (t m : Fin 8) : Statement (.vrxor d a t m) := by
  refine core rfl ?_
  obtain ⟨fs, hf⟩ : ∃ fs : List Field, fs = [⟨0, 3, m⟩, ⟨3, 3, t⟩, ⟨16, 5, a⟩, ⟨21, 4, d⟩] := ⟨_, rfl⟩
  have hp : places fs = [(0, 3), (3, 3), (16, 5), (21, 4)] := by rw [hf]; rfl
  have ho : ok 2080375232 fs = true := sound_ok _ _ (by rw [hp]; decide +kernel)
  obtain ⟨x, hx⟩ : ∃ x, x = word 2080375232 fs := ⟨_, rfl⟩
  have hw : encode (.vrxor d a t m) = x := by rw [hx, hf, word_low]; rfl
  have h0 : x / 64 % 1024 = 7 := by rw [hx]; exact const_eq 6 10 _ ho (by rw [hp]; decide +kernel)
  have f0 : fld x 21 4 = d := by rw [hx]; exact fld_eq (field_eq ⟨21, 4, d⟩ 3 ho (by rw [hf]; rfl))
  have f1 : fld x 16 5 = a := by rw [hx]; exact fld_eq (field_eq ⟨16, 5, a⟩ 2 ho (by rw [hf]; rfl))
  have f2 : fld x 3 3 = t := by rw [hx]; exact fld_eq (field_eq ⟨3, 3, t⟩ 1 ho (by rw [hf]; rfl))
  have f3 : fld x 0 3 = m := by rw [hx]; exact fld_eq (field_eq ⟨0, 3, m⟩ 0 ho (by rw [hf]; rfl))
  have hm : x / 33554432 % 128 = 62 := by rw [hx]; exact const_eq 25 7 _ ho (by rw [hp]; decide +kernel)
  clear hx ho hp hf fs
  rw [hw, parse_vred hm]
  simp [parseVred, h0, f0, f1, f2, f3]

theorem vrfadd (d : Fin 16) (a : Fin 32) (t m : Fin 8) : Statement (.vrfadd d a t m) := by
  refine core rfl ?_
  obtain ⟨fs, hf⟩ : ∃ fs : List Field, fs = [⟨0, 3, m⟩, ⟨3, 3, t⟩, ⟨16, 5, a⟩, ⟨21, 4, d⟩] := ⟨_, rfl⟩
  have hp : places fs = [(0, 3), (3, 3), (16, 5), (21, 4)] := by rw [hf]; rfl
  have ho : ok 2080375296 fs = true := sound_ok _ _ (by rw [hp]; decide +kernel)
  obtain ⟨x, hx⟩ : ∃ x, x = word 2080375296 fs := ⟨_, rfl⟩
  have hw : encode (.vrfadd d a t m) = x := by rw [hx, hf, word_low]; rfl
  have h0 : x / 64 % 1024 = 8 := by rw [hx]; exact const_eq 6 10 _ ho (by rw [hp]; decide +kernel)
  have f0 : fld x 21 4 = d := by rw [hx]; exact fld_eq (field_eq ⟨21, 4, d⟩ 3 ho (by rw [hf]; rfl))
  have f1 : fld x 16 5 = a := by rw [hx]; exact fld_eq (field_eq ⟨16, 5, a⟩ 2 ho (by rw [hf]; rfl))
  have f2 : fld x 3 3 = t := by rw [hx]; exact fld_eq (field_eq ⟨3, 3, t⟩ 1 ho (by rw [hf]; rfl))
  have f3 : fld x 0 3 = m := by rw [hx]; exact fld_eq (field_eq ⟨0, 3, m⟩ 0 ho (by rw [hf]; rfl))
  have hm : x / 33554432 % 128 = 62 := by rw [hx]; exact const_eq 25 7 _ ho (by rw [hp]; decide +kernel)
  clear hx ho hp hf fs
  rw [hw, parse_vred hm]
  simp [parseVred, h0, f0, f1, f2, f3]

theorem vscanAdd (d : Fin 16) (a : Fin 32) (t m : Fin 8) : Statement (.vscanAdd d a t m) := by
  refine core rfl ?_
  obtain ⟨fs, hf⟩ : ∃ fs : List Field, fs = [⟨0, 3, m⟩, ⟨3, 3, t⟩, ⟨16, 5, a⟩, ⟨21, 4, d⟩] := ⟨_, rfl⟩
  have hp : places fs = [(0, 3), (3, 3), (16, 5), (21, 4)] := by rw [hf]; rfl
  have ho : ok 2080375360 fs = true := sound_ok _ _ (by rw [hp]; decide +kernel)
  obtain ⟨x, hx⟩ : ∃ x, x = word 2080375360 fs := ⟨_, rfl⟩
  have hw : encode (.vscanAdd d a t m) = x := by rw [hx, hf, word_low]; rfl
  have h0 : x / 64 % 1024 = 9 := by rw [hx]; exact const_eq 6 10 _ ho (by rw [hp]; decide +kernel)
  have f0 : fld x 21 4 = d := by rw [hx]; exact fld_eq (field_eq ⟨21, 4, d⟩ 3 ho (by rw [hf]; rfl))
  have f1 : fld x 16 5 = a := by rw [hx]; exact fld_eq (field_eq ⟨16, 5, a⟩ 2 ho (by rw [hf]; rfl))
  have f2 : fld x 3 3 = t := by rw [hx]; exact fld_eq (field_eq ⟨3, 3, t⟩ 1 ho (by rw [hf]; rfl))
  have f3 : fld x 0 3 = m := by rw [hx]; exact fld_eq (field_eq ⟨0, 3, m⟩ 0 ho (by rw [hf]; rfl))
  have hm : x / 33554432 % 128 = 62 := by rw [hx]; exact const_eq 25 7 _ ho (by rw [hp]; decide +kernel)
  clear hx ho hp hf fs
  rw [hw, parse_vred hm]
  simp [parseVred, h0, f0, f1, f2, f3]

theorem vscanXor (d : Fin 16) (a : Fin 32) (t m : Fin 8) : Statement (.vscanXor d a t m) := by
  refine core rfl ?_
  obtain ⟨fs, hf⟩ : ∃ fs : List Field, fs = [⟨0, 3, m⟩, ⟨3, 3, t⟩, ⟨16, 5, a⟩, ⟨21, 4, d⟩] := ⟨_, rfl⟩
  have hp : places fs = [(0, 3), (3, 3), (16, 5), (21, 4)] := by rw [hf]; rfl
  have ho : ok 2080375424 fs = true := sound_ok _ _ (by rw [hp]; decide +kernel)
  obtain ⟨x, hx⟩ : ∃ x, x = word 2080375424 fs := ⟨_, rfl⟩
  have hw : encode (.vscanXor d a t m) = x := by rw [hx, hf, word_low]; rfl
  have h0 : x / 64 % 1024 = 10 := by rw [hx]; exact const_eq 6 10 _ ho (by rw [hp]; decide +kernel)
  have f0 : fld x 21 4 = d := by rw [hx]; exact fld_eq (field_eq ⟨21, 4, d⟩ 3 ho (by rw [hf]; rfl))
  have f1 : fld x 16 5 = a := by rw [hx]; exact fld_eq (field_eq ⟨16, 5, a⟩ 2 ho (by rw [hf]; rfl))
  have f2 : fld x 3 3 = t := by rw [hx]; exact fld_eq (field_eq ⟨3, 3, t⟩ 1 ho (by rw [hf]; rfl))
  have f3 : fld x 0 3 = m := by rw [hx]; exact fld_eq (field_eq ⟨0, 3, m⟩ 0 ho (by rw [hf]; rfl))
  have hm : x / 33554432 % 128 = 62 := by rw [hx]; exact const_eq 25 7 _ ho (by rw [hp]; decide +kernel)
  clear hx ho hp hf fs
  rw [hw, parse_vred hm]
  simp [parseVred, h0, f0, f1, f2, f3]

theorem vscanMax (d : Fin 16) (a : Fin 32) (t m : Fin 8) : Statement (.vscanMax d a t m) := by
  refine core rfl ?_
  obtain ⟨fs, hf⟩ : ∃ fs : List Field, fs = [⟨0, 3, m⟩, ⟨3, 3, t⟩, ⟨16, 5, a⟩, ⟨21, 4, d⟩] := ⟨_, rfl⟩
  have hp : places fs = [(0, 3), (3, 3), (16, 5), (21, 4)] := by rw [hf]; rfl
  have ho : ok 2080375488 fs = true := sound_ok _ _ (by rw [hp]; decide +kernel)
  obtain ⟨x, hx⟩ : ∃ x, x = word 2080375488 fs := ⟨_, rfl⟩
  have hw : encode (.vscanMax d a t m) = x := by rw [hx, hf, word_low]; rfl
  have h0 : x / 64 % 1024 = 11 := by rw [hx]; exact const_eq 6 10 _ ho (by rw [hp]; decide +kernel)
  have f0 : fld x 21 4 = d := by rw [hx]; exact fld_eq (field_eq ⟨21, 4, d⟩ 3 ho (by rw [hf]; rfl))
  have f1 : fld x 16 5 = a := by rw [hx]; exact fld_eq (field_eq ⟨16, 5, a⟩ 2 ho (by rw [hf]; rfl))
  have f2 : fld x 3 3 = t := by rw [hx]; exact fld_eq (field_eq ⟨3, 3, t⟩ 1 ho (by rw [hf]; rfl))
  have f3 : fld x 0 3 = m := by rw [hx]; exact fld_eq (field_eq ⟨0, 3, m⟩ 0 ho (by rw [hf]; rfl))
  have hm : x / 33554432 % 128 = 62 := by rw [hx]; exact const_eq 25 7 _ ho (by rw [hp]; decide +kernel)
  clear hx ho hp hf fs
  rw [hw, parse_vred hm]
  simp [parseVred, h0, f0, f1, f2, f3]

theorem vsplat (d : Fin 16) (a : Fin 32) (t m : Fin 8) : Statement (.vsplat d a t m) := by
  refine core rfl ?_
  obtain ⟨fs, hf⟩ : ∃ fs : List Field, fs = [⟨0, 3, m⟩, ⟨3, 3, t⟩, ⟨16, 5, a⟩, ⟨21, 4, d⟩] := ⟨_, rfl⟩
  have hp : places fs = [(0, 3), (3, 3), (16, 5), (21, 4)] := by rw [hf]; rfl
  have ho : ok 2113929216 fs = true := sound_ok _ _ (by rw [hp]; decide +kernel)
  obtain ⟨x, hx⟩ : ∃ x, x = word 2113929216 fs := ⟨_, rfl⟩
  have hw : encode (.vsplat d a t m) = x := by rw [hx, hf, word_low]; rfl
  have h0 : x / 64 % 1024 = 0 := by rw [hx]; exact const_eq 6 10 _ ho (by rw [hp]; decide +kernel)
  have f0 : fld x 21 4 = d := by rw [hx]; exact fld_eq (field_eq ⟨21, 4, d⟩ 3 ho (by rw [hf]; rfl))
  have f1 : fld x 16 5 = a := by rw [hx]; exact fld_eq (field_eq ⟨16, 5, a⟩ 2 ho (by rw [hf]; rfl))
  have f2 : fld x 3 3 = t := by rw [hx]; exact fld_eq (field_eq ⟨3, 3, t⟩ 1 ho (by rw [hf]; rfl))
  have f3 : fld x 0 3 = m := by rw [hx]; exact fld_eq (field_eq ⟨0, 3, m⟩ 0 ho (by rw [hf]; rfl))
  have hm : x / 33554432 % 128 = 63 := by rw [hx]; exact const_eq 25 7 _ ho (by rw [hp]; decide +kernel)
  clear hx ho hp hf fs
  rw [hw, parse_vmove hm]
  simp [parseVmove, h0, f0, f1, f2, f3]

theorem vext (d : Fin 16) (a b : Fin 32) (t : Fin 8) : Statement (.vext d a b t) := by
  refine core rfl ?_
  obtain ⟨fs, hf⟩ : ∃ fs : List Field, fs = [⟨3, 3, t⟩, ⟨11, 5, b⟩, ⟨16, 5, a⟩, ⟨21, 4, d⟩] := ⟨_, rfl⟩
  have hp : places fs = [(3, 3), (11, 5), (16, 5), (21, 4)] := by rw [hf]; rfl
  have ho : ok 2113929280 fs = true := sound_ok _ _ (by rw [hp]; decide +kernel)
  obtain ⟨x, hx⟩ : ∃ x, x = word 2113929280 fs := ⟨_, rfl⟩
  have hw : encode (.vext d a b t) = x := by rw [hx, hf]; rfl
  have h0 : x / 64 % 1024 ≠ 0 := by rw [hx]; exact slice_ne 6 10 0 _ 1 ho (by rw [hp]; decide +kernel) (by decide) (by
      decide +kernel)
  have h1 : x % 8 = 0 := by rw [hx]; exact low_eq 3 _ ho (by rw [hp]; decide +kernel)
  have h2 : x / 64 % 32 = 1 := by rw [hx]; exact const_eq 6 5 _ ho (by rw [hp]; decide +kernel)
  have f0 : fld x 21 4 = d := by rw [hx]; exact fld_eq (field_eq ⟨21, 4, d⟩ 3 ho (by rw [hf]; rfl))
  have f1 : fld x 16 5 = a := by rw [hx]; exact fld_eq (field_eq ⟨16, 5, a⟩ 2 ho (by rw [hf]; rfl))
  have f2 : fld x 11 5 = b := by rw [hx]; exact fld_eq (field_eq ⟨11, 5, b⟩ 1 ho (by rw [hf]; rfl))
  have f3 : fld x 3 3 = t := by rw [hx]; exact fld_eq (field_eq ⟨3, 3, t⟩ 0 ho (by rw [hf]; rfl))
  have hm : x / 33554432 % 128 = 63 := by rw [hx]; exact const_eq 25 7 _ ho (by rw [hp]; decide +kernel)
  clear hx ho hp hf fs
  rw [hw, parse_vmove hm]
  simp [parseVmove, h0, h1, h2, f0, f1, f2, f3]

theorem vins (d : Fin 16) (a b : Fin 32) (t : Fin 8) : Statement (.vins d a b t) := by
  refine core rfl ?_
  obtain ⟨fs, hf⟩ : ∃ fs : List Field, fs = [⟨3, 3, t⟩, ⟨11, 5, b⟩, ⟨16, 5, a⟩, ⟨21, 4, d⟩] := ⟨_, rfl⟩
  have hp : places fs = [(3, 3), (11, 5), (16, 5), (21, 4)] := by rw [hf]; rfl
  have ho : ok 2113929344 fs = true := sound_ok _ _ (by rw [hp]; decide +kernel)
  obtain ⟨x, hx⟩ : ∃ x, x = word 2113929344 fs := ⟨_, rfl⟩
  have hw : encode (.vins d a b t) = x := by rw [hx, hf]; rfl
  have h0 : x / 64 % 1024 ≠ 0 := by rw [hx]; exact slice_ne 6 10 1 _ 1 ho (by rw [hp]; decide +kernel) (by decide) (by
      decide +kernel)
  have h1 : x / 64 % 32 = 2 := by rw [hx]; exact const_eq 6 5 _ ho (by rw [hp]; decide +kernel)
  have h2 : x % 8 = 0 := by rw [hx]; exact low_eq 3 _ ho (by rw [hp]; decide +kernel)
  have f0 : fld x 21 4 = d := by rw [hx]; exact fld_eq (field_eq ⟨21, 4, d⟩ 3 ho (by rw [hf]; rfl))
  have f1 : fld x 16 5 = a := by rw [hx]; exact fld_eq (field_eq ⟨16, 5, a⟩ 2 ho (by rw [hf]; rfl))
  have f2 : fld x 11 5 = b := by rw [hx]; exact fld_eq (field_eq ⟨11, 5, b⟩ 1 ho (by rw [hf]; rfl))
  have f3 : fld x 3 3 = t := by rw [hx]; exact fld_eq (field_eq ⟨3, 3, t⟩ 0 ho (by rw [hf]; rfl))
  have hm : x / 33554432 % 128 = 63 := by rw [hx]; exact const_eq 25 7 _ ho (by rw [hp]; decide +kernel)
  clear hx ho hp hf fs
  rw [hw, parse_vmove hm]
  simp [parseVmove, h0, h1, h2, f0, f1, f2, f3]

theorem vmov (d : Fin 16) (a : Fin 32) (t m : Fin 8) : Statement (.vmov d a t m) := by
  refine core rfl ?_
  obtain ⟨fs, hf⟩ : ∃ fs : List Field, fs = [⟨0, 3, m⟩, ⟨3, 3, t⟩, ⟨16, 5, a⟩, ⟨21, 4, d⟩] := ⟨_, rfl⟩
  have hp : places fs = [(0, 3), (3, 3), (16, 5), (21, 4)] := by rw [hf]; rfl
  have ho : ok 2113929408 fs = true := sound_ok _ _ (by rw [hp]; decide +kernel)
  obtain ⟨x, hx⟩ : ∃ x, x = word 2113929408 fs := ⟨_, rfl⟩
  have hw : encode (.vmov d a t m) = x := by rw [hx, hf, word_low]; rfl
  have h0 : x / 64 % 1024 = 3 := by rw [hx]; exact const_eq 6 10 _ ho (by rw [hp]; decide +kernel)
  have h1 : x / 64 % 32 = 3 := by rw [hx]; exact const_eq 6 5 _ ho (by rw [hp]; decide +kernel)
  have f0 : fld x 21 4 = d := by rw [hx]; exact fld_eq (field_eq ⟨21, 4, d⟩ 3 ho (by rw [hf]; rfl))
  have f1 : fld x 16 5 = a := by rw [hx]; exact fld_eq (field_eq ⟨16, 5, a⟩ 2 ho (by rw [hf]; rfl))
  have f2 : fld x 3 3 = t := by rw [hx]; exact fld_eq (field_eq ⟨3, 3, t⟩ 1 ho (by rw [hf]; rfl))
  have f3 : fld x 0 3 = m := by rw [hx]; exact fld_eq (field_eq ⟨0, 3, m⟩ 0 ho (by rw [hf]; rfl))
  have hm : x / 33554432 % 128 = 63 := by rw [hx]; exact const_eq 25 7 _ ho (by rw [hp]; decide +kernel)
  clear hx ho hp hf fs
  rw [hw, parse_vmove hm]
  simp [parseVmove, h0, h1, f0, f1, f2, f3]

theorem vidx (d : Fin 16) (t m : Fin 8) : Statement (.vidx d t m) := by
  refine core rfl ?_
  obtain ⟨fs, hf⟩ : ∃ fs : List Field, fs = [⟨0, 3, m⟩, ⟨3, 3, t⟩, ⟨21, 4, d⟩] := ⟨_, rfl⟩
  have hp : places fs = [(0, 3), (3, 3), (21, 4)] := by rw [hf]; rfl
  have ho : ok 2113929472 fs = true := sound_ok _ _ (by rw [hp]; decide +kernel)
  obtain ⟨x, hx⟩ : ∃ x, x = word 2113929472 fs := ⟨_, rfl⟩
  have hw : encode (.vidx d t m) = x := by rw [hx, hf, word_low]; rfl
  have h0 : x / 64 % 1024 = 4 := by rw [hx]; exact const_eq 6 10 _ ho (by rw [hp]; decide +kernel)
  have h1 : x / 64 % 32 = 4 := by rw [hx]; exact const_eq 6 5 _ ho (by rw [hp]; decide +kernel)
  have h2 : x / 64 % 32768 = 4 := by rw [hx]; exact const_eq 6 15 _ ho (by rw [hp]; decide +kernel)
  have f0 : fld x 21 4 = d := by rw [hx]; exact fld_eq (field_eq ⟨21, 4, d⟩ 2 ho (by rw [hf]; rfl))
  have f1 : fld x 3 3 = t := by rw [hx]; exact fld_eq (field_eq ⟨3, 3, t⟩ 1 ho (by rw [hf]; rfl))
  have f2 : fld x 0 3 = m := by rw [hx]; exact fld_eq (field_eq ⟨0, 3, m⟩ 0 ho (by rw [hf]; rfl))
  have hm : x / 33554432 % 128 = 63 := by rw [hx]; exact const_eq 25 7 _ ho (by rw [hp]; decide +kernel)
  clear hx ho hp hf fs
  rw [hw, parse_vmove hm]
  simp [parseVmove, h0, h1, h2, f0, f1, f2]

theorem vbits (d : Fin 16) (a : Fin 32) (t : Fin 8) : Statement (.vbits d a t) := by
  refine core rfl ?_
  obtain ⟨fs, hf⟩ : ∃ fs : List Field, fs = [⟨3, 3, t⟩, ⟨16, 5, a⟩, ⟨21, 4, d⟩] := ⟨_, rfl⟩
  have hp : places fs = [(3, 3), (16, 5), (21, 4)] := by rw [hf]; rfl
  have ho : ok 2113929536 fs = true := sound_ok _ _ (by rw [hp]; decide +kernel)
  obtain ⟨x, hx⟩ : ∃ x, x = word 2113929536 fs := ⟨_, rfl⟩
  have hw : encode (.vbits d a t) = x := by rw [hx, hf]; rfl
  have h0 : x / 64 % 1024 = 5 := by rw [hx]; exact const_eq 6 10 _ ho (by rw [hp]; decide +kernel)
  have h1 : x / 64 % 32 = 5 := by rw [hx]; exact const_eq 6 5 _ ho (by rw [hp]; decide +kernel)
  have h2 : x / 64 % 32768 ≠ 4 := by rw [hx]; exact slice_ne 6 15 0 _ 1 ho (by rw [hp]; decide +kernel) (by decide) (by
      decide +kernel)
  have h3 : x % 8 = 0 := by rw [hx]; exact low_eq 3 _ ho (by rw [hp]; decide +kernel)
  have f0 : fld x 21 4 = d := by rw [hx]; exact fld_eq (field_eq ⟨21, 4, d⟩ 2 ho (by rw [hf]; rfl))
  have f1 : fld x 16 5 = a := by rw [hx]; exact fld_eq (field_eq ⟨16, 5, a⟩ 1 ho (by rw [hf]; rfl))
  have f2 : fld x 3 3 = t := by rw [hx]; exact fld_eq (field_eq ⟨3, 3, t⟩ 0 ho (by rw [hf]; rfl))
  have hm : x / 33554432 % 128 = 63 := by rw [hx]; exact const_eq 25 7 _ ho (by rw [hp]; decide +kernel)
  clear hx ho hp hf fs
  rw [hw, parse_vmove hm]
  simp [parseVmove, h0, h1, h2, h3, f0, f1, f2]

theorem vmsk (d : Fin 16) (a : Fin 32) (t : Fin 8) : Statement (.vmsk d a t) := by
  refine core rfl ?_
  obtain ⟨fs, hf⟩ : ∃ fs : List Field, fs = [⟨3, 3, t⟩, ⟨16, 5, a⟩, ⟨21, 4, d⟩] := ⟨_, rfl⟩
  have hp : places fs = [(3, 3), (16, 5), (21, 4)] := by rw [hf]; rfl
  have ho : ok 2113929600 fs = true := sound_ok _ _ (by rw [hp]; decide +kernel)
  obtain ⟨x, hx⟩ : ∃ x, x = word 2113929600 fs := ⟨_, rfl⟩
  have hw : encode (.vmsk d a t) = x := by rw [hx, hf]; rfl
  have h0 : x / 64 % 1024 = 6 := by rw [hx]; exact const_eq 6 10 _ ho (by rw [hp]; decide +kernel)
  have h1 : x / 64 % 32 = 6 := by rw [hx]; exact const_eq 6 5 _ ho (by rw [hp]; decide +kernel)
  have h2 : x / 64 % 32768 ≠ 4 := by rw [hx]; exact slice_ne 6 15 1 _ 1 ho (by rw [hp]; decide +kernel) (by decide) (by
      decide +kernel)
  have h3 : x % 8 = 0 := by rw [hx]; exact low_eq 3 _ ho (by rw [hp]; decide +kernel)
  have f0 : fld x 21 4 = d := by rw [hx]; exact fld_eq (field_eq ⟨21, 4, d⟩ 2 ho (by rw [hf]; rfl))
  have f1 : fld x 16 5 = a := by rw [hx]; exact fld_eq (field_eq ⟨16, 5, a⟩ 1 ho (by rw [hf]; rfl))
  have f2 : fld x 3 3 = t := by rw [hx]; exact fld_eq (field_eq ⟨3, 3, t⟩ 0 ho (by rw [hf]; rfl))
  have hm : x / 33554432 % 128 = 63 := by rw [hx]; exact const_eq 25 7 _ ho (by rw [hp]; decide +kernel)
  clear hx ho hp hf fs
  rw [hw, parse_vmove hm]
  simp [parseVmove, h0, h1, h2, h3, f0, f1, f2]

theorem vld (d : Fin 16) (a : Fin 32) (z c : Fin 4) (o : Fin 2048) : Statement (.vld d a z c o) := by
  refine core rfl ?_
  obtain ⟨fs, hf⟩ : ∃ fs : List Field, fs = [⟨0, 11, o⟩, ⟨11, 2, c⟩, ⟨14, 2, z⟩, ⟨16, 5, a⟩, ⟨21, 4, d⟩] := ⟨_, rfl⟩
  have hp : places fs = [(0, 11), (11, 2), (14, 2), (16, 5), (21, 4)] := by rw [hf]; rfl
  have ho : ok 2147483648 fs = true := sound_ok _ _ (by rw [hp]; decide +kernel)
  obtain ⟨x, hx⟩ : ∃ x, x = word 2147483648 fs := ⟨_, rfl⟩
  have hw : encode (.vld d a z c o) = x := by rw [hx, hf, word_low]; rfl
  have h0 : x / 8192 % 2 = 0 := by rw [hx]; exact const_eq 13 1 _ ho (by rw [hp]; decide +kernel)
  have f0 : fld x 21 4 = d := by rw [hx]; exact fld_eq (field_eq ⟨21, 4, d⟩ 4 ho (by rw [hf]; rfl))
  have f1 : fld x 16 5 = a := by rw [hx]; exact fld_eq (field_eq ⟨16, 5, a⟩ 3 ho (by rw [hf]; rfl))
  have f2 : fld x 14 2 = z := by rw [hx]; exact fld_eq (field_eq ⟨14, 2, z⟩ 2 ho (by rw [hf]; rfl))
  have f3 : fld x 11 2 = c := by rw [hx]; exact fld_eq (field_eq ⟨11, 2, c⟩ 1 ho (by rw [hf]; rfl))
  have f4 : fld x 0 11 = o := by rw [hx]; exact fld_eq (field_eq ⟨0, 11, o⟩ 0 ho (by rw [hf]; rfl))
  have hm : x / 33554432 % 128 = 64 := by rw [hx]; exact const_eq 25 7 _ ho (by rw [hp]; decide +kernel)
  clear hx ho hp hf fs
  rw [hw, parse_vld hm]
  simp [parseVld, h0, f0, f1, f2, f3, f4]

theorem vst (b a : Fin 32) (z c : Fin 4) (o : Fin 2048) : Statement (.vst b a z c o) := by
  refine core rfl ?_
  obtain ⟨fs, hf⟩ : ∃ fs : List Field, fs = [⟨0, 11, o⟩, ⟨11, 2, c⟩, ⟨13, 2, z⟩, ⟨15, 5, a⟩, ⟨20, 5, b⟩] := ⟨_, rfl⟩
  have hp : places fs = [(0, 11), (11, 2), (13, 2), (15, 5), (20, 5)] := by rw [hf]; rfl
  have ho : ok 2181038080 fs = true := sound_ok _ _ (by rw [hp]; decide +kernel)
  obtain ⟨x, hx⟩ : ∃ x, x = word 2181038080 fs := ⟨_, rfl⟩
  have hw : encode (.vst b a z c o) = x := by rw [hx, hf, word_low]; rfl
  have f0 : fld x 20 5 = b := by rw [hx]; exact fld_eq (field_eq ⟨20, 5, b⟩ 4 ho (by rw [hf]; rfl))
  have f1 : fld x 15 5 = a := by rw [hx]; exact fld_eq (field_eq ⟨15, 5, a⟩ 3 ho (by rw [hf]; rfl))
  have f2 : fld x 13 2 = z := by rw [hx]; exact fld_eq (field_eq ⟨13, 2, z⟩ 2 ho (by rw [hf]; rfl))
  have f3 : fld x 11 2 = c := by rw [hx]; exact fld_eq (field_eq ⟨11, 2, c⟩ 1 ho (by rw [hf]; rfl))
  have f4 : fld x 0 11 = o := by rw [hx]; exact fld_eq (field_eq ⟨0, 11, o⟩ 0 ho (by rw [hf]; rfl))
  have hm : x / 33554432 % 128 = 65 := by rw [hx]; exact const_eq 25 7 _ ho (by rw [hp]; decide +kernel)
  clear hx ho hp hf fs
  rw [hw, parse_vst hm]
  simp [parseVst, f0, f1, f2, f3, f4]

theorem vlss (d : Fin 16) (a b : Fin 32) (t : Fin 8) (c : Fin 4) (m : Fin 8) : Statement (.vlss d a b t c m) := by
  refine core rfl ?_
  obtain ⟨fs, hf⟩ : ∃ fs : List Field, fs = [⟨0, 3, m⟩, ⟨6, 2, c⟩, ⟨8, 3, t⟩, ⟨11, 5, b⟩, ⟨16, 5, a⟩, ⟨21, 4, d⟩] := ⟨_, rfl⟩
  have hp : places fs = [(0, 3), (6, 2), (8, 3), (11, 5), (16, 5), (21, 4)] := by rw [hf]; rfl
  have ho : ok 2214592512 fs = true := sound_ok _ _ (by rw [hp]; decide +kernel)
  obtain ⟨x, hx⟩ : ∃ x, x = word 2214592512 fs := ⟨_, rfl⟩
  have hw : encode (.vlss d a b t c m) = x := by rw [hx, hf, word_low]; rfl
  have h0 : x / 8 % 8 = 0 := by rw [hx]; exact const_eq 3 3 _ ho (by rw [hp]; decide +kernel)
  have f0 : fld x 21 4 = d := by rw [hx]; exact fld_eq (field_eq ⟨21, 4, d⟩ 5 ho (by rw [hf]; rfl))
  have f1 : fld x 16 5 = a := by rw [hx]; exact fld_eq (field_eq ⟨16, 5, a⟩ 4 ho (by rw [hf]; rfl))
  have f2 : fld x 11 5 = b := by rw [hx]; exact fld_eq (field_eq ⟨11, 5, b⟩ 3 ho (by rw [hf]; rfl))
  have f3 : fld x 8 3 = t := by rw [hx]; exact fld_eq (field_eq ⟨8, 3, t⟩ 2 ho (by rw [hf]; rfl))
  have f4 : fld x 6 2 = c := by rw [hx]; exact fld_eq (field_eq ⟨6, 2, c⟩ 1 ho (by rw [hf]; rfl))
  have f5 : fld x 0 3 = m := by rw [hx]; exact fld_eq (field_eq ⟨0, 3, m⟩ 0 ho (by rw [hf]; rfl))
  have hm : x / 33554432 % 128 = 66 := by rw [hx]; exact const_eq 25 7 _ ho (by rw [hp]; decide +kernel)
  clear hx ho hp hf fs
  rw [hw, parse_vlss hm]
  simp [parseVlss, h0, f0, f1, f2, f3, f4, f5]

theorem vsss (d : Fin 16) (a b : Fin 32) (t : Fin 8) (c : Fin 4) (m : Fin 8) : Statement (.vsss d a b t c m) := by
  refine core rfl ?_
  obtain ⟨fs, hf⟩ : ∃ fs : List Field, fs = [⟨0, 3, m⟩, ⟨6, 2, c⟩, ⟨8, 3, t⟩, ⟨11, 5, b⟩, ⟨16, 5, a⟩, ⟨21, 4, d⟩] := ⟨_, rfl⟩
  have hp : places fs = [(0, 3), (6, 2), (8, 3), (11, 5), (16, 5), (21, 4)] := by rw [hf]; rfl
  have ho : ok 2248146944 fs = true := sound_ok _ _ (by rw [hp]; decide +kernel)
  obtain ⟨x, hx⟩ : ∃ x, x = word 2248146944 fs := ⟨_, rfl⟩
  have hw : encode (.vsss d a b t c m) = x := by rw [hx, hf, word_low]; rfl
  have h0 : x / 8 % 8 = 0 := by rw [hx]; exact const_eq 3 3 _ ho (by rw [hp]; decide +kernel)
  have f0 : fld x 21 4 = d := by rw [hx]; exact fld_eq (field_eq ⟨21, 4, d⟩ 5 ho (by rw [hf]; rfl))
  have f1 : fld x 16 5 = a := by rw [hx]; exact fld_eq (field_eq ⟨16, 5, a⟩ 4 ho (by rw [hf]; rfl))
  have f2 : fld x 11 5 = b := by rw [hx]; exact fld_eq (field_eq ⟨11, 5, b⟩ 3 ho (by rw [hf]; rfl))
  have f3 : fld x 8 3 = t := by rw [hx]; exact fld_eq (field_eq ⟨8, 3, t⟩ 2 ho (by rw [hf]; rfl))
  have f4 : fld x 6 2 = c := by rw [hx]; exact fld_eq (field_eq ⟨6, 2, c⟩ 1 ho (by rw [hf]; rfl))
  have f5 : fld x 0 3 = m := by rw [hx]; exact fld_eq (field_eq ⟨0, 3, m⟩ 0 ho (by rw [hf]; rfl))
  have hm : x / 33554432 % 128 = 67 := by rw [hx]; exact const_eq 25 7 _ ho (by rw [hp]; decide +kernel)
  clear hx ho hp hf fs
  rw [hw, parse_vsss hm]
  simp [parseVsss, h0, f0, f1, f2, f3, f4, f5]

theorem vgth (d : Fin 16) (a b : Fin 32) (k : Fin 16) (i e : Fin 4) (m : Fin 8) : Statement (.vgth d a b k i e m) := by
  refine core rfl ?_
  obtain ⟨fs, hf⟩ : ∃ fs : List Field, fs = [⟨0, 3, m⟩, ⟨3, 2, e⟩, ⟨5, 2, i⟩, ⟨7, 4, k⟩, ⟨11, 5, b⟩, ⟨16, 5, a⟩, ⟨21, 4, d⟩]
      := ⟨_, rfl⟩
  have hp : places fs = [(0, 3), (3, 2), (5, 2), (7, 4), (11, 5), (16, 5), (21, 4)] := by rw [hf]; rfl
  have ho : ok 2281701376 fs = true := sound_ok _ _ (by rw [hp]; decide +kernel)
  obtain ⟨x, hx⟩ : ∃ x, x = word 2281701376 fs := ⟨_, rfl⟩
  have hw : encode (.vgth d a b k i e m) = x := by rw [hx, hf, word_low]; rfl
  have f0 : fld x 21 4 = d := by rw [hx]; exact fld_eq (field_eq ⟨21, 4, d⟩ 6 ho (by rw [hf]; rfl))
  have f1 : fld x 16 5 = a := by rw [hx]; exact fld_eq (field_eq ⟨16, 5, a⟩ 5 ho (by rw [hf]; rfl))
  have f2 : fld x 11 5 = b := by rw [hx]; exact fld_eq (field_eq ⟨11, 5, b⟩ 4 ho (by rw [hf]; rfl))
  have f3 : fld x 7 4 = k := by rw [hx]; exact fld_eq (field_eq ⟨7, 4, k⟩ 3 ho (by rw [hf]; rfl))
  have f4 : fld x 5 2 = i := by rw [hx]; exact fld_eq (field_eq ⟨5, 2, i⟩ 2 ho (by rw [hf]; rfl))
  have f5 : fld x 3 2 = e := by rw [hx]; exact fld_eq (field_eq ⟨3, 2, e⟩ 1 ho (by rw [hf]; rfl))
  have f6 : fld x 0 3 = m := by rw [hx]; exact fld_eq (field_eq ⟨0, 3, m⟩ 0 ho (by rw [hf]; rfl))
  have hm : x / 33554432 % 128 = 68 := by rw [hx]; exact const_eq 25 7 _ ho (by rw [hp]; decide +kernel)
  clear hx ho hp hf fs
  rw [hw, parse_vgth hm]
  simp [parseVgth, f0, f1, f2, f3, f4, f5, f6]

theorem vsct (d : Fin 16) (a b : Fin 32) (k : Fin 16) (i e : Fin 4) (m : Fin 8) : Statement (.vsct d a b k i e m) := by
  refine core rfl ?_
  obtain ⟨fs, hf⟩ : ∃ fs : List Field, fs = [⟨0, 3, m⟩, ⟨3, 2, e⟩, ⟨5, 2, i⟩, ⟨7, 4, k⟩, ⟨11, 5, b⟩, ⟨16, 5, a⟩, ⟨21, 4, d⟩]
      := ⟨_, rfl⟩
  have hp : places fs = [(0, 3), (3, 2), (5, 2), (7, 4), (11, 5), (16, 5), (21, 4)] := by rw [hf]; rfl
  have ho : ok 2315255808 fs = true := sound_ok _ _ (by rw [hp]; decide +kernel)
  obtain ⟨x, hx⟩ : ∃ x, x = word 2315255808 fs := ⟨_, rfl⟩
  have hw : encode (.vsct d a b k i e m) = x := by rw [hx, hf, word_low]; rfl
  have f0 : fld x 21 4 = d := by rw [hx]; exact fld_eq (field_eq ⟨21, 4, d⟩ 6 ho (by rw [hf]; rfl))
  have f1 : fld x 16 5 = a := by rw [hx]; exact fld_eq (field_eq ⟨16, 5, a⟩ 5 ho (by rw [hf]; rfl))
  have f2 : fld x 11 5 = b := by rw [hx]; exact fld_eq (field_eq ⟨11, 5, b⟩ 4 ho (by rw [hf]; rfl))
  have f3 : fld x 7 4 = k := by rw [hx]; exact fld_eq (field_eq ⟨7, 4, k⟩ 3 ho (by rw [hf]; rfl))
  have f4 : fld x 5 2 = i := by rw [hx]; exact fld_eq (field_eq ⟨5, 2, i⟩ 2 ho (by rw [hf]; rfl))
  have f5 : fld x 3 2 = e := by rw [hx]; exact fld_eq (field_eq ⟨3, 2, e⟩ 1 ho (by rw [hf]; rfl))
  have f6 : fld x 0 3 = m := by rw [hx]; exact fld_eq (field_eq ⟨0, 3, m⟩ 0 ho (by rw [hf]; rfl))
  have hm : x / 33554432 % 128 = 69 := by rw [hx]; exact const_eq 25 7 _ ho (by rw [hp]; decide +kernel)
  clear hx ho hp hf fs
  rw [hw, parse_vsct hm]
  simp [parseVsct, f0, f1, f2, f3, f4, f5, f6]

theorem vldl (d : Fin 16) (a : Fin 32) (t m : Fin 8) : Statement (.vldl d a t m) := by
  refine core rfl ?_
  obtain ⟨fs, hf⟩ : ∃ fs : List Field, fs = [⟨0, 3, m⟩, ⟨3, 3, t⟩, ⟨16, 5, a⟩, ⟨21, 4, d⟩] := ⟨_, rfl⟩
  have hp : places fs = [(0, 3), (3, 3), (16, 5), (21, 4)] := by rw [hf]; rfl
  have ho : ok 2348810240 fs = true := sound_ok _ _ (by rw [hp]; decide +kernel)
  obtain ⟨x, hx⟩ : ∃ x, x = word 2348810240 fs := ⟨_, rfl⟩
  have hw : encode (.vldl d a t m) = x := by rw [hx, hf, word_low]; rfl
  have h0 : x / 64 % 1024 = 0 := by rw [hx]; exact const_eq 6 10 _ ho (by rw [hp]; decide +kernel)
  have f0 : fld x 21 4 = d := by rw [hx]; exact fld_eq (field_eq ⟨21, 4, d⟩ 3 ho (by rw [hf]; rfl))
  have f1 : fld x 16 5 = a := by rw [hx]; exact fld_eq (field_eq ⟨16, 5, a⟩ 2 ho (by rw [hf]; rfl))
  have f2 : fld x 3 3 = t := by rw [hx]; exact fld_eq (field_eq ⟨3, 3, t⟩ 1 ho (by rw [hf]; rfl))
  have f3 : fld x 0 3 = m := by rw [hx]; exact fld_eq (field_eq ⟨0, 3, m⟩ 0 ho (by rw [hf]; rfl))
  have hm : x / 33554432 % 128 = 70 := by rw [hx]; exact const_eq 25 7 _ ho (by rw [hp]; decide +kernel)
  clear hx ho hp hf fs
  rw [hw, parse_lane hm]
  simp [parseLane, h0, f0, f1, f2, f3]

theorem vldlx (d : Fin 16) (a : Fin 32) (t m : Fin 8) : Statement (.vldlx d a t m) := by
  refine core rfl ?_
  obtain ⟨fs, hf⟩ : ∃ fs : List Field, fs = [⟨0, 3, m⟩, ⟨3, 3, t⟩, ⟨16, 5, a⟩, ⟨21, 4, d⟩] := ⟨_, rfl⟩
  have hp : places fs = [(0, 3), (3, 3), (16, 5), (21, 4)] := by rw [hf]; rfl
  have ho : ok 2348810304 fs = true := sound_ok _ _ (by rw [hp]; decide +kernel)
  obtain ⟨x, hx⟩ : ∃ x, x = word 2348810304 fs := ⟨_, rfl⟩
  have hw : encode (.vldlx d a t m) = x := by rw [hx, hf, word_low]; rfl
  have h0 : x / 64 % 1024 = 1 := by rw [hx]; exact const_eq 6 10 _ ho (by rw [hp]; decide +kernel)
  have f0 : fld x 21 4 = d := by rw [hx]; exact fld_eq (field_eq ⟨21, 4, d⟩ 3 ho (by rw [hf]; rfl))
  have f1 : fld x 16 5 = a := by rw [hx]; exact fld_eq (field_eq ⟨16, 5, a⟩ 2 ho (by rw [hf]; rfl))
  have f2 : fld x 3 3 = t := by rw [hx]; exact fld_eq (field_eq ⟨3, 3, t⟩ 1 ho (by rw [hf]; rfl))
  have f3 : fld x 0 3 = m := by rw [hx]; exact fld_eq (field_eq ⟨0, 3, m⟩ 0 ho (by rw [hf]; rfl))
  have hm : x / 33554432 % 128 = 70 := by rw [hx]; exact const_eq 25 7 _ ho (by rw [hp]; decide +kernel)
  clear hx ho hp hf fs
  rw [hw, parse_lane hm]
  simp [parseLane, h0, f0, f1, f2, f3]

theorem vstl (a b : Fin 32) (t m : Fin 8) : Statement (.vstl a b t m) := by
  refine core rfl ?_
  obtain ⟨fs, hf⟩ : ∃ fs : List Field, fs = [⟨0, 3, m⟩, ⟨3, 3, t⟩, ⟨11, 5, b⟩, ⟨16, 5, a⟩] := ⟨_, rfl⟩
  have hp : places fs = [(0, 3), (3, 3), (11, 5), (16, 5)] := by rw [hf]; rfl
  have ho : ok 2348810368 fs = true := sound_ok _ _ (by rw [hp]; decide +kernel)
  obtain ⟨x, hx⟩ : ∃ x, x = word 2348810368 fs := ⟨_, rfl⟩
  have hw : encode (.vstl a b t m) = x := by rw [hx, hf, word_low]; rfl
  have h0 : x / 64 % 1024 ≠ 0 := by rw [hx]; exact slice_ne 6 10 1 _ 1 ho (by rw [hp]; decide +kernel) (by decide) (by
      decide +kernel)
  have h1 : x / 64 % 1024 ≠ 1 := by rw [hx]; exact slice_ne 6 10 0 _ 0 ho (by rw [hp]; decide +kernel) (by decide) (by
      decide +kernel)
  have h2 : x / 64 % 32 = 2 := by rw [hx]; exact const_eq 6 5 _ ho (by rw [hp]; decide +kernel)
  have h3 : x / 2097152 % 16 = 0 := by rw [hx]; exact const_eq 21 4 _ ho (by rw [hp]; decide +kernel)
  have f0 : fld x 16 5 = a := by rw [hx]; exact fld_eq (field_eq ⟨16, 5, a⟩ 3 ho (by rw [hf]; rfl))
  have f1 : fld x 11 5 = b := by rw [hx]; exact fld_eq (field_eq ⟨11, 5, b⟩ 2 ho (by rw [hf]; rfl))
  have f2 : fld x 3 3 = t := by rw [hx]; exact fld_eq (field_eq ⟨3, 3, t⟩ 1 ho (by rw [hf]; rfl))
  have f3 : fld x 0 3 = m := by rw [hx]; exact fld_eq (field_eq ⟨0, 3, m⟩ 0 ho (by rw [hf]; rfl))
  have hm : x / 33554432 % 128 = 70 := by rw [hx]; exact const_eq 25 7 _ ho (by rw [hp]; decide +kernel)
  clear hx ho hp hf fs
  rw [hw, parse_lane hm]
  simp [parseLane, h0, h1, h2, h3, f0, f1, f2, f3]

theorem vstlx (a b : Fin 32) (t m : Fin 8) : Statement (.vstlx a b t m) := by
  refine core rfl ?_
  obtain ⟨fs, hf⟩ : ∃ fs : List Field, fs = [⟨0, 3, m⟩, ⟨3, 3, t⟩, ⟨11, 5, b⟩, ⟨16, 5, a⟩] := ⟨_, rfl⟩
  have hp : places fs = [(0, 3), (3, 3), (11, 5), (16, 5)] := by rw [hf]; rfl
  have ho : ok 2348810432 fs = true := sound_ok _ _ (by rw [hp]; decide +kernel)
  obtain ⟨x, hx⟩ : ∃ x, x = word 2348810432 fs := ⟨_, rfl⟩
  have hw : encode (.vstlx a b t m) = x := by rw [hx, hf, word_low]; rfl
  have h0 : x / 64 % 1024 ≠ 0 := by rw [hx]; exact slice_ne 6 10 0 _ 1 ho (by rw [hp]; decide +kernel) (by decide) (by
      decide +kernel)
  have h1 : x / 64 % 1024 ≠ 1 := by rw [hx]; exact slice_ne 6 10 1 _ 1 ho (by rw [hp]; decide +kernel) (by decide) (by
      decide +kernel)
  have h2 : x / 64 % 32 = 3 := by rw [hx]; exact const_eq 6 5 _ ho (by rw [hp]; decide +kernel)
  have h3 : x / 2097152 % 16 = 0 := by rw [hx]; exact const_eq 21 4 _ ho (by rw [hp]; decide +kernel)
  have f0 : fld x 16 5 = a := by rw [hx]; exact fld_eq (field_eq ⟨16, 5, a⟩ 3 ho (by rw [hf]; rfl))
  have f1 : fld x 11 5 = b := by rw [hx]; exact fld_eq (field_eq ⟨11, 5, b⟩ 2 ho (by rw [hf]; rfl))
  have f2 : fld x 3 3 = t := by rw [hx]; exact fld_eq (field_eq ⟨3, 3, t⟩ 1 ho (by rw [hf]; rfl))
  have f3 : fld x 0 3 = m := by rw [hx]; exact fld_eq (field_eq ⟨0, 3, m⟩ 0 ho (by rw [hf]; rfl))
  have hm : x / 33554432 % 128 = 70 := by rw [hx]; exact const_eq 25 7 _ ho (by rw [hp]; decide +kernel)
  clear hx ho hp hf fs
  rw [hw, parse_lane hm]
  simp [parseLane, h0, h1, h2, h3, f0, f1, f2, f3]

theorem tcfg (n : Fin 64) (a b : Fin 32) : Statement (.tcfg n a b) := by
  refine core rfl ?_
  obtain ⟨fs, hf⟩ : ∃ fs : List Field, fs = [⟨9, 5, b⟩, ⟨14, 5, a⟩, ⟨19, 6, n⟩] := ⟨_, rfl⟩
  have hp : places fs = [(9, 5), (14, 5), (19, 6)] := by rw [hf]; rfl
  have ho : ok 2684354560 fs = true := sound_ok _ _ (by rw [hp]; decide +kernel)
  obtain ⟨x, hx⟩ : ∃ x, x = word 2684354560 fs := ⟨_, rfl⟩
  have hw : encode (.tcfg n a b) = x := by rw [hx, hf]; rfl
  have h0 : x % 512 = 0 := by rw [hx]; exact low_eq 9 _ ho (by rw [hp]; decide +kernel)
  have f0 : fld x 19 6 = n := by rw [hx]; exact fld_eq (field_eq ⟨19, 6, n⟩ 2 ho (by rw [hf]; rfl))
  have f1 : fld x 14 5 = a := by rw [hx]; exact fld_eq (field_eq ⟨14, 5, a⟩ 1 ho (by rw [hf]; rfl))
  have f2 : fld x 9 5 = b := by rw [hx]; exact fld_eq (field_eq ⟨9, 5, b⟩ 0 ho (by rw [hf]; rfl))
  have hm : x / 33554432 % 128 = 80 := by rw [hx]; exact const_eq 25 7 _ ho (by rw [hp]; decide +kernel)
  clear hx ho hp hf fs
  rw [hw, parse_tile hm]
  simp [parseTile, h0, f0, f1, f2]

theorem tld (n : Fin 64) (a b : Fin 32) : Statement (.tld n a b) := by
  refine core rfl ?_
  obtain ⟨fs, hf⟩ : ∃ fs : List Field, fs = [⟨9, 5, b⟩, ⟨14, 5, a⟩, ⟨19, 6, n⟩] := ⟨_, rfl⟩
  have hp : places fs = [(9, 5), (14, 5), (19, 6)] := by rw [hf]; rfl
  have ho : ok 2684354592 fs = true := sound_ok _ _ (by rw [hp]; decide +kernel)
  obtain ⟨x, hx⟩ : ∃ x, x = word 2684354592 fs := ⟨_, rfl⟩
  have hw : encode (.tld n a b) = x := by rw [hx, hf]; rfl
  have h0 : x % 512 = 32 := by rw [hx]; exact low_eq 9 _ ho (by rw [hp]; decide +kernel)
  have f0 : fld x 19 6 = n := by rw [hx]; exact fld_eq (field_eq ⟨19, 6, n⟩ 2 ho (by rw [hf]; rfl))
  have f1 : fld x 14 5 = a := by rw [hx]; exact fld_eq (field_eq ⟨14, 5, a⟩ 1 ho (by rw [hf]; rfl))
  have f2 : fld x 9 5 = b := by rw [hx]; exact fld_eq (field_eq ⟨9, 5, b⟩ 0 ho (by rw [hf]; rfl))
  have hm : x / 33554432 % 128 = 80 := by rw [hx]; exact const_eq 25 7 _ ho (by rw [hp]; decide +kernel)
  clear hx ho hp hf fs
  rw [hw, parse_tile hm]
  simp [parseTile, h0, f0, f1, f2]

theorem tst (n : Fin 64) (a b : Fin 32) : Statement (.tst n a b) := by
  refine core rfl ?_
  obtain ⟨fs, hf⟩ : ∃ fs : List Field, fs = [⟨9, 5, b⟩, ⟨14, 5, a⟩, ⟨19, 6, n⟩] := ⟨_, rfl⟩
  have hp : places fs = [(9, 5), (14, 5), (19, 6)] := by rw [hf]; rfl
  have ho : ok 2684354624 fs = true := sound_ok _ _ (by rw [hp]; decide +kernel)
  obtain ⟨x, hx⟩ : ∃ x, x = word 2684354624 fs := ⟨_, rfl⟩
  have hw : encode (.tst n a b) = x := by rw [hx, hf]; rfl
  have h0 : x % 512 = 64 := by rw [hx]; exact low_eq 9 _ ho (by rw [hp]; decide +kernel)
  have f0 : fld x 19 6 = n := by rw [hx]; exact fld_eq (field_eq ⟨19, 6, n⟩ 2 ho (by rw [hf]; rfl))
  have f1 : fld x 14 5 = a := by rw [hx]; exact fld_eq (field_eq ⟨14, 5, a⟩ 1 ho (by rw [hf]; rfl))
  have f2 : fld x 9 5 = b := by rw [hx]; exact fld_eq (field_eq ⟨9, 5, b⟩ 0 ho (by rw [hf]; rfl))
  have hm : x / 33554432 % 128 = 80 := by rw [hx]; exact const_eq 25 7 _ ho (by rw [hp]; decide +kernel)
  clear hx ho hp hf fs
  rw [hw, parse_tile hm]
  simp [parseTile, h0, f0, f1, f2]

theorem tfetch (n : Fin 64) : Statement (.tfetch n) := by
  refine core rfl ?_
  obtain ⟨fs, hf⟩ : ∃ fs : List Field, fs = [⟨19, 6, n⟩] := ⟨_, rfl⟩
  have hp : places fs = [(19, 6)] := by rw [hf]; rfl
  have ho : ok 2684354656 fs = true := sound_ok _ _ (by rw [hp]; decide +kernel)
  obtain ⟨x, hx⟩ : ∃ x, x = word 2684354656 fs := ⟨_, rfl⟩
  have hw : encode (.tfetch n) = x := by rw [hx, hf]; rfl
  have h0 : x % 512 = 96 := by rw [hx]; exact low_eq 9 _ ho (by rw [hp]; decide +kernel)
  have h1 : x % 524288 = 96 := by rw [hx]; exact low_eq 19 _ ho (by rw [hp]; decide +kernel)
  have f0 : fld x 19 6 = n := by rw [hx]; exact fld_eq (field_eq ⟨19, 6, n⟩ 0 ho (by rw [hf]; rfl))
  have hm : x / 33554432 % 128 = 80 := by rw [hx]; exact const_eq 25 7 _ ho (by rw [hp]; decide +kernel)
  clear hx ho hp hf fs
  rw [hw, parse_tile hm]
  simp [parseTile, h0, h1, f0]

theorem tevict (n : Fin 64) : Statement (.tevict n) := by
  refine core rfl ?_
  obtain ⟨fs, hf⟩ : ∃ fs : List Field, fs = [⟨19, 6, n⟩] := ⟨_, rfl⟩
  have hp : places fs = [(19, 6)] := by rw [hf]; rfl
  have ho : ok 2684354688 fs = true := sound_ok _ _ (by rw [hp]; decide +kernel)
  obtain ⟨x, hx⟩ : ∃ x, x = word 2684354688 fs := ⟨_, rfl⟩
  have hw : encode (.tevict n) = x := by rw [hx, hf]; rfl
  have h0 : x % 512 = 128 := by rw [hx]; exact low_eq 9 _ ho (by rw [hp]; decide +kernel)
  have h1 : x % 524288 = 128 := by rw [hx]; exact low_eq 19 _ ho (by rw [hp]; decide +kernel)
  have f0 : fld x 19 6 = n := by rw [hx]; exact fld_eq (field_eq ⟨19, 6, n⟩ 0 ho (by rw [hf]; rfl))
  have hm : x / 33554432 % 128 = 80 := by rw [hx]; exact const_eq 25 7 _ ho (by rw [hp]; decide +kernel)
  clear hx ho hp hf fs
  rw [hw, parse_tile hm]
  simp [parseTile, h0, h1, f0]

theorem tzero (n : Fin 64) : Statement (.tzero n) := by
  refine core rfl ?_
  obtain ⟨fs, hf⟩ : ∃ fs : List Field, fs = [⟨19, 6, n⟩] := ⟨_, rfl⟩
  have hp : places fs = [(19, 6)] := by rw [hf]; rfl
  have ho : ok 2684354720 fs = true := sound_ok _ _ (by rw [hp]; decide +kernel)
  obtain ⟨x, hx⟩ : ∃ x, x = word 2684354720 fs := ⟨_, rfl⟩
  have hw : encode (.tzero n) = x := by rw [hx, hf]; rfl
  have h0 : x % 512 = 160 := by rw [hx]; exact low_eq 9 _ ho (by rw [hp]; decide +kernel)
  have h1 : x % 524288 = 160 := by rw [hx]; exact low_eq 19 _ ho (by rw [hp]; decide +kernel)
  have f0 : fld x 19 6 = n := by rw [hx]; exact fld_eq (field_eq ⟨19, 6, n⟩ 0 ho (by rw [hf]; rfl))
  have hm : x / 33554432 % 128 = 80 := by rw [hx]; exact const_eq 25 7 _ ho (by rw [hp]; decide +kernel)
  clear hx ho hp hf fs
  rw [hw, parse_tile hm]
  simp [parseTile, h0, h1, f0]

theorem tstat (n : Fin 64) (s : Fin 32) : Statement (.tstat n s) := by
  refine core rfl ?_
  obtain ⟨fs, hf⟩ : ∃ fs : List Field, fs = [⟨14, 5, s⟩, ⟨19, 6, n⟩] := ⟨_, rfl⟩
  have hp : places fs = [(14, 5), (19, 6)] := by rw [hf]; rfl
  have ho : ok 2684354752 fs = true := sound_ok _ _ (by rw [hp]; decide +kernel)
  obtain ⟨x, hx⟩ : ∃ x, x = word 2684354752 fs := ⟨_, rfl⟩
  have hw : encode (.tstat n s) = x := by rw [hx, hf]; rfl
  have h0 : x % 512 = 192 := by rw [hx]; exact low_eq 9 _ ho (by rw [hp]; decide +kernel)
  have h1 : x % 524288 ≠ 96 := by rw [hx]; exact low_ne 19 5 _ 0 ho (by rw [hp]; decide +kernel) (by decide) (by decide +kernel)
  have h2 : x % 524288 ≠ 128 := by rw [hx]; exact low_ne 19 6 _ 1 ho (by rw [hp]; decide +kernel) (by decide) (by
      decide +kernel)
  have h3 : x % 524288 ≠ 160 := by rw [hx]; exact low_ne 19 5 _ 0 ho (by rw [hp]; decide +kernel) (by decide) (by
      decide +kernel)
  have h4 : x % 16384 = 192 := by rw [hx]; exact low_eq 14 _ ho (by rw [hp]; decide +kernel)
  have f0 : fld x 19 6 = n := by rw [hx]; exact fld_eq (field_eq ⟨19, 6, n⟩ 1 ho (by rw [hf]; rfl))
  have f1 : fld x 14 5 = s := by rw [hx]; exact fld_eq (field_eq ⟨14, 5, s⟩ 0 ho (by rw [hf]; rfl))
  have hm : x / 33554432 % 128 = 80 := by rw [hx]; exact const_eq 25 7 _ ho (by rw [hp]; decide +kernel)
  clear hx ho hp hf fs
  rw [hw, parse_tile hm]
  simp [parseTile, h0, h1, h2, h3, h4, f0, f1]

theorem tpin (n : Fin 64) : Statement (.tpin n) := by
  refine core rfl ?_
  obtain ⟨fs, hf⟩ : ∃ fs : List Field, fs = [⟨19, 6, n⟩] := ⟨_, rfl⟩
  have hp : places fs = [(19, 6)] := by rw [hf]; rfl
  have ho : ok 2684354784 fs = true := sound_ok _ _ (by rw [hp]; decide +kernel)
  obtain ⟨x, hx⟩ : ∃ x, x = word 2684354784 fs := ⟨_, rfl⟩
  have hw : encode (.tpin n) = x := by rw [hx, hf]; rfl
  have h0 : x % 512 = 224 := by rw [hx]; exact low_eq 9 _ ho (by rw [hp]; decide +kernel)
  have h1 : x % 524288 = 224 := by rw [hx]; exact low_eq 19 _ ho (by rw [hp]; decide +kernel)
  have h2 : x % 16384 = 224 := by rw [hx]; exact low_eq 14 _ ho (by rw [hp]; decide +kernel)
  have f0 : fld x 19 6 = n := by rw [hx]; exact fld_eq (field_eq ⟨19, 6, n⟩ 0 ho (by rw [hf]; rfl))
  have hm : x / 33554432 % 128 = 80 := by rw [hx]; exact const_eq 25 7 _ ho (by rw [hp]; decide +kernel)
  clear hx ho hp hf fs
  rw [hw, parse_tile hm]
  simp [parseTile, h0, h1, h2, f0]

theorem tunpin (n : Fin 64) : Statement (.tunpin n) := by
  refine core rfl ?_
  obtain ⟨fs, hf⟩ : ∃ fs : List Field, fs = [⟨19, 6, n⟩] := ⟨_, rfl⟩
  have hp : places fs = [(19, 6)] := by rw [hf]; rfl
  have ho : ok 2684354816 fs = true := sound_ok _ _ (by rw [hp]; decide +kernel)
  obtain ⟨x, hx⟩ : ∃ x, x = word 2684354816 fs := ⟨_, rfl⟩
  have hw : encode (.tunpin n) = x := by rw [hx, hf]; rfl
  have h0 : x % 512 = 256 := by rw [hx]; exact low_eq 9 _ ho (by rw [hp]; decide +kernel)
  have h1 : x % 524288 = 256 := by rw [hx]; exact low_eq 19 _ ho (by rw [hp]; decide +kernel)
  have h2 : x % 16384 = 256 := by rw [hx]; exact low_eq 14 _ ho (by rw [hp]; decide +kernel)
  have f0 : fld x 19 6 = n := by rw [hx]; exact fld_eq (field_eq ⟨19, 6, n⟩ 0 ho (by rw [hf]; rfl))
  have hm : x / 33554432 % 128 = 80 := by rw [hx]; exact const_eq 25 7 _ ho (by rw [hp]; decide +kernel)
  clear hx ho hp hf fs
  rw [hw, parse_tile hm]
  simp [parseTile, h0, h1, h2, f0]

theorem mwld (u : Fin 16) : Statement (.mwld u) := by
  refine core rfl ?_
  obtain ⟨fs, hf⟩ : ∃ fs : List Field, fs = [⟨13, 4, u⟩] := ⟨_, rfl⟩
  have hp : places fs = [(13, 4)] := by rw [hf]; rfl
  have ho : ok 2717908992 fs = true := sound_ok _ _ (by rw [hp]; decide +kernel)
  obtain ⟨x, hx⟩ : ∃ x, x = word 2717908992 fs := ⟨_, rfl⟩
  have hw : encode (.mwld u) = x := by rw [hx, hf]; rfl
  have h0 : x % 8192 = 0 := by rw [hx]; exact low_eq 13 _ ho (by rw [hp]; decide +kernel)
  have h1 : x / 131072 % 256 = 0 := by rw [hx]; exact const_eq 17 8 _ ho (by rw [hp]; decide +kernel)
  have f0 : fld x 13 4 = u := by rw [hx]; exact fld_eq (field_eq ⟨13, 4, u⟩ 0 ho (by rw [hf]; rfl))
  have hm : x / 33554432 % 128 = 81 := by rw [hx]; exact const_eq 25 7 _ ho (by rw [hp]; decide +kernel)
  clear hx ho hp hf fs
  rw [hw, parse_matrix hm]
  simp [parseMatrix, h0, h1, f0]

theorem mwldSp (u : Fin 16) : Statement (.mwldSp u) := by
  refine core rfl ?_
  obtain ⟨fs, hf⟩ : ∃ fs : List Field, fs = [⟨13, 4, u⟩] := ⟨_, rfl⟩
  have hp : places fs = [(13, 4)] := by rw [hf]; rfl
  have ho : ok 2717909008 fs = true := sound_ok _ _ (by rw [hp]; decide +kernel)
  obtain ⟨x, hx⟩ : ∃ x, x = word 2717909008 fs := ⟨_, rfl⟩
  have hw : encode (.mwldSp u) = x := by rw [hx, hf]; rfl
  have h0 : x % 8192 = 16 := by rw [hx]; exact low_eq 13 _ ho (by rw [hp]; decide +kernel)
  have h1 : x / 131072 % 256 = 0 := by rw [hx]; exact const_eq 17 8 _ ho (by rw [hp]; decide +kernel)
  have f0 : fld x 13 4 = u := by rw [hx]; exact fld_eq (field_eq ⟨13, 4, u⟩ 0 ho (by rw [hf]; rfl))
  have hm : x / 33554432 % 128 = 81 := by rw [hx]; exact const_eq 25 7 _ ho (by rw [hp]; decide +kernel)
  clear hx ho hp hf fs
  rw [hw, parse_matrix hm]
  simp [parseMatrix, h0, h1, f0]

theorem mmeta (s a : Fin 32) : Statement (.mmeta s a) := by
  refine core rfl ?_
  obtain ⟨fs, hf⟩ : ∃ fs : List Field, fs = [⟨8, 5, a⟩, ⟨20, 5, s⟩] := ⟨_, rfl⟩
  have hp : places fs = [(8, 5), (20, 5)] := by rw [hf]; rfl
  have ho : ok 2717909024 fs = true := sound_ok _ _ (by rw [hp]; decide +kernel)
  obtain ⟨x, hx⟩ : ∃ x, x = word 2717909024 fs := ⟨_, rfl⟩
  have hw : encode (.mmeta s a) = x := by rw [hx, hf]; rfl
  have h0 : x % 8192 ≠ 0 := by rw [hx]; exact low_ne 13 5 _ 1 ho (by rw [hp]; decide +kernel) (by decide) (by decide +kernel)
  have h1 : x % 8192 ≠ 16 := by rw [hx]; exact low_ne 13 4 _ 0 ho (by rw [hp]; decide +kernel) (by decide) (by decide +kernel)
  have h2 : x % 256 = 32 := by rw [hx]; exact low_eq 8 _ ho (by rw [hp]; decide +kernel)
  have h3 : x / 8192 % 128 = 0 := by rw [hx]; exact const_eq 13 7 _ ho (by rw [hp]; decide +kernel)
  have f0 : fld x 20 5 = s := by rw [hx]; exact fld_eq (field_eq ⟨20, 5, s⟩ 1 ho (by rw [hf]; rfl))
  have f1 : fld x 8 5 = a := by rw [hx]; exact fld_eq (field_eq ⟨8, 5, a⟩ 0 ho (by rw [hf]; rfl))
  have hm : x / 33554432 % 128 = 81 := by rw [hx]; exact const_eq 25 7 _ ho (by rw [hp]; decide +kernel)
  clear hx ho hp hf fs
  rw [hw, parse_matrix hm]
  simp [parseMatrix, h0, h1, h2, h3, f0, f1]

theorem mmul (t : Fin 16) (c : Fin 2) : Statement (.mmul t c) := by
  refine core rfl ?_
  obtain ⟨fs, hf⟩ : ∃ fs : List Field, fs = [⟨0, 1, c⟩, ⟨17, 4, t⟩] := ⟨_, rfl⟩
  have hp : places fs = [(0, 1), (17, 4)] := by rw [hf]; rfl
  have ho : ok 2717909040 fs = true := sound_ok _ _ (by rw [hp]; decide +kernel)
  obtain ⟨x, hx⟩ : ∃ x, x = word 2717909040 fs := ⟨_, rfl⟩
  have hw : encode (.mmul t c) = x := by rw [hx, hf, word_low]; rfl
  have h0 : x % 8192 ≠ 0 := by rw [hx]; exact low_ne 13 4 _ 1 ho (by rw [hp]; decide +kernel) (by decide) (by decide +kernel)
  have h1 : x % 8192 ≠ 16 := by rw [hx]; exact low_ne 13 5 _ 1 ho (by rw [hp]; decide +kernel) (by decide) (by decide +kernel)
  have h2 : x % 256 ≠ 32 := by rw [hx]; exact low_ne 8 4 _ 1 ho (by rw [hp]; decide +kernel) (by decide) (by decide +kernel)
  have h3 : x / 2 % 65536 = 24 := by rw [hx]; exact const_eq 1 16 _ ho (by rw [hp]; decide +kernel)
  have h4 : x / 2097152 % 16 = 0 := by rw [hx]; exact const_eq 21 4 _ ho (by rw [hp]; decide +kernel)
  have f0 : fld x 17 4 = t := by rw [hx]; exact fld_eq (field_eq ⟨17, 4, t⟩ 1 ho (by rw [hf]; rfl))
  have f1 : fld x 0 1 = c := by rw [hx]; exact fld_eq (field_eq ⟨0, 1, c⟩ 0 ho (by rw [hf]; rfl))
  have hm : x / 33554432 % 128 = 81 := by rw [hx]; exact const_eq 25 7 _ ho (by rw [hp]; decide +kernel)
  clear hx ho hp hf fs
  rw [hw, parse_matrix hm]
  simp [parseMatrix, h0, h1, h2, h3, h4, f0, f1]

theorem mmulSc (t u : Fin 16) (a : Fin 32) (c : Fin 2) : Statement (.mmulSc t u a c) := by
  refine core rfl ?_
  obtain ⟨fs, hf⟩ : ∃ fs : List Field, fs = [⟨0, 1, c⟩, ⟨8, 5, a⟩, ⟨13, 4, u⟩, ⟨17, 4, t⟩] := ⟨_, rfl⟩
  have hp : places fs = [(0, 1), (8, 5), (13, 4), (17, 4)] := by rw [hf]; rfl
  have ho : ok 2717909056 fs = true := sound_ok _ _ (by rw [hp]; decide +kernel)
  obtain ⟨x, hx⟩ : ∃ x, x = word 2717909056 fs := ⟨_, rfl⟩
  have hw : encode (.mmulSc t u a c) = x := by rw [hx, hf, word_low]; rfl
  have h0 : x % 8192 ≠ 0 := by rw [hx]; exact low_ne 13 6 _ 1 ho (by rw [hp]; decide +kernel) (by decide) (by decide +kernel)
  have h1 : x % 8192 ≠ 16 := by rw [hx]; exact low_ne 13 4 _ 0 ho (by rw [hp]; decide +kernel) (by decide) (by decide +kernel)
  have h2 : x % 256 ≠ 32 := by rw [hx]; exact low_ne 8 5 _ 0 ho (by rw [hp]; decide +kernel) (by decide) (by decide +kernel)
  have h3 : x / 2 % 65536 ≠ 24 := by rw [hx]; exact slice_ne 1 16 3 _ 0 ho (by rw [hp]; decide +kernel) (by decide) (by
      decide +kernel)
  have h4 : x / 2 % 128 = 32 := by rw [hx]; exact const_eq 1 7 _ ho (by rw [hp]; decide +kernel)
  have h5 : x / 2097152 % 16 = 0 := by rw [hx]; exact const_eq 21 4 _ ho (by rw [hp]; decide +kernel)
  have f0 : fld x 17 4 = t := by rw [hx]; exact fld_eq (field_eq ⟨17, 4, t⟩ 3 ho (by rw [hf]; rfl))
  have f1 : fld x 13 4 = u := by rw [hx]; exact fld_eq (field_eq ⟨13, 4, u⟩ 2 ho (by rw [hf]; rfl))
  have f2 : fld x 8 5 = a := by rw [hx]; exact fld_eq (field_eq ⟨8, 5, a⟩ 1 ho (by rw [hf]; rfl))
  have f3 : fld x 0 1 = c := by rw [hx]; exact fld_eq (field_eq ⟨0, 1, c⟩ 0 ho (by rw [hf]; rfl))
  have hm : x / 33554432 % 128 = 81 := by rw [hx]; exact const_eq 25 7 _ ho (by rw [hp]; decide +kernel)
  clear hx ho hp hf fs
  rw [hw, parse_matrix hm]
  simp [parseMatrix, h0, h1, h2, h3, h4, h5, f0, f1, f2, f3]

theorem mwsc (a : Fin 32) : Statement (.mwsc a) := by
  refine core rfl ?_
  obtain ⟨fs, hf⟩ : ∃ fs : List Field, fs = [⟨8, 5, a⟩] := ⟨_, rfl⟩
  have hp : places fs = [(8, 5)] := by rw [hf]; rfl
  have ho : ok 2717909072 fs = true := sound_ok _ _ (by rw [hp]; decide +kernel)
  obtain ⟨x, hx⟩ : ∃ x, x = word 2717909072 fs := ⟨_, rfl⟩
  have hw : encode (.mwsc a) = x := by rw [hx, hf]; rfl
  have h0 : x % 8192 ≠ 0 := by rw [hx]; exact low_ne 13 4 _ 1 ho (by rw [hp]; decide +kernel) (by decide) (by decide +kernel)
  have h1 : x % 8192 ≠ 16 := by rw [hx]; exact low_ne 13 6 _ 1 ho (by rw [hp]; decide +kernel) (by decide) (by decide +kernel)
  have h2 : x % 256 = 80 := by rw [hx]; exact low_eq 8 _ ho (by rw [hp]; decide +kernel)
  have h3 : x / 2 % 65536 ≠ 24 := by rw [hx]; exact slice_ne 1 16 4 _ 0 ho (by rw [hp]; decide +kernel) (by decide) (by
      decide +kernel)
  have h4 : x / 2 % 128 = 40 := by rw [hx]; exact const_eq 1 7 _ ho (by rw [hp]; decide +kernel)
  have h5 : x / 8192 % 4096 = 0 := by rw [hx]; exact const_eq 13 12 _ ho (by rw [hp]; decide +kernel)
  have f0 : fld x 8 5 = a := by rw [hx]; exact fld_eq (field_eq ⟨8, 5, a⟩ 0 ho (by rw [hf]; rfl))
  have hm : x / 33554432 % 128 = 81 := by rw [hx]; exact const_eq 25 7 _ ho (by rw [hp]; decide +kernel)
  clear hx ho hp hf fs
  rw [hw, parse_matrix hm]
  simp [parseMatrix, h0, h1, h2, h3, h4, h5, f0]

theorem mst (d : Fin 16) : Statement (.mst d) := by
  refine core rfl ?_
  obtain ⟨fs, hf⟩ : ∃ fs : List Field, fs = [⟨21, 4, d⟩] := ⟨_, rfl⟩
  have hp : places fs = [(21, 4)] := by rw [hf]; rfl
  have ho : ok 2717909088 fs = true := sound_ok _ _ (by rw [hp]; decide +kernel)
  obtain ⟨x, hx⟩ : ∃ x, x = word 2717909088 fs := ⟨_, rfl⟩
  have hw : encode (.mst d) = x := by rw [hx, hf]; rfl
  have h0 : x % 8192 = 96 := by rw [hx]; exact low_eq 13 _ ho (by rw [hp]; decide +kernel)
  have h1 : x % 256 = 96 := by rw [hx]; exact low_eq 8 _ ho (by rw [hp]; decide +kernel)
  have h2 : x / 2 % 65536 = 48 := by rw [hx]; exact const_eq 1 16 _ ho (by rw [hp]; decide +kernel)
  have h3 : x / 2 % 128 = 48 := by rw [hx]; exact const_eq 1 7 _ ho (by rw [hp]; decide +kernel)
  have h4 : x % 2097152 = 96 := by rw [hx]; exact low_eq 21 _ ho (by rw [hp]; decide +kernel)
  have f0 : fld x 21 4 = d := by rw [hx]; exact fld_eq (field_eq ⟨21, 4, d⟩ 0 ho (by rw [hf]; rfl))
  have hm : x / 33554432 % 128 = 81 := by rw [hx]; exact const_eq 25 7 _ ho (by rw [hp]; decide +kernel)
  clear hx ho hp hf fs
  rw [hw, parse_matrix hm]
  simp [parseMatrix, h0, h1, h2, h3, h4, f0]

theorem mld (t : Fin 16) : Statement (.mld t) := by
  refine core rfl ?_
  obtain ⟨fs, hf⟩ : ∃ fs : List Field, fs = [⟨17, 4, t⟩] := ⟨_, rfl⟩
  have hp : places fs = [(17, 4)] := by rw [hf]; rfl
  have ho : ok 2717909104 fs = true := sound_ok _ _ (by rw [hp]; decide +kernel)
  obtain ⟨x, hx⟩ : ∃ x, x = word 2717909104 fs := ⟨_, rfl⟩
  have hw : encode (.mld t) = x := by rw [hx, hf]; rfl
  have h0 : x % 8192 = 112 := by rw [hx]; exact low_eq 13 _ ho (by rw [hp]; decide +kernel)
  have h1 : x % 256 = 112 := by rw [hx]; exact low_eq 8 _ ho (by rw [hp]; decide +kernel)
  have h2 : x / 2 % 65536 = 56 := by rw [hx]; exact const_eq 1 16 _ ho (by rw [hp]; decide +kernel)
  have h3 : x / 2 % 128 = 56 := by rw [hx]; exact const_eq 1 7 _ ho (by rw [hp]; decide +kernel)
  have h4 : x % 2097152 ≠ 96 := by rw [hx]; exact low_ne 21 4 _ 1 ho (by rw [hp]; decide +kernel) (by decide) (by
      decide +kernel)
  have h5 : x % 131072 = 112 := by rw [hx]; exact low_eq 17 _ ho (by rw [hp]; decide +kernel)
  have h6 : x / 2097152 % 16 = 0 := by rw [hx]; exact const_eq 21 4 _ ho (by rw [hp]; decide +kernel)
  have f0 : fld x 17 4 = t := by rw [hx]; exact fld_eq (field_eq ⟨17, 4, t⟩ 0 ho (by rw [hf]; rfl))
  have hm : x / 33554432 % 128 = 81 := by rw [hx]; exact const_eq 25 7 _ ho (by rw [hp]; decide +kernel)
  clear hx ho hp hf fs
  rw [hw, parse_matrix hm]
  simp [parseMatrix, h0, h1, h2, h3, h4, h5, h6, f0]

theorem mfence : Statement (.mfence) := by
  refine core rfl ?_
  obtain ⟨fs, hf⟩ : ∃ fs : List Field, fs = [] := ⟨_, rfl⟩
  have hp : places fs = [] := by rw [hf]; rfl
  have ho : ok 2717909120 fs = true := sound_ok _ _ (by rw [hp]; decide +kernel)
  obtain ⟨x, hx⟩ : ∃ x, x = word 2717909120 fs := ⟨_, rfl⟩
  have hw : encode (.mfence) = x := by rw [hx, hf]; rfl
  have h0 : x % 8192 = 128 := by rw [hx]; exact low_eq 13 _ ho (by rw [hp]; decide +kernel)
  have h1 : x % 256 = 128 := by rw [hx]; exact low_eq 8 _ ho (by rw [hp]; decide +kernel)
  have h2 : x / 2 % 65536 = 64 := by rw [hx]; exact const_eq 1 16 _ ho (by rw [hp]; decide +kernel)
  have h3 : x / 2 % 128 = 64 := by rw [hx]; exact const_eq 1 7 _ ho (by rw [hp]; decide +kernel)
  have h4 : x % 2097152 = 128 := by rw [hx]; exact low_eq 21 _ ho (by rw [hp]; decide +kernel)
  have h5 : x % 131072 = 128 := by rw [hx]; exact low_eq 17 _ ho (by rw [hp]; decide +kernel)
  have h6 : x % 33554432 = 128 := by rw [hx]; exact low_eq 25 _ ho (by rw [hp]; decide +kernel)
  have hm : x / 33554432 % 128 = 81 := by rw [hx]; exact const_eq 25 7 _ ho (by rw [hp]; decide +kernel)
  clear hx ho hp hf fs
  rw [hw, parse_matrix hm]
  simp [parseMatrix, h0, h1, h2, h3, h4, h5, h6]

theorem cpush (a b : Fin 32) (s : Fin 8) : Statement (.cpush a b s) := by
  refine core rfl ?_
  obtain ⟨fs, hf⟩ : ∃ fs : List Field, fs = [⟨0, 3, s⟩, ⟨11, 5, b⟩, ⟨16, 5, a⟩] := ⟨_, rfl⟩
  have hp : places fs = [(0, 3), (11, 5), (16, 5)] := by rw [hf]; rfl
  have ho : ok 2751463424 fs = true := sound_ok _ _ (by rw [hp]; decide +kernel)
  obtain ⟨x, hx⟩ : ∃ x, x = word 2751463424 fs := ⟨_, rfl⟩
  have hw : encode (.cpush a b s) = x := by rw [hx, hf, word_low]; rfl
  have h0 : x / 8 % 256 = 0 := by rw [hx]; exact const_eq 3 8 _ ho (by rw [hp]; decide +kernel)
  have h1 : x / 2097152 % 16 = 0 := by rw [hx]; exact const_eq 21 4 _ ho (by rw [hp]; decide +kernel)
  have f0 : fld x 16 5 = a := by rw [hx]; exact fld_eq (field_eq ⟨16, 5, a⟩ 2 ho (by rw [hf]; rfl))
  have f1 : fld x 11 5 = b := by rw [hx]; exact fld_eq (field_eq ⟨11, 5, b⟩ 1 ho (by rw [hf]; rfl))
  have f2 : fld x 0 3 = s := by rw [hx]; exact fld_eq (field_eq ⟨0, 3, s⟩ 0 ho (by rw [hf]; rfl))
  have hm : x / 33554432 % 128 = 82 := by rw [hx]; exact const_eq 25 7 _ ho (by rw [hp]; decide +kernel)
  clear hx ho hp hf fs
  rw [hw, parse_coalesce hm]
  simp [parseCoalesce, h0, h1, f0, f1, f2]

theorem cflush (s : Fin 8) : Statement (.cflush s) := by
  refine core rfl ?_
  obtain ⟨fs, hf⟩ : ∃ fs : List Field, fs = [⟨0, 3, s⟩] := ⟨_, rfl⟩
  have hp : places fs = [(0, 3)] := by rw [hf]; rfl
  have ho : ok 2751463488 fs = true := sound_ok _ _ (by rw [hp]; decide +kernel)
  obtain ⟨x, hx⟩ : ∃ x, x = word 2751463488 fs := ⟨_, rfl⟩
  have hw : encode (.cflush s) = x := by rw [hx, hf, word_low]; rfl
  have h0 : x / 8 % 256 = 8 := by rw [hx]; exact const_eq 3 8 _ ho (by rw [hp]; decide +kernel)
  have h1 : x / 8 % 4194304 = 8 := by rw [hx]; exact const_eq 3 22 _ ho (by rw [hp]; decide +kernel)
  have f0 : fld x 0 3 = s := by rw [hx]; exact fld_eq (field_eq ⟨0, 3, s⟩ 0 ho (by rw [hf]; rfl))
  have hm : x / 33554432 % 128 = 82 := by rw [hx]; exact const_eq 25 7 _ ho (by rw [hp]; decide +kernel)
  clear hx ho hp hf fs
  rw [hw, parse_coalesce hm]
  simp [parseCoalesce, h0, h1, f0]

theorem carm (a b : Fin 32) (s : Fin 8) : Statement (.carm a b s) := by
  refine core rfl ?_
  obtain ⟨fs, hf⟩ : ∃ fs : List Field, fs = [⟨0, 3, s⟩, ⟨11, 5, b⟩, ⟨16, 5, a⟩] := ⟨_, rfl⟩
  have hp : places fs = [(0, 3), (11, 5), (16, 5)] := by rw [hf]; rfl
  have ho : ok 2751463552 fs = true := sound_ok _ _ (by rw [hp]; decide +kernel)
  obtain ⟨x, hx⟩ : ∃ x, x = word 2751463552 fs := ⟨_, rfl⟩
  have hw : encode (.carm a b s) = x := by rw [hx, hf, word_low]; rfl
  have h0 : x / 8 % 256 = 16 := by rw [hx]; exact const_eq 3 8 _ ho (by rw [hp]; decide +kernel)
  have h1 : x / 8 % 4194304 ≠ 8 := by rw [hx]; exact slice_ne 3 22 3 _ 0 ho (by rw [hp]; decide +kernel) (by decide) (by
      decide +kernel)
  have h2 : x / 2097152 % 16 = 0 := by rw [hx]; exact const_eq 21 4 _ ho (by rw [hp]; decide +kernel)
  have f0 : fld x 16 5 = a := by rw [hx]; exact fld_eq (field_eq ⟨16, 5, a⟩ 2 ho (by rw [hf]; rfl))
  have f1 : fld x 11 5 = b := by rw [hx]; exact fld_eq (field_eq ⟨11, 5, b⟩ 1 ho (by rw [hf]; rfl))
  have f2 : fld x 0 3 = s := by rw [hx]; exact fld_eq (field_eq ⟨0, 3, s⟩ 0 ho (by rw [hf]; rfl))
  have hm : x / 33554432 % 128 = 82 := by rw [hx]; exact const_eq 25 7 _ ho (by rw [hp]; decide +kernel)
  clear hx ho hp hf fs
  rw [hw, parse_coalesce hm]
  simp [parseCoalesce, h0, h1, h2, f0, f1, f2]

theorem evpop (d : Fin 16) : Statement (.evpop d) := by
  refine core rfl ?_
  obtain ⟨fs, hf⟩ : ∃ fs : List Field, fs = [⟨21, 4, d⟩] := ⟨_, rfl⟩
  have hp : places fs = [(21, 4)] := by rw [hf]; rfl
  have ho : ok 2952790016 fs = true := sound_ok _ _ (by rw [hp]; decide +kernel)
  obtain ⟨x, hx⟩ : ∃ x, x = word 2952790016 fs := ⟨_, rfl⟩
  have hw : encode (.evpop d) = x := by rw [hx, hf]; rfl
  have h0 : x % 2097152 = 0 := by rw [hx]; exact low_eq 21 _ ho (by rw [hp]; decide +kernel)
  have f0 : fld x 21 4 = d := by rw [hx]; exact fld_eq (field_eq ⟨21, 4, d⟩ 0 ho (by rw [hf]; rfl))
  have hm : x / 33554432 % 128 = 88 := by rw [hx]; exact const_eq 25 7 _ ho (by rw [hp]; decide +kernel)
  clear hx ho hp hf fs
  rw [hw, parse_event hm]
  simp [parseEvent, h0, f0]

theorem evpay (d : Fin 16) : Statement (.evpay d) := by
  refine core rfl ?_
  obtain ⟨fs, hf⟩ : ∃ fs : List Field, fs = [⟨21, 4, d⟩] := ⟨_, rfl⟩
  have hp : places fs = [(21, 4)] := by rw [hf]; rfl
  have ho : ok 2952790080 fs = true := sound_ok _ _ (by rw [hp]; decide +kernel)
  obtain ⟨x, hx⟩ : ∃ x, x = word 2952790080 fs := ⟨_, rfl⟩
  have hw : encode (.evpay d) = x := by rw [hx, hf]; rfl
  have h0 : x % 2097152 = 64 := by rw [hx]; exact low_eq 21 _ ho (by rw [hp]; decide +kernel)
  have f0 : fld x 21 4 = d := by rw [hx]; exact fld_eq (field_eq ⟨21, 4, d⟩ 0 ho (by rw [hf]; rfl))
  have hm : x / 33554432 % 128 = 88 := by rw [hx]; exact const_eq 25 7 _ ho (by rw [hp]; decide +kernel)
  clear hx ho hp hf fs
  rw [hw, parse_event hm]
  simp [parseEvent, h0, f0]

theorem evsend (a b : Fin 32) (n : Fin 2) : Statement (.evsend a b n) := by
  refine core rfl ?_
  obtain ⟨fs, hf⟩ : ∃ fs : List Field, fs = [⟨0, 1, n⟩, ⟨11, 5, b⟩, ⟨16, 5, a⟩] := ⟨_, rfl⟩
  have hp : places fs = [(0, 1), (11, 5), (16, 5)] := by rw [hf]; rfl
  have ho : ok 2952790144 fs = true := sound_ok _ _ (by rw [hp]; decide +kernel)
  obtain ⟨x, hx⟩ : ∃ x, x = word 2952790144 fs := ⟨_, rfl⟩
  have hw : encode (.evsend a b n) = x := by rw [hx, hf, word_low]; rfl
  have h0 : x % 2097152 ≠ 0 := by rw [hx]; exact low_ne 21 7 _ 1 ho (by rw [hp]; decide +kernel) (by decide) (by decide +kernel)
  have h1 : x % 2097152 ≠ 64 := by rw [hx]; exact low_ne 21 6 _ 0 ho (by rw [hp]; decide +kernel) (by decide) (by
      decide +kernel)
  have h2 : x / 2 % 1024 = 64 := by rw [hx]; exact const_eq 1 10 _ ho (by rw [hp]; decide +kernel)
  have h3 : x / 2097152 % 16 = 0 := by rw [hx]; exact const_eq 21 4 _ ho (by rw [hp]; decide +kernel)
  have f0 : fld x 16 5 = a := by rw [hx]; exact fld_eq (field_eq ⟨16, 5, a⟩ 2 ho (by rw [hf]; rfl))
  have f1 : fld x 11 5 = b := by rw [hx]; exact fld_eq (field_eq ⟨11, 5, b⟩ 1 ho (by rw [hf]; rfl))
  have f2 : fld x 0 1 = n := by rw [hx]; exact fld_eq (field_eq ⟨0, 1, n⟩ 0 ho (by rw [hf]; rfl))
  have hm : x / 33554432 % 128 = 88 := by rw [hx]; exact const_eq 25 7 _ ho (by rw [hp]; decide +kernel)
  clear hx ho hp hf fs
  rw [hw, parse_event hm]
  simp [parseEvent, h0, h1, h2, h3, f0, f1, f2]

theorem evwinClose (a b : Fin 32) : Statement (.evwinClose a b) := by
  refine core rfl ?_
  obtain ⟨fs, hf⟩ : ∃ fs : List Field, fs = [⟨11, 5, b⟩, ⟨16, 5, a⟩] := ⟨_, rfl⟩
  have hp : places fs = [(11, 5), (16, 5)] := by rw [hf]; rfl
  have ho : ok 2952790208 fs = true := sound_ok _ _ (by rw [hp]; decide +kernel)
  obtain ⟨x, hx⟩ : ∃ x, x = word 2952790208 fs := ⟨_, rfl⟩
  have hw : encode (.evwinClose a b) = x := by rw [hx, hf]; rfl
  have h0 : x % 2097152 ≠ 0 := by rw [hx]; exact low_ne 21 6 _ 1 ho (by rw [hp]; decide +kernel) (by decide) (by decide +kernel)
  have h1 : x % 2097152 ≠ 64 := by rw [hx]; exact low_ne 21 7 _ 1 ho (by rw [hp]; decide +kernel) (by decide) (by
      decide +kernel)
  have h2 : x / 2 % 1024 = 96 := by rw [hx]; exact const_eq 1 10 _ ho (by rw [hp]; decide +kernel)
  have h3 : x % 2048 = 192 := by rw [hx]; exact low_eq 11 _ ho (by rw [hp]; decide +kernel)
  have h4 : x / 2097152 % 16 = 0 := by rw [hx]; exact const_eq 21 4 _ ho (by rw [hp]; decide +kernel)
  have f0 : fld x 16 5 = a := by rw [hx]; exact fld_eq (field_eq ⟨16, 5, a⟩ 1 ho (by rw [hf]; rfl))
  have f1 : fld x 11 5 = b := by rw [hx]; exact fld_eq (field_eq ⟨11, 5, b⟩ 0 ho (by rw [hf]; rfl))
  have hm : x / 33554432 % 128 = 88 := by rw [hx]; exact const_eq 25 7 _ ho (by rw [hp]; decide +kernel)
  clear hx ho hp hf fs
  rw [hw, parse_event hm]
  simp [parseEvent, h0, h1, h2, h3, h4, f0, f1]

theorem evwinOrigin (a b : Fin 32) : Statement (.evwinOrigin a b) := sharesWord rfl

theorem evwinSlots (a b : Fin 32) : Statement (.evwinSlots a b) := sharesWord rfl

theorem evstat (d : Fin 16) : Statement (.evstat d) := by
  refine core rfl ?_
  obtain ⟨fs, hf⟩ : ∃ fs : List Field, fs = [⟨21, 4, d⟩] := ⟨_, rfl⟩
  have hp : places fs = [(21, 4)] := by rw [hf]; rfl
  have ho : ok 2952790272 fs = true := sound_ok _ _ (by rw [hp]; decide +kernel)
  obtain ⟨x, hx⟩ : ∃ x, x = word 2952790272 fs := ⟨_, rfl⟩
  have hw : encode (.evstat d) = x := by rw [hx, hf]; rfl
  have h0 : x % 2097152 = 256 := by rw [hx]; exact low_eq 21 _ ho (by rw [hp]; decide +kernel)
  have h1 : x / 2 % 1024 = 128 := by rw [hx]; exact const_eq 1 10 _ ho (by rw [hp]; decide +kernel)
  have h2 : x % 2048 = 256 := by rw [hx]; exact low_eq 11 _ ho (by rw [hp]; decide +kernel)
  have f0 : fld x 21 4 = d := by rw [hx]; exact fld_eq (field_eq ⟨21, 4, d⟩ 0 ho (by rw [hf]; rfl))
  have hm : x / 33554432 % 128 = 88 := by rw [hx]; exact const_eq 25 7 _ ho (by rw [hp]; decide +kernel)
  clear hx ho hp hf fs
  rw [hw, parse_event hm]
  simp [parseEvent, h0, h1, h2, f0]

theorem spawn (a : Fin 32) : Statement (.spawn a) := by
  refine core rfl ?_
  obtain ⟨fs, hf⟩ : ∃ fs : List Field, fs = [⟨16, 5, a⟩] := ⟨_, rfl⟩
  have hp : places fs = [(16, 5)] := by rw [hf]; rfl
  have ho : ok 2986344448 fs = true := sound_ok _ _ (by rw [hp]; decide +kernel)
  obtain ⟨x, hx⟩ : ∃ x, x = word 2986344448 fs := ⟨_, rfl⟩
  have hw : encode (.spawn a) = x := by rw [hx, hf]; rfl
  have h0 : x % 65536 = 0 := by rw [hx]; exact low_eq 16 _ ho (by rw [hp]; decide +kernel)
  have h1 : x / 2097152 % 16 = 0 := by rw [hx]; exact const_eq 21 4 _ ho (by rw [hp]; decide +kernel)
  have f0 : fld x 16 5 = a := by rw [hx]; exact fld_eq (field_eq ⟨16, 5, a⟩ 0 ho (by rw [hf]; rfl))
  have hm : x / 33554432 % 128 = 89 := by rw [hx]; exact const_eq 25 7 _ ho (by rw [hp]; decide +kernel)
  clear hx ho hp hf fs
  rw [hw, parse_task hm]
  simp [parseTask, h0, h1, f0]

theorem dec (a : Fin 32) : Statement (.dec a) := by
  refine core rfl ?_
  obtain ⟨fs, hf⟩ : ∃ fs : List Field, fs = [⟨16, 5, a⟩] := ⟨_, rfl⟩
  have hp : places fs = [(16, 5)] := by rw [hf]; rfl
  have ho : ok 2986344512 fs = true := sound_ok _ _ (by rw [hp]; decide +kernel)
  obtain ⟨x, hx⟩ : ∃ x, x = word 2986344512 fs := ⟨_, rfl⟩
  have hw : encode (.dec a) = x := by rw [hx, hf]; rfl
  have h0 : x % 65536 = 64 := by rw [hx]; exact low_eq 16 _ ho (by rw [hp]; decide +kernel)
  have h1 : x / 2097152 % 16 = 0 := by rw [hx]; exact const_eq 21 4 _ ho (by rw [hp]; decide +kernel)
  have f0 : fld x 16 5 = a := by rw [hx]; exact fld_eq (field_eq ⟨16, 5, a⟩ 0 ho (by rw [hf]; rfl))
  have hm : x / 33554432 % 128 = 89 := by rw [hx]; exact const_eq 25 7 _ ho (by rw [hp]; decide +kernel)
  clear hx ho hp hf fs
  rw [hw, parse_task hm]
  simp [parseTask, h0, h1, f0]

theorem qpush (d : Fin 16) (a b : Fin 32) : Statement (.qpush d a b) := by
  refine core rfl ?_
  obtain ⟨fs, hf⟩ : ∃ fs : List Field, fs = [⟨11, 5, b⟩, ⟨16, 5, a⟩, ⟨21, 4, d⟩] := ⟨_, rfl⟩
  have hp : places fs = [(11, 5), (16, 5), (21, 4)] := by rw [hf]; rfl
  have ho : ok 2986344576 fs = true := sound_ok _ _ (by rw [hp]; decide +kernel)
  obtain ⟨x, hx⟩ : ∃ x, x = word 2986344576 fs := ⟨_, rfl⟩
  have hw : encode (.qpush d a b) = x := by rw [hx, hf]; rfl
  have h0 : x % 65536 ≠ 0 := by rw [hx]; exact low_ne 16 7 _ 1 ho (by rw [hp]; decide +kernel) (by decide) (by decide +kernel)
  have h1 : x % 65536 ≠ 64 := by rw [hx]; exact low_ne 16 6 _ 0 ho (by rw [hp]; decide +kernel) (by decide) (by decide +kernel)
  have h2 : x % 2048 = 128 := by rw [hx]; exact low_eq 11 _ ho (by rw [hp]; decide +kernel)
  have f0 : fld x 21 4 = d := by rw [hx]; exact fld_eq (field_eq ⟨21, 4, d⟩ 2 ho (by rw [hf]; rfl))
  have f1 : fld x 16 5 = a := by rw [hx]; exact fld_eq (field_eq ⟨16, 5, a⟩ 1 ho (by rw [hf]; rfl))
  have f2 : fld x 11 5 = b := by rw [hx]; exact fld_eq (field_eq ⟨11, 5, b⟩ 0 ho (by rw [hf]; rfl))
  have hm : x / 33554432 % 128 = 89 := by rw [hx]; exact const_eq 25 7 _ ho (by rw [hp]; decide +kernel)
  clear hx ho hp hf fs
  rw [hw, parse_task hm]
  simp [parseTask, h0, h1, h2, f0, f1, f2]

theorem qpop (d : Fin 16) (a : Fin 32) : Statement (.qpop d a) := by
  refine core rfl ?_
  obtain ⟨fs, hf⟩ : ∃ fs : List Field, fs = [⟨16, 5, a⟩, ⟨21, 4, d⟩] := ⟨_, rfl⟩
  have hp : places fs = [(16, 5), (21, 4)] := by rw [hf]; rfl
  have ho : ok 2986344640 fs = true := sound_ok _ _ (by rw [hp]; decide +kernel)
  obtain ⟨x, hx⟩ : ∃ x, x = word 2986344640 fs := ⟨_, rfl⟩
  have hw : encode (.qpop d a) = x := by rw [hx, hf]; rfl
  have h0 : x % 65536 = 192 := by rw [hx]; exact low_eq 16 _ ho (by rw [hp]; decide +kernel)
  have h1 : x % 2048 = 192 := by rw [hx]; exact low_eq 11 _ ho (by rw [hp]; decide +kernel)
  have f0 : fld x 21 4 = d := by rw [hx]; exact fld_eq (field_eq ⟨21, 4, d⟩ 1 ho (by rw [hf]; rfl))
  have f1 : fld x 16 5 = a := by rw [hx]; exact fld_eq (field_eq ⟨16, 5, a⟩ 0 ho (by rw [hf]; rfl))
  have hm : x / 33554432 % 128 = 89 := by rw [hx]; exact const_eq 25 7 _ ho (by rw [hp]; decide +kernel)
  clear hx ho hp hf fs
  rw [hw, parse_task hm]
  simp [parseTask, h0, h1, f0, f1]

theorem bar (d : Fin 16) (a b : Fin 32) : Statement (.bar d a b) := by
  refine core rfl ?_
  obtain ⟨fs, hf⟩ : ∃ fs : List Field, fs = [⟨11, 5, b⟩, ⟨16, 5, a⟩, ⟨21, 4, d⟩] := ⟨_, rfl⟩
  have hp : places fs = [(11, 5), (16, 5), (21, 4)] := by rw [hf]; rfl
  have ho : ok 2986344704 fs = true := sound_ok _ _ (by rw [hp]; decide +kernel)
  obtain ⟨x, hx⟩ : ∃ x, x = word 2986344704 fs := ⟨_, rfl⟩
  have hw : encode (.bar d a b) = x := by rw [hx, hf]; rfl
  have h0 : x % 65536 ≠ 0 := by rw [hx]; exact low_ne 16 8 _ 1 ho (by rw [hp]; decide +kernel) (by decide) (by decide +kernel)
  have h1 : x % 65536 ≠ 64 := by rw [hx]; exact low_ne 16 6 _ 0 ho (by rw [hp]; decide +kernel) (by decide) (by decide +kernel)
  have h2 : x % 2048 = 256 := by rw [hx]; exact low_eq 11 _ ho (by rw [hp]; decide +kernel)
  have h3 : x % 65536 ≠ 192 := by rw [hx]; exact low_ne 16 6 _ 0 ho (by rw [hp]; decide +kernel) (by decide) (by decide +kernel)
  have f0 : fld x 21 4 = d := by rw [hx]; exact fld_eq (field_eq ⟨21, 4, d⟩ 2 ho (by rw [hf]; rfl))
  have f1 : fld x 16 5 = a := by rw [hx]; exact fld_eq (field_eq ⟨16, 5, a⟩ 1 ho (by rw [hf]; rfl))
  have f2 : fld x 11 5 = b := by rw [hx]; exact fld_eq (field_eq ⟨11, 5, b⟩ 0 ho (by rw [hf]; rfl))
  have hm : x / 33554432 % 128 = 89 := by rw [hx]; exact const_eq 25 7 _ ho (by rw [hp]; decide +kernel)
  clear hx ho hp hf fs
  rw [hw, parse_task hm]
  simp [parseTask, h0, h1, h2, h3, f0, f1, f2]

theorem hntStall (g f e d c b a : Fin 8) : Statement (.hntStall g f e d c b a) := by
  refine core rfl ?_
  obtain ⟨fs, hf⟩ : ∃ fs : List Field, fs = [⟨0, 3, a⟩, ⟨3, 3, b⟩, ⟨6, 3, c⟩, ⟨9, 3, d⟩, ⟨12, 3, e⟩, ⟨15, 3, f⟩, ⟨18, 3, g⟩]
      := ⟨_, rfl⟩
  have hp : places fs = [(0, 3), (3, 3), (6, 3), (9, 3), (12, 3), (15, 3), (18, 3)] := by rw [hf]; rfl
  have ho : ok 4261412864 fs = true := sound_ok _ _ (by rw [hp]; decide +kernel)
  obtain ⟨x, hx⟩ : ∃ x, x = word 4261412864 fs := ⟨_, rfl⟩
  have hw : encode (.hntStall g f e d c b a) = x := by rw [hx, hf, word_low]; rfl
  have h0 : x / 2097152 % 16 = 0 := by rw [hx]; exact const_eq 21 4 _ ho (by rw [hp]; decide +kernel)
  have f0 : fld x 18 3 = g := by rw [hx]; exact fld_eq (field_eq ⟨18, 3, g⟩ 6 ho (by rw [hf]; rfl))
  have f1 : fld x 15 3 = f := by rw [hx]; exact fld_eq (field_eq ⟨15, 3, f⟩ 5 ho (by rw [hf]; rfl))
  have f2 : fld x 12 3 = e := by rw [hx]; exact fld_eq (field_eq ⟨12, 3, e⟩ 4 ho (by rw [hf]; rfl))
  have f3 : fld x 9 3 = d := by rw [hx]; exact fld_eq (field_eq ⟨9, 3, d⟩ 3 ho (by rw [hf]; rfl))
  have f4 : fld x 6 3 = c := by rw [hx]; exact fld_eq (field_eq ⟨6, 3, c⟩ 2 ho (by rw [hf]; rfl))
  have f5 : fld x 3 3 = b := by rw [hx]; exact fld_eq (field_eq ⟨3, 3, b⟩ 1 ho (by rw [hf]; rfl))
  have f6 : fld x 0 3 = a := by rw [hx]; exact fld_eq (field_eq ⟨0, 3, a⟩ 0 ho (by rw [hf]; rfl))
  have hm : x / 33554432 % 128 = 127 := by rw [hx]; exact const_eq 25 7 _ ho (by rw [hp]; decide +kernel)
  clear hx ho hp hf fs
  rw [hw, parse_hint hm]
  simp [parseHint, h0, f0, f1, f2, f3, f4, f5, f6]

theorem hntImm (p : Fin 2097152) : Statement (.hntImm p) := by
  refine core rfl ?_
  obtain ⟨fs, hf⟩ : ∃ fs : List Field, fs = [⟨0, 21, p⟩] := ⟨_, rfl⟩
  have hp : places fs = [(0, 21)] := by rw [hf]; rfl
  have ho : ok 4263510016 fs = true := sound_ok _ _ (by rw [hp]; decide +kernel)
  obtain ⟨x, hx⟩ : ∃ x, x = word 4263510016 fs := ⟨_, rfl⟩
  have hw : encode (.hntImm p) = x := by rw [hx, hf, word_low]; rfl
  have h0 : x / 2097152 % 16 = 1 := by rw [hx]; exact const_eq 21 4 _ ho (by rw [hp]; decide +kernel)
  have f0 : fld x 0 21 = p := by rw [hx]; exact fld_eq (field_eq ⟨0, 21, p⟩ 0 ho (by rw [hf]; rfl))
  have hm : x / 33554432 % 128 = 127 := by rw [hx]; exact const_eq 25 7 _ ho (by rw [hp]; decide +kernel)
  clear hx ho hp hf fs
  rw [hw, parse_hint hm]
  simp [parseHint, h0, f0]

theorem hntMod (p : Fin 2097152) : Statement (.hntMod p) := by
  refine core rfl ?_
  obtain ⟨fs, hf⟩ : ∃ fs : List Field, fs = [⟨0, 21, p⟩] := ⟨_, rfl⟩
  have hp : places fs = [(0, 21)] := by rw [hf]; rfl
  have ho : ok 4265607168 fs = true := sound_ok _ _ (by rw [hp]; decide +kernel)
  obtain ⟨x, hx⟩ : ∃ x, x = word 4265607168 fs := ⟨_, rfl⟩
  have hw : encode (.hntMod p) = x := by rw [hx, hf, word_low]; rfl
  have h0 : x / 2097152 % 16 = 2 := by rw [hx]; exact const_eq 21 4 _ ho (by rw [hp]; decide +kernel)
  have f0 : fld x 0 21 = p := by rw [hx]; exact fld_eq (field_eq ⟨0, 21, p⟩ 0 ho (by rw [hf]; rfl))
  have hm : x / 33554432 % 128 = 127 := by rw [hx]; exact const_eq 25 7 _ ho (by rw [hp]; decide +kernel)
  clear hx ho hp hf fs
  rw [hw, parse_hint hm]
  simp [parseHint, h0, f0]

theorem hntBr (p : Fin 2097152) : Statement (.hntBr p) := by
  refine core rfl ?_
  obtain ⟨fs, hf⟩ : ∃ fs : List Field, fs = [⟨0, 21, p⟩] := ⟨_, rfl⟩
  have hp : places fs = [(0, 21)] := by rw [hf]; rfl
  have ho : ok 4267704320 fs = true := sound_ok _ _ (by rw [hp]; decide +kernel)
  obtain ⟨x, hx⟩ : ∃ x, x = word 4267704320 fs := ⟨_, rfl⟩
  have hw : encode (.hntBr p) = x := by rw [hx, hf, word_low]; rfl
  have h0 : x / 2097152 % 16 = 3 := by rw [hx]; exact const_eq 21 4 _ ho (by rw [hp]; decide +kernel)
  have f0 : fld x 0 21 = p := by rw [hx]; exact fld_eq (field_eq ⟨0, 21, p⟩ 0 ho (by rw [hf]; rfl))
  have hm : x / 33554432 % 128 = 127 := by rw [hx]; exact const_eq 25 7 _ ho (by rw [hp]; decide +kernel)
  clear hx ho hp hf fs
  rw [hw, parse_hint hm]
  simp [parseHint, h0, f0]

theorem hntNop (kind : Fin 16) (payload : Fin 2097152) : Statement (.hntNop kind payload) := by
  intro hw hc
  refine core rfl ?_ hw hc
  have hk : 4 ≤ kind.val := of_decide_eq_true hw
  have ha := kind.isLt
  have hl := payload.isLt
  obtain ⟨x, hx⟩ : ∃ x, x = 4261412864 + kind.val * 2097152 + payload.val := ⟨_, rfl⟩
  have hw : encode (.hntNop kind payload) = x := hx.symm
  have hm : x / 33554432 % 128 = 127 := by omega
  have f0 : fld x 21 4 = kind := Fin.ext (by show x / 2097152 % 16 = _; omega)
  have f1 : fld x 0 21 = payload := Fin.ext (by show x / 1 % 2097152 = _; omega)
  have h0 : ¬x / 2097152 % 16 = 0 := by omega
  have h1 : ¬x / 2097152 % 16 = 1 := by omega
  have h2 : ¬x / 2097152 % 16 = 2 := by omega
  have h3 : ¬x / 2097152 % 16 = 3 := by omega
  rw [hw, parse_hint hm, parseHint, if_neg h0, if_neg h1, if_neg h2, if_neg h3, f0, f1]


theorem ylLdFifo (n : Fin 8) (h : Fin 4) (s : Fin 32) : Statement (.ylLdFifo n h s) := by
  refine helper rfl ?_
  obtain ⟨fs, hf⟩ : ∃ fs : List Field, fs = [⟨15, 5, s⟩, ⟨25, 2, h⟩, ⟨27, 3, n⟩] := ⟨_, rfl⟩
  have hp : places fs = [(15, 5), (25, 2), (27, 3)] := by rw [hf]; rfl
  have ho : ok 11 fs = true := sound_ok _ _ (by rw [hp]; decide +kernel)
  obtain ⟨x, hx⟩ : ∃ x, x = word 11 fs := ⟨_, rfl⟩
  have hw : encode (.ylLdFifo n h s) = x := by rw [hx, hf]; rfl
  have g0 : x % 32768 = 11 := by rw [hx]; exact low_eq 15 _ ho (by rw [hp]; decide +kernel)
  have g1 : x / 1048576 % 32 = 0 := by rw [hx]; exact const_eq 20 5 _ ho (by rw [hp]; decide +kernel)
  have g2 : x / 1073741824 % 4 = 0 := by rw [hx]; exact const_eq 30 2 _ ho (by rw [hp]; decide +kernel)
  have f0 : fld x 27 3 = n := by rw [hx]; exact fld_eq (field_eq ⟨27, 3, n⟩ 2 ho (by rw [hf]; rfl))
  have f1 : fld x 25 2 = h := by rw [hx]; exact fld_eq (field_eq ⟨25, 2, h⟩ 1 ho (by rw [hf]; rfl))
  have f2 : fld x 15 5 = s := by rw [hx]; exact fld_eq (field_eq ⟨15, 5, s⟩ 0 ho (by rw [hf]; rfl))
  have h3 : x % 4 = 3 := by rw [hx]; exact low_eq 2 _ ho (by rw [hp]; decide +kernel)
  have hc : x % 128 = 11 := by rw [hx]; exact low_eq 7 _ ho (by rw [hp]; decide +kernel)
  clear hx ho hp hf fs
  rw [hw, helperDecode_custom h3 (.inl hc)]
  simp [parseCustom, g0, g1, g2, f0, f1, f2]

theorem ylLdReg (h : Fin 4) (s r : Fin 32) : Statement (.ylLdReg h s r) := by
  refine helper rfl ?_
  obtain ⟨fs, hf⟩ : ∃ fs : List Field, fs = [⟨7, 5, r⟩, ⟨15, 5, s⟩, ⟨25, 2, h⟩] := ⟨_, rfl⟩
  have hp : places fs = [(7, 5), (15, 5), (25, 2)] := by rw [hf]; rfl
  have ho : ok 1073741835 fs = true := sound_ok _ _ (by rw [hp]; decide +kernel)
  obtain ⟨x, hx⟩ : ∃ x, x = word 1073741835 fs := ⟨_, rfl⟩
  have hw : encode (.ylLdReg h s r) = x := by rw [hx, hf]; rfl
  have g0 : x / 1073741824 % 4 = 1 := by rw [hx]; exact const_eq 30 2 _ ho (by rw [hp]; decide +kernel)
  have g1 : x % 128 = 11 := by rw [hx]; exact low_eq 7 _ ho (by rw [hp]; decide +kernel)
  have g2 : x / 4096 % 8 = 0 := by rw [hx]; exact const_eq 12 3 _ ho (by rw [hp]; decide +kernel)
  have g3 : x / 1048576 % 32 = 0 := by rw [hx]; exact const_eq 20 5 _ ho (by rw [hp]; decide +kernel)
  have g4 : x / 134217728 % 32 = 8 := by rw [hx]; exact const_eq 27 5 _ ho (by rw [hp]; decide +kernel)
  have f0 : fld x 25 2 = h := by rw [hx]; exact fld_eq (field_eq ⟨25, 2, h⟩ 2 ho (by rw [hf]; rfl))
  have f1 : fld x 15 5 = s := by rw [hx]; exact fld_eq (field_eq ⟨15, 5, s⟩ 1 ho (by rw [hf]; rfl))
  have f2 : fld x 7 5 = r := by rw [hx]; exact fld_eq (field_eq ⟨7, 5, r⟩ 0 ho (by rw [hf]; rfl))
  have h3 : x % 4 = 3 := by rw [hx]; exact low_eq 2 _ ho (by rw [hp]; decide +kernel)
  have hc : x % 128 = 11 := by rw [hx]; exact low_eq 7 _ ho (by rw [hp]; decide +kernel)
  clear hx ho hp hf fs
  rw [hw, helperDecode_custom h3 (.inl hc)]
  simp [parseCustom, g0, g1, g2, g3, g4, f0, f1, f2]

theorem ylPush (n : Fin 8) (s : Fin 32) : Statement (.ylPush n s) := by
  refine helper rfl ?_
  obtain ⟨fs, hf⟩ : ∃ fs : List Field, fs = [⟨15, 5, s⟩, ⟨27, 3, n⟩] := ⟨_, rfl⟩
  have hp : places fs = [(15, 5), (27, 3)] := by rw [hf]; rfl
  have ho : ok 4107 fs = true := sound_ok _ _ (by rw [hp]; decide +kernel)
  obtain ⟨x, hx⟩ : ∃ x, x = word 4107 fs := ⟨_, rfl⟩
  have hw : encode (.ylPush n s) = x := by rw [hx, hf]; rfl
  have g0 : x % 32768 = 4107 := by rw [hx]; exact low_eq 15 _ ho (by rw [hp]; decide +kernel)
  have g1 : x / 4096 % 8 = 1 := by rw [hx]; exact const_eq 12 3 _ ho (by rw [hp]; decide +kernel)
  have g2 : x / 1048576 % 128 = 0 := by rw [hx]; exact const_eq 20 7 _ ho (by rw [hp]; decide +kernel)
  have g3 : x / 1073741824 % 4 = 0 := by rw [hx]; exact const_eq 30 2 _ ho (by rw [hp]; decide +kernel)
  have f0 : fld x 27 3 = n := by rw [hx]; exact fld_eq (field_eq ⟨27, 3, n⟩ 1 ho (by rw [hf]; rfl))
  have f1 : fld x 15 5 = s := by rw [hx]; exact fld_eq (field_eq ⟨15, 5, s⟩ 0 ho (by rw [hf]; rfl))
  have h3 : x % 4 = 3 := by rw [hx]; exact low_eq 2 _ ho (by rw [hp]; decide +kernel)
  have hc : x % 128 = 11 := by rw [hx]; exact low_eq 7 _ ho (by rw [hp]; decide +kernel)
  clear hx ho hp hf fs
  rw [hw, helperDecode_custom h3 (.inl hc)]
  simp [parseCustom, g0, g1, g2, g3, f0, f1]

theorem ylBase (h : Fin 4) (t s : Fin 32) : Statement (.ylBase h t s) := by
  refine helper rfl ?_
  obtain ⟨fs, hf⟩ : ∃ fs : List Field, fs = [⟨15, 5, s⟩, ⟨20, 5, t⟩, ⟨25, 2, h⟩] := ⟨_, rfl⟩
  have hp : places fs = [(15, 5), (20, 5), (25, 2)] := by rw [hf]; rfl
  have ho : ok 8203 fs = true := sound_ok _ _ (by rw [hp]; decide +kernel)
  obtain ⟨x, hx⟩ : ∃ x, x = word 8203 fs := ⟨_, rfl⟩
  have hw : encode (.ylBase h t s) = x := by rw [hx, hf]; rfl
  have g0 : x % 32768 = 8203 := by rw [hx]; exact low_eq 15 _ ho (by rw [hp]; decide +kernel)
  have g1 : x / 4096 % 8 = 2 := by rw [hx]; exact const_eq 12 3 _ ho (by rw [hp]; decide +kernel)
  have g2 : x / 134217728 % 32 = 0 := by rw [hx]; exact const_eq 27 5 _ ho (by rw [hp]; decide +kernel)
  have f0 : fld x 25 2 = h := by rw [hx]; exact fld_eq (field_eq ⟨25, 2, h⟩ 2 ho (by rw [hf]; rfl))
  have f1 : fld x 20 5 = t := by rw [hx]; exact fld_eq (field_eq ⟨20, 5, t⟩ 1 ho (by rw [hf]; rfl))
  have f2 : fld x 15 5 = s := by rw [hx]; exact fld_eq (field_eq ⟨15, 5, s⟩ 0 ho (by rw [hf]; rfl))
  have h3 : x % 4 = 3 := by rw [hx]; exact low_eq 2 _ ho (by rw [hp]; decide +kernel)
  have hc : x % 128 = 11 := by rw [hx]; exact low_eq 7 _ ho (by rw [hp]; decide +kernel)
  clear hx ho hp hf fs
  rw [hw, helperDecode_custom h3 (.inl hc)]
  simp [parseCustom, g0, g1, g2, f0, f1, f2]

theorem ylWait (n : Fin 8) (r : Fin 32) : Statement (.ylWait n r) := by
  refine helper rfl ?_
  obtain ⟨fs, hf⟩ : ∃ fs : List Field, fs = [⟨7, 5, r⟩, ⟨27, 3, n⟩] := ⟨_, rfl⟩
  have hp : places fs = [(7, 5), (27, 3)] := by rw [hf]; rfl
  have ho : ok 12299 fs = true := sound_ok _ _ (by rw [hp]; decide +kernel)
  obtain ⟨x, hx⟩ : ∃ x, x = word 12299 fs := ⟨_, rfl⟩
  have hw : encode (.ylWait n r) = x := by rw [hx, hf]; rfl
  have g0 : x % 32768 ≠ 11 := by rw [hx]; exact low_ne 15 12 _ 1 ho (by rw [hp]; decide +kernel) (by decide) (by decide +kernel)
  have g1 : x / 4096 % 8 = 3 := by rw [hx]; exact const_eq 12 3 _ ho (by rw [hp]; decide +kernel)
  have g2 : x % 32768 ≠ 4107 := by rw [hx]; exact low_ne 15 13 _ 1 ho (by rw [hp]; decide +kernel) (by decide) (by
      decide +kernel)
  have g3 : x % 32768 ≠ 8203 := by rw [hx]; exact low_ne 15 12 _ 1 ho (by rw [hp]; decide +kernel) (by decide) (by
      decide +kernel)
  have g4 : x % 128 = 11 := by rw [hx]; exact low_eq 7 _ ho (by rw [hp]; decide +kernel)
  have g5 : x / 4096 % 32768 = 3 := by rw [hx]; exact const_eq 12 15 _ ho (by rw [hp]; decide +kernel)
  have g6 : x / 1073741824 % 4 = 0 := by rw [hx]; exact const_eq 30 2 _ ho (by rw [hp]; decide +kernel)
  have f0 : fld x 27 3 = n := by rw [hx]; exact fld_eq (field_eq ⟨27, 3, n⟩ 1 ho (by rw [hf]; rfl))
  have f1 : fld x 7 5 = r := by rw [hx]; exact fld_eq (field_eq ⟨7, 5, r⟩ 0 ho (by rw [hf]; rfl))
  have h3 : x % 4 = 3 := by rw [hx]; exact low_eq 2 _ ho (by rw [hp]; decide +kernel)
  have hc : x % 128 = 11 := by rw [hx]; exact low_eq 7 _ ho (by rw [hp]; decide +kernel)
  clear hx ho hp hf fs
  rw [hw, helperDecode_custom h3 (.inl hc)]
  simp [parseCustom, g0, g1, g2, g3, g4, g5, g6, f0, f1]

theorem ylEnd (f : Fin 2) (n : Fin 8) : Statement (.ylEnd f n) := by
  refine helper rfl ?_
  obtain ⟨fs, hf⟩ : ∃ fs : List Field, fs = [⟨27, 3, n⟩, ⟨30, 1, f⟩] := ⟨_, rfl⟩
  have hp : places fs = [(27, 3), (30, 1)] := by rw [hf]; rfl
  have ho : ok 16395 fs = true := sound_ok _ _ (by rw [hp]; decide +kernel)
  obtain ⟨x, hx⟩ : ∃ x, x = word 16395 fs := ⟨_, rfl⟩
  have hw : encode (.ylEnd f n) = x := by rw [hx, hf]; rfl
  have g0 : x % 32768 = 16395 := by rw [hx]; exact low_eq 15 _ ho (by rw [hp]; decide +kernel)
  have g1 : x / 4096 % 8 = 4 := by rw [hx]; exact const_eq 12 3 _ ho (by rw [hp]; decide +kernel)
  have g2 : x / 4096 % 32768 = 4 := by rw [hx]; exact const_eq 12 15 _ ho (by rw [hp]; decide +kernel)
  have g3 : x % 134217728 = 16395 := by rw [hx]; exact low_eq 27 _ ho (by rw [hp]; decide +kernel)
  have g4 : x / 2147483648 % 2 = 0 := by rw [hx]; exact const_eq 31 1 _ ho (by rw [hp]; decide +kernel)
  have f0 : fld x 30 1 = f := by rw [hx]; exact fld_eq (field_eq ⟨30, 1, f⟩ 1 ho (by rw [hf]; rfl))
  have f1 : fld x 27 3 = n := by rw [hx]; exact fld_eq (field_eq ⟨27, 3, n⟩ 0 ho (by rw [hf]; rfl))
  have h3 : x % 4 = 3 := by rw [hx]; exact low_eq 2 _ ho (by rw [hp]; decide +kernel)
  have hc : x % 128 = 11 := by rw [hx]; exact low_eq 7 _ ho (by rw [hp]; decide +kernel)
  clear hx ho hp hf fs
  rw [hw, helperDecode_custom h3 (.inl hc)]
  simp [parseCustom, g0, g1, g2, g3, g4, f0, f1]

theorem ylPop (n : Fin 8) (r : Fin 32) : Statement (.ylPop n r) := by
  refine helper rfl ?_
  obtain ⟨fs, hf⟩ : ∃ fs : List Field, fs = [⟨7, 5, r⟩, ⟨27, 3, n⟩] := ⟨_, rfl⟩
  have hp : places fs = [(7, 5), (27, 3)] := by rw [hf]; rfl
  have ho : ok 43 fs = true := sound_ok _ _ (by rw [hp]; decide +kernel)
  obtain ⟨x, hx⟩ : ∃ x, x = word 43 fs := ⟨_, rfl⟩
  have hw : encode (.ylPop n r) = x := by rw [hx, hf]; rfl
  have g0 : x % 32768 ≠ 11 := by rw [hx]; exact low_ne 15 5 _ 1 ho (by rw [hp]; decide +kernel) (by decide) (by decide +kernel)
  have g1 : x % 128 = 43 := by rw [hx]; exact low_eq 7 _ ho (by rw [hp]; decide +kernel)
  have g2 : x % 32768 ≠ 4107 := by rw [hx]; exact low_ne 15 5 _ 1 ho (by rw [hp]; decide +kernel) (by decide) (by
      decide +kernel)
  have g3 : x % 32768 ≠ 8203 := by rw [hx]; exact low_ne 15 5 _ 1 ho (by rw [hp]; decide +kernel) (by decide) (by
      decide +kernel)
  have g4 : x % 134217728 ≠ 16395 := by rw [hx]; exact low_ne 27 5 _ 1 ho (by rw [hp]; decide +kernel) (by decide) (by
      decide +kernel)
  have g5 : x / 4096 % 32768 = 0 := by rw [hx]; exact const_eq 12 15 _ ho (by rw [hp]; decide +kernel)
  have g6 : x / 1073741824 % 4 = 0 := by rw [hx]; exact const_eq 30 2 _ ho (by rw [hp]; decide +kernel)
  have f0 : fld x 27 3 = n := by rw [hx]; exact fld_eq (field_eq ⟨27, 3, n⟩ 1 ho (by rw [hf]; rfl))
  have f1 : fld x 7 5 = r := by rw [hx]; exact fld_eq (field_eq ⟨7, 5, r⟩ 0 ho (by rw [hf]; rfl))
  have h3 : x % 4 = 3 := by rw [hx]; exact low_eq 2 _ ho (by rw [hp]; decide +kernel)
  have hc : x % 128 = 43 := by rw [hx]; exact low_eq 7 _ ho (by rw [hp]; decide +kernel)
  clear hx ho hp hf fs
  rw [hw, helperDecode_custom h3 (.inr hc)]
  simp [parseCustom, g0, g1, g2, g3, g4, g5, g6, f0, f1]

theorem ylSt (n : Fin 8) (h : Fin 4) (s : Fin 32) : Statement (.ylSt n h s) := by
  refine helper rfl ?_
  obtain ⟨fs, hf⟩ : ∃ fs : List Field, fs = [⟨15, 5, s⟩, ⟨25, 2, h⟩, ⟨27, 3, n⟩] := ⟨_, rfl⟩
  have hp : places fs = [(15, 5), (25, 2), (27, 3)] := by rw [hf]; rfl
  have ho : ok 4139 fs = true := sound_ok _ _ (by rw [hp]; decide +kernel)
  obtain ⟨x, hx⟩ : ∃ x, x = word 4139 fs := ⟨_, rfl⟩
  have hw : encode (.ylSt n h s) = x := by rw [hx, hf]; rfl
  have g0 : x % 32768 = 4139 := by rw [hx]; exact low_eq 15 _ ho (by rw [hp]; decide +kernel)
  have g1 : x % 128 = 43 := by rw [hx]; exact low_eq 7 _ ho (by rw [hp]; decide +kernel)
  have g2 : x % 134217728 ≠ 16395 := by rw [hx]; exact low_ne 27 5 _ 1 ho (by rw [hp]; decide +kernel) (by decide) (by
      decide +kernel)
  have g3 : x / 4096 % 32768 ≠ 0 := by rw [hx]; exact slice_ne 12 15 0 _ 1 ho (by rw [hp]; decide +kernel) (by decide) (by
      decide +kernel)
  have g4 : x / 1048576 % 32 = 0 := by rw [hx]; exact const_eq 20 5 _ ho (by rw [hp]; decide +kernel)
  have g5 : x / 1073741824 % 4 = 0 := by rw [hx]; exact const_eq 30 2 _ ho (by rw [hp]; decide +kernel)
  have f0 : fld x 27 3 = n := by rw [hx]; exact fld_eq (field_eq ⟨27, 3, n⟩ 2 ho (by rw [hf]; rfl))
  have f1 : fld x 25 2 = h := by rw [hx]; exact fld_eq (field_eq ⟨25, 2, h⟩ 1 ho (by rw [hf]; rfl))
  have f2 : fld x 15 5 = s := by rw [hx]; exact fld_eq (field_eq ⟨15, 5, s⟩ 0 ho (by rw [hf]; rfl))
  have h3 : x % 4 = 3 := by rw [hx]; exact low_eq 2 _ ho (by rw [hp]; decide +kernel)
  have hc : x % 128 = 43 := by rw [hx]; exact low_eq 7 _ ho (by rw [hp]; decide +kernel)
  clear hx ho hp hf fs
  rw [hw, helperDecode_custom h3 (.inr hc)]
  simp [parseCustom, g0, g1, g2, g3, g4, g5, f0, f1, f2]

theorem helperRv32Instr (compressed : Bool) (op : Rv.Op) : Statement (.helperRv32Instr compressed op) := by
  intro hw hc
  cases compressed with
  | true => exact absurd hc Bool.false_ne_true
  | false =>
    refine helper rfl ?_ hw hc
    cases op with
    | lui rd i => exact rvLui rd i hw
    | auipc rd i => exact rvAuipc rd i hw
    | jal rd o => exact rvJal rd o hw
    | jalr rd r o => exact rvJalr rd r o hw
    | branch c r1 r2 o => exact rvBranch c r1 r2 o hw
    | load k rd r o => exact rvLoad k rd r o hw
    | store k r1 r2 o => exact rvStore k r1 r2 o hw
    | aluImm f rd r o => exact rvAluImm f rd r o hw
    | alu f rd r1 r2 => exact rvAlu f rd r1 r2


theorem helperFence : Statement .helperFence := by
  refine helper rfl ?_
  show helperDecode 15 = _
  simp [helperDecode, parseRv32]


theorem helperEbreak (compressed : Bool) : Statement (.helperEbreak compressed) := by
  intro hw hc
  cases compressed with
  | true => exact absurd hc Bool.false_ne_true
  | false =>
    refine helper rfl ?_ hw hc
    show helperDecode 1048691 = _
    simp [helperDecode, parseRv32]


theorem resultWriteback (c : CoreId) : Statement (.resultWriteback c) := wordless rfl rfl

theorem storePerform (c : CoreId) (i : Nat) : Statement (.storePerform c i) := wordless rfl rfl

theorem l1dSectorFill (c : CoreId) : Statement (.l1dSectorFill c) := wordless rfl rfl

theorem fbEventResend (die : Fin 2) (entry : Nat) : Statement (.fbEventResend die entry) := wordless rfl rfl

theorem faultRetry (die : Fin 2) (entry gen : Nat) : Statement (.faultRetry die entry gen) := wordless rfl rfl

theorem tlbinvComplete (c : CoreId) : Statement (.tlbinvComplete c) := wordless rfl rfl

theorem parityLand (c : CoreId) (g : Fin 4) : Statement (.parityLand c g) := wordless rfl rfl

theorem scrubStep (c : CoreId) : Statement (.scrubStep c) := wordless rfl rfl

theorem sqmScrubStep (u : ScrubUnit) : Statement (.sqmScrubStep u) := wordless rfl rfl

theorem epochEnd : Statement (.epochEnd) := wordless rfl rfl

theorem bankRetire (c : CoreId) (bank : Fin 20) : Statement (.bankRetire c bank) := wordless rfl rfl

theorem lendClearDone (c : CoreId) : Statement (.lendClearDone c) := wordless rfl rfl

theorem lendEndClearDone (c : CoreId) : Statement (.lendEndClearDone c) := wordless rfl rfl

theorem squareClearDone (sq : SquareId) : Statement (.squareClearDone sq) := wordless rfl rfl

theorem cspClearDone (die : Fin 2) (seg : Fin 32) : Statement (.cspClearDone die seg) := wordless rfl rfl

theorem tileFillLastBeat (c : CoreId) (n : Fin 64) : Statement (.tileFillLastBeat c n) := wordless rfl rfl

theorem logApplyEntry (c : CoreId) (n : Fin 64) : Statement (.logApplyEntry c n) := wordless rfl rfl

theorem tileDrainDone (c : CoreId) (n : Fin 64) : Statement (.tileDrainDone c n) := wordless rfl rfl

theorem tileTransferFault (c : CoreId) (n : Fin 64) : Statement (.tileTransferFault c n) := wordless rfl rfl

theorem beaconWindow : Statement (.beaconWindow) := wordless rfl rfl

theorem traceRecordWrite (c : CoreId) : Statement (.traceRecordWrite c) := wordless rfl rfl

theorem engineJobStart (c : CoreId) (id : Nat) : Statement (.engineJobStart c id) := wordless rfl rfl

theorem engineJobComplete (c : CoreId) (id : Nat) : Statement (.engineJobComplete c id) := wordless rfl rfl

theorem engineJobFault (c : CoreId) (id : Nat) : Statement (.engineJobFault c id) := wordless rfl rfl

theorem ownershipGrant (c : CoreId) : Statement (.ownershipGrant c) := wordless rfl rfl

theorem revoke (c : CoreId) (block : Nat) (byOther : Bool) : Statement (.revoke c block byOther) := wordless rfl rfl

theorem revokeDataReturn (block : Nat) : Statement (.revokeDataReturn block) := wordless rfl rfl

theorem dramRefresh (die : Fin 2) (ch : Fin 24) (bank : Fin 16) : Statement (.dramRefresh die ch bank) := wordless rfl rfl

theorem streamFetchReturn (c : CoreId) (s : Fin 8) : Statement (.streamFetchReturn c s) := wordless rfl rfl

theorem mxeLatchLoadDone (sq : SquareId) : Statement (.mxeLatchLoadDone sq) := wordless rfl rfl

theorem mxeCommandStart (sq : SquareId) : Statement (.mxeCommandStart sq) := wordless rfl rfl

theorem mxeRowInject (sq : SquareId) : Statement (.mxeRowInject sq) := wordless rfl rfl

theorem mxeCommandComplete (sq : SquareId) : Statement (.mxeCommandComplete sq) := wordless rfl rfl

theorem mxeQueueWindowStore (c : CoreId) (byStorer : Bool) (data : BitVec 512) : Statement (.mxeQueueWindowStore c byStorer
      data) := wordless rfl rfl

theorem copyQueueWindowStore (c : CoreId) (byStorer : Bool) (data : BitVec 512) : Statement (.copyQueueWindowStore c byStorer
      data) := wordless rfl rfl

theorem coalescerApply (sq : SquareId) : Statement (.coalescerApply sq) := wordless rfl rfl

theorem coalescerTimeout (sq : SquareId) (slot : Fin 8) : Statement (.coalescerTimeout sq slot) := wordless rfl rfl

theorem coalescerTwinReady (sq : SquareId) (slot : Fin 8) : Statement (.coalescerTwinReady sq slot) := wordless rfl rfl

theorem eventArrive (c : CoreId) (slot : Fin 8) (header payload : BitVec 64) (origin : EventOrigin) : Statement (.eventArrive
      c slot header payload origin) := wordless rfl rfl

theorem windowStaleTimeout (c : CoreId) : Statement (.windowStaleTimeout c) := wordless rfl rfl

theorem waitWake (c : CoreId) : Statement (.waitWake c) := wordless rfl rfl

theorem waitTimeout (c : CoreId) : Statement (.waitTimeout c) := wordless rfl rfl

theorem barRelease (c : CoreId) : Statement (.barRelease c) := wordless rfl rfl

theorem taskEnd (c : CoreId) : Statement (.taskEnd c) := wordless rfl rfl

theorem selectionRound (die : Fin 2) : Statement (.selectionRound die) := wordless rfl rfl

theorem taskBind (c : CoreId) : Statement (.taskBind c) := wordless rfl rfl

theorem taskStart (c : CoreId) : Statement (.taskStart c) := wordless rfl rfl

theorem agingTick : Statement (.agingTick) := wordless rfl rfl

theorem stealRequest (thief : CoreId) : Statement (.stealRequest thief) := wordless rfl rfl

theorem stealReply (thief : CoreId) : Statement (.stealReply thief) := wordless rfl rfl

theorem stealBackoff (c : CoreId) : Statement (.stealBackoff c) := wordless rfl rfl

theorem halfExchange : Statement (.halfExchange) := wordless rfl rfl

theorem lanternCircuit : Statement (.lanternCircuit) := wordless rfl rfl

theorem forecastTick : Statement (.forecastTick) := wordless rfl rfl

theorem railSettle (district : Fin 8) : Statement (.railSettle district) := wordless rfl rfl

theorem slewStep (district : Fin 8) : Statement (.slewStep district) := wordless rfl rfl

theorem nrgUpdate : Statement (.nrgUpdate) := wordless rfl rfl

theorem trqRetry (die : Fin 2) : Statement (.trqRetry die) := wordless rfl rfl

theorem watchdog (c : CoreId) : Statement (.watchdog c) := wordless rfl rfl

theorem lockstepMismatch (c : CoreId) : Statement (.lockstepMismatch c) := wordless rfl rfl

theorem preemptDrainDone (c : CoreId) : Statement (.preemptDrainDone c) := wordless rfl rfl

theorem jobPtbWrite (job : JobId) (die : Fin 2) (value : BitVec 64) : Statement (.jobPtbWrite job die value) := wordless rfl rfl

theorem cspOwnWrite (die : Fin 2) (n : Fin 32) (value : BitVec 64) : Statement (.cspOwnWrite die n value) := wordless rfl rfl

theorem spadForceRetire (c : CoreId) (value : BitVec 64) : Statement (.spadForceRetire c value) := wordless rfl rfl

theorem jobPartWrite (job : JobId) (value : BitVec 64) : Statement (.jobPartWrite job value) := wordless rfl rfl

theorem jobCtlWrite (job : JobId) (value : BitVec 64) : Statement (.jobCtlWrite job value) := wordless rfl rfl

theorem hbwBaseWrite (die : Fin 2) (value : BitVec 64) : Statement (.hbwBaseWrite die value) := wordless rfl rfl

theorem fbKill (die : Fin 2) (value : BitVec 64) : Statement (.fbKill die value) := wordless rfl rfl

theorem preCtlReq (c : CoreId) (value : BitVec 64) : Statement (.preCtlReq c value) := wordless rfl rfl

theorem pwrCapWrite (value : BitVec 64) : Statement (.pwrCapWrite value) := wordless rfl rfl

theorem secAtreq (value : BitVec 64) : Statement (.secAtreq value) := wordless rfl rfl

theorem secPolWrite (value : BitVec 64) : Statement (.secPolWrite value) := wordless rfl rfl

theorem ethRouteWrite (stream : Fin 64) (second : Bool) (value : BitVec 64) : Statement (.ethRouteWrite stream second value)
      := wordless rfl rfl

theorem registerWrite (address value : BitVec 64) : Statement (.registerWrite address value) := wordless rfl rfl

theorem ethFrameReceive (frame : EthFrame) : Statement (.ethFrameReceive frame) := wordless rfl rfl

theorem roceWrite (conn : Nat) (rkey : BitVec 32) (va : BitVec 64) (data : List (BitVec 8)) : Statement (.roceWrite conn rkey
      va data) := wordless rfl rfl

theorem roceRead (conn : Nat) (rkey : BitVec 32) (va : BitVec 64) (len : Nat) : Statement (.roceRead conn rkey va len) :=
      wordless rfl rfl

theorem roceFetchAdd (conn : Nat) (rkey : BitVec 32) (va addend : BitVec 64) : Statement (.roceFetchAdd conn rkey va addend)
      := wordless rfl rfl

theorem roceCompareSwap (conn : Nat) (rkey : BitVec 32) (va compare swap : BitVec 64) : Statement (.roceCompareSwap conn rkey
      va compare swap) := wordless rfl rfl

theorem place (conn : Nat) (va : BitVec 64) : Statement (.place conn va) := wordless rfl rfl

theorem hostDec (conn : Nat) (va : BitVec 64) : Statement (.hostDec conn va) := wordless rfl rfl

theorem hostCancel (conn : Nat) (level : BitVec 64) : Statement (.hostCancel conn level) := wordless rfl rfl

theorem hostCancelh (conn : Nat) (level : BitVec 64) : Statement (.hostCancelh conn level) := wordless rfl rfl

theorem ucieModuleFail : Statement (.ucieModuleFail) := wordless rfl rfl

theorem thermalThreshold (sensor : Fin 256) (celsius : Int) : Statement (.thermalThreshold sensor celsius) := wordless rfl rfl

theorem memTempChange (die : Fin 2) (hot : Bool) : Statement (.memTempChange die hot) := wordless rfl rfl

theorem tamperAlarm (source : AlarmSource) : Statement (.tamperAlarm source) := wordless rfl rfl

theorem debugUnlockFail : Statement (.debugUnlockFail) := wordless rfl rfl

theorem coldReset (flash : List (BitVec 8)) : Statement (.coldReset flash) := wordless rfl rfl

theorem bootDatagram (offset : Nat) (data : List (BitVec 8)) : Statement (.bootDatagram offset data) := wordless rfl rfl

theorem bootTransferEnd : Statement (.bootTransferEnd) := wordless rfl rfl

theorem illegalOpEncoding : Statement (.illegalOpEncoding) := wordless rfl rfl

theorem instructionFetchFault : Statement (.instructionFetchFault) := wordless rfl rfl

theorem loaderReadReturn (c : CoreId) : Statement (.loaderReadReturn c) := wordless rfl rfl

theorem gptpMessageReceive (grandmaster : Nat) : Statement (.gptpMessageReceive grandmaster) := wordless rfl rfl

theorem roceUnsupportedRequest (conn : Nat) : Statement (.roceUnsupportedRequest conn) := wordless rfl rfl

theorem attestationReportDone : Statement (.attestationReportDone) := wordless rfl rfl

end RoundTrip
end Sys2Proof.Laws
end

