-- ==== Sys2Proof/Laws/Trap.lean ====
section
/-! SUPPORT. What an instruction that traps does: where its trap is one for the trap entry, that entry is taken and nothing else
of the instruction is done. -/
namespace Sys2Proof.Machine

set_option Elab.async false

@[simp] theorem settle_task (k : Core) : k.settle.task = k.task := by simp [Core.settle]
@[simp] theorem settle_trap (k : Core) : k.settle.trap = k.trap := by simp [Core.settle]
@[simp] theorem settle_mode (k : Core) : k.settle.mode = k.mode := by simp [Core.settle]

/-- A trap whose instruction met no line before it leaves memory's levels alone. -/
theorem State.meets_nil (s : State) (own : Option Nat) {t : TrapInfo} (h : t.met = []) : s.meets own t = s := by
  simp [State.meets, h]

/-- What entering the trap entry leaves of a core (R412). -/
theorem enterTrap_core (k : Core) (t : TrapInfo) (pc : Word) :
    enterTrap k t pc = { k with
      regs := k.settle.regs, pipe := (enterTrap k t pc).pipe, mode := .run, fetchBuf := none, waitSt := none
      barSt := none, mx := { k.mx with window := k.mx.window.filter (fun e => e.2 ≠ .task) }
      trap := { cause := BitVec.ofNat 64 (256 + t.cause), pc := pc, addr := t.addr
                info := t.info ||| BitVec.ofNat 64 (b2n t.skip) } } := by
  unfold enterTrap Core.leaveBody
  split <;> rfl

/-- The program counter is at the trap entry. -/
theorem enterTrap_pc (k : Core) (t : TrapInfo) (pc : Word) : (enterTrap k t pc).pipe.pc = tyTrapPc k.task.entry := by
  unfold enterTrap Core.leaveBody
  split <;> rfl

/-- A lone task with a trap entry takes the trap: the registers of R412. -/
theorem takeTrap_entry {s : State} {c : Nat} {t : TrapInfo} {f : Nat → Word} (hg : (s.core c).task.gang = 0)
    (hc : classOf t.cause = .entry) (he : tyTrapPc (s.core c).task.entry ≠ 0) (ha : flag (s.core c).trap.cause 8 = false)
    (hi : flag t.info 63 = false) (hn : t.met = []) :
    Trapped s (takeTrap s c t f) c t.cause (f c) t.addr (t.info ||| BitVec.ofNat 64 (b2n t.skip)) := by
  have hd : dropHeldFaults s c t = s.modCore c (fun k => { k with
      streams := k.streams.map (fun x => { x with fault := none })
      pipe := { k.pipe with bodyWait := none }
      tiles := k.tiles.map (fun e => (e.1, { e.2 with fault := none })) }) := by
    simp [dropHeldFaults, hi]
  have hm : ∀ x : State, (x.core c).task.gang = 0 → mirrored x c = x := by
    intro x hx
    simp [mirrored, hx]
  have ht : ({ t with met := [] } : TrapInfo) = t := by rw [← hn]
  have h : takeTrap s c t f = (s.modCore c (fun k => { k with
      streams := k.streams.map (fun x => { x with fault := none })
      pipe := { k.pipe with bodyWait := none }
      tiles := k.tiles.map (fun e => (e.1, { e.2 with fault := none })) })).modCore c (fun x => enterTrap x t (f c)) := by
    unfold takeTrap
    simp only [State.meets_nil s _ hn, ht, hd, hc]
    simp only [State.core_modCore, he, ha, hg]
    simp only [false_or, Bool.false_eq_true, if_false]
    rw [if_neg (by simp), hm _ (by rw [State.core_modCore, enterTrap_core]; simp [hg])]
  rw [h]
  refine ⟨?_, ?_, ?_, ?_, ?_, ?_, ?_, ?_, ?_, ?_, ?_, (OnlyCore.modCore _ _ _).trans (OnlyCore.modCore _ _ _)⟩
  case refine_5 => simp [enterTrap_pc]
  all_goals
    simp only [State.core_modCore]
    rw [enterTrap_core]
    try rfl

/-- An instruction of a lone task whose issue ends in a trap. -/
theorem issue_trap {g : Sig} {body : Body} {s : State} {c : Nat} {t : TrapInfo} (ha : Alone s c) (hw : (s.core c).trapWaits = false)
    (h : issueOne g body s c = .error (.trap t)) : issue g body s = .next (takeTrap s c t (fun m => (s.core m).groupVa)) := by
  obtain ⟨ha, hr, hg⟩ := ha
  have hiss : issuer s = c := by simp [issuer, ha, hg]
  have hact : actingMembers s c = [c] := by simp [actingMembers, gangOf, hg]
  have hbp : beforePair s c = s := by simp [beforePair, hg]
  unfold issue
  simp only [hiss, hr, if_true]
  unfold issueUnit
  simp only [hact, hbp, issueAll, h]
  simp [trapAtIssue, hw]

/-- An instruction that passes its checks and whose effect is a trap. -/
theorem issueOne_trap {g : Sig} {body : Body} {s : State} {c : Nat} {vs : List Vec} {s1 : State} {t : TrapInfo}
    (h : Issues s c g vs s1) (hb : body c vs s1 = .error (.trap t)) : issueOne g body s c = .error (.trap t) := by
  unfold issueOne
  simp only [h.checks, bind, Except.bind, h.operands, hb]

/-- An instruction that fails its checks. -/
theorem issueOne_denied {g : Sig} {body : Body} {s : State} {c : Nat} {t : TrapInfo}
    (h : issueChecks s c g = .error (.trap t)) : issueOne g body s c = .error (.trap t) := by
  unfold issueOne
  simp only [h, bind, Except.bind]

/-- Where no repetition runs beside the integer pipeline, no instruction waits for one (R211). -/
theorem heldBack_of_trapWaits {k : Core} (h : k.trapWaits = false) (g : Sig) : k.heldBack g = false := by
  unfold Core.trapWaits Core.repeating at h
  unfold Core.heldBack
  cases hr : k.pipe.rep with
  | none => rfl
  | some r =>
    simp only [hr, Option.map_some, Option.getD_some, Bool.or_eq_false_iff] at h
    simp only [h.2, Bool.false_and]

/-- R193, R203: a hint that the instruction does not take. -/
theorem issueChecks_hint {s : State} {c : Nat} {g : Sig} (hw : (s.core c).trapWaits = false)
    (h : hintsIllegal (s.core c).hints g.use = true) : issueChecks s c g = .error (.trap (mkTrap cIllegalOp 0)) := by
  unfold issueChecks
  simp only [heldBack_of_trapWaits hw, h, if_true]
  rfl

/-- R199: a privileged instruction in TASK mode. -/
theorem issueChecks_priv {s : State} {c : Nat} {g : Sig} (hw : (s.core c).trapWaits = false)
    (h : hintsIllegal (s.core c).hints g.use = false) (hs : g.sys = true) (hm : (s.core c).task.sys = false) :
    issueChecks s c g = .error (.trap (mkTrap cPriv 0)) := by
  unfold issueChecks
  simp only [heldBack_of_trapWaits hw, h, hs, hm]
  rfl

end Sys2Proof.Machine
end

