-- ==== Sys2Proof/Tests/Slice0.lean ====
section
/-! SUPPORT. Tests of single words and single steps, and states that meet the hypotheses of the statements. -/
namespace Sys2Proof.Tests
set_option Elab.async false

/-- Decoding the word gives the instruction. -/
noncomputable def reads (f : Nat → Except DecodeError Instr) (w : Nat) (i : Instr) : Bool :=
  match f w with
  | .ok j => decide (j = i)
  | .error _ => false

noncomputable def allRead (f : Nat → Except DecodeError Instr) (l : List (Nat × Instr)) : Bool := l.all (fun e => reads f e.1 e.2)

/-- The instruction is ill-formed, and its word is no instruction. -/
noncomputable def refused (i : Instr) : Bool :=
  !i.wf && match decode (encode i) with
    | .ok _ => false
    | .error _ => true

noncomputable def allRefused (l : List Instr) : Bool := l.all refused

theorem ill_formed_of_major_01 : allRefused [
  .add 1 1 1 2, .sub 1 1 1 2, .and 1 1 1 2, .or 1 1 1 2, .xor 1 1 1 2, .andn 1 1 1 2, .orn 1 1 1 2, .sll 1 1 1 2, .srl 1 1 1 2,
  .sra 1 1 1 2, .rol 1 1 1 2, .ror 1 1 1 2, .min 1 1 1 2, .max 1 1 1 2, .minz 1 1 1 2, .maxz 1 1 1 2, .addx2 1 1 1 2,
  .addx4 1 1 1 2, .addx8 1 1 1 2, .addx16 1 1 1 2, .clmul 1 1 1 2, .clmulh 1 1 1 2] = true := by decide +kernel

theorem ill_formed_of_major_02 : allRefused [
  .clz 1 1 2, .ctz 1 1 2, .pop 1 1 2, .brev 1 1 2, .bswap 1 1 2, .sextb 1 1 1, .sexth 1 1 1, .sextw 1 1 1, .zextb 1 1 1,
  .zexth 1 1 1, .zextw 1 1 1, .neg 1 1 2, .not 1 1 2, .mov 1 1 2] = true := by decide +kernel

theorem ill_formed_of_major_03 : allRefused [
  .mul 1 1 1 2, .mulh 1 1 1 2, .mulhz 1 1 1 2, .mulhsz 1 1 1 2, .div 1 1 1 2, .divz 1 1 1 2, .rem 1 1 1 2, .remz 1 1 1 2] = true := by decide +kernel

theorem ill_formed_of_major_04 : allRefused [
  .seq 1 1 1 2, .sne 1 1 1 2, .slt 1 1 1 2, .sge 1 1 1 2, .slo 1 1 1 2, .shs 1 1 1 2, .sel 1 1 1 2 1] = true := by decide +kernel

theorem ill_formed_of_major_05 : allRefused [
  .bfx 1 1 1 2, .bfxs 1 1 1 2, .bfi 1 1 1 2, .bfi 0 1 1 0] = true := by decide +kernel

theorem ill_formed_of_major_0c : allRefused [
  .slli 1 1 1 32, .srli 1 1 1 32, .srai 1 1 1 32, .roli 1 1 1 32] = true := by decide +kernel

theorem ill_formed_of_major_0d : allRefused [
  .cmpi 1 1 6 1] = true := by decide +kernel

theorem ill_formed_of_major_18 : allRefused [
  .br 0 0 7 1] = true := by decide +kernel

theorem ill_formed_of_major_1e : allRefused [
  .rep 1 1 1 1 1] = true := by decide +kernel

theorem ill_formed_of_major_28 : allRefused [
  .ld 1 1 3 1 1 1] = true := by decide +kernel

theorem ill_formed_of_major_2a : allRefused [
  .ldx 1 1 1 3 1 1 1] = true := by decide +kernel

theorem ill_formed_of_major_2c : allRefused [
  .ldAcq 1 1 5 0 0, .ldAcq 1 1 0 3 1, .stRel 1 1 5 1, .ldSc 1 1 5 0 0, .ldSc 1 1 0 3 1, .stSc 1 1 5 1] = true := by decide +kernel

theorem ill_formed_of_major_2d : allRefused [
  .amoAdd 1 1 1 5 1 1, .amoAnd 1 1 1 5 1 1, .amoOr 1 1 1 5 1 1, .amoXor 1 1 1 5 1 1, .amoMin 1 1 1 5 1 1, .amoMax 1 1 1 5 1 1,
  .amoMinz 1 1 1 5 1 1, .amoMaxz 1 1 1 5 1 1, .amoSwap 1 1 1 5 1 1, .amoFadd 1 1 1 5 1 1, .amoFadd 1 1 1 0 1 0,
  .amoIncw 1 1 1 5 1 1] = true := by decide +kernel

theorem ill_formed_of_major_2e : allRefused [
  .redAdd 1 1 5 1, .redAnd 1 1 5 1, .redOr 1 1 5 1, .redXor 1 1 5 1, .redMin 1 1 5 1, .redMax 1 1 5 1, .redMinz 1 1 5 1,
  .redMaxz 1 1 5 1, .redSwap 1 1 5 1, .redFadd 1 1 5 1, .redFadd 1 1 0 0] = true := by decide +kernel

theorem ill_formed_of_major_2f : allRefused [
  .cas 1 1 1 5 1 1 1] = true := by decide +kernel

theorem ill_formed_of_major_30 : allRefused [
  .fenceAcq 5, .fenceRel 5, .fenceFull 5] = true := by decide +kernel

theorem ill_formed_of_major_38 : allRefused [
  .vaddFp 1 1 1 0 1, .vaddFp 1 1 1 5 1, .vsubFp 1 1 1 0 1, .vsubFp 1 1 1 5 1, .vmulFp 1 1 1 0 1, .vmulFp 1 1 1 5 1,
  .vmlaFp 1 1 1 0 1, .vmlaFp 1 1 1 5 1, .vmlaFp 0 1 1 2 1, .vmlsFp 1 1 1 0 1, .vmlsFp 1 1 1 5 1, .vmlsFp 0 1 1 2 1,
  .vminFp 1 1 1 0 1, .vminFp 1 1 1 5 1, .vmaxFp 1 1 1 0 1, .vmaxFp 1 1 1 5 1, .vabsFp 1 1 0 1, .vabsFp 1 1 5 1, .vnegFp 1 1 0 1,
  .vnegFp 1 1 5 1, .vdiv 1 1 1 0 1, .vsqrt 1 1 0 1, .vrcp 1 1 0 1, .vrcp 1 1 5 1, .vrsq 1 1 0 1, .vrsq 1 1 5 1] = true := by decide +kernel

theorem ill_formed_of_major_39 : allRefused [
  .vaddInt 1 1 1 4 1, .vsubInt 1 1 1 4 1, .vmulInt 1 1 1 4 1, .vmlaInt 1 1 1 4 1, .vmlaInt 0 1 1 0 1, .vminInt 1 1 1 4 1,
  .vmaxInt 1 1 1 4 1, .vminz 1 1 1 4 1, .vmaxz 1 1 1 4 1, .vabsInt 1 1 4 1, .vnegInt 1 1 4 1, .vadds 1 1 1 4 1, .vsubs 1 1 1 4 1,
  .vaddsz 1 1 1 4 1, .vsubsz 1 1 1 4 1, .vmulh 1 1 1 4 1, .vdot4 1 1 1 0 1, .vdot4z 1 1 1 0 1, .vclmul 1 1 1 4 1,
  .vclmulh 1 1 1 4 1] = true := by decide +kernel

theorem ill_formed_of_major_3a : allRefused [
  .vand 1 1 1 4 1, .vor 1 1 1 4 1, .vxor 1 1 1 4 1, .vandn 1 1 1 4 1, .vnot 1 1 4 1, .vshl 1 1 1 4 1, .vshr 1 1 1 4 1,
  .vsra 1 1 1 4 1, .vpopc 1 1 4 1, .vclz 1 1 4 1, .vshli 1 1 0 4 1, .vshli 1 1 8 0 1, .vshli 1 1 16 1 1, .vshri 1 1 0 4 1,
  .vshri 1 1 8 0 1, .vshri 1 1 16 1 1, .vsrai 1 1 0 4 1, .vsrai 1 1 8 0 1, .vsrai 1 1 16 1 1] = true := by decide +kernel

theorem ill_formed_of_major_3b : allRefused [
  .veq 0 1 1 4 1, .veq 8 1 1 0 1, .vne 0 1 1 4 1, .vne 8 1 1 0 1, .vlt 0 1 1 4 1, .vlt 8 1 1 0 1, .vge 0 1 1 4 1, .vge 8 1 1 0 1,
  .vlo 0 1 1 4 1, .vlo 8 1 1 0 1, .vhs 0 1 1 4 1, .vhs 8 1 1 0 1, .vfeq 0 1 1 0 1, .vfeq 0 1 1 5 1, .vfeq 8 1 1 2 1,
  .vflt 0 1 1 0 1, .vflt 0 1 1 5 1, .vflt 8 1 1 2 1, .vfle 0 1 1 0 1, .vfle 0 1 1 5 1, .vfle 8 1 1 2 1, .vfun 0 1 1 0 1,
  .vfun 0 1 1 5 1, .vfun 8 1 1 2 1, .mand 0 0 0 4, .mand 8 0 0 0, .mand 0 8 0 0, .mand 0 0 8 0, .mor 0 0 0 4, .mor 8 0 0 0,
  .mor 0 8 0 0, .mor 0 0 8 0, .mxor 0 0 0 4, .mxor 8 0 0 0, .mxor 0 8 0 0, .mxor 0 0 8 0, .mandn 0 0 0 4, .mandn 8 0 0 0,
  .mandn 0 8 0 0, .mandn 0 0 8 0, .mpop 1 0 4, .mpop 1 8 0, .mffs 1 0 4, .mffs 1 8 0, .vsel 1 1 1 4 1] = true := by decide +kernel

theorem ill_formed_of_major_3c : allRefused [
  .vcvt 1 1 1 0 5 1, .vcvt 1 1 1 5 0 1, .vf2i 1 1 1 0 4 1, .vf2i 1 1 1 5 0 1, .vi2f 1 1 1 1 5 1, .vnarrow 1 1 1 4 0 1,
  .vnarrow 1 1 1 0 0 1, .vwiden 1 1 1 1 0 4 1, .vwiden 1 1 1 1 0 0 1] = true := by decide +kernel

theorem ill_formed_of_major_3d : allRefused [
  .vperm 1 1 1 4 1, .vslideup 1 1 1 4 1, .vslidedn 1 1 1 4 1, .vcompress 1 1 4 1, .vexpand 1 1 4 1, .vzipLo 1 1 1 4 1,
  .vzipHi 1 1 1 4 1, .vuzpEv 1 1 1 4 1, .vuzpOd 1 1 1 4 1, .vrev 1 1 4 1, .vpack 1 1 1 4 1] = true := by decide +kernel

theorem ill_formed_of_major_3e : allRefused [
  .vradd 1 1 4 1, .vrmin 1 1 4 1, .vrmax 1 1 4 1, .vrminz 1 1 4 1, .vrmaxz 1 1 4 1, .vrand 1 1 4 1, .vror 1 1 4 1,
  .vrxor 1 1 4 1, .vrfadd 1 1 0 1, .vrfadd 1 1 5 1, .vscanAdd 1 1 4 1, .vscanXor 1 1 4 1, .vscanMax 1 1 4 1] = true := by decide +kernel

theorem ill_formed_of_major_3f : allRefused [
  .vsplat 1 1 4 1, .vext 1 1 1 4, .vins 0 1 1 0, .vins 1 1 1 4, .vmov 1 1 4 1, .vidx 1 4 1, .vbits 1 0 4, .vbits 1 8 0,
  .vmsk 0 1 4, .vmsk 8 1 0] = true := by decide +kernel

theorem ill_formed_of_major_40 : allRefused [
  .vld 1 1 3 1 1] = true := by decide +kernel

theorem ill_formed_of_major_41 : allRefused [
  .vst 1 1 3 1 1] = true := by decide +kernel

theorem ill_formed_of_major_42 : allRefused [
  .vlss 1 1 1 4 1 1] = true := by decide +kernel

theorem ill_formed_of_major_43 : allRefused [
  .vsss 1 1 1 4 1 1] = true := by decide +kernel

theorem ill_formed_of_major_44 : allRefused [
  .vgth 1 1 1 1 3 0 1, .vgth 1 1 1 1 0 3 1] = true := by decide +kernel

theorem ill_formed_of_major_45 : allRefused [
  .vsct 1 1 1 1 3 0 1, .vsct 1 1 1 1 0 3 1] = true := by decide +kernel

theorem ill_formed_of_major_46 : allRefused [
  .vldl 1 1 4 1, .vldlx 1 1 4 1, .vstl 1 1 4 1, .vstlx 1 1 4 1] = true := by decide +kernel

theorem ill_formed_of_major_50 : allRefused [
  .tstat 1 3] = true := by decide +kernel

/-- A kind that has a row of its own (R205). -/
theorem ill_formed_hint : Instr.wf (.hntNop 3 1) = false := rfl

/-- Immediates of helpers' operations that no word holds: too far or odd, a low part set, a shift by 32, no such operation. -/
theorem ill_formed_helper_words : ([.lui 1 0x1001, .auipc 1 0xFFF, .jal 1 3, .jal 1 0x100000, .jalr 1 2 0x800,
    .branch .beq 1 2 5, .branch .bne 1 2 0x1000, .load .lw 1 2 0x800, .store .sw 1 2 0xFFFFF7FF, .aluImm .add 1 2 0x800,
    .aluImm .sll 1 2 32, .aluImm .srl 1 2 32, .aluImm .sra 1 2 32, .aluImm .slt 1 2 0x800, .aluImm .sltu 1 2 0x800,
    .aluImm .xor 1 2 0x800, .aluImm .or 1 2 0x800, .aluImm .and 1 2 0x800, .aluImm .sub 1 2 0, .aluImm .mul 1 2 0,
    .aluImm .mulh 1 2 0, .aluImm .mulhsu 1 2 0, .aluImm .mulhu 1 2 0, .aluImm .div 1 2 0, .aluImm .divu 1 2 0,
    .aluImm .rem 1 2 0, .aluImm .remu 1 2 0] : List Rv.Op).all (fun o => !Instr.wf (.helperRv32Instr false o)) = true := by
  decide +kernel

theorem words_of_major_01 : allRead decode [
  (0x03B29810, .add 13 18 19 1), (0x03B29850, .sub 13 18 19 1), (0x03B29890, .and 13 18 19 1), (0x03B298D0, .or 13 18 19 1),
  (0x03B29910, .xor 13 18 19 1), (0x03B29950, .andn 13 18 19 1), (0x03B29990, .orn 13 18 19 1), (0x03B299D0, .sll 13 18 19 1),
  (0x03B29A10, .srl 13 18 19 1), (0x03B29A50, .sra 13 18 19 1), (0x03B29A90, .rol 13 18 19 1), (0x03B29AD0, .ror 13 18 19 1),
  (0x03B29B10, .min 13 18 19 1), (0x03B29B50, .max 13 18 19 1), (0x03B29B90, .minz 13 18 19 1), (0x03B29BD0, .maxz 13 18 19 1),
  (0x03B29C10, .addx2 13 18 19 1), (0x03B29C50, .addx4 13 18 19 1), (0x03B29C90, .addx8 13 18 19 1),
  (0x03B29CD0, .addx16 13 18 19 1), (0x03B29D10, .clmul 13 18 19 1), (0x03B29D50, .clmulh 13 18 19 1)] = true := by decide +kernel

theorem words_of_major_02 : allRead decode [
  (0x05B20010, .clz 13 18 1), (0x05B20050, .ctz 13 18 1), (0x05B20090, .pop 13 18 1), (0x05B200D0, .brev 13 18 1),
  (0x05B20110, .bswap 13 18 1), (0x05B20140, .sextb 13 18 0), (0x05B20180, .sexth 13 18 0), (0x05B201C0, .sextw 13 18 0),
  (0x05B20200, .zextb 13 18 0), (0x05B20240, .zexth 13 18 0), (0x05B20280, .zextw 13 18 0), (0x05B202D0, .neg 13 18 1),
  (0x05B20310, .not 13 18 1), (0x05B20350, .mov 13 18 1)] = true := by decide +kernel

theorem words_of_major_03 : allRead decode [
  (0x07B29810, .mul 13 18 19 1), (0x07B29850, .mulh 13 18 19 1), (0x07B29890, .mulhz 13 18 19 1),
  (0x07B298D0, .mulhsz 13 18 19 1), (0x07B29910, .div 13 18 19 1), (0x07B29950, .divz 13 18 19 1), (0x07B29990, .rem 13 18 19 1),
  (0x07B299D0, .remz 13 18 19 1)] = true := by decide +kernel

theorem words_of_major_04 : allRead decode [
  (0x09B29810, .seq 13 18 19 1), (0x09B29850, .sne 13 18 19 1), (0x09B29890, .slt 13 18 19 1), (0x09B298D0, .sge 13 18 19 1),
  (0x09B29910, .slo 13 18 19 1), (0x09B29950, .shs 13 18 19 1), (0x09B29991, .sel 13 18 19 1 1)] = true := by decide +kernel

theorem words_of_major_05 : allRead decode [
  (0x0BB29810, .bfx 13 18 19 1), (0x0BB29850, .bfxs 13 18 19 1), (0x0BB29890, .bfi 13 18 19 1)] = true := by decide +kernel

theorem words_of_major_08 : allRead decode [
  (0x11B2AAA8, .addi 13 18 43688)] = true := by decide +kernel

theorem words_of_major_09 : allRead decode [
  (0x13B2AAA8, .andi 13 18 43688)] = true := by decide +kernel

theorem words_of_major_0a : allRead decode [
  (0x15B2AAA8, .ori 13 18 43688)] = true := by decide +kernel

theorem words_of_major_0b : allRead decode [
  (0x17B2AAA8, .xori 13 18 43688)] = true := by decide +kernel

theorem words_of_major_0c : allRead decode [
  (0x19B2010E, .slli 13 18 1 14), (0x19B2014E, .srli 13 18 1 14), (0x19B2018E, .srai 13 18 1 14), (0x19B201CE, .roli 13 18 1 14)] = true := by decide +kernel

theorem words_of_major_0d : allRead decode [
  (0x1BB2B551, .cmpi 13 18 5 5457)] = true := by decide +kernel

theorem words_of_major_0e : allRead decode [
  (0x1DA0AAA9, .li 13 43689)] = true := by decide +kernel

theorem words_of_major_10 : allRead decode [
  (0x21A00AA9, .getc 13 2729)] = true := by decide +kernel

theorem words_of_major_11 : allRead decode [
  (0x22130013, .setc 19 19), (0x221100C0, .setcLogBase 17), (0x221100C5, .setcTrace 17 1), (0x22110061, .setcEvRebase 17 1),
  (0x22110064, .setcEvSpill 17), (0x22110043, .setcMxMode 17 1)] = true := by decide +kernel

theorem words_of_major_18 : allRead decode [
  (0x31195AA7, .br 17 18 5 2727)] = true := by decide +kernel

theorem words_of_major_19 : allRead decode [
  (0x33555554, .jmp 22369620)] = true := by decide +kernel

theorem words_of_major_1a : allRead decode [
  (0x35555554, .call 22369620)] = true := by decide +kernel

theorem words_of_major_1b : allRead decode [
  (0x36110000, .jr 17), (0x36110040, .callr 17)] = true := by decide +kernel

theorem words_of_major_1c : allRead decode [
  (0x39B20000, .lnest 13 18)] = true := by decide +kernel

theorem words_of_major_1d : allRead decode [
  (0x3A006AAA, .lnext 2730)] = true := by decide +kernel

theorem words_of_major_1e : allRead decode [
  (0x3DE5F800, .rep 7 18 7 7 0)] = true := by decide +kernel

theorem words_of_major_1f : allRead decode [
  (0x3E000000, .repw)] = true := by decide +kernel

theorem words_of_major_20 : allRead decode [
  (0x41B29800, .wait 13 18 19)] = true := by decide +kernel

theorem words_of_major_21 : allRead decode [
  (0x42000000, .done), (0x42000040, .yield), (0x42110080, .trap 17), (0x420000C0, .brk), (0x42000100, .eret), (0x42000140, .chk),
  (0x42000180, .nop), (0x421191C0, .cancel 17 18), (0x42119200, .cancelh 17 18), (0x42119240, .tlbinv 17 18),
  (0x43B20280, .fbflush 13 18), (0x420002C0, .halt)] = true := by decide +kernel

theorem words_of_major_28 : allRead decode [
  (0x51B2DD4F, .ld 13 18 3 0 3 1359)] = true := by decide +kernel

theorem words_of_major_29 : allRead decode [
  (0x53197D50, .st 17 18 3 3 1360)] = true := by decide +kernel

theorem words_of_major_2a : allRead decode [
  (0x55B29EE0, .ldx 13 18 19 3 0 3 1)] = true := by decide +kernel

theorem words_of_major_2b : allRead decode [
  (0x57B29EE0, .stx 13 18 19 3 3 1)] = true := by decide +kernel

theorem words_of_major_2c : allRead decode [
  (0x59B20130, .ldAcq 13 18 4 3 0), (0x58119330, .stRel 17 18 4 3), (0x59B20530, .ldSc 13 18 4 3 0),
  (0x58119730, .stSc 17 18 4 3)] = true := by decide +kernel

theorem words_of_major_2d : allRead decode [
  (0x5BB29CC1, .amoAdd 13 18 19 4 3 1), (0x5BB29CC3, .amoAnd 13 18 19 4 3 1), (0x5BB29CC5, .amoOr 13 18 19 4 3 1),
  (0x5BB29CC7, .amoXor 13 18 19 4 3 1), (0x5BB29CC9, .amoMin 13 18 19 4 3 1), (0x5BB29CCB, .amoMax 13 18 19 4 3 1),
  (0x5BB29CCD, .amoMinz 13 18 19 4 3 1), (0x5BB29CCF, .amoMaxz 13 18 19 4 3 1), (0x5BB29CD1, .amoSwap 13 18 19 4 3 1),
  (0x5BB29CD3, .amoFadd 13 18 19 4 3 1), (0x5BB29CD5, .amoIncw 13 18 19 4 3 1)] = true := by decide +kernel

theorem words_of_major_2e : allRead decode [
  (0x5C119401, .redAdd 17 18 4 1), (0x5C119403, .redAnd 17 18 4 1), (0x5C119405, .redOr 17 18 4 1),
  (0x5C119407, .redXor 17 18 4 1), (0x5C119409, .redMin 17 18 4 1), (0x5C11940B, .redMax 17 18 4 1),
  (0x5C11940D, .redMinz 17 18 4 1), (0x5C11940F, .redMaxz 17 18 4 1), (0x5C119411, .redSwap 17 18 4 1),
  (0x5C119413, .redFadd 17 18 4 1)] = true := by decide +kernel

theorem words_of_major_2f : allRead decode [
  (0x5FB29CE7, .cas 13 18 19 4 3 1 7)] = true := by decide +kernel

theorem words_of_major_30 : allRead decode [
  (0x60000020, .fenceAcq 4), (0x60000060, .fenceRel 4), (0x600000A0, .fenceFull 4), (0x601100C0, .pf 17),
  (0x60119100, .l1inv 17 18)] = true := by decide +kernel

theorem words_of_major_31 : allRead decode [
  (0x62079000, .sbind 7 18), (0x62070040, .sunbind 7), (0x63A70080, .sstat 13 7)] = true := by decide +kernel

theorem words_of_major_32 : allRead decode [
  (0x64110000, .ejob 17)] = true := by decide +kernel

theorem words_of_major_38 : allRead decode [
  (0x71B29827, .vaddFp 13 18 19 4 7), (0x71B29867, .vsubFp 13 18 19 4 7), (0x71B298A7, .vmulFp 13 18 19 4 7),
  (0x71B298E7, .vmlaFp 13 18 19 4 7), (0x71B29927, .vmlsFp 13 18 19 4 7), (0x71B29967, .vminFp 13 18 19 4 7),
  (0x71B299A7, .vmaxFp 13 18 19 4 7), (0x71B201E7, .vabsFp 13 18 4 7), (0x71B20227, .vnegFp 13 18 4 7),
  (0x71B29A67, .vdiv 13 18 19 4 7), (0x71B202A7, .vsqrt 13 18 4 7), (0x71B202E7, .vrcp 13 18 4 7), (0x71B20327, .vrsq 13 18 4 7)] = true := by decide +kernel

theorem words_of_major_39 : allRead decode [
  (0x73B2981F, .vaddInt 13 18 19 3 7), (0x73B2985F, .vsubInt 13 18 19 3 7), (0x73B2989F, .vmulInt 13 18 19 3 7),
  (0x73B298DF, .vmlaInt 13 18 19 3 7), (0x73B2991F, .vminInt 13 18 19 3 7), (0x73B2995F, .vmaxInt 13 18 19 3 7),
  (0x73B2999F, .vminz 13 18 19 3 7), (0x73B299DF, .vmaxz 13 18 19 3 7), (0x73B2021F, .vabsInt 13 18 3 7),
  (0x73B2025F, .vnegInt 13 18 3 7), (0x73B29A9F, .vadds 13 18 19 3 7), (0x73B29ADF, .vsubs 13 18 19 3 7),
  (0x73B29B1F, .vaddsz 13 18 19 3 7), (0x73B29B5F, .vsubsz 13 18 19 3 7), (0x73B29B9F, .vmulh 13 18 19 3 7),
  (0x73B29BD7, .vdot4 13 18 19 2 7), (0x73B29C17, .vdot4z 13 18 19 2 7), (0x73B29C5F, .vclmul 13 18 19 3 7),
  (0x73B29C9F, .vclmulh 13 18 19 3 7)] = true := by decide +kernel

theorem words_of_major_3a : allRead decode [
  (0x75B2981F, .vand 13 18 19 3 7), (0x75B2985F, .vor 13 18 19 3 7), (0x75B2989F, .vxor 13 18 19 3 7),
  (0x75B298DF, .vandn 13 18 19 3 7), (0x75B2011F, .vnot 13 18 3 7), (0x75B2995F, .vshl 13 18 19 3 7),
  (0x75B2999F, .vshr 13 18 19 3 7), (0x75B299DF, .vsra 13 18 19 3 7), (0x75B2021F, .vpopc 13 18 3 7),
  (0x75B2025F, .vclz 13 18 3 7), (0x75B25A9F, .vshli 13 18 11 3 7), (0x75B25ADF, .vshri 13 18 11 3 7),
  (0x75B25B1F, .vsrai 13 18 11 3 7)] = true := by decide +kernel

theorem words_of_major_3b : allRead decode [
  (0x76D2981F, .veq 6 18 19 3 7), (0x76D2985F, .vne 6 18 19 3 7), (0x76D2989F, .vlt 6 18 19 3 7), (0x76D298DF, .vge 6 18 19 3 7),
  (0x76D2991F, .vlo 6 18 19 3 7), (0x76D2995F, .vhs 6 18 19 3 7), (0x76D299A7, .vfeq 6 18 19 4 7),
  (0x76D299E7, .vflt 6 18 19 4 7), (0x76D29A27, .vfle 6 18 19 4 7), (0x76D29A67, .vfun 6 18 19 4 7), (0x76C42C18, .mand 6 4 5 3),
  (0x76C42C58, .mor 6 4 5 3), (0x76C42C98, .mxor 6 4 5 3), (0x76C42CD8, .mandn 6 4 5 3), (0x77A40518, .mpop 13 4 3),
  (0x77A40558, .mffs 13 4 3), (0x77B29D9F, .vsel 13 18 19 3 7)] = true := by decide +kernel

theorem words_of_major_3c : allRead decode [
  (0x79B2E027, .vcvt 13 18 3 4 4 7), (0x79B2E05F, .vf2i 13 18 3 4 3 7), (0x79B2F8A7, .vi2f 13 18 3 7 4 7),
  (0x79B2D8D7, .vnarrow 13 18 3 3 2 7), (0x79B2D11F, .vwiden 13 18 1 1 2 3 7)] = true := by decide +kernel

theorem words_of_major_3d : allRead decode [
  (0x7BB2981F, .vperm 13 18 19 3 7), (0x7BB2985F, .vslideup 13 18 19 3 7), (0x7BB2989F, .vslidedn 13 18 19 3 7),
  (0x7BB200DF, .vcompress 13 18 3 7), (0x7BB2011F, .vexpand 13 18 3 7), (0x7BB2995F, .vzipLo 13 18 19 3 7),
  (0x7BB2999F, .vzipHi 13 18 19 3 7), (0x7BB299DF, .vuzpEv 13 18 19 3 7), (0x7BB29A1F, .vuzpOd 13 18 19 3 7),
  (0x7BB2025F, .vrev 13 18 3 7), (0x7BB29A9F, .vpack 13 18 19 3 7)] = true := by decide +kernel

theorem words_of_major_3e : allRead decode [
  (0x7DB2001F, .vradd 13 18 3 7), (0x7DB2005F, .vrmin 13 18 3 7), (0x7DB2009F, .vrmax 13 18 3 7),
  (0x7DB200DF, .vrminz 13 18 3 7), (0x7DB2011F, .vrmaxz 13 18 3 7), (0x7DB2015F, .vrand 13 18 3 7),
  (0x7DB2019F, .vror 13 18 3 7), (0x7DB201DF, .vrxor 13 18 3 7), (0x7DB20227, .vrfadd 13 18 4 7),
  (0x7DB2025F, .vscanAdd 13 18 3 7), (0x7DB2029F, .vscanXor 13 18 3 7), (0x7DB202DF, .vscanMax 13 18 3 7)] = true := by decide +kernel

theorem words_of_major_3f : allRead decode [
  (0x7FB2001F, .vsplat 13 18 3 7), (0x7FB29858, .vext 13 18 19 3), (0x7FB29898, .vins 13 18 19 3), (0x7FB200DF, .vmov 13 18 3 7),
  (0x7FA0011F, .vidx 13 3 7), (0x7FA40158, .vbits 13 4 3), (0x7ED20198, .vmsk 6 18 3)] = true := by decide +kernel

theorem words_of_major_40 : allRead decode [
  (0x81B29D50, .vld 13 18 2 3 1360)] = true := by decide +kernel

theorem words_of_major_41 : allRead decode [
  (0x83195D50, .vst 17 18 2 3 1360)] = true := by decide +kernel

theorem words_of_major_42 : allRead decode [
  (0x85B29BC7, .vlss 13 18 19 3 3 7)] = true := by decide +kernel

theorem words_of_major_43 : allRead decode [
  (0x87B29BC7, .vsss 13 18 19 3 3 7)] = true := by decide +kernel

theorem words_of_major_44 : allRead decode [
  (0x89B29F57, .vgth 13 18 19 14 2 2 7)] = true := by decide +kernel

theorem words_of_major_45 : allRead decode [
  (0x8BB29F57, .vsct 13 18 19 14 2 2 7)] = true := by decide +kernel

theorem words_of_major_46 : allRead decode [
  (0x8DB2001F, .vldl 13 18 3 7), (0x8DB2005F, .vldlx 13 18 3 7), (0x8C11909F, .vstl 17 18 3 7), (0x8C1190DF, .vstlx 17 18 3 7)] = true := by decide +kernel

theorem words_of_major_50 : allRead decode [
  (0xA02CA600, .tcfg 5 18 19), (0xA02CA620, .tld 5 18 19), (0xA02CA640, .tst 5 18 19), (0xA0280060, .tfetch 5),
  (0xA0280080, .tevict 5), (0xA02800A0, .tzero 5), (0xA02880C0, .tstat 5 2), (0xA02800E0, .tpin 5), (0xA0280100, .tunpin 5)] = true := by decide +kernel

theorem words_of_major_51 : allRead decode [
  (0xA200A000, .mwld 5), (0xA200A010, .mwldSp 5), (0xA2501220, .mmeta 5 18), (0xA20A0031, .mmul 5 1),
  (0xA20B1341, .mmulSc 5 8 19 1), (0xA2001150, .mwsc 17), (0xA3A00060, .mst 13), (0xA20A0070, .mld 5), (0xA2000080, .mfence)] = true := by decide +kernel

theorem words_of_major_52 : allRead decode [
  (0xA4119007, .cpush 17 18 7), (0xA4000047, .cflush 7), (0xA4119087, .carm 17 18 7)] = true := by decide +kernel

theorem words_of_major_58 : allRead decode [
  (0xB1A00000, .evpop 13), (0xB1A00040, .evpay 13), (0xB0119081, .evsend 17 18 1), (0xB01190C0, .evwinClose 17 18),
  (0xB1A00100, .evstat 13)] = true := by decide +kernel

theorem words_of_major_59 : allRead decode [
  (0xB2110000, .spawn 17), (0xB2110040, .dec 17), (0xB3B29880, .qpush 13 18 19), (0xB3B200C0, .qpop 13 18),
  (0xB3B29900, .bar 13 18 19)] = true := by decide +kernel

theorem words_of_major_7f : allRead decode [
  (0xFE1FFFFF, .hntStall 7 7 7 7 7 7 7), (0xFE355554, .hntImm 1398100), (0xFE400155, .hntMod 0x155), (0xFE600003, .hntBr 3),
  (0xFEB55553, .hntNop 5 1398099)] = true := by decide +kernel

theorem words_of_helpers : allRead helperDecode [
  (0x3E05800B, .ylLdFifo 7 3 11), (0x4604058B, .ylLdReg 3 8 11), (0x3804100B, .ylPush 7 8), (0x0685A00B, .ylBase 3 8 11),
  (0x3800340B, .ylWait 7 8), (0x7800400B, .ylEnd 1 7), (0x3800042B, .ylPop 7 8), (0x3E05902B, .ylSt 7 3 11)] = true := by decide +kernel

/-- The word of a helper decodes to the operation, in its 32-bit form or its compressed one. -/
noncomputable def allHelp (z : Bool) (l : List (Nat × Rv.Op)) : Bool :=
  l.all (fun e => reads helperDecode e.1 (.helperRv32Instr z e.2))

/-- Words of RV32I and M (14 R372), from the encodings of the RISC-V Unprivileged ISA. -/
theorem words_of_rv32 : allHelp false [(0x123452B7, .lui 5 0x12345000), (0x00001297, .auipc 5 0x1000), (0x008000EF, .jal 1 8),
    (0x004100E7, .jalr 1 2 4), (0xFE208EE3, .branch .beq 1 2 0xFFFFFFFC), (0x0020D463, .branch .bge 1 2 8),
    (0xFFC32283, .load .lw 5 6 0xFFFFFFFC), (0x00334283, .load .lbu 5 6 3), (0x005301A3, .store .sb 6 5 3),
    (0xFE532FA3, .store .sw 6 5 0xFFFFFFFF), (0xFFF30293, .aluImm .add 5 6 0xFFFFFFFF), (0x40335293, .aluImm .sra 5 6 3),
    (0x00331293, .aluImm .sll 5 6 3), (0x00C58533, .alu .add 10 11 12), (0x407302B3, .alu .sub 5 6 7),
    (0x027302B3, .alu .mul 5 6 7), (0x027372B3, .alu .remu 5 6 7)] = true := by decide +kernel

/-- Words of RV32C, each as the operation it stands for. -/
theorem words_of_rv32c : allHelp true [(0x0040, .aluImm .add 8 2 4), (0x4044, .load .lw 9 8 4), (0xC044, .store .sw 8 9 4),
    (0x0405, .aluImm .add 8 8 1), (0x557D, .aluImm .add 10 0 0xFFFFFFFF), (0x6285, .lui 5 0x1000), (0x6141, .aluImm .add 2 2 16),
    (0x8005, .aluImm .srl 8 8 1), (0x8805, .aluImm .and 8 8 1), (0x8C05, .alu .sub 8 8 9), (0xC011, .branch .beq 8 0 4),
    (0xBFFD, .jal 0 0xFFFFFFFE), (0x4092, .load .lw 1 2 4), (0x8082, .jalr 0 1 0), (0x829A, .alu .add 5 0 6),
    (0x929A, .alu .add 5 5 6), (0xC006, .store .sw 2 1 0), (0x0286, .aluImm .sll 5 5 1)] = true := by decide +kernel

theorem words_of_helper_system : reads helperDecode 0x0FF0000F .helperFence = true ∧
    reads helperDecode 0x00100073 (.helperEbreak false) = true ∧ reads helperDecode 0x9002 (.helperEbreak true) = true := by
  decide +kernel

/-- ECALL, FENCE.I, a read of a counter and the all-zero word are no instructions of a helper (R372). -/
theorem words_refused_to_helpers : ([0x00000073, 0x0000100F, 0xC0002573, 0].all (fun w => match helperDecode w with
    | .ok _ => false
    | .error _ => true)) = true := by decide +kernel

/-! ## States that meet the hypotheses of the statements

`issues` and `reaches` say it of core 0 on the state given; `issues_sound` says what they mean. -/

open Machine

/-- A type entry with a trap entry, a region of 256 KiB, 64 tiles and all vector registers. -/
def entry : BitVec 512 := BitVec.ofNat 512 (0x100 * 2 ^ 128 + 64 * 2 ^ 320 + 64 * 2 ^ 328 + 2 * 2 ^ 336)

/-- The state after reset and the first clears, with core 0 in RUN and in turn, as `f` changes that core. -/
def onCore (f : Core → Core) : State :=
  let s := (State.reset.modSquare 0 (fun q => { q with clearing := false })).modCore 0 (fun k =>
    f { k with mode := .run, task := { k.task with entry := entry } })
  { s with actor := { core := 0, part := .main }, todo := [] }

/-- Core 0 with these scalar registers, and with these vector registers. -/
def withK (l : List (Nat × Word)) (k : Core) : Core := { k with regs := l.foldl (fun r e => r.put .k e.1 (scalar e.2)) k.regs }
def withV (l : List (Nat × Vec)) (k : Core) : Core := { k with regs := l.foldl (fun r e => r.put .v e.1 e.2) k.regs }

/-- Something comes about. -/
def comes (r : Res α) (p : α → Bool) : Bool :=
  match r with
  | .ok x => p x
  | .error _ => false

/-- A trap comes about. -/
def faults (r : Res α) (p : TrapInfo → Bool) : Bool :=
  match r with
  | .error (.trap f) => p f
  | _ => false

theorem comes_sound {r : Res α} {p : α → Bool} (h : comes r p = true) : ∃ x, r = .ok x ∧ p x = true := by
  cases r with
  | ok x => exact ⟨x, rfl, h⟩
  | error e => exact absurd h Bool.false_ne_true

/-- The instruction issues on core 0, on operands and a state that satisfy `p`. -/
def issues (s : State) (g : Sig) (p : List Vec → State → Bool) : Bool :=
  decide (s.actor.core.val = 0) && decide ((s.core 0).mode = .run) && decide ((s.core 0).task.gang = 0) &&
    comes (issueChecks s 0 g) (fun _ => true) && comes (popOperands (beginIssue s 0 g) 0 g.srcs) (fun r => p r.1 r.2)

theorem issues_sound {s : State} {g : Sig} {p : List Vec → State → Bool} (h : issues s g p = true) :
    ∃ vs s1, Issues s 0 g vs s1 ∧ p vs s1 = true := by
  simp only [issues, Bool.and_eq_true, decide_eq_true_eq] at h
  obtain ⟨⟨⟨⟨h1, h2⟩, h3⟩, h4⟩, h5⟩ := h
  obtain ⟨u, hu, -⟩ := comes_sound h4
  obtain ⟨⟨vs, s1⟩, hp, hq⟩ := comes_sound h5
  exact ⟨vs, s1, ⟨⟨h1, h2, h3⟩, hu, hp⟩, hq⟩

/-- No operand field and no result of the instruction is a stream, and so it is where `Streamless` is asked. -/
def streamless (s : State) (g : Sig) : Bool :=
  g.srcs.all (fun e => decide ((s.core 0).boundAt (operand e.1 e.2) = none)) &&
    (destReg g.dst).all (fun r => decide ((s.core 0).boundAt r = none))

theorem streamless_sound {s : State} {g : Sig} (h : streamless s g = true) : Streamless s 0 g := by
  simp only [streamless, Bool.and_eq_true, List.all_eq_true, decide_eq_true_eq] at h
  refine ⟨h.1, fun r hr => ?_⟩
  have h2 := h.2
  rw [hr] at h2
  exact of_decide_eq_true h2

/-- The instruction issues, neither operand nor result a stream: the hypotheses of `Writes`, its first clause, and of `WritesLater`. -/
def plainly (s : State) (g : Sig) : Bool := issues s g (fun _ _ => true) && streamless s g

/-- The scalar instructions issue, each with the operands that its group has. -/
theorem witness_scalar_results :
    let s := onCore (withK [(3, 5), (4, 7), (5, 0x307)])
    let two := fun (lat cls : Nat) => plainly s { srcs := [(.k, 3), (.k, 4)], dst := some (.k, 2), lat := lat, cls := cls }
    two 1 0 ∧ two 3 0 ∧ two 0 1 ∧ plainly s { srcs := [(.k, 3)], dst := some (.k, 2), lat := 1 } ∧
      plainly s { srcs := [(.k, 3), (.k, 4), (.k, 5)], dst := some (.k, 2), lat := 1 } ∧
      plainly s { srcs := [(.k, 3)], dst := some (.k, 2), lat := 1, use := { imm := 13 } } ∧
      plainly s { srcs := [(.k, 3)], dst := some (.k, 2), lat := 1, use := { imm := 16 } } ∧
      plainly s { dst := some (.k, 2), lat := 1, use := { imm := 16 } } ∧
      plainly s { srcs := [(.k, 3), (.k, 5)], dst := some (.k, 2), also := [(.k, 2)], lat := 1 } := by decide +kernel

/-- Two addresses of the core's own scratchpad. -/
def here : Word := BitVec.ofNat 64 (localLoc + 0x40)
def atEnd : Word := BitVec.ofNat 64 (localLoc + 0x3FFF8)

/-- A task of core 0 that may access its scratchpad: `k3` and `k5` hold addresses, the last an 8-byte word's at the end, `k4` a
stride, `k6` a value; lanes 0 to 3 of `v3` are small, and `m1` has four lanes. -/
def mem0 : State := onCore (fun k => withV [(3, BitVec.ofNat 512 (4 * 2 ^ 32 + 8 * 2 ^ 64 + 0xFFFF * 2 ^ 96))]
  (withK [(3, here), (4, 8), (5, atEnd), (6, 3)] { k with regs := { k.regs with m := k.regs.m.set 1 0xF } }))

def acc (s : State) (k : AccessKind) (va : Word) (n align : Nat) : Access := taskAccess s 0 k va.toNat n align

theorem witness_loads_complete :
    let g : Sig := { srcs := [(.k, 5)], dst := some (.k, 2), cls := 4, use := { imm := 11 } }
    let loads := fun (s1 : State) (va : Word) (n : Nat) (f : RegFile) =>
      comes (loadData s1 (acc s1 .read va n 1) (some 0)) (fun r => comes (putVariable r.2 0 f 2 (BitVec.ofNat 512 r.1)) (fun _ => true))
    issues mem0 g (fun vs s1 => loads s1 (arg vs 0) 8 .k) ∧
      issues mem0 { g with srcs := [(.k, 3), (.k, 4)], use := {} } (fun vs s1 => loads s1 (arg vs 0 + arg vs 1) 1 .k) ∧
      issues mem0 { g with srcs := [(.k, 3)], dst := some (.v, 2) } (fun vs s1 => loads s1 (arg vs 0) 64 .v) := by decide +kernel

theorem witness_stores_complete :
    let g : Sig := { srcs := [(.k, 5), (.k, 6)], cls := 4, use := { imm := 11 } }
    let stores := fun (s1 : State) (va : Word) (n data : Nat) (plain : Bool) =>
      comes (storeData s1 (acc s1 .write va n 1) (data % 2 ^ (8 * n)) plain false) (fun _ => true)
    issues mem0 g (fun vs s1 => stores s1 (arg vs 0) 8 (arg vs 1).toNat true) ∧
      issues mem0 { g with srcs := [(.k, 3), (.k, 4), (.k, 6)], use := {} }
        (fun vs s1 => stores s1 (arg vs 0 + arg vs 1) 1 (arg vs 2).toNat true) ∧
      issues mem0 { g with srcs := [(.k, 3), (.v, 3)] } (fun vs s1 => stores s1 (arg vs 0) 64 (argV vs 1).toNat false) := by
  decide +kernel

/-- Another core than core 0 is as after reset. -/
theorem onCore_other (f : Core → Core) {o : Nat} (h : o ≠ 0) : (onCore f).core o = Core.reset o :=
  Table.getD_set_other _ _ _ _ _ h

/-- A lone task and nothing in the way of its scratchpad. -/
theorem undisturbed_of {f : Core → Core}
    (h : (onCore f).errors = [] ∧ ((onCore f).core 0).spad.ret = 0 ∧ ((onCore f).core 0).spad.retiring = [] ∧
      ((onCore f).square 0).clearing = false ∧ ((onCore f).core 0).sbuf = [] ∧ ((onCore f).core 0).near = [] ∧ (onCore f).scOps = [] ∧
      (∀ e ∈ (onCore f).cores, e.2.atoms = []) ∧ flag ((onCore f).core 0).trace.len 63 = false ∧ ((onCore f).core 0).task.gang = 0) :
    Undisturbed (onCore f) 0 := by
  obtain ⟨h1, h2, h3, h4, h5, h6, h7, h8, h9, h10⟩ := h
  refine ⟨by decide, h1, h2, h3, h4, h5, h6, h7, h8, fun o => ?_, h10⟩
  by_cases h : o = 0
  · subst h; exact h9
  · rw [onCore_other f h]; exact (by decide +kernel : flag Trace.reset.len 63 = false)

theorem witness_scratchpad : Undisturbed mem0 0 ∧ 0x3FFC0 + 64 ≤ 0x40000 ∧ 0x3FFF8 % 8 = 0 ∧ 0x3FFF8 + 8 ≤ 0x40000 :=
  ⟨undisturbed_of (by decide +kernel), by decide⟩

/-- A task of job 0 whose root table is `root`: in the tables at 0x2000, the first page of the space may be read, the second is absent. -/
def walked (root : Word) : State :=
  (((((mem0.modJob 0 (fun j => { j with ptb0 := root })).modDie 0 (fun d => { d with chcap := 1 })).write (pagedLoc 0 0x2000) 8
    0x4001).write (pagedLoc 0 0x4000) 8 0x6001).write (pagedLoc 0 0x6000) 8 0x8001).write (pagedLoc 0 0x8000) 8 0x10003

/-- Accesses at the end of a page that may be read and not written, in a page that is absent, of a job without tables, and of one whose
root lies in no memory. -/
theorem witness_paged_accesses :
    let s := walked 0x2001
    let lost := walked (2 ^ 40 + 1)
    let a := acc s .read 0xFF8 8 8
    let walk := fun (va : Nat) => pageWalk (fun x => s.read (pagedLoc 0 x) 8) (installed s 0) va 3 0x2000
    a.va < 2 ^ 53 ∧ a.va + a.len ≤ 2 ^ 53 ∧ a.va % a.align = 0 ∧ naturallyAligned a = true ∧ s.errors = [] ∧ s.poison = [] ∧
    (s.die 0).tlb = [] ∧ (s.die 0).walk = [] ∧ (s.die 0).hbPol = 0 ∧ s.scOps = [] ∧ (s.core 0).l1d = [] ∧ (s.core 0).fills = [] ∧
    (s.core 0).sbuf = [] ∧ (s.core 0).near = [] ∧ (s.core 0).task.gang = 0 ∧
    rootOf s 0 0 = some 0x2000 ∧ 0x2000 + 8192 ≤ installed s 0 ∧ rootOf mem0 0 0 = none ∧ rootOf lost 0 0 = some (2 ^ 40) ∧
    installed lost 0 < 2 ^ 40 + 8192 ∧
    (match walk 0xFF8 with
      | .ok pte => pte == 0x10003 && decide (0xFF8 % (4096 * 4 ^ (pte / 2 ^ 5 % 16)) + 8 ≤ 4096 * 4 ^ (pte / 2 ^ 5 % 16))
      | .error _ => false) = true ∧
    (match walk 0x1000 with
      | .error e => e == (cPageAbsent, 0)
      | .ok _ => false) = true ∧
    rightsAllow .read false 0x10003 ∧ ¬ rightsAllow .write false 0x10003 := by
  refine ⟨by decide +kernel, by decide +kernel, by decide +kernel, by decide +kernel, by decide +kernel, by decide +kernel,
    by decide +kernel, by decide +kernel, by decide +kernel, by decide +kernel, by decide +kernel, by decide +kernel,
    by decide +kernel, by decide +kernel, by decide +kernel, by decide +kernel, by decide +kernel, by decide +kernel,
    by decide +kernel, by decide +kernel, by decide +kernel, by decide +kernel, ⟨by decide +kernel, by decide +kernel⟩, ?_⟩
  exact fun h => absurd h.1 (by decide +kernel)

/-- FP32 sums at the rules' corners: a NaN, numbers of opposite signs, opposite infinities, and two negative zeros. -/
theorem witness_atomic_sums :
    0x7F800000 < (0x7F800001 : BitVec 32).toNat % 2 ^ 31 ∧
    ((0x3F800000 : BitVec 32) ≠ 0xBF800000 ∧ (0x3F800000 : BitVec 32).toNat % 2 ^ 31 = (0xBF800000 : BitVec 32).toNat % 2 ^ 31 ∧
      (0x3F800000 : BitVec 32).toNat % 2 ^ 31 < 0x7F800000) ∧
    ((0x7F800000 : BitVec 32) ≠ 0xFF800000 ∧ (0xFF800000 : BitVec 32).toNat % 2 ^ 31 = 0x7F800000) := by decide

theorem witness_strided_and_indexed_accesses_complete :
    let g : Sig := { srcs := [(.k, 3), (.k, 4)], also := maskReg 1, dst := some (.v, 2), cls := 4 }
    let gi : Sig := { g with srcs := [(.k, 3), (.v, 3), (.k, 4)] }
    let at_ := fun (vs : List Vec) (l : Nat) => arg vs 0 + BitVec.ofNat 64 l * arg vs 1
    let plan := fun (vs : List Vec) (s1 : State) => gatherPlan 1 1 (arg vs 0) (argV vs 1) (boundOf 4 (arg vs 2)) (maskOf (s1.core 0) 1)
    issues mem0 g (fun vs s1 => comes (loadEach s1 (some 0) ([0, 1, 2, 3].map (fun j => acc s1 .read (at_ vs j) 4 1)))
      (fun r => comes (putLanes r.2 0 2 0 32 0xF (atLanes 16 [0, 1, 2, 3] r.1)) (fun _ => true))) ∧
    issues mem0 { g with srcs := [(.k, 3), (.k, 4), (.v, 2)], dst := none } (fun vs s1 =>
      comes (storeMany s1 ([0, 1, 2, 3].map (fun j => (acc s1 .write (at_ vs j) 4 1, lane 32 (argV vs 2) j)))) (fun _ => true)) ∧
    issues mem0 gi (fun vs s1 =>
      let accesses := (plan vs s1).2.map (fun x => taskAccess s1 0 .read x.2 4 4)
      comes (elementsReady s1 accesses) (fun s0 => comes (loadEach (accesses.foldl gatherCounted s0) none accesses) (fun r =>
        comes (putLanes r.2 0 2 0 32 0xF (atLanes 16 ((plan vs s1).2.map (·.1)) r.1)) (fun s3 =>
          (plan vs s1).1 == [2, 3] && comes (clearDropped s3 0 1 16 0xF (plan vs s1).1) (fun _ => true))))) ∧
    issues mem0 { gi with srcs := [(.k, 3), (.v, 3), (.k, 4), (.v, 2)], dst := none } (fun vs s1 =>
      comes (storeMany s1 ((plan vs s1).2.map (fun x => (taskAccess s1 0 .write x.2 4 4, lane 32 (vs.getLast?.getD 0) x.1))))
        (fun s2 => comes (clearDropped s2 0 1 16 0xF (plan vs s1).1) (fun _ => true))) := by decide +kernel

/-- The last offset of a slice, and offsets of lanes of which one is beyond it. -/
theorem witness_lane_slice_accesses_complete :
    let s := onCore (fun k => withV [(3, BitVec.ofNat 512 (0x3FF * 2 ^ 32 + 0x400 * 2 ^ 64))] (withK [(3, 0xFFC)] k))
    issues s { srcs := [(.k, 3)], also := maskReg 0, dst := some (.v, 2), cls := 4 } (fun vs s1 =>
      arg vs 0 == 0xFFC && comes (readUniform s1 0 (arg vs 0).toNat 32 0xFFFF (List.range 16)) (fun r =>
        comes (putLanes r.2 0 2 0 32 0xFFFF ((List.range 16).map (fun j => r.1 / 2 ^ (32 * j) % 2 ^ 32))) (fun _ => true))) ∧
    issues s { srcs := [(.v, 3)], also := maskReg 0, dst := some (.v, 2), cls := 4 } (fun vs s1 =>
      comes (readLanes s1 0 32 (argV vs 0) (List.range 16)) (fun r =>
        comes (putLanes r.2 0 2 0 32 0xFFFF (atLanes 16 (List.range 16) r.1)) (fun _ => true))) ∧
    issues s { srcs := [(.k, 3), (.v, 3)], also := maskReg 0, cls := 4 } (fun vs s1 =>
      comes (writeUniform s1 0 (arg vs 0).toNat 32 (maskOf (s1.core 0) 0) (argV vs 1) (List.range 16)) (fun _ => true)) ∧
    issues s { srcs := [(.v, 3), (.v, 3)], also := maskReg 0, cls := 4 } (fun vs s1 =>
      comes (writeLanes s1 0 32 (argV vs 0) (argV vs 1) (List.range 16)) (fun _ => true)) := by decide +kernel

theorem witness_ordered_accesses_complete :
    let gl : Sig := { srcs := [(.k, 5)], dst := some (.k, 2), cls := 4, use := { scope := true } }
    let gs : Sig := { srcs := [(.k, 5), (.k, 6)], cls := 4, use := { scope := true } }
    issues mem0 gl (fun vs s1 => comes (loadData s1 (acc s1 .read (arg vs 0) 8 8) none) (fun r =>
      comes (putVariable r.2 0 .k 2 (BitVec.ofNat 512 r.1)) (fun _ => true))) ∧
    issues mem0 gs (fun vs s1 => comes (releaseWait s1 0 4) (fun _ =>
      comes (storeData s1 (acc s1 .write (arg vs 0) 8 8) (arg vs 1).toNat false true) (fun _ => true))) ∧
    issues mem0 gl (fun vs s1 => comes (scTarget s1 (acc s1 .read (arg vs 0) 8 8) false) (fun r =>
      comes (scWait r.2 0 4) (fun _ => comes (putAwaited r.2 0 2) (fun q =>
        comes (scIssue q.2 0 r.1 { op := none, width := 8, sext := true, operand := 0, expected := 0 } (some q.1)) (fun _ => true))))) ∧
    issues mem0 gs (fun vs s1 => comes (scTarget s1 (acc s1 .write (arg vs 0) 8 8) true) (fun r =>
      comes (scWait r.2 0 4) (fun _ => comes (scIssue (commit (l1dInvalidate r.2 0 0 (arg vs 0).toNat 8) 0) 0 r.1
        { op := some 99, width := 8, sext := false, operand := arg vs 1, expected := 0 } none) (fun _ => true)))) := by
  decide +kernel

/-- At the width of 8 and at a fetch-and-add of floating-point numbers, with the SC variant and without; a compare and swap. -/
theorem witness_returning_atomics_complete :
    let g : Sig := { srcs := [(.k, 5), (.k, 6)], dst := some (.k, 2), cls := 4, use := { sc := true, scope := true } }
    let sc := onCore (fun k => withK [(5, atEnd), (6, 3)] { k with pipe := { k.pipe with hints := { Hints.none with mod := some 0x200 } } })
    issues mem0 g (fun vs s1 => comes (returningAtomic 0 none 0 2 (arg vs 0).toNat (arg vs 1).toNat 8 0 3 s1) (fun _ => true)) ∧
    issues sc g (fun vs s1 => comes (returningAtomic 10 none 0 2 (arg vs 0).toNat (arg vs 1).toNat 8 4 0 s1) (fun _ => true)) ∧
    issues mem0 g (fun vs s1 => comes (returningAtomic 9 none 0 2 (arg vs 0).toNat (arg vs 1).toNat 4 0 0 s1) (fun _ => true)) ∧
    issues mem0 { g with srcs := [(.k, 5), (.k, 6), (.k, 4)] } (fun vs s1 =>
      comes (returningAtomic 99 (some (arg vs 2).toNat) 0 2 (arg vs 0).toNat (arg vs 1).toNat 8 0 0 s1) (fun _ => true)) := by
  decide +kernel

theorem witness_reductions_to_memory_complete :
    issues mem0 { srcs := [(.k, 5), (.k, 6)], cls := 4, use := { scope := true } } (fun vs s1 =>
      comes (atomicData s1 (acc s1 .atomic (arg vs 0) 8 8) { op := 0, operand := (arg vs 1).toNat, expected := none } 1 false false
        (some 1)) (fun _ => true)) := by decide +kernel

/-- Nothing of the task's is under way; a range of two sectors. -/
theorem witness_fences_and_cache_control_complete :
    issues mem0 { cls := 4, use := { scope := true } } (fun _ s1 => s1.scOps.all (fun o => o.core.val != 0) && (s1.core 0).near == [] &&
      comes (settleTask s1 0 4) (fun _ => true)) ∧
    issues mem0 { srcs := [(.k, 3)], cls := 4, use := { scope := true } } (fun _ _ => true) ∧
    issues mem0 { srcs := [(.k, 3), (.k, 4)], cls := 4, use := { scope := true } } (fun _ _ => true) := by decide +kernel

/-- A task of the SYSTEM mode, of job 0. -/
def sysCore (f : Core → Core) : State := onCore (fun k => f { k with task := { k.task with record := 0x8000 } })

theorem witness_control_register_reads :
    plainly (onCore id) { dst := some (.k, 2), lat := 1 } ∧ plainly (onCore id) { dst := some (.k, 2) } ∧
      plainly (sysCore id) { dst := some (.k, 2), lat := 1, sys := true } := by decide +kernel

/-- The values of a write at the bounds of what each register takes: 0, all its writable bits, the greatest legal number. -/
theorem witness_control_register_writes :
    let g : Sig := { srcs := [(.k, 3)] }
    let value := fun (v : Word) (p : Word → State → Bool) => issues (onCore (withK [(3, v)])) g (fun vs s1 => p (arg vs 0) s1)
    let within := fun (allowed : Word) (v : Word) (_ : State) => v &&& ~~~allowed == 0
    value 0x1FF (within 0x1FF) ∧ value (-1) (within (BitVec.allOnes 64)) ∧ value 0xFFFF000F3F7FFFFF (within 0xFFFF000F3F7FFFFF) ∧
    value 0x1FF805 (within 0x1FF805) ∧ value 0xFFFFFFFF00000001 (within 0xFFFFFFFF00000001) ∧ value 0xFFFF (within 0xFFFF) ∧
    value 0x116 (fun v s1 => within 0x1FF v s1 && decide (v.toNat % 256 ≤ 0x16)) ∧ value 0xFFFFFF (within 0xFFFFFF) ∧
    value 3 (fun v _ => decide (v.toNat < 4)) ∧ value 16 (fun v _ => decide (v.toNat ≤ 16)) ∧
    value 0xFFFFFFFF (within 0xFFFFFFFF) ∧
    value 0x10000FFF (fun v s1 => within 0xFFFFFFFF1FFF0FFF v s1 && within 0x1FFF0FFF v s1 && decide (field v 16 13 ≤ 4096) &&
      !decide (field v 0 12 * 64 + field v 16 13 * 16 ≤ (s1.core 0).task.region)) ∧
    value 0x0C000C00 (fun v s1 => within 0xFFFFFFFF1FFF0FFF v s1 && within 0x1FFF0FFF v s1 && decide (field v 16 13 ≤ 4096) &&
      decide (field v 0 12 * 64 + field v 16 13 * 16 ≤ (s1.core 0).task.region) && (s1.core 0).ev.ringUsed == 0 &&
      (s1.core 0).pool.used == [] && (s1.core 0).tiles.all (fun e => e.2.logCnt == 0)) ∧
    value 0 (fun v s1 => within 0xFFFFFFFFFFFFFFC0 v s1 && traceLegal 0 (s1.core 0).task v (s1.core 0).trace.len) ∧
    value 0 (fun v s1 => within 0x80FC00000000FFFF v s1 && traceLegal 0 (s1.core 0).task (s1.core 0).trace.base v) := by
  decide +kernel

/-- A branch on two registers, one always taken, a jump, a call, and register jumps to a word's address. -/
theorem witness_branches_and_jumps_complete :
    let s := onCore (withK [(3, 5), (5, 0x40)])
    issues s { srcs := [(.k, 3), (.k, 5)], use := { br := true } } (fun _ _ => true) ∧
      issues s { use := { br := true } } (fun _ _ => true) ∧ issues s {} (fun _ _ => true) ∧
      issues s { dst := some (.k, 7), lat := 1 } (fun _ _ => true) ∧
      issues s { srcs := [(.k, 5)] } (fun vs _ => arg vs 0 &&& 3 == 0) ∧
      issues s { srcs := [(.k, 5)], dst := some (.k, 7), lat := 1 } (fun vs _ => arg vs 0 &&& 3 == 0) := by decide +kernel

/-- A descriptor of 2 by 3 iterations with its counter in the square's memory, and a nest within its chunk and at the end of it. -/
def nest0 : Nest :=
  { active := true, e := [2, 3, 1, 1], cnt := BitVec.ofNat 64 (squareLoc 0), parts := 2, minChunk := 1, order := 0xE4, pos := 0, stop := 3 }

theorem witness_loop_nests_complete :
    let d := 2 + 3 * 2 ^ 32 + 2 ^ 64 + 2 ^ 96 + squareLoc 0 * 2 ^ 128 + 2 * 2 ^ 192 + 2 ^ 224 + 0xE4 * 2 ^ 256
    let s := (onCore (withK [(3, here)])).write (scratchLoc 0 + 0x40) 64 d
    let within := onCore (fun k => { k with nest := nest0 })
    let last := onCore (fun k => { k with nest := { nest0 with pos := 2 } })
    let gn : Sig := { more := [(.k, 8), (.k, 9), (.k, 10), (.k, 11)], use := { br := true } }
    issues s { gn with srcs := [(.k, 3)], dst := some (.k, 2), use := {} } (fun vs s1 =>
      comes (loadStruct s1 0 (arg vs 0).toNat 64 64) (fun r => nestLegal r.1 &&
        comes (counterCheck (nestOf r.1).cnt.toNat) (fun _ => comes (claimChunk r.2 0 (nestOf r.1)) (fun q => q.2.1 == 3 &&
          comes (putKLater (takeChunk q.2.2 0 (nestOf r.1) q.1 q.2.1) 0 2 3) (fun _ => true))))) ∧
    issues (onCore id) gn (fun _ s1 => !(s1.core 0).nest.active) ∧
    issues within gn (fun _ s1 => (s1.core 0).nest.active && decide ((s1.core 0).nest.pos + 1 < (s1.core 0).nest.stop)) ∧
    issues last gn (fun _ s1 => (s1.core 0).nest.active && decide ((s1.core 0).nest.stop ≤ (s1.core 0).nest.pos + 1) &&
      comes (claimChunk s1 0 (s1.core 0).nest) (fun q => q.2.1 != 0)) ∧
    issues (last.write (squareLoc 0) 8 6) gn (fun _ s1 => comes (claimChunk s1 0 (s1.core 0).nest) (fun q => q.2.1 == 0)) := by
  decide +kernel

/-- Four dimensions in two orders, the last iteration; the last iteration left, and all of them left. -/
theorem witness_nest_indices_and_chunks :
    nest0.e.length = 4 ∧ [0xE4 % 4, 0xE4 / 4 % 4, 0xE4 / 16 % 4, 0xE4 / 64 % 4].Nodup ∧
      [0x1B % 4, 0x1B / 4 % 4, 0x1B / 16 % 4, 0x1B / 64 % 4].Nodup ∧ 5 < 2 * 3 * 1 * 1 ∧ (5 : Nat) < 6 ∧ (0 : Nat) < 6 := by decide

/-- A body of one instruction and one of eight with a hint before it, and a count of 0 in the register. -/
theorem witness_repetitions_complete :
    let s := ((onCore (withK [(3, 0)])).write (scratchLoc 0 + 4) 4 0xFE200001).write (scratchLoc 0 + 8) 32
      (0x70221825 * (2 ^ 256 - 1) / (2 ^ 32 - 1))
    let s := s.modCore 0 (fun k => { k with pipe := { k.pipe with pc := BitVec.ofNat 64 localLoc } })
    let takes := fun (g : Sig) (n : Nat) => issues s g (fun _ s1 => (s1.core 0).pipe.rep == none &&
      comes (captureBody 0 65536 s1 (s1.core 0).pipe.pc Hints.none (s1.core 0).pipe.stalls n []) (fun r => r.1.length == n))
    takes { alone := true } 1 ∧ takes { srcs := [(.k, 3)], alone := true } 8 ∧ issues (onCore id) { alone := true } (fun _ _ => true) := by
  decide +kernel

/-- A wait for a point of time that has come, in a task whose level is not cancelled, and a barrier of one party: the last one to arrive,
and not; a task that waits at a barrier whose generation stands, and one whose generation has gone on. -/
theorem witness_waits_and_barriers_complete :
    let s := onCore (fun k => withV [(3, BitVec.ofNat 512 (6 * 2 ^ 124))] (withK [(3, here), (4, 1)] k))
    let g : Sig := { srcs := [(.v, 3), (.k, 0)], dst := some (.k, 2), alone := true }
    plainly s g ∧ (s.core 0).waitSt = none ∧
    issues s g (fun vs s1 => argV vs 0 == BitVec.ofNat 512 (6 * 2 ^ 124 + 0) && decide (field (arg vs 1) 48 2 = 0) &&
      decide (field (arg vs 1) 51 12 = 0) && decide (0 ≤ s1.time) && softCancelled s1 0 == false &&
      (let s2 := beginWait s1 0 2 (argV vs 0) (arg vs 1)
       !softCancelled s2 0 && decide (softSeen s2 0 = s2) && comes (putKLater (softSeen s2 0) 0 2 1) (fun _ => true)) &&
      comes (waitChecks s1 0 (argV vs 0) (arg vs 1)) (fun s2 => comes (awaitCheck s2 0 2) (fun s3 =>
        comes (tryWait (beginWait s3 0 2 (argV vs 0) (arg vs 1)) 0) (fun _ => true)))) ∧
    issues s { srcs := [(.k, 3), (.k, 4)], dst := some (.k, 2), alone := true } (fun vs s1 =>
      comes (joinBarrier s1 0 2 (arg vs 0).toNat (arg vs 1)) (fun s2 => match (s2.core 0).barSt with
        | some x => comes (tryBarrier s2 0 x) (fun _ => true)
        | none => false)) := by decide +kernel

/-- Core 0 waits at a barrier at `here` that has counted `g` generations, or one fewer than the memory holds. -/
def atBarrier (g : Word) : State := onCore (fun k => { k with mode := .wait, barSt := some { va := here, g := g, index := 0, d := 2 } })

theorem witness_barriers :
    Undisturbed mem0 0 ∧ (destReg (some (.k, 2))).bind (mem0.core 0).boundAt = none ∧
    (mem0.read (scratchLoc 0 + 0x40) 8 + 1) % 2 ^ 64 = 1 ∧
    (∀ g, g = 0 ∨ g = 1 → Undisturbed (atBarrier g) 0 ∧ ((atBarrier g).core 0).barSt = some { va := here, g := g, index := 0, d := 2 } ∧
      here.toNat = localLoc + 0x40 ∧ softCancelled (atBarrier g) 0 = false) ∧
    (atBarrier 0).read (scratchLoc 0 + 0x48) 8 = 0 ∧ (1 : Word).toNat ≠ 0 := by
  refine ⟨undisturbed_of (by decide +kernel), by decide +kernel, by decide +kernel, fun g hg => ⟨?_, ?_, by decide +kernel, ?_⟩,
    by decide +kernel, by decide⟩ <;> rcases hg with rfl | rfl
  · exact undisturbed_of (by decide +kernel)
  · exact undisturbed_of (by decide +kernel)
  all_goals decide +kernel

theorem witness_task_ends_begin :
    issues (onCore id) { alone := true } (fun _ s1 => (s1.core 0).loader.fault == none && (s1.core 0).storer.fault == none) ∧
      issues (sysCore id) { sys := true, alone := true } (fun _ s1 => (s1.core 0).loader.fault == none && (s1.core 0).storer.fault == none) := by
  decide +kernel

/-- A task with a trap entry, not in it, nothing awaited. -/
theorem witness_can_trap : CanTrap (onCore id) 0 ∧ Alone (onCore id) 0 :=
  ⟨⟨by decide +kernel, by decide +kernel, by decide +kernel⟩, ⟨by decide +kernel, by decide +kernel, by decide +kernel⟩⟩

theorem witness_software_traps_taken :
    issues (onCore id) { srcs := [(.k, 3)] } (fun _ _ => true) ∧ issues (onCore id) {} (fun _ _ => true) := by decide +kernel

/-- A task in TASK mode; one with a hint that nothing may carry, and one that an `add` may not; a jump and a call to an odd address; and a
fetch of an address that no window has, with nothing in `CanTrap`'s way in any of them. -/
theorem witness_faulting_instructions_trap :
    let hinted := onCore (fun k => { k with pipe := { k.pipe with hints := { Hints.none with imms := [1] } } })
    let lost := onCore (fun k => { k with pipe := { k.pipe with pc := BitVec.ofNat 64 (2 ^ 60) } })
    ((onCore id).core 0).task.sys = false ∧ hintsIllegal ((onCore id).core 0).hints {} = false ∧
    hintsIllegal (hinted.core 0).hints {} = true ∧ CanTrap hinted 0 ∧ Alone hinted 0 ∧
    hintsOf .nop = some {} ∧ hintsOf (.addi 1 2 3) = some { imm := 16 } ∧ hintsOf (.cas 1 2 3 4 1 1 1) = some { sc := true, scope := true } ∧
    hintsIllegal { Hints.none with imms := [1, 2, 3] } { imm := 16 } = true ∧
    hintsIllegal { Hints.none with mod := some 0x1A8 } { sc := true, scope := true } = true ∧
    issues (onCore (withK [(3, 2)])) { srcs := [(.k, 3)] } (fun vs _ => arg vs 0 &&& 3 != 0) ∧
    issues (onCore (withK [(3, 2)])) { srcs := [(.k, 3)], dst := some (.k, 7), lat := 1 } (fun vs _ => arg vs 0 &&& 3 != 0) ∧
    issues (onCore id) { alone := true } (fun _ _ => true) ∧ (onCore id).actor.part = .main ∧ CanTrap lost 0 ∧ Alone lost 0 ∧
    faults (fetchHere lost) (fun f => decide (classOf f.cause = .entry ∧ f.info = 0 ∧ f.skip = false ∧ f.met = [])) := by
  refine ⟨by decide +kernel, by decide +kernel, by decide +kernel, ⟨by decide +kernel, by decide +kernel, by decide +kernel⟩,
    ⟨by decide +kernel, by decide +kernel, by decide +kernel⟩, rfl, rfl, rfl, by decide +kernel, by decide +kernel, by decide +kernel,
    by decide +kernel, by decide +kernel, by decide +kernel,
    ⟨by decide +kernel, by decide +kernel, by decide +kernel⟩, ⟨by decide +kernel, by decide +kernel, by decide +kernel⟩, ?_⟩
  decide +kernel

/-- A task without a trap entry, and one in its trap entry, each with what traps there. -/
theorem witness_unhandled_trap_ends_the_unit :
    let bare := onCore (fun k => withK [(3, 2)] { k with task := { k.task with entry := 0 } })
    let inside := onCore (fun k => withK [(3, 2)] { k with trap := { k.trap with cause := 0x100 } })
    let lost := fun (s : State) => s.modCore 0 (fun k => { k with pipe := { k.pipe with pc := BitVec.ofNat 64 (2 ^ 60) } })
    let stands := fun (s : State) => issues s {} (fun _ _ => true) && !(s.core 0).trapWaits && decide (s.actor.part = .main) &&
      issues s { srcs := [(.k, 3)] } (fun vs _ => arg vs 0 &&& 3 != 0) && !(s.core 0).task.sys && !hintsIllegal (s.core 0).hints {} &&
      faults (fetchHere (lost s)) (fun f => decide (classOf f.cause = .entry ∧ f.info = 0))
    stands bare ∧ tyTrapPc (bare.core 0).task.entry = 0 ∧ flag (bare.core 0).trap.cause 8 = false ∧
      issues bare { alone := true } (fun _ _ => true) ∧ stands inside ∧ flag (inside.core 0).trap.cause 8 = true ∧
      Alone bare 0 ∧ Alone inside 0 := by
  refine ⟨by decide +kernel, by decide +kernel, by decide +kernel, by decide +kernel, by decide +kernel, by decide +kernel,
    ⟨by decide +kernel, by decide +kernel, by decide +kernel⟩, ⟨by decide +kernel, by decide +kernel, by decide +kernel⟩⟩

/-- A load and a store of an address that no table maps, before and after the task's commit point. -/
theorem witness_page_faults :
    let s := fun (done : Bool) => onCore (fun k => withK [(3, 0x1000)] { k with task := { k.task with commit := done } })
    let absent := fun (r : Res State) => faults r (fun f =>
      decide (f.cause = cPageAbsent ∧ f.info.getLsbD 63 = false ∧ f.access ≠ .fetch))
    let at_ := fun (vs : List Vec) (s1 : State) => (arg vs 0 + BitVec.ofInt 64 (immOf (s1.core 0).hints 11 0 true * 2 ^ 3)).toNat
    ∀ done, Alone (s done) 0 ∧ ((s done).core 0).trapWaits = false ∧ ((s done).core 0).pipe.inBody = false ∧
      ((s done).core 0).task.commit = done ∧
      issues (s done) { srcs := [(.k, 3)], dst := some (.k, 2), cls := 4, use := { imm := 11 } } (fun vs s1 =>
        absent ((loadData s1 (taskAccess s1 0 .read (at_ vs s1) (2 ^ 3) 1) (some 0)).map (·.2))) = true ∧
      issues (s done) { srcs := [(.k, 3), (.k, 4)], cls := 4, use := { imm := 11 } } (fun vs s1 =>
        absent (storeData s1 (taskAccess s1 0 .write (at_ vs s1) (2 ^ 3) 1) ((arg vs 1).toNat % 2 ^ (8 * 2 ^ 3)) true false)) = true := by
  intro s absent at_ done
  cases done <;> exact ⟨⟨by decide +kernel, by decide +kernel, by decide +kernel⟩, by decide +kernel, by decide +kernel,
    by decide +kernel, by decide +kernel, by decide +kernel⟩

/-- A task in its trap entry, without a repetition and with one that the trap holds. -/
theorem witness_trap_return :
    let inside := fun (r : Option Rep) =>
      onCore (fun k => { k with trap := { k.trap with cause := 0x100, pc := 0x40 }, pipe := { k.pipe with rep := r } })
    let r : Rep := { n := 1, total := 2, stagger := 0, step := 0, body := [], j := 0, pos := 0, after := 8, held := some 0x40,
                     clock := { readyAt := 0, lastIssue := 0, sched := 0, full := false }, bodyNext := true }
    let waits := fun (s : State) => issues s { alone := true } (fun _ s1 => !(s1.core 0).awaits) && !(s.core 0).pipe.inBody
    flag ((inside none).core 0).trap.cause 8 = true ∧ waits (inside none) ∧ ((inside none).core 0).pipe.rep = none ∧
      flag ((inside (some r)).core 0).trap.cause 8 = true ∧ waits (inside (some r)) ∧ r.held = some 0x40 := by decide +kernel

/-- A task, and one of the SYSTEM mode that names a job, a level at the end of the range, an address, every address, and a die. -/
theorem witness_system_instructions_complete :
    issues (onCore id) {} (fun _ s1 => (s1.core 0).near == []) ∧
    issues (onCore (withK [(3, 4095)])) { srcs := [(.k, 3), (.k, 0)] } (fun vs s1 =>
      decide ((arg vs 0).toNat < 4096) && !(s1.core 0).task.sys && comes (cancelOrder s1 0 0 4095) (fun _ => true)) ∧
    issues (sysCore (withK [(3, 4095), (4, 255)])) { srcs := [(.k, 3), (.k, 4)], sys := true } (fun vs s1 =>
      decide ((arg vs 0).toNat < 4096) && decide ((arg vs 1).toNat < 256) && (s1.core 0).task.sys &&
        comes (cancelOrder s1 0 255 4095) (fun _ => true)) ∧
    issues (sysCore (withK [(3, 0x1FFFFFFFFFFFFF), (4, 7)])) { srcs := [(.k, 3), (.k, 4)], sys := true } (fun vs s1 =>
      decide ((arg vs 0).toNat < 2 ^ 53) && field (arg vs 1) 9 7 == 0 && field (arg vs 1) 48 16 == 0 &&
        comes (settleTask s1 0 4) (fun _ => true)) ∧
    issues (sysCore (withK [(3, -1), (4, 0x100)])) { srcs := [(.k, 3), (.k, 4)], sys := true } (fun vs s1 =>
      flag (arg vs 1) 8 && field (arg vs 1) 9 7 == 0 && field (arg vs 1) 48 16 == 0 && comes (settleTask s1 0 4) (fun _ => true)) ∧
    issues (sysCore (withK [(3, 1)])) { srcs := [(.k, 3)], dst := some (.k, 2), sys := true } (fun vs s1 =>
      decide ((arg vs 0).toNat < 2) && comes (putKLater (flushFaults s1 (arg vs 0).toNat) 0 2
        (BitVec.ofNat 64 (((s1.die (arg vs 0).toNat).fbGen + 1) % 2 ^ 16))) (fun _ => true)) := by decide +kernel

/-- The control registers, fences and cache controls: a task that has nothing under way, and values at the ends of what each register
takes. -/
theorem witness_control_registers_and_fences_complete :
    let quiet := fun (s1 : State) => s1.scOps.all (fun o => o.core.val != 0) && (s1.core 0).near == []
    let value := fun (v : Word) (p : Word → State → Bool) => issues (onCore (withK [(3, v)])) { srcs := [(.k, 3)] } (fun vs s1 =>
      p (arg vs 0) s1 && (s1.core 0).ev.ringUsed == 0)
    plainly (onCore id) { dst := some (.k, 2), lat := 1 } ∧ plainly (onCore id) { dst := some (.k, 2), lat := 0 } ∧
    value (-1) (fun _ _ => true) ∧ value 3 (fun v _ => decide (v.toNat < 4)) ∧ value 16 (fun v _ => decide (v.toNat ≤ 16)) ∧
    value 0xFFFFFFFF (fun v _ => decide (v.toNat < 2 ^ 32)) ∧
    value 0xFFF (fun v s1 => decide (v.toNat < 2 ^ 12) && (s1.core 0).pool.used == [] && (s1.core 0).tiles.all (fun e => e.2.logCnt == 0)) ∧
    value 0 (fun v s1 => traceLegal 0 (s1.core 0).task v (s1.core 0).trace.len && traceLegal 0 (s1.core 0).task (s1.core 0).trace.base v) ∧
    issues mem0 { cls := 4, use := { scope := true } } (fun _ s1 => quiet s1 && (s1.core 0).sbuf == [] && !remoteCards s1 0) := by
  decide +kernel

/-- The vector instructions issue at each of their shapes: floating-point, integer, conversions and permutes, compares to a mask, mask
logic, counts, reductions, scans and moves; a divide's result comes later. -/
theorem witness_vector_results :
    let s := onCore (fun k => withV [(3, 5), (4, 7), (2, 1)] (withK [(3, 2), (4, 9)] k))
    let two : List (RegFile × Nat) := [(.v, 3), (.v, 4)]
    let fp : Sig := { srcs := two, also := maskReg 5, dst := some (.v, 2), lat := 4, cls := 3, use := { rm := true } }
    let int : Sig := { srcs := two, also := maskReg 5, dst := some (.v, 2), lat := 2, cls := 2 }
    let cvt : Sig := { fp with srcs := [(.v, 3)], lat := 3, use := { rm := true, sat := true } }
    let one : Sig := { int with srcs := [(.v, 3)] }
    let counts : Sig := { int with srcs := [(.m, 7)], also := [], dst := some (.k, 2) }
    let masks : Sig := { int with srcs := [(.m, 3), (.m, 7)], also := [], dst := some (.m, 2) }
    let picks : Sig := { int with srcs := [(.v, 3), (.k, 4)], also := [], dst := some (.k, 2) }
    let toMask : Sig := { int with srcs := [(.k, 3)], also := [], dst := some (.m, 7) }
    [fp, { fp with srcs := [(.v, 3)] }, { fp with also := (.v, 2) :: maskReg 5 }, { fp with lat := 0, divides := true },
      { fp with srcs := [(.v, 3)], lat := 0, divides := true }, int, { int with use := { sat := true } }, { int with also := (.v, 2) :: maskReg 5 },
      one, { int with dst := some (.m, 2) }, masks, counts, cvt, { cvt with use := { sat := true } }, { int with lat := 3 }, { one with lat := 3 },
      { int with srcs := [(.v, 3), (.k, 4)], lat := 3 }, { one with dst := some (.k, 2), lat := 6 }, { one with lat := 6 },
      { one with dst := some (.k, 2), lat := 6, use := { rm := true } }, { int with srcs := [(.k, 3)] }, picks,
      { int with srcs := [(.k, 3), (.k, 4)], also := [(.v, 2)] }, { int with srcs := [] }, toMask].all (plainly s) = true := by decide +kernel

/-- Finite numbers with a finite nonzero rounded result, at a tie and at the least number; sums that are zero and are not. -/
theorem witness_exact_then_rounded_to_nearest :
    roundFp 24 fp32 fp32.maxM fp32.maxE .rne false (.num false (2 ^ 24 + 1) 0) = .num false (2 ^ 23) 1 ∧
      roundFp 24 fp32 fp32.maxM fp32.maxE .rne false (.num true 1 (-149)) = .num true 1 (-149) ∧
      Fp.add .rne (.num false 1 0) (.num false 1 1) ≠ .zero false ∧ Fp.add .dn (.num false 1 0) (.num true 1 0) = .zero true := by
  decide +kernel

/-- A stream of eight-byte elements at `here`: with an element fetched, and at its end. -/
def stream0 (mode : Nat) : Strm :=
  { Strm.reset with bound := true, desc := BitVec.ofNat 256 ((localLoc + 0x40) + mode * 2 ^ 224 + 3 * 2 ^ 227), fifo := [5] }

def streaming (f : Strm → Strm) (k : Core) : Core := { k with streams := k.streams.set 1 (f (stream0 mAgen)) }

theorem witness_stream_pops_and_pushes :
    let x := ((onCore (streaming id)).core 0).strm 1
    let y := ((onCore (streaming (fun x => { x with pos := 1 }))).core 0).strm 1
    x.mode = mAgen ∧ x.pos < x.total ∧ x.fifo = [5] ∧ y.mode = mAgen ∧ y.total ≤ y.pos := by decide +kernel

/-- Streams of the loader and of the storer: with an element, at their end, ended by the helper, and empty or full. -/
theorem witness_streams_of_helpers :
    let s := fun (mode : Nat) (f : Strm → Strm) => onCore (fun k => { k with streams := k.streams.set 1 (f (stream0 mode)) })
    let taking := onCore (fun k => { k with
      streams := k.streams.set 1 { stream0 mLoader with fifo := [], endMark := true }
      loader := { k.loader with reads := [{ fifo := 1, va := here.toNat, pc := 0, value := none }] } })
    let ready := fun (mode : Nat) (f : Strm → Strm) (p : Strm → Bool) => let x := ((s mode f).core 0).strm 1
      x.mode == mode && comes (streamFault (s mode f) 0 x.mode) (fun _ => true) && p x
    ready mLoader id (fun x => decide (x.pos < x.total) && x.fifo == [5]) ∧
    ready mLoader (fun x => { x with pos := 1 }) (fun x => decide (x.total ≤ x.pos)) ∧
    ready mLoader (fun x => { x with fifo := [], endMark := true }) (fun x => decide (x.pos < x.total) && x.fifo == [] && x.endMark) ∧
    ready mLoader (fun x => { x with fifo := [] }) (fun x => decide (x.pos < x.total) && x.fifo == [] && !x.endMark) ∧
    ((taking.core 0).loader.reads.any (·.fifo == 1) && comes (streamFault taking 0 mLoader) (fun _ => true)) = true ∧
    ready mStorer (fun x => { x with pos := 1 }) (fun x => decide (x.total ≤ x.pos)) ∧
    ready mStorer (fun x => { x with endMark := true }) (fun x => x.endMark) ∧
    ready mStorer id (fun x => decide (x.pos < x.total) && !x.endMark && decide (x.fifo.length < 8)) ∧
    ready mStorer (fun x => { x with fifo := List.replicate 8 0 }) (fun x => !x.endMark && decide (8 ≤ x.fifo.length)) ∧
    comes (settleTask (s mStorer id) 0 0) (fun _ => true) ∧
    (let w := s mAgen (fun x => { x with desc := x.desc ||| BitVec.ofNat 256 (2 ^ 226), fifo := [] })
     let x := (w.core 0).strm 1
     decide (x.pos < x.total) && comes (storeData w { taskAccess w 0 .write (x.addr x.pos) x.ew 1 with cp := x.cp } 7 (decide (x.ew ≤ 8))
      false) (fun _ => true)) = true := by decide +kernel

/-- A result that a stream takes, and an operand that a stream gives. -/
theorem witness_writes_a_stream :
    let out := onCore (streaming (fun x => { x with desc := x.desc ||| BitVec.ofNat 256 (2 ^ 226), fifo := [] }))
    issues out { dst := some (.k, 13), lat := 1 } (fun _ s1 => comes (putResult s1 0 .k 13 1 7) (fun _ => true)) ∧
    issues (onCore (streaming id)) { srcs := [(.k, 13)], dst := some (.k, 2), lat := 1 } (fun vs s1 =>
      vs == [5] && comes (putResult s1 0 .k 2 1 7) (fun _ => true)) := by decide +kernel

theorem witness_streams_and_cards_complete :
    let desc := (localLoc + 0x40) + 3 * 2 ^ 227
    let card := 1 + (localLoc + 0x100) * 2 ^ 64 + (localLoc + 0x200) * 2 ^ 128 + 2 ^ 192 + 16 * 2 ^ 224
    let s := (onCore (withK [(3, here)])).write (scratchLoc 0 + 0x40) 32 desc
    let j := (onCore (withK [(3, here)])).write (scratchLoc 0 + 0x40) 64 card
    issues s { srcs := [(.k, 3)], cls := 4 } (fun vs s1 => comes (loadStruct s1 0 (arg vs 0).toNat 32 32) (fun r =>
      streamLegal (s1.core 0) 3 r.1 && decide (2 ≤ tyVreg (s1.core 0).task.entry) && decide (bits r.1 224 2 = mAgen) &&
      comes (streamFault r.2 0 (bits r.1 224 2)) (fun _ => comes (unbindStream r.2 0 3) (fun s3 =>
        comes (settleTask s3 0 0) (fun _ => true))))) ∧
    issues s { cls := 4 } (fun _ s1 => comes (unbindStream s1 0 7) (fun _ => true)) ∧ plainly s { dst := some (.k, 2), cls := 4 } ∧
    issues j { srcs := [(.k, 3)], cls := 4 } (fun vs s1 => comes (loadStruct s1 0 (arg vs 0).toNat 64 64) (fun r =>
      decide (cardCheck r.2 0 (cardOf r.1) = none) && comes (drainAll r.2 0) (fun s3 => (submitCard s3 0 (cardOf r.1)).isSome))) := by
  decide +kernel

/-- The configuration of a tile: its format, rows, columns, home and place. -/
def tileCfg (fmt rows cols home place : Nat) : Word :=
  BitVec.ofNat 64 ((rows - 1) + (cols - 1) * 2 ^ 8 + fmt * 2 ^ 16 + home * 2 ^ 20 + place / 256 * 2 ^ 24)

/-- A READY unpaged tile. -/
def tile0 (fmt rows cols home place : Nat) : Tile := Tile.reset.configured (tileCfg fmt rows cols home place) 0

/-- Core 0 with these tiles. -/
def withTiles (l : List (Nat × Tile)) (k : Core) : Core := { k with tiles := l.foldl (fun t e => Table.set t e.1 e.2) k.tiles }

theorem witness_tile_instructions_complete :
    let cfg := tileCfg 0 2 16 0 0x3FF00
    let s := onCore (fun k => withTiles [(63, tile0 0 2 16 0 0x1000)] (withK [(3, here), (4, 16), (5, cfg), (6, cfg ||| 2 ^ 40)] k))
    let g : Sig := { tiles := [63], cls := 4 }
    let rows : Sig := { g with srcs := [(.k, 3), (.k, 4)] }
    let fresh := fun (s1 : State) (cfg back : Word) => let t := s1.tile 0 63
      !isTwin s1 0 63 && t.fault == none && t.refs == 0 && t.state != stFilling && t.state != stDraining && t.logCnt == 0 &&
        !shapeWrong (s1.core 0).task.region cfg back && (!t.conf || !t.paged)
    issues s { g with srcs := [(.k, 5), (.k, 0)] } (fun vs s1 => fresh s1 (arg vs 0) (arg vs 1)) ∧
    issues s { g with srcs := [(.k, 6), (.k, 0)] } (fun vs s1 => fresh s1 (arg vs 0) (arg vs 1)) ∧
    issues s rows (fun vs s1 => comes (needTile s1 0 63) (fun _ => comes (writeWaits s1 0 63) (fun _ =>
      comes (copyTile s1 0 63 true (arg vs 0) (arg vs 1)) (fun _ => true)))) ∧
    issues s rows (fun vs s1 => comes (needTile s1 0 63) (fun _ => comes (storeWaits s1 0 63) (fun _ =>
      comes (copyTile s1 0 63 false (arg vs 0) (arg vs 1)) (fun _ => true)))) ∧
    issues s g (fun _ s1 => comes (fetchTile s1 0 63) (fun _ => true)) ∧
    issues s g (fun _ s1 => comes (evictTile s1 0 63) (fun _ => true)) ∧
    issues s g (fun _ s1 => let t := s1.tile 0 63
      comes (needTile s1 0 63) (fun _ => t.refs == 0 && t.conf &&
        comes (orderBefore s1 0 [slotPiece 0 t localLoc 0 t.size]) (fun s2 =>
          comes (homeWrite s2 (homeAccess s1 0 t.size .write) (tileLoc 0 t) t.size 0) (fun _ => true)))) ∧
    plainly s { g with dst := some (.k, 0) } := by decide +kernel

/-- A READY paged tile that keeps its place and backing, and one that moves. -/
theorem witness_tile_configured :
    let t := { tile0 0 2 16 0 0 with cfg := tileCfg 0 2 16 0 0 ||| 2 ^ 40, dirty := true }
    let same := t.configured (tileCfg 1 2 8 0 0 ||| 2 ^ 40) 0
    let moved := t.configured (tileCfg 0 2 16 0 0x200 ||| 2 ^ 40) 0
    t.conf = true ∧ t.paged = true ∧ t.state = stReady ∧ same.paged = true ∧ t.home = same.home ∧ t.place = same.place ∧ t.back = 0 ∧
      moved.paged = true ∧ t.place ≠ moved.place ∧ (t.configured (tileCfg 0 2 16 0 0) 0).paged = false := by decide +kernel

/-- Weights and activations of 8-bit numbers, a scale, a template for accumulators, and weights with legal codes staged. -/
theorem witness_matrix_instructions_complete :
    let codes := (List.range 2).flatMap (fun n => (List.range 8).map (fun g => (n * 64 + g, 4)))
    let s := onCore (fun k => withTiles [(1, tile0 0 2 16 0 0), (2, tile0 4 2 1 0 0x400), (15, tile0 4 2 2 0 0x800)]
      { k with mx := { k.mx with issued := { k.mx.issued with fmt := 0, n := 2, k := 16 }, staging := codes } })
    let g : Sig := { cls := 5 }
    let enters := fun (g : Sig) (r : List Vec → MxReq) => issues s g (fun vs s1 => comes (mxChecks s1 0 (r vs)) (fun codes =>
      comes (drainAll s1 0) (fun s2 => comes (mxEnter s2 0 (r vs) codes) (fun _ => true))))
    let cmd := fun (sub td ta tb : Nat) (arg : Word) => ({ sub := sub, td := td, ta := ta, tb := tb, flags := 1, arg := arg } : MxReq)
    enters { g with tiles := [1] } (fun _ => cmd 0 0 0 1 0) ∧ enters { g with tiles := [1] } (fun _ => cmd 1 0 0 1 0) ∧
    enters { g with tiles := [1] } (fun _ => cmd 3 0 1 0 0) ∧
    enters { g with tiles := [1, 2], srcs := [(.k, 0)] } (fun vs => cmd 4 0 1 2 (arg vs 0)) ∧
    enters { g with srcs := [(.k, 0)] } (fun vs => cmd 5 0 0 0 (arg vs 0)) ∧
    enters { g with tiles := [15] } (fun _ => cmd 6 15 0 0 0) ∧ enters { g with tiles := [15] } (fun _ => cmd 7 0 15 0 0) ∧
    issues s { g with srcs := [(.v, 3)] } (fun _ s1 => !sparsePending s1 0) ∧
    issues s g (fun _ s1 => (s1.core 0).mx.queue.isEmpty) := by decide +kernel

/-- Commands that run on sound memory: latches of each kind of number, dense and sparse, scaled and not, and a store and a load of the whole
accumulator. -/
theorem witness_matrix_values :
    let f := fun (k : Core) => withTiles [(1, tile0 0 2 16 0 0), (2, tile0 4 2 1 0 0x400), (15, tile0 4 64 64 0 0x800)]
      { k with mx := { k.mx with latch := { k.mx.latch with n := 64, k := 16 } } }
    let s := onCore f
    s.errors = [] ∧ s.poison = [] ∧ (∀ o, (s.core o).spad.ret = 0 ∧ (s.core o).spad.retiring = []) ∧ (s.core 0).task.gang = 0 ∧
      (s.core 0).mx.latch.n ≤ 64 ∧ (s.tile 0 15).rows ≤ 64 ∧ (s.tile 0 15).cols ≤ 64 := by
  refine ⟨by decide +kernel, by decide +kernel, fun o => ?_, by decide +kernel, by decide +kernel, by decide +kernel, by decide +kernel⟩
  by_cases h : o = 0
  · subst h; exact ⟨by decide +kernel, by decide +kernel⟩
  · rw [onCore_other _ h]; exact ⟨rfl, rfl⟩

/-- A slot armed with twins in the square's memory: a contribution to its last element, a flush, a disarm, and an arming. -/
theorem witness_coalescer_instructions_complete :
    let f := fun (k : Core) => withTiles [(1, tile0 2 2 4 1 0), (2, tile0 2 2 4 1 0x400)] (withK [(3, 7), (4, 0x30001), (5, here)] k)
    let armed := (onCore f).modSlot 0 7 (fun x => { x with armed := true, owner := 0, ta := 1, tb := 2, gathering := 1 })
    let free := (onCore f).write (scratchLoc 0 + 0x40) 64 (1 + 2 * 2 ^ 8)
    let ready := fun (s1 : State) => (s1.slot 0 7).armed && (s1.slot 0 7).job == (s1.core 0).task.job &&
      decide (queuedEntries (s1.square 0).coq < 8)
    issues armed { srcs := [(.k, 3), (.k, 4)], cls := 5 } (fun vs s1 => ready s1 && let t := s1.tile (s1.slot 0 7).owner (s1.slot 0 7).ta
      decide ((arg vs 1).toNat % 2 ^ 16 < t.rows) && decide ((arg vs 1).toNat / 2 ^ 16 % 2 ^ 16 < t.cols)) ∧
    issues armed { cls := 5 } (fun _ s1 => ready s1) ∧
    issues armed { srcs := [(.k, 0), (.k, 0)], cls := 5 } (fun vs s1 => arg vs 0 == 0 && !ownedByOther (s1.slot 0 7) 0) ∧
    issues free { srcs := [(.k, 5), (.k, 0)], cls := 5 } (fun vs s1 => arg vs 0 != 0 &&
      comes (armSlot s1 0 7 (arg vs 0).toNat (arg vs 1).toNat) (fun _ => true)) := by decide +kernel

/-- An event of the last type to slot 7 of a core of the job's square, and the three operations on windows. -/
theorem witness_event_instructions_complete :
    let s := onCore (withK [(3, 0xFF0700), (4, 1), (5, 2), (6, 255)])
    let g : Sig := { dst := some (.k, 2), cls := 6 }
    let two := fun (a b : Nat) => ({ srcs := [(.k, a), (.k, b)], cls := 6 } : Sig)
    issues s g (fun _ s1 => comes (putKLater (popEvent (commit s1 0) 0).2 0 2 (popEvent (commit s1 0) 0).1) (fun _ => true)) ∧
    plainly s g ∧
    issues s (two 3 4) (fun vs s1 => arg vs 0 &&& 0xFFFFFFFF7F00F800 == 0 && decide (128 ≤ (arg vs 0).toNat / 2 ^ 16 % 256) &&
      holdsSquare s1 (s1.core 0).task.job (squareOf ((arg vs 0).toNat % 256))) ∧
    issues s (two 0 0) (fun vs _ => arg vs 0 == 0 && arg vs 1 == 0) ∧ issues s (two 4 3) (fun vs _ => arg vs 0 == 1) ∧
    issues s (two 5 6) (fun vs _ => arg vs 0 == 2 && decide ((arg vs 1).toNat < 256)) := by decide +kernel

/-- Core 0 with the first pages of the paged space mapped for job 0. -/
def mapped (f : Core → Core) : State :=
  (onCore f).modDie 0 (fun d => { d with
    tlb := (List.range 16).map (fun b => { bank := b, job := 0, va := 0, pte := 0x12F, size := 9, logged := false }) })

/-- A record and a descriptor, and a queue of four entries. -/
theorem witness_task_and_queue_instructions_complete :
    let s := (mapped (withK [(3, 0x100), (4, 0x101), (5, 0x200)])).write (pagedLoc 0 0x200) 64 (0x400 + 4 * 2 ^ 64)
    let spawns := fun (r : Nat) => issues s { srcs := [(.k, r)], cls := 6 } (fun vs s1 =>
      let ka := (arg vs 0).toNat
      let n := if ka % 2 = 1 then 64 else 16
      comes (needPaged (ka - ka % 2) n) (fun _ => comes (loadStruct s1 0 (ka - ka % 2) n n) (fun q => recordLegal ka q.1 &&
        comes (settleTask q.2 0 0) (fun _ => true))))
    let counts := fun (r : Nat) => issues s { srcs := [(.k, r)], cls := 6 } (fun vs s1 =>
      let ka := (arg vs 0).toNat
      comes (needPaged (recordBase ka) (recordBytes ka)) (fun _ => comes (checkAccess s1 (depAccess s1 0 ka)) (fun q =>
        comes (settleTask q.2.2 0 0) (fun _ => true))))
    spawns 3 ∧ spawns 4 ∧ counts 3 ∧ counts 4 ∧
    issues s { srcs := [(.k, 5), (.v, 3)], dst := some (.k, 2), cls := 6 } (fun vs s1 =>
      comes (pushEntry s1 0 (arg vs 0).toNat (argV vs 1).toNat) (fun r => r.1 == 1 &&
        comes (putKLater r.2 0 2 (BitVec.ofNat 64 r.1)) (fun _ => true))) ∧
    issues s { srcs := [(.k, 5)], dst := some (.v, 2), cls := 6 } (fun vs s1 =>
      comes (popEntry s1 0 (arg vs 0).toNat) (fun r => comes (putVariable r.2 0 .v 2 (BitVec.ofNat 512 r.1)) (fun _ => true))) := by
  decide +kernel

theorem witness_hints_complete : Alone (onCore id) 0 := ⟨by decide +kernel, by decide +kernel, by decide +kernel⟩

/-- A helper of core 0 in turn: the loader or the storer, its stream 1 in its own mode as `f` leaves it, its base at `here`. -/
def helping (storer : Bool) (f : Strm → Strm) : State :=
  let run := fun (h : Helper) => { h with running := true, hb := h.hb.set 0 here, x := (h.x.set 5 0x3FFC).set 6 0 }
  let s := onCore (fun k => { k with
    loader := run k.loader, storer := run k.storer, streams := k.streams.set 1 (f (stream0 (if storer then mStorer else mLoader))) })
  { s with actor := { core := 0, part := if storer then .storer else .loader } }

/-- Both helpers run; the last word of their data memory; a stream with a place free, with an element begun and one part to come, at its
end, and, of the storer, with an element that it pops in one part or in two. -/
theorem witness_helper_instructions_complete :
    let begun := fun (x : Strm) => { x with fifo := [], parts := 1 }
    let ended := fun (x : Strm) => { x with fifo := [], endMark := true }
    let l := helping false id
    let w := helping true id
    let one := helping true (fun x => { x with desc := x.desc &&& ~~~BitVec.ofNat 256 (2 ^ 227) })
    HelperRuns l 0 false ∧ HelperRuns w 0 true ∧
    [(l, false), (w, true)].all (fun e => comes (dataCheck e.1 0 e.2 0x3FFC 4 false) (fun _ => true) &&
      comes (dataCheck e.1 0 e.2 0x3FFC 4 true) (fun _ => true)) = true ∧
    (l.core 0).loader.reads = [] ∧ comes (helperLoad l (helperAccess l 0 false .read here.toNat 4)) (fun _ => true) = true ∧
    [id, begun, ended].all (fun f => let x := ((helping false f).core 0).strm 1
      x.bound && x.mode == mLoader && decide (placesTaken ((helping false f).core 0) 1 < 8)) = true ∧
    4 * (((l.core 0).strm 1).parts + 1) < ((l.core 0).strm 1).ew ∧
    (((helping false begun).core 0).strm 1).ew ≤ 4 * ((((helping false begun).core 0).strm 1).parts + 1) ∧
    comes (checkAccess l (helperAccess l 0 false .read here.toNat 8)) (fun _ => true) = true ∧
    ((w.core 0).strm 1).mode = mStorer ∧ ((w.core 0).strm 1).fifo = [5] ∧ (∀ e ∈ (w.core 0).mx.window, e.2 ≠ .storer) ∧
    4 * (((w.core 0).strm 1).parts + 1) < ((w.core 0).strm 1).ew ∧ ((one.core 0).strm 1).ew ≤ 4 * (((one.core 0).strm 1).parts + 1) ∧
    comes (storeHelper w (helperAccess w 0 true .write here.toNat 8) 5) (fun _ => true) = true ∧
    ((((helping true ended).core 0).strm 1).fifo = [] ∧ (((helping true ended).core 0).strm 1).endMark = true) := by
  refine ⟨⟨by decide +kernel, by decide +kernel, by decide +kernel⟩, ⟨by decide +kernel, by decide +kernel, by decide +kernel⟩, ?_⟩
  decide +kernel

/-! ## The hardware's steps -/

/-- An eight-byte store at `here`, or at an address after it, stands in the store buffer. -/
def stored (off : Word) : Res State := storeData mem0 (acc mem0 .write (here + off) 8 1) 7 true false

/-- An SC store to `here` has been announced and its window has passed. -/
def announced : Res State := do
  let (ps, s) ← scTarget mem0 (acc mem0 .write here 8 8) true
  let t ← scIssue s 0 ps { op := some 99, width := 8, sext := false, operand := 3, expected := 0 } none
  pure { t with cyc := 1000000 }

/-- What a step of the memories finds to do, for each step that has hypotheses: a result awaited, a buffered store that may perform, a
sector on its way, a fault's event that its queue takes, a translation waited for, that is complete and that is not. -/
theorem witness_memory_steps_of_a_core :
    let p : Pending := { file := .k, idx := 2, wait := true, old := 0, value := 9, landAt := 0, schedAt := 0, cross := 0, latency := 0,
                         seq := 0, body := false, push := false, vdiv := false, va := 0, pops := [] }
    let sector : Sector := { job := 0, va := 0, data := 0, way := 0, bad := false }
    let fault : FbEntry := { index := 511, gen := 0, core := 0, agent := .task, job := 0, tag := 0, va := 0, kind := cPageAbsent,
                             flag := 0, time := 0, delivered := false, killed := false, accepted := false }
    let routed := (onCore (fun k => { k with ev := { k.ev with enabled := 1 } })).modDie 0 (fun d => { d with fb := [fault] })
    let inv : TlbWait := { mark := 0, job := 0, lo := 0, hi := 4096, all := false }
    let waits := onCore (fun k => { k with pipe := { k.pipe with pend := [p] }, fills := [sector], tlbWait := some inv })
    oldestWaiting (waits.core 0).pipe.pend = some p ∧ p.toStream = false ∧ (waits.core 0).fills = [sector] ∧
    (waits.core 0).tlbWait = some inv ∧ tlbSettled waits inv.mark = true ∧
    [(0, 1), (1, 2)].all (fun e => comes (stored e.1) (fun s => match (s.core 0).sbuf with
      | [b] => mayPerform [] b && b.pieces.length == e.2 && comes (performPart s 0 b) (fun _ => true) && !tlbSettled s (b.seq + 1)
      | _ => false)) = true ∧
    (routed.die 0).fb.find? (·.index = 511) = some fault ∧
    (arriveEvent routed (field (routed.die 0).fbRoute 0 8) (field (routed.die 0).fbRoute 8 3) (fbEvent routed 0 fault).1
      (fbEvent routed 0 fault).2 (.faultBuffer 0 511)).1 = true := by decide +kernel

/-- The last row of parity, a bank that retires, no bit error, a clear of a square and of a segment, a held trap record, an SC operation
whose window has passed, and a NEAR atomic that is granted its block. -/
theorem witness_memory_steps_of_the_device :
    let par := onCore (fun k => { k with spad := { k.spad with parity := [{ group := 3, row := 1023, delta := 5 }], retiring := [(19, 0)] } })
    let near := onCore (fun k => { k with near := [{ va := here.toNat, loc := scratchLoc 0 + 0x40, op := 0, width := 8, operand := 1,
                                                     expected := 0, acquire := false, dest := none }] })
    let queue := ((mapped id).write (pagedLoc 0 0x200) 64 (0x400 + 4 * 2 ^ 64)).modJob 0 (fun j => { j with trq := 0x200 })
    let rec_ : TrapRec := { job := 0, data := 5 }
    ((par.core 0).spad.parity.find? (·.group = 3)).isSome = true ∧
    (par.core 0).spad.retiring.find? (·.1 = 19) = some (19, 0) ∧ degraded (par.core 0).spad (19 - 16) = false ∧
    State.reset.errors = [] ∧ (State.reset.square 0).clearing = true ∧
    ((State.reset.modDie 1 (fun d => { d with cspClear := [31] })).die 1).cspClear.contains 31 = true ∧
    (State.reset.die 0).trq = [] ∧ ((queue.modDie 0 (fun d => { d with trq := [rec_] })).die 0).trq = [rec_] ∧
    (trqPush queue rec_).1 = true ∧
    comes announced (fun s => match s.scOps with
      | [o] => decide (scFirst s.cyc s.scOps = some o) && comes (scPerform { s with scOps := [] } o) (fun r =>
        decide (r.2.scOps = []) && decide ((r.2.core o.core).task.gang = 0))
      | _ => false) = true ∧
    comes (grantOwnership near 0) (fun t => decide ((t.core 0).task.gang = 0) &&
      (t.core 0).atoms.any (·.loc = scratchLoc 0 + 0x40)) = true := by decide +kernel

/-- Two bit errors of a row of a square's memory, of which one is beyond correction, at the last row. -/
theorem witness_scrub_step :
    let at_ := squareLoc 0 + 0x1FFFF0
    let e : BitError := { loc := at_ + 8, corr := false }
    let s : State := { State.reset with errors := [e, { loc := at_, corr := true }] }
    s.errors.find? (fun e => (scrubbed (.square 0)).1 ≤ e.loc ∧ e.loc < (scrubbed (.square 0)).1 + (scrubbed (.square 0)).2.1) = some e ∧
      e.loc / 16 * 16 = at_ ∧ unitBad s 16 at_ = true := by decide +kernel

/-- A stream with a place free and elements to come, and a read of the loader in flight. -/
theorem witness_stream_and_loader_reads :
    let s := onCore (fun k => { streaming (fun x => { x with fifo := [1, 2, 3, 4, 5, 6, 7] }) k with
      task := { k.task with record := 1 } })
    let x := (s.core 0).strm 1
    let l := (helping false (fun x => { x with fifo := [] })).modHelper 0 false (fun h => { h with
      reads := [{ fifo := 1, va := here.toNat, pc := 0, value := none }] })
    x.bound = true ∧ x.mode = mAgen ∧ x.writes = false ∧ x.fetched < x.total ∧ x.fifo.length < 8 ∧ x.fault = none ∧
    (s.core 0).holdsTask = true ∧ slotOf (x.addr x.fetched) = none ∧
    comes (loadData s (taskAccess s 0 .read (x.addr x.fetched) x.ew 1) (some x.cp)) (fun _ => true) = true ∧
    (l.core 0).loader.held = none ∧ comes (helperLoad l (helperAccess l 0 false .read here.toNat 8)) (fun r =>
      decide (((r.2.core 0).strm 1).parts = 0)) = true := by decide +kernel

/-- Tiles under way: a fill and a drain whose beats go through, a log entry to apply after a fill, and a fill whose backing copy no
page holds. -/
theorem witness_tile_transfers :
    let job : Job := { id := 1, engine := 0, reads := [], writes := [], after := [], card := 0, job := 0, nrg := 0, sys := false,
                       started := false, pos := 0, acked := false, held := none }
    let t (fill landed : Bool) (back : Word) : Tile := { tile0 0 2 16 0 0x1000 with
      cfg := tileCfg 0 2 16 0 0x1000 ||| 2 ^ 40, back := back, state := if fill then stFilling else stDraining, dirty := !fill
      moving := some { fill := fill, cause := byInstr, job := 1, pos := 0, landed := landed } }
    let s := fun (t : Tile) => mapped (fun k => withTiles [(63, t)] { k with jobs := [job] })
    let begun := fun (s : State) => s.modCore 0 (fun k => { k with jobs := k.jobs.map (fun e => { e with started := true }) })
    let starts := fun (s : State) => (findJob s 0 1).map (mayMove s 0) == some true
    let fill := s (t true false 0x300)
    let drain := s (t false false 0x300)
    let long := s { t true false 0x300 with cfg := tileCfg 0 8 16 0 0x1000 ||| 2 ^ 40 }
    let lost := s (t true false (2 ^ 40))
    let log := s { t true true 0x300 with logCnt := 1 }
    let ends := fun (w : State) => (w.tile 0 63).logCnt == 0 && !(w.tile 0 63).keep && (w.core 0).task.gang == 0
    starts fill ∧ starts drain ∧ starts long ∧ (fill.tile 0 63).size ≤ 64 ∧ (drain.tile 0 63).size ≤ 64 ∧ 64 < (long.tile 0 63).size ∧
    comes (fillBeat (begun fill) 0 (fill.tile 0 63) 0) ends ∧ comes (drainBeat (begun drain) 0 (drain.tile 0 63) 0) ends ∧
    comes (fillBeat (begun long) 0 (long.tile 0 63) 0) (fun _ => true) ∧
    faults (fillBeat lost 0 (lost.tile 0 63) 0) (fun f => f.cause == cPageAbsent) ∧ (lost.core 0).task.gang = 0 ∧
    byInstr ≠ byNone ∧ byInstr ≠ byOverflow ∧
    ((mem0.tile 0 63).moving = none ∧ (mem0.tile 0 63).wanted = false) ∧
    ((log.tile 0 63).moving.map (·.landed)) = some true ∧ comes (logApplyOne log 0 63) (fun _ => true) ∧
    comes (runApply log 0 63) (fun _ => true) := by decide +kernel

/-- Jobs of a core: one that may start, a copy of two rows that goes to its end, and a remote write whose connection is gone. -/
theorem witness_engine_jobs :
    let card : Card := { engine := 1, op := 0, tag := 0, flags := 0, src := 0x300, dst := 0x340, rows := 2, rowBytes := 16, sstride := 16,
                         dstride := 16, cnt := 0x380, rbase := 0, rlen := 0 }
    let job : Job := { id := 7, engine := 1, reads := [], writes := [], after := [], card := cardBytes card, job := 0, nrg := 0, sys := false,
                       started := true, pos := 1, acked := false, held := none }
    let s := fun (j : Job) => mapped (fun k => { k with jobs := [j] })
    let k := cardOf job.card.toNat
    let gone := { job with engine := 5, card := cardBytes { card with engine := 5, cnt := 0 } }
    mayStart (s { job with started := false }) 0 { job with started := false } = true ∧ ((s job).square 0).copyWin = [] ∧
    (match jobUnits 0 job k (k.rows - job.pos) (s job) job.pos with
      | (t, r, none) => r == 2 && comes (closeJob (setJob t 0 7 (fun j => { j with pos := r })) 0 { job with pos := r } k) (fun w =>
          match w with
          | some w => decide ((w.square 0).copyWin = [])
          | none => false)
      | _ => false) = true ∧
    faults (jobUnit (s gone) 0 gone (cardOf gone.card.toNat) 1) (fun f => f.cause == cWindowDenied) ∧
      gone.pos < (cardOf gone.card.toNat).rows := by decide +kernel

/-- Commands of the matrix engine: one chosen, one that loads, one with a row to come and one at its last row. -/
theorem witness_matrix_engine_steps :
    let cmd : MxCmd := { sub := 3, td := 0, ta := 1, tb := 0, flags := 1, arg := 0, mode := 0, sample := 0, codes := [], entered := 0, job := 0 }
    let s := fun (sub : Nat) (f : Mxe → Mxe) => (onCore (fun k => withTiles [(1, tile0 0 2 16 0 0)]
      { k with mx := { k.mx with queue := [{ cmd with sub := sub }] } })).modMxe 0 f
    let running := fun (e : Mxe) => { e with running := some 0 }
    let loads := s 3 (fun e => { running e with loading := true })
    let rows := fun (phase : Nat) => s 3 (fun e => { running e with phase := phase, rowsTotal := 2 })
    (runningCmd loads 0).isSome ∧ (loads.square 0).mxe.doneAt ≤ loads.cyc ∧ isMul cmd = true ∧
    [2, 3].all (fun n => let e := ((rows n).square 0).mxe
      (runningCmd (rows n) 0).isSome && decide (e.nextRow ≤ (rows n).cyc) && decide (e.rows + 1 < e.rowsTotal) && !e.loading) = true ∧
    (runningCmd (s 5 running) 0).isSome ∧ chooseHead (s 5 id) 0 = some (0, { cmd with sub := 5 }) ∧ isMul { cmd with sub := 5 } = false ∧
    ((s 5 id).square 0).mxe.running = none ∧ ((s 5 id).square 0).mxe.owner = none ∧
    (∀ m ∈ squareCores 0, ((s 5 id).core m).mx.window = [] ∧ ((s 5 id).core m).task.gang = 0) := by decide +kernel

/-- A command that ends, one whose tile has an error beyond correction, and an array whose start is granted for the present step. -/
theorem witness_matrix_engine_ends :
    let cmd : MxCmd := { sub := 7, td := 0, ta := 1, tb := 0, flags := 1, arg := 0, mode := 0, sample := 0, codes := [], entered := 0, job := 0 }
    let s := (onCore (fun k => withTiles [(1, tile0 4 2 2 0 0)] { k with mx := { k.mx with queue := [cmd] } })).modMxe 0 (fun e =>
      { e with running := some 0 })
    let bad : State := { s with errors := [{ loc := scratchLoc 0, corr := false }, { loc := scratchLoc 0 + 0x10, corr := false }] }
    let granted : State := { s with cyc := 8 }.modMxe 0 (fun e => { e with phase := 1, granted := some 2 })
    let rests := fun (s : State) => let e := (s.square 0).mxe
      !e.loading && decide (e.rowsTotal ≤ e.rows) && decide (e.doneAt ≤ s.cyc)
    runningCmd s 0 = some (0, cmd) ∧ rests s ∧ comes (runCmd s 0 cmd) (fun _ => true) ∧ runningCmd bad 0 = some (0, cmd) ∧ rests bad ∧
    faults (runCmd bad 0 cmd) (fun f => f.cause == cEcc) ∧ 0 ∈ districtSquares 0 ∧ (granted.square 0).mxe.phase = 1 ∧
    (granted.square 0).mxe.granted = some (granted.cyc / 4) := by decide +kernel

/-- A command that reaches its window, an entry applied, a slot whose time has passed exactly, and one that waits for its twin. -/
theorem witness_window_and_coalescer_steps :
    let f := fun (k : Core) => withTiles [(1, tile0 2 2 4 1 0), (2, tile0 2 2 4 1 0x400)] { k with task := { k.task with record := 1 } }
    let slot := fun (x : CoSlot) => { x with armed := true, owner := 0, ta := 1, tb := 2, gathering := 1, tmo := 3, firstAt := some 0 }
    let armed := (onCore f).modSlot 0 7 slot
    let due : State := { armed with timeBase := 12 }
    let queued := armed.modSquare 0 (fun q => { q with coq := [.push 7 5 1 3 0 0] })
    ((onCore f).core 0).holdsTask = true ∧ comes (storeCommand (onCore f) 0 5 false) (fun t => (t.core 0).task.gang == 0) ∧
    comes (storeCommand (onCore f) 0 5 true) (fun t => (t.core 0).task.gang == 0) ∧
    (applyHead queued 0).isSome ∧ (due.slot 0 7).firstAt = some 0 ∧ (due.slot 0 7).armed = true ∧ (due.slot 0 7).waiting = false ∧
    0 + 4 * (due.slot 0 7).tmo = due.time ∧ ((armed.modSlot 0 7 (fun x => { x with waiting := true })).slot 0 7).waiting = true := by
  decide +kernel

/-- A wait at its deadline, a barrier, and an ended task that nothing holds. -/
theorem witness_waits_and_ends :
    let w : WaitSt := { desc := 0, ctl := 0, deadline := 0, d := 2 }
    let b : BarSt := { va := here, g := 0, index := 0, d := 2 }
    let waits : State := (onCore id).modCore 0 (fun k => { k with mode := .wait, waitSt := some w })
    let bars : State := (onCore id).modCore 0 (fun k => { k with mode := .wait, barSt := some b })
    let ends := onCore (fun k => { k with task := { k.task with record := 1, ending := true } })
    (waits.core 0).mode = .wait ∧ comes (tryWait waits 0) (fun t => (t.core 0).task.gang == 0) ∧
    comes (tryBarrier bars 0 b) (fun t => (t.core 0).task.gang == 0) ∧ (ends.core 0).holdsTask = true ∧
    comes (endMember ends 0) (fun r => !r.1) := by decide +kernel

/-- A record of job 0 whose type entry stands at address 0x1000; core 0 IDLE, the firmware started. -/
def waiting (s : State) : Ready := { readyOf s (2 ^ 13) 0x100 0 0 none with seq := 1 }
def scheduling (f : Core → Core) : State :=
  let s := ((mapped (fun k => f { k with mode := .idle, task := Task.reset })).modJob 0 (fun j => { j with ttb := 0x10001 })).write
    (pagedLoc 0 0x10000) 64 (0x100 + 2 * 2 ^ 336)
  { s with sec := { s.sec with booted := true, placed := true } }

/-- A record selected, bound and started, and a record taken from another core's deque. -/
theorem witness_scheduler_records :
    let s := scheduling id
    let r := waiting s
    let queued := s.modDie 0 (fun d => { d with ready := [r] })
    let latched := scheduling (fun k => { k with latched := some r })
    let bound := scheduling (fun k => { k with latched := some r, binding := true })
    let round : StealRound := { asked := [1], asking := some 1, reply := none, draws := 0, counted := 0, wakeAt := 0 }
    let asked := (scheduling (fun k => { k with steal := some round })).modCore 1 (fun k => { k with deque := [r] })
    let got := scheduling (fun k => { k with steal := some { round with reply := some (some r) } })
    let s0 := got.modCore 0 (fun k => { k with steal := none })
    coreFree queued 0 = true ∧ (queued.core 0).steal = none ∧ candidates queued 0 = [(false, r)] ∧
    levelCancelling queued r.job (recLaunch r.record) = false ∧
    (match unitCheck queued 0 r with
      | .ok (e, t) => decide (bindsTo t 0 r e = .now)
      | .error _ => false) = true ∧
    (latched.square 0).clearing = false ∧ r.ctx = none ∧
    (match recordCheck latched 0 r.job r.record with
      | .ok (e, _) => decide (tyGang e = 0 ∧ tyLdProg e = 0 ∧ tyStProg e = 0)
      | .error _ => false) = true ∧
    (bound.core 0).binding = true ∧ (bound.core 0).task.gang = 0 ∧ (bound.core 0).waitSt = none ∧ (bound.core 0).barSt = none ∧
    hardCancelled bound 0 = false ∧
    dequeTop (asked.core 1) = some r ∧ recStealable r.record = true ∧ recLocal r.record = false ∧ r.stolen = false ∧
    ownerPops asked 1 r = false ∧ r.slot = none ∧ flag (asked.job r.job).ctl 0 = true ∧ inPartition asked r.job 0 = true ∧
    dequeTop ((asked.modCore 1 (fun k => { k with deque := [] })).core 1) = none ∧
    (match recordCheck s0 0 r.job r.record with
      | .ok (e, t) => decide (tyPersist e = false ∧ tyGang e = 0 ∧ tyHeat e ≠ 2 ∧ levelCancelling s0 r.job (recLaunch r.record) = false) &&
        coreFree t 0 && inPartition t r.job (squareOf 0) && flag (t.job r.job).ctl 0
      | .error _ => false) = true := by decide +kernel

/-- The rounds of the whole device find nothing, or one job's records; a round of steals is over. -/
theorem witness_scheduler_rounds :
    let s := scheduling id
    let queued := s.modDie 0 (fun d => { d with ready := [waiting s] })
    let round : StealRound := { asked := [], asking := none, reply := none, draws := 0, counted := 0, wakeAt := 0 }
    let ended := scheduling (fun k => { k with steal := some round })
    readyJobs s = [] ∧ readyJobs queued = [0] ∧ ((ended.core 0).steal.map (·.asking)) = some none ∧
    (State.reset.district 7).ramp = none ∧
    (∀ q ∈ districtSquares 7, (State.reset.square q).mxe.phase = 0 ∧ (State.reset.square q).mxe.pendMin = none ∧
      (State.reset.square q).mxe.running = none) := by decide +kernel

theorem witness_no_phase : phaseJobs State.reset = [] := by decide +kernel

/-- A watchdog's limit reached exactly, a checker of a LOCKSTEP pair with a checkpoint, and a sensor at each of its thresholds. -/
theorem witness_power_steps :
    let dog : State := { (onCore id).modDie 0 (fun d => { d with wdgLim := 1 }) with cyc := 10 }
    let x : Check := { regs := Regs.reset, ctl := (Core.reset 0).ctlRegs, pc := 0x40, tiles := [], nest := Nest.reset, rep := none }
    let pair := onCore (fun k => { k with task := { k.task with gang := 3 }, check := some x })
    (dog.core 0).mode = .run ∧ (dog.core 0).task.gang = 0 ∧ (dog.die 0).wdgLim ≠ 0 ∧
    4 * (dog.die 0).wdgLim.toNat = (dog.cyc - (dog.core 0).quietFrom) * 10 / 23 ∧
    (pair.core (pair.core 0).task.leader).task.gang = 3 ∧ (pair.core (pair.core 0).task.leader).holdsTask = true ∧
    (pair.core (pair.core 0).task.leader).mismatch = false ∧ (pair.core (pair.core 0).task.leader).check = some x ∧
    ((95 : Int) ≤ 95 ∧ (89 : Int) < 90) ∧ (255 : Fin 256).val ∉ State.reset.thermal ∧
    (255 : Fin 256).val ∈ ({ State.reset with thermal := [255] } : State).thermal := by decide +kernel

/-- A task that a request pre-empts, its pool in a mapped page. -/
def leaving : State :=
  ((mapped (fun k => { k with preempt := some .request, task := { Task.reset with record := 1 } })).modJob 0 (fun j =>
    { j with ctx0 := 1 }))

theorem witness_preemption :
    (leaving.core 0).holdsTask = true ∧ (leaving.core 0).task.ending = false ∧ atPoint (leaving.core 0) = true ∧
    hardCancelled leaving 0 = false ∧ freeSlots leaving 0 0 1 = some [0] ∧
    comes (drainMembers leaving [0]) (fun t => !stillBusy t 0) = true := by decide +kernel

theorem witness_preemption_saves : comes (do
    let t ← drainMembers leaving [0]
    saveMembers (releaseBlocks (spillAll t 0) 0 (fun _ => true)) t.seq [(0, 0)]) (fun _ => true) = true ∧ (leaving.core 0).task.gang = 0 := by
  decide +kernel

/-! ## Device registers, the host, and the machine as a whole -/

/-- A clear of a square begins for a job that joins it and none for one that stays; a task in a square that a job leaves; a request
to pre-empt; the ends of the device's window. -/
theorem witness_device_register_writes :
    let s := onCore (fun k => { k with task := { k.task with record := 1 } })
    (s.core 0).holdsTask = true ∧ (s.core 0).preempt = none ∧ (s.core 0).task.ending = false ∧
    (s.job 0).part.getLsbD 0 = true ∧ (s.job 0).part.getLsbD 1 = false ∧ (s.square 1).leaving = [] ∧ squareBusy s 0 = true ∧
    squareBusy s 32 = false ∧ flag (s.job 1).ctl 0 = false ∧ Table.getD (s.die 0).cspOwn 31 0 ≠ 0x1FF &&& 0x1FF ∧
    bit (s.core 0).spad.ret 19 = false ∧ deviceLoc + 2 ^ 32 - 1 < 2 ^ 64 ∧ (0 : Word).toNat < deviceLoc := by decide +kernel

/-- A connection with every right, as entry 0 of a table in a mapped page, to job 0; a stream of event frames; a module left; the ROM
in wait. -/
def linked : State :=
  let s := (mapped id).write (pagedLoc 0 0x20000) 64 (2 ^ 31 + 0x1F * 2 ^ 248 + 0x55 * 2 ^ 256)
  { s with eth := { s.eth with
    rcBase := 0x20000 + 1 * 2 ^ 4, cfg := 0x88B5
    rta := [(63, 0x7 + 0x5 * 2 ^ 48)], rtb := [(63, BitVec.ofNat 64 (2 ^ 63 + 2 ^ 61 + 100 * 2 ^ 40))], history := [(63, [9])] } }

theorem witness_host_frames :
    let r := Table.getD linked.eth.rtb 63 0
    linked.eth.cfg.toNat % 2 ^ 16 = 0x88B5 ∧ streamFor linked 7 5 = some 63 ∧ streamFor linked 7 6 = none ∧ r.getLsbD 61 = true ∧
    9 ∈ Table.getD linked.eth.history 63 [] ∧ field r 40 16 = 100 ∧ field r 24 16 = 0 := by decide +kernel

/-- The device with the first connection's entry read, as a request on it finds it. -/
def seen (s : State) : State := connSeen s 0

/-- The requests of a connection, at the last byte of a page, with a right key; and with a wrong key, and on no connection; one that meets
a clear of a square, and one behind it. -/
theorem witness_host_requests :
    let u := seen linked
    let clears := linked.modSquare 0 (fun q => { q with clearing := true })
    connIndex linked 0 = some 0 ∧ linked.eth.again = false ∧ linked.eth.held = [] ∧ connIndex linked 64 = none ∧
    (match connGrants u 0 rightWrite with
      | some k => decide (k.rkey = 0x55 ∧ hostReaches k 0xFFF = true) &&
        comes (writeRange u (hostAccess k .write 0xFFF 1) (rangeFuel 1) 0xFFF 1 5) (fun _ => true)
      | none => false) = true ∧
    (match connGrants u 0 rightRead with
      | some k => comes (readRange u (hostAccess k .read 0xFFF 1) (rangeFuel 1) 0xFFF 1) (fun _ => true)
      | none => false) = true ∧
    (connGrants u 0 rightAtomic).isSome = true ∧ (connGrants u 0 rightSend).isSome = true ∧
    (connGrants linked 64 rightSend).isNone = true ∧
    (match connGrants u 0 rightSend with
      | some k => (frameCore u k.job 0x100).isSome && comes (frameRecord u k 0x100) (fun _ => true) &&
        comes (hostDecAt u k 0 0x100) (fun _ => true)
      | none => false) = true ∧
    (match connGrants (seen clears) 0 rightWrite with
      | some k => hostReaches k (squareLoc 0) &&
        (match writeRange (seen clears) (hostAccess k .write (squareLoc 0) 1) (rangeFuel 1) (squareLoc 0) 1 5 with
          | .error (.stall _) => true
          | _ => false)
      | none => false) = true ∧
    (∃ e ∈ [((0 : Nat), HostReq.place 0)], e.1 = 0) ∧
    State.reset.modules = 7 + 1 ∧ State.reset.sec.unlockFails ≠ 7 ∧ (4095 : Nat) < 4096 := by decide +kernel

/-- An atomic of the host on a page that lets it, the ROM in wait, and a report that can be written. -/
theorem witness_host_atomics_and_boot :
    let page : State := linked.modDie 0 (fun d => { d with tlb := d.tlb.map (fun e => { e with pte := e.pte ||| 3 * 2 ^ 54 }) })
    let waits : State := { State.reset with sec := { State.reset.sec with romWait := true } }
    (match connGrants (seen page) 0 rightAtomic with
      | some k => comes (hostAtomic (seen page) k 0xFF8 { op := 0, operand := 1, expected := none }) (fun _ => true) &&
        comes (hostAtomic (seen page) k 0xFF8 { op := 0, operand := 1, expected := some 0 }) (fun _ => true)
      | none => false) = true ∧
    waits.sec.romWait = true := by decide +kernel

/-- A word placed where core 0 fetches is fetched in its turn and decodes, or decodes to nothing; one that lies where no code may
faults. -/
theorem witness_step_of_a_core :
    let s := State.reset.withFetchWord 32 0x02642810
    let none_ := State.reset.withFetchWord 32 0
    let lost := s.modCore 0 (fun k => { k with pipe := { k.pipe with pc := 2 } })
    let fetched := fun (s : State) (va : Word) => fetchWord { s with agenda := [], actor := { core := 0, part := .main } } 0 va
    s.agenda = [.issue 0] ∧ (s.core 0).task.gang = 0 ∧ mayIssue { s with agenda := [] } 0 = true ∧ (s.core 0).bodyInstr = none ∧
    (s.core 0).pipe.skip = false ∧ comes (fetched s (s.core 0).pipe.pc) (fun r => r.1 == 0x02642810) = true ∧
    comes (fetched none_ (none_.core 0).pipe.pc) (fun r => r.1 == 0) = true ∧
    faults (fetched lost (lost.core 0).pipe.pc) (fun _ => true) = true := by decide +kernel

theorem witness_decoded : reads decode 0x02642810 (.add 3 4 5 1) = true ∧ (Instr.add 3 4 5 1).wf = true := by decide +kernel

/-- A body's instruction in its turn; a helper's; a step of the outside world; a step that is due with no unit to issue. -/
theorem witness_other_steps :
    let one : BodyInstr := { word := 0x70221825, va := 0, hints := Hints.none, stall := 0 }
    let rep : Rep := { n := 1, total := 2, stagger := 0, step := 0, body := [one], j := 0, pos := 0, after := 4, held := none,
                       clock := { readyAt := 0, lastIssue := 0, sched := 0, full := false }, bodyNext := true }
    let body := onCore (fun k => { k with pipe := { k.pipe with rep := some rep } })
    let h := State.reset.withFetchWord 32 0x00A58533
    let t := tick State.reset
    ((toBody body 0).core 0).bodyInstr.isSome = true ∧ mayIssue body 0 = true ∧
    h.agenda = [.helper 0 false] ∧ mayHelp { h with agenda := [] } 0 false = true ∧
    comes (helperFetch { h with agenda := [], actor := { core := 0, part := .loader } } 0 false) (fun r => r.1 == 0x00A58533) = true ∧
    State.reset.halted = false ∧ State.reset.agenda = [] ∧ t.halted = false ∧ t.todo ≠ [] ∧ runnable t = [] := by decide +kernel

theorem witness_undisturbed_fetch : (mem0.core 0).fetchBuf = none ∧ 0x3FFFC % 4 = 0 ∧ 0x3FFFC + 4 ≤ 0x40000 := by decide +kernel

/-- A canonical memory; a core's word and a helper's; and the least and the greatest operands of the atomics. -/
theorem witness_memory_and_words :
    Mem.wf State.reset.mem = true ∧ Mem.wf linked.mem = true ∧ (Instr.add 15 31 31 1).wf = true ∧ (Instr.add 15 31 31 1).canonical = true ∧
    (Instr.add 15 31 31 1).isCoreWord = true ∧ (Instr.ylPop 0 0).wf = true ∧ (Instr.ylPop 0 0).canonical = true ∧
    (Instr.ylPop 0 0).isHelperWord = true := by decide +kernel

/-! ## Results of single steps

Each expected value is worked out by hand from the rule named. -/

/-- The word of A-form: `op d, a, b` with `fn` (R193). -/
def aForm (op d a b fn : Nat) : Nat := op * 2 ^ 25 + d * 2 ^ 21 + a * 2 ^ 16 + b * 2 ^ 11 + fn

/-- One step runs the word on core 0 with these scalar and vector registers, and leaves a core that satisfies `p`. -/
noncomputable def runs (ks : List (Nat × Word)) (vs : List (Nat × Vec)) (w : Nat) (p : Core → Bool) : Bool :=
  match step ((State.reset.withFetchWord 32 w).modCore 0 (fun k => withV vs (withK ks { k with
    task := { k.task with entry := entry }, pipe := { k.pipe with readyAt := 0 } }))) with
  | .next t => p (t.core 0)
  | _ => false

/-- The word leaves `r` in `k1`, of `k2` = `x` and `k3` = `y`. -/
noncomputable def leaves (op fn : Nat) (x y r : Word) : Bool := runs [(2, x), (3, y)] [] (aForm op 1 2 3 fn) (fun k => k.regs.raw .k 1 == scalar r)
noncomputable def leaves1 (op fn : Nat) (x r : Word) : Bool := runs [(2, x)] [] (aForm op 1 2 0 fn) (fun k => k.regs.raw .k 1 == scalar r)

/-- The word leaves `r` in `v1`, of `v2` = `x` and `v3` = `y`. -/
noncomputable def leavesV (op fn : Nat) (x y r : Vec) : Bool := runs [] [(2, x), (3, y)] (aForm op 1 2 3 fn) (fun k => k.regs.raw .v 1 == r)

/-- R220: sums wrap, and a result of 32 bits is sign-extended. -/
theorem test_add_wraps : leaves 1 0 (-1) 1 0 = true := by decide +kernel
theorem test_add_of_words : leaves 1 0x10 0xF7FFFFFFF 1 0xFFFFFFFF80000000 = true := by decide +kernel
theorem test_sub_order : leaves 1 0x40 5 7 (-2) = true := by decide +kernel
theorem test_andn : leaves 1 0x140 0xF0F 0xFF 0xF00 = true := by decide +kernel
theorem test_sll_amount_wraps : leaves 1 0x1C0 3 65 6 = true := by decide +kernel
theorem test_sra_of_words : leaves 1 0x250 0x80000000 4 0xFFFFFFFFF8000000 = true := by decide +kernel
theorem test_ror : leaves 1 0x2C0 1 1 0x8000000000000000 = true := by decide +kernel
theorem test_min_is_signed : leaves 1 0x300 (-1) 1 (-1) = true := by decide +kernel
theorem test_minz_is_unsigned : leaves 1 0x380 (-1) 1 1 = true := by decide +kernel
theorem test_addx4 : leaves 1 0x440 3 5 17 = true := by decide +kernel
/-- R220: `clmul` by all ones gives the prefix XOR. -/
theorem test_clmul_prefix : leaves 1 0x500 0b1001 (-1) 0b111 = true := by decide +kernel
/-- R221. -/
theorem test_clz_of_zero : leaves1 2 0 0 64 = true ∧ leaves1 2 0x10 0 32 = true := by decide +kernel
theorem test_ctz : leaves1 2 0x40 0x100 8 = true := by decide +kernel
theorem test_brev : leaves1 2 0xC0 1 0x8000000000000000 = true := by decide +kernel
theorem test_bswap_of_words : leaves1 2 0x110 0x11223380 0xFFFFFFFF80332211 = true := by decide +kernel
theorem test_sextb : leaves1 2 0x140 0x180 0xFFFFFFFFFFFFFF80 = true := by decide +kernel
/-- R222: the mixed high product, and the edge cases of division. -/
theorem test_mulhsz : leaves 3 0xC0 (-1) (-1) (-1) = true := by decide +kernel
theorem test_mulhz : leaves 3 0x80 (-1) (-1) (-2) = true := by decide +kernel
theorem test_div_by_zero_waits : runs [(2, 7)] [] (aForm 3 1 2 0 0x100) (fun k => k.pipe.pend.any (·.wait) && k.pipe.pend.map (·.value) == [scalar (-1)]) = true := by decide +kernel
theorem test_rem_sign : runs [(2, -7), (3, 2)] [] (aForm 3 1 2 3 0x180) (fun k => k.pipe.pend.map (·.value) == [scalar (-1)]) = true := by decide +kernel
/-- R224. -/
theorem test_slo_is_unsigned : leaves 4 0x100 1 (-1) 1 = true ∧ leaves 4 0x80 1 (-1) 0 = true := by decide +kernel
theorem test_sel_on_zero : leaves 4 0x180 5 9 9 = true := by decide +kernel
/-- R225: a field that runs past the top is clipped. -/
theorem test_bfxs_clipped : leaves 5 0x40 0x8000000000000000 (0x3F3F) (-1) = true := by decide +kernel
/-- R226 to R228: the words that the chapter spells out. -/
theorem test_li : runs [] [] 0x1D20FFFE (fun k => k.regs.raw .k 9 == scalar (-2)) = true := by decide +kernel
theorem test_srai_of_words : runs [(4, 0x80000040)] [] 0x18440185 (fun k => k.regs.raw .k 2 == scalar 0xFFFFFFFFFC000002) = true := by decide +kernel
theorem test_cmpi_pushes : runs [(3, -6)] [] 0x1A035FFB (fun k => k.regs.raw .q 0 == 1) = true := by decide +kernel
/-- R230, R233: a branch that is taken and one that is not. -/
theorem test_br_taken : runs [(2, 5), (3, 5)] [] 0x30218FFF (fun k => k.pipe.pc == BitVec.ofNat 64 localLoc - 4) = true := by decide +kernel
theorem test_br_not_taken : runs [(2, 5), (3, 6)] [] 0x30218FFF (fun k => k.pipe.pc == BitVec.ofNat 64 localLoc + 4) = true := by decide +kernel
/-- R262, R264: lanes of FP32, 1 + 2^-24 to the even neighbour, and Inf − Inf. -/
theorem test_vadd_ties_to_even : leavesV 0x38 0x20 0x3F800000 0x33800000 0x3F800000 = true := by decide +kernel
theorem test_vadd_of_infinities : leavesV 0x38 0x20 0x7F800000 0xFF800000 0x7FC00000 = true := by decide +kernel
/-- R199, R412: a word of no instruction enters the trap entry with its cause and its own address. -/
theorem test_illegal_traps : runs [] [] 0 (fun k => k.trap.cause == BitVec.ofNat 64 (256 + cIllegalOp) &&
  k.trap.pc == BitVec.ofNat 64 localLoc && k.pipe.pc == 0x100) = true := by decide +kernel

/-- The widths that the statements of scalar operations and of atomics range over. -/
theorem witness_widths : (1 : Fin 4).val < 2 ∧ ((64 : Nat) = 32 ∨ (64 : Nat) = 64) := by decide +kernel

/-- A canonical memory in which a step answers a next state. -/
theorem witness_step_from_a_canonical_memory : Mem.wf (State.reset.withFetchWord 32 0x02642810).mem = true ∧
    runs [] [] 0x02642810 (fun _ => true) = true := by decide +kernel

end Sys2Proof.Tests
end

/-! # What the memory answers, and its one canonical list (O5) -/

namespace Sys2Proof.Machine

/-! ### Bytes and numbers (00 R14) -/

/-- A number split at its lowest byte. -/
theorem mod_two_pow_succ_byte (v n : Nat) : v % 2 ^ (8 * (n + 1)) = v % 256 + 256 * (v / 256 % 2 ^ (8 * n)) := by
  have hpow : 2 ^ (8 * (n + 1)) = 256 * 2 ^ (8 * n) := by rw [Nat.mul_succ, Nat.pow_add, Nat.mul_comm]
  rw [hpow, Nat.mod_mul]

theorem ofBytes_toBytes (n v : Nat) : ofBytes (toBytes n v) = v % 2 ^ (8 * n) := by
  induction n generalizing v with
  | zero => simp [toBytes, ofBytes, Nat.mod_one]
  | succ n ih => rw [mod_two_pow_succ_byte, toBytes, ofBytes, ih, BitVec.toNat_ofNat]

@[simp] theorem toBytes_length (n v : Nat) : (toBytes n v).length = n := by
  induction n generalizing v with
  | zero => rfl
  | succ n ih => rw [toBytes, List.length_cons, ih]

theorem toBytes_getElem (n v i : Nat) (h : i < (toBytes n v).length) :
    (toBytes n v)[i] = BitVec.ofNat 8 (v / 2 ^ (8 * i)) := by
  induction n generalizing v i with
  | zero => simp [toBytes] at h
  | succ n ih =>
    cases i with
    | zero => simp [toBytes]
    | succ i =>
      simp only [toBytes, List.getElem_cons_succ, ih]
      rw [Nat.mul_succ, Nat.add_comm (8 * i), Nat.pow_add, Nat.div_div_eq_div_mul]

/-! ### Reads of the memory (01 R15 to R22) -/

/-- The bytes from a location up are those of a list that has each of them in its place. -/
theorem Mem.bytes_eq (m : Mem) (bs : List Byte) (a : Nat) (h : ∀ i (hi : i < bs.length), Mem.byte m (a + i) = bs[i]) :
    Mem.bytes m a bs.length = bs := by
  induction bs generalizing a with
  | nil => rfl
  | cons b bs ih =>
    have hhead : Mem.byte m a = b := h 0 (Nat.zero_lt_succ _)
    have htail : ∀ i (hi : i < bs.length), Mem.byte m (a + 1 + i) = bs[i] := fun i hi => by
      rw [Nat.add_right_comm]; exact h (i + 1) (Nat.succ_lt_succ hi)
    rw [List.length_cons, Mem.bytes, hhead, ih (a + 1) htail]

theorem Mem.bytes_putBytes (m : Mem) (a : Nat) (bs : List Byte) : Mem.bytes (Mem.putBytes m a bs) a bs.length = bs :=
  Mem.bytes_eq _ bs a fun i hi => by simp [Mem.byte_putBytes, hi]

theorem Mem.read_write (m : Mem) (a n v : Nat) : Mem.read (Mem.write m a n v) a n = v % 2 ^ (8 * n) := by
  have hbytes := Mem.bytes_putBytes m a (toBytes n v)
  rw [toBytes_length] at hbytes
  rw [Mem.read, Mem.write, hbytes, ofBytes_toBytes]

theorem Mem.byte_write (m : Mem) (a n v b : Nat) : Mem.byte (Mem.write m a n v) b =
    if a ≤ b ∧ b < a + n then BitVec.ofNat 8 (v / 2 ^ (8 * (b - a))) else Mem.byte m b := by
  rw [Mem.write, Mem.byte_putBytes]
  by_cases hb : a ≤ b ∧ b < a + n
  · rw [if_pos hb, dif_pos (by rw [toBytes_length]; omega), toBytes_getElem]
  · rw [if_neg hb, dif_neg (by rw [toBytes_length]; omega)]

/-! ### One canonical list for one content (log 1) -/

/-- A key below every key of a table has no entry in it. -/
theorem Table.get?_of_lt {α : Type} (t : Table α) (k : Nat) (h : ∀ e ∈ t, k < e.1) : Table.get? t k = none := by
  induction t with
  | nil => rfl
  | cons e t ih =>
    obtain ⟨hk, ht⟩ := List.forall_mem_cons.mp h
    rw [Table.get?, if_neg (Nat.ne_of_gt hk), ih ht]

theorem Table.get?_cons_of_lt {α : Type} (e : Nat × α) (t : Table α) (k : Nat) (h : ∀ x ∈ t, e.1 < x.1) (hk : k < e.1) :
    Table.get? (e :: t) k = none :=
  Table.get?_of_lt _ _ (List.forall_mem_cons.mpr ⟨hk, fun x hx => Nat.lt_trans hk (h x hx)⟩)

/-- A table in rising order of its keys is determined by what it answers. -/
theorem Table.eq_of_get? {α : Type} (t u : Table α) (ht : t.Pairwise (fun e f => e.1 < f.1))
    (hu : u.Pairwise (fun e f => e.1 < f.1)) (h : ∀ k, Table.get? t k = Table.get? u k) : t = u := by
  induction t generalizing u with
  | nil =>
    cases u with
    | nil => rfl
    | cons f u => simpa [Table.get?] using h f.1
  | cons e t ih =>
    cases u with
    | nil => simpa [Table.get?] using h e.1
    | cons f u =>
      obtain ⟨het, ht⟩ := List.pairwise_cons.mp ht
      obtain ⟨hfu, hu⟩ := List.pairwise_cons.mp hu
      have hkey : e.1 = f.1 := by
        rcases Nat.lt_trichotomy e.1 f.1 with hef | hef | hef
        · have he := h e.1
          rw [Table.get?_cons_of_lt f u e.1 hfu hef] at he
          simp [Table.get?] at he
        · exact hef
        · have hf := h f.1
          rw [Table.get?_cons_of_lt e t f.1 het hef] at hf
          simp [Table.get?] at hf
      have hval : e.2 = f.2 := by simpa [Table.get?, hkey] using h e.1
      have htail : ∀ k, Table.get? t k = Table.get? u k := fun k => by
        by_cases hk : e.1 = k
        · rw [Table.get?_of_lt t k (hk ▸ het), Table.get?_of_lt u k (hk ▸ hkey ▸ hfu)]
        · have := h k
          rwa [Table.get?, Table.get?, if_neg hk, if_neg (hkey ▸ hk)] at this
      rw [Prod.ext hkey hval, ih u ht hu htail]

theorem Table.mem_of_get? {α : Type} (t : Table α) (k : Nat) (v : α) (h : Table.get? t k = some v) : (k, v) ∈ t := by
  induction t with
  | nil => exact absurd h (by simp [Table.get?])
  | cons e t ih =>
    rw [Table.get?] at h
    split at h
    · rename_i hk
      cases hk
      cases h
      exact List.mem_cons_self
    · exact List.mem_cons_of_mem _ (ih h)

/-- In the canonical form a location is listed just when its byte is not what an unlisted one reads as. -/
theorem Mem.get?_of_wf (m : Mem) (a : Nat) (h : Mem.wf m = true) :
    Table.get? m a = if Mem.byte m a = unlisted then none else some (Mem.byte m a) := by
  rw [Mem.byte, Table.getD]
  cases hget : Table.get? m a with
  | none => rfl
  | some v =>
    have hv : v ≠ unlisted := ((Mem.wf_iff m).mp h).1 (a, v) (Table.mem_of_get? m a v hget)
    rw [Option.getD_some, if_neg hv]

theorem Mem.eq_of_byte (m k : Mem) (hm : Mem.wf m = true) (hk : Mem.wf k = true)
    (h : ∀ a, Mem.byte m a = Mem.byte k a) : m = k :=
  Table.eq_of_get? m k ((Mem.wf_iff m).mp hm).2 ((Mem.wf_iff k).mp hk).2 fun a => by
    rw [Mem.get?_of_wf m a hm, Mem.get?_of_wf k a hk, h a]

/-! ### The state's memory -/

theorem State.read_one (s : State) (a : Nat) : s.read a 1 = (Mem.byte s.mem a).toNat := rfl

theorem State.read_write (s : State) (a n v : Nat) : (s.write a n v).read a n = v % 2 ^ (8 * n) := Mem.read_write s.mem a n v

theorem State.read_write_byte (s : State) (a n v i : Nat) (h : i < n) :
    (s.write a n v).read (a + i) 1 = v / 2 ^ (8 * i) % 256 := by
  rw [State.read_one, State.write, Mem.byte_write, if_pos ⟨by omega, by omega⟩, Nat.add_sub_cancel_left, BitVec.toNat_ofNat]

theorem State.read_write_other (s : State) (a n v b : Nat) (h : ¬ (a ≤ b ∧ b < a + n)) :
    (s.write a n v).read b 1 = s.read b 1 := by
  rw [State.read_one, State.write, Mem.byte_write, if_neg h, State.read_one]

theorem State.read_clearRange (s : State) (lo hi b : Nat) :
    (s.clearRange lo hi).read b 1 = if lo ≤ b ∧ b < hi then 0 else s.read b 1 := by
  rw [State.read_one, State.clearRange, Mem.byte_clear, apply_ite BitVec.toNat]
  rfl

theorem State.mem_eq_of_sameBytes (s t : State) (hs : s.Inv) (ht : t.Inv) (h : SameBytes s t) : s.mem = t.mem :=
  Mem.eq_of_byte s.mem t.mem hs ht fun a => BitVec.eq_of_toNat_eq (h a).symm

/-- Settles O5, from the rules for each byte of the memory and the uniqueness of a rising table without zero entries. -/
theorem memoryKeepsBytesAndForm : Obligations.MemoryKeepsBytesAndForm := by
  intro s t a n v lo hi
  exact ⟨State.read_write s a n v, State.read_write_byte s a n v, State.read_write_other s a n v,
    State.read_clearRange s lo hi, fun hs => ⟨State.write_keeps s a n v hs, State.clearRange_keeps s lo hi hs⟩,
    State.mem_eq_of_sameBytes s t⟩

end Sys2Proof.Machine

namespace Sys2Proof.Machine

/-! # Every step keeps the canonical form of the memory (O6)

The memory changes by `State.write` and `State.clearRange` alone, and `State.reset` empties it; every other function of the model
passes it on. So each function that gives a state has one lemma, `<function>_keeps`, in the order of the model's files; its proof
follows the function's own body, its binds, branches and folds, by the rules of the next section.

The implicit arguments of these lemmas matter: the function named in a goal selects its lemma, and neither the elaborator nor
the kernel has to look into it. -/

/-! ### Rules for the forms of a definition -/

section Rules
variable {ε α β : Type} {c : Prop} [Decidable c]

/-- Every state that an answer carries has the canonical form; `p` says where in the answer it stands. -/
def OkInv (p : α → State) (x : Except ε α) : Prop := ∀ a, x = .ok a → (p a).Inv
@[inherit_doc OkInv] def SomeInv (p : α → State) (x : Option α) : Prop := ∀ a, x = some a → (p a).Inv

/-- The next state, where an outcome has one, has the canonical form. -/
def OutInv (x : Out) : Prop := ∀ t, x = .next t → t.Inv

theorem ite_keeps {s t : State} (hs : s.Inv) (ht : t.Inv) : (if c then s else t).Inv := by
  split
  · exact hs
  · exact ht

theorem foldl_keeps {f : State → α → State} (hf : ∀ s a, s.Inv → (f s a).Inv) {l : List α} {s : State} (h : s.Inv) :
    (l.foldl f s).Inv := by
  induction l generalizing s with
  | nil => exact h
  | cons a l ih => exact ih (hf s a h)

theorem snd_keeps {x : α × State} {a : α} {s : State} (e : x = (a, s)) (h : x.2.Inv) : s.Inv := by
  rw [e] at h
  exact h

theorem fst_keeps {x : State × α} {a : α} {s : State} (e : x = (s, a)) (h : x.1.Inv) : s.Inv := by
  rw [e] at h
  exact h

/-- A state that is put together anew has the form where its memory has. -/
theorem State.mk_keeps {m a1 a2 a3 a4 a5 a6 a7 a8 a9 a10 a11 a12 a13 a14 a15 a16 a17 a18 a19 a20 a21 a22 a23 a24 a25 a26 a27 a28
    a29} (h : Mem.wf m = true) :
    (State.mk m a1 a2 a3 a4 a5 a6 a7 a8 a9 a10 a11 a12 a13 a14 a15 a16 a17 a18 a19 a20 a21 a22 a23 a24 a25 a26 a27 a28
      a29).Inv := h

namespace OkInv
variable {p : α → State} {q : β → State}

theorem ok {a : α} (h : (p a).Inv) : OkInv p (.ok a : Except ε α) := fun _ e => Except.ok.inj e ▸ h
theorem next {t : State} (h : t.Inv) : OkInv id (.ok t : Except ε State) := ok h
theorem val {a : α} {t : State} (h : t.Inv) : OkInv Prod.snd (.ok (a, t) : Except ε (α × State)) := ok h
theorem given {s t : State} (h : t.Inv) :
    OkInv (fun o : Option State => o.getD s) (.ok (some t) : Except ε (Option State)) := ok h
theorem error {e : ε} : OkInv p (.error e) := nofun
theorem errorBind {e : ε} {k : β → Except ε α} : OkInv p (.error e >>= k) := nofun

theorem bind {x : Except ε α} {k : α → Except ε β} (hx : OkInv p x) (hk : ∀ a, (p a).Inv → OkInv q (k a)) :
    OkInv q (x >>= k) := by
  cases x with
  | error e => exact error
  | ok a => exact hk a (hx a rfl)

/-- A check that carries no state. -/
theorem check {x : Except ε α} {k : α → Except ε β} (hk : ∀ a, OkInv q (k a)) : OkInv q (x >>= k) := by
  cases x with
  | error e => exact error
  | ok a => exact hk a

theorem ite {x y : Except ε α} (hx : OkInv p x) (hy : OkInv p y) : OkInv p (if c then x else y) := by
  split
  · exact hx
  · exact hy

theorem guard {e : ε} {k : β → Except ε α} {x : Except ε α} (hx : OkInv p x) :
    OkInv p (if c then (.error e >>= k) else x) := ite error hx

theorem bindIte {x y : Except ε α} {k : α → Except ε β} (hx : OkInv p x) (hy : OkInv p y)
    (hk : ∀ a, (p a).Inv → OkInv q (k a)) : OkInv q (if c then x >>= k else y >>= k) := ite (bind hx hk) (bind hy hk)

theorem map {x : Except ε State} {f : State → State} (hx : OkInv id x) (hf : ∀ s, s.Inv → (f s).Inv) :
    OkInv id (x.map f) := by
  cases x with
  | error e => exact error
  | ok s => exact next (hf s (hx s rfl))

end OkInv

theorem foldlM_keeps {p : β → State} {f : β → α → Except ε β} (hf : ∀ b a, (p b).Inv → OkInv p (f b a)) {l : List α}
    {b : β} (h : (p b).Inv) : OkInv p (l.foldlM f b) := by
  induction l generalizing b with
  | nil => exact .ok h
  | cons a l ih => exact .bind (hf b a h) fun _ h1 => ih h1

namespace SomeInv
variable {p : α → State}

theorem some {a : α} (h : (p a).Inv) : SomeInv p (some a) := fun _ e => Option.some.inj e ▸ h
theorem next {t : State} (h : t.Inv) : SomeInv id (.some t) := some h
theorem val {a : α} {t : State} (h : t.Inv) : SomeInv Prod.snd (.some (a, t)) := some h
theorem none : SomeInv p none := nofun
theorem ite {x y : Option α} (hx : SomeInv p x) (hy : SomeInv p y) : SomeInv p (if c then x else y) := by
  split
  · exact hx
  · exact hy

end SomeInv

namespace OutInv

theorem next {t : State} (h : t.Inv) : OutInv (.next t) := fun _ e => Host.Outcome.next.inj e ▸ h
theorem fault {r : Fault} : OutInv (.fault r) := by
  intro t e
  cases e
theorem ite {x y : Out} (hx : OutInv x) (hy : OutInv y) : OutInv (if c then x else y) := by
  split
  · exact hx
  · exact hy

end OutInv

theorem metAlloc_keeps {p : α → State} {x : Res α} {b : Bool} (h : OkInv p x) : OkInv p (metAlloc b x) := by
  unfold metAlloc
  split
  · exact .error
  · exact h

theorem afterMet_keeps {p : α → State} {x : Res α} {m : Met} (h : OkInv p x) : OkInv p (afterMet m x) := by
  unfold afterMet
  split
  · exact .error
  · exact h

end Rules

/-! ### The reset state (`Machine/State.lean`) -/

theorem State.reset_keeps : State.reset.Inv :=
  State.reset_inv

/-! ### The records of the state (`Machine/Regs.lean`) -/

theorem State.setCore_keeps {s : State} {c : Nat} {k : Core} (h : s.Inv) : (s.setCore c k).Inv :=
  State.mk_keeps h

theorem State.modCore_keeps {s : State} {c : Nat} {f : Core → Core} (h : s.Inv) : (s.modCore c f).Inv :=
  State.setCore_keeps h

theorem State.setSquare_keeps {s : State} {q : Nat} {k : Square} (h : s.Inv) : (s.setSquare q k).Inv :=
  State.mk_keeps h

theorem State.modSquare_keeps {s : State} {q : Nat} {f : Square → Square} (h : s.Inv) : (s.modSquare q f).Inv :=
  State.setSquare_keeps h

theorem State.modDistrict_keeps {s : State} {d : Nat} {f : District → District} (h : s.Inv) :
    (s.modDistrict d f).Inv :=
  State.mk_keeps h

theorem State.modDie_keeps {s : State} {d : Nat} {f : Die → Die} (h : s.Inv) : (s.modDie d f).Inv :=
  State.mk_keeps h

theorem State.modJob_keeps {s : State} {j : Nat} {f : JobRegs → JobRegs} (h : s.Inv) : (s.modJob j f).Inv :=
  State.mk_keeps h

theorem State.due_keeps {s : State} {d : Due} (h : s.Inv) : (s.due d).Inv :=
  State.mk_keeps h

theorem State.dueOnce_keeps {s : State} {d : Due} (h : s.Inv) : (s.dueOnce d).Inv :=
  ite_keeps h (State.due_keeps h)

theorem State.fresh_keeps {s : State} (h : s.Inv) : s.fresh.Inv :=
  State.mk_keeps h

theorem State.evCount_keeps {s : State} {c code n : Nat} (h : s.Inv) : (s.evCount c code n).Inv :=
  ite_keeps (State.modCore_keeps h) h

theorem State.mxeCount_keeps {s : State} {q code n : Nat} (h : s.Inv) : (s.mxeCount q code n).Inv :=
  State.modSquare_keeps h

theorem State.districtCount_keeps {s : State} {d code n : Nat} (h : s.Inv) : (s.districtCount d code n).Inv :=
  State.modDistrict_keeps h

theorem sentAt_keeps {s : State} {c : Nat} (h : s.Inv) : (sentAt s c).Inv :=
  State.modCore_keeps h

theorem receivedAt_keeps {s : State} {c : Nat} (h : s.Inv) : (receivedAt s c).Inv :=
  State.modCore_keeps h

/-! ### The L2, the channels and the port of a memory (`Machine/Home.lean`) -/

theorem unitMended_keeps {s : State} {u at_ : Nat} (h : s.Inv) : (unitMended s u at_).Inv :=
  State.mk_keeps h

theorem rowMended_keeps {s : State} {row : Nat} (h : s.Inv) : (rowMended s row).Inv :=
  unitMended_keeps h

theorem State.modL2_keeps {s : State} {die : Nat} {f : Die → Die} (h : s.Inv) : (s.modL2 die f).Inv :=
  State.modDie_keeps h

theorem sliceCount_keeps {s : State} {die slice code n : Nat} (h : s.Inv) : (sliceCount s die slice code n).Inv :=
  State.modL2_keeps h

theorem l2Access_keeps {s : State} {loc n : Nat} {alloc write back : Bool} (h : s.Inv) :
    (l2Access s loc n alloc write back).Inv :=
  State.modL2_keeps h

theorem l2Return_keeps {n : Nat} {s : State} {b : Nat} (h : s.Inv) : (l2Return n s b).Inv :=
  State.modL2_keeps h

theorem releaseBlocks_keeps {s : State} {c : Nat} {gone : AtomEntry → Bool} (h : s.Inv) :
    (releaseBlocks s c gone).Inv :=
  ite_keeps (foldl_keeps (fun _ _ h => l2Return_keeps h) (State.modCore_keeps h)) h

theorem revoked_keeps {s : State} {own : Option Nat} {loc n : Nat} (h : s.Inv) : (revoked s own loc n).Inv :=
  ite_keeps
    (foldl_keeps (fun _ _ h => l2Return_keeps h)
      (State.mk_keeps (foldl_keeps (fun _ _ h => State.evCount_keeps h) h)))
    h

theorem State.meets_keeps {s : State} {own : Option Nat} {t : TrapInfo} (h : s.Inv) : (s.meets own t).Inv :=
  foldl_keeps
    (fun _ _ h =>
      have h1 := l2Access_keeps (revoked_keeps h)
      ite_keeps (State.mk_keeps h1) h1)
    h

theorem homePut_keeps {s : State} {loc n v : Nat} (h : s.Inv) : (homePut s loc n v).Inv :=
  State.write_keeps _ _ _ _ (l2Access_keeps (revoked_keeps h))

theorem ringEnds_keeps {s : State} {base : Nat} (h : s.Inv) : SomeInv (·.2.2) (ringEnds s base) :=
  .ite .none (.some (l2Access_keeps (revoked_keeps (ite_keeps (unitMended_keeps h) h))))

theorem telemetry_keeps {s0 : State} {die kind core job detail : Nat} (h0 : s0.Inv) :
    (telemetry s0 die kind core job detail).Inv := by
  unfold telemetry
  split
  · refine ite_keeps (State.modDie_keeps h0) ?_
    split
    · exact State.modDie_keeps h0
    · next e =>
        exact ite_keeps (State.modDie_keeps (ringEnds_keeps h0 _ e))
          (homePut_keeps (homePut_keeps (ringEnds_keeps h0 _ e)))

theorem eccRecord_keeps {s : State} {core loc : Nat} (h : s.Inv) : (eccRecord s core loc).Inv := by
  unfold eccRecord
  split
  · exact telemetry_keeps h
  · exact h

theorem wordCheck_keeps {s : State} {c loc n va : Nat} {write : Bool} (h : s.Inv) :
    OkInv id (wordCheck s c loc n va write) :=
  .ite (.next h) (.ite .error (.next (State.mk_keeps
    (foldl_keeps (fun _ _ h => unitMended_keeps h)
    (foldl_keeps (fun _ _ h => ite_keeps (eccRecord_keeps (unitMended_keeps h)) h) h)))))

theorem l2Read_keeps {s : State} {a : Access} {loc n va : Nat} {alloc : Bool} (h : s.Inv) :
    OkInv Prod.snd (l2Read s a loc n va alloc) :=
  .bind (metAlloc_keeps (wordCheck_keeps (revoked_keeps h))) fun _ h1 => .val (l2Access_keeps h1)

theorem l2Write_keeps {s : State} {a : Access} {loc n va v : Nat} {alloc : Bool} (h : s.Inv) :
    OkInv id (l2Write s a loc n va v alloc) :=
  .bind (metAlloc_keeps (wordCheck_keeps (revoked_keeps h))) fun _ h1 => .next
    (State.write_keeps _ _ _ _ (l2Access_keeps h1))

/-! ### Translation and the checks of an access (`Machine/Space.lean`) -/

theorem walkFrom_keeps {s : State} {a : Access} {va level table : Nat} {seen : List WalkEntry} (h : s.Inv) :
    OkInv (·.2.2) (walkFrom s a va level table seen) := by
  induction level generalizing s table seen with
  | zero =>
    rw [walkFrom]
    refine .bind (l2Read_keeps h) fun ⟨_, _⟩ h => afterMet_keeps (.ite .error (.ite .error ?_))
    split
    · exact .error
    · exact .ok h
  | succ level ih =>
    rw [walkFrom]
    dsimp only
    split
    · exact ih h
    · refine .bind (l2Read_keeps h) fun ⟨_, _⟩ h =>
        afterMet_keeps (.ite .error (.ite (.ite .error (ih h)) (.ite ?_ .error)))
      split
      · exact .error
      · exact .ok h

theorem translate_keeps {s : State} {a : Access} {va : Nat} (h : s.Inv) : OkInv Prod.snd (translate s a va) := by
  unfold translate
  dsimp only
  split
  · exact .val h
  · split
    · exact .error
    · exact .ite .error (.bind (walkFrom_keeps h) fun _ h => .val (State.modDie_keeps h))

theorem pagePart_keeps {s : State} {a : Access} {va len off : Nat} (h : s.Inv) :
    OkInv Prod.snd (pagePart s a va len off) :=
  .bind (translate_keeps h) fun _ h => .guard (.val h)

theorem hostWriteRecord_keeps {s : State} {a : Access} {p : Piece} (h : s.Inv) :
    OkInv id (hostWriteRecord s a p) := by
  unfold hostWriteRecord
  refine .ite (.next h) ?_
  split
  · exact .next h
  · refine .ite (.next h) ?_
    dsimp only
    split
    · exact .error
    · next e => exact .ite .error (.next (State.modDie_keeps (homePut_keeps (homePut_keeps (ringEnds_keeps h _ e)))))

theorem pagedPieces_keeps {s : State} {a : Access} (h : s.Inv) : OkInv Prod.snd (pagedPieces s a) :=
  .bind (pagePart_keeps h) fun _ h =>
    .ite
      (.bind (hostWriteRecord_keeps h) fun _ h2 => .val h2)
      (.bind (pagePart_keeps h) fun _ h =>
        .ite .error (.bind (hostWriteRecord_keeps h) fun _ h3 => .bind (hostWriteRecord_keeps h3) fun _ h4 =>
          .val h4))

theorem checkAccess_keeps {s : State} {a : Access} (h : s.Inv) : OkInv (·.2.2) (checkAccess s a) := by
  unfold checkAccess
  split
  · exact .error
  · refine .ite .error ?_
    refine .ite .error ?_
    refine .ite .error ?_
    split
    · exact .bind (pagedPieces_keeps h) fun _ h => .ok h
    · exact .check fun _ => .ok h
    · exact .check fun _ => .guard (.ok h)
    · exact .check fun _ => .guard (.ok h)
    · exact .check fun _ => .guard (.ok h)

/-! ### Hardware queues and reports (`Machine/Report.lean`) -/

theorem queuePush_keeps {s0 : State} {a : Access} {dloc data : Nat} (h0 : s0.Inv) :
    OkInv Prod.snd (queuePush s0 a dloc data) :=
  .bind (l2Read_keeps h0) fun _ h =>
    .ite (.val h) (.bind (checkAccess_keeps h) fun _ h =>
        .bind (l2Write_keeps h) fun _ h2 =>
          .bind (l2Write_keeps h2) fun _ h3 =>
            have h4 := State.write_keeps _ _ _ _ h3
            .val (ite_keeps (State.mk_keeps h4) h4))

theorem queuePop_keeps {s0 : State} {a : Access} {dloc : Nat} (h0 : s0.Inv) : OkInv (·.2.2) (queuePop s0 a dloc) :=
  .bind (l2Read_keeps h0) fun _ h =>
    .ite (.ok h) (.bind (checkAccess_keeps h) fun _ h =>
        .bind (l2Read_keeps h) fun _ h =>
          .bind (l2Write_keeps h) fun _ h3 =>
            have h4 := ite_keeps (State.write_keeps _ _ _ _ h3) h3
            .ok (ite_keeps (State.mk_keeps h4) h4))

theorem trqPush_keeps {s : State} {r : TrapRec} (h : s.Inv) : (trqPush s r).2.Inv := by
  unfold trqPush
  dsimp only
  split
  · split
    · exact State.meets_keeps h
    · exact h
  · next e =>
      split
      · exact checkAccess_keeps h _ e
      · split
        · next e' => exact queuePush_keeps (checkAccess_keeps h _ e) _ e'
        · split
          · exact State.meets_keeps (checkAccess_keeps h _ e)
          · exact checkAccess_keeps h _ e

theorem trqLost_keeps {s : State} {die job : Nat} (h : s.Inv) : (trqLost s die job).Inv :=
  State.modJob_keeps h

theorem trqHold_keeps {s : State} {die : Nat} {r : TrapRec} (h : s.Inv) : (trqHold s die r).Inv :=
  ite_keeps (State.dueOnce_keeps (State.modDie_keeps h)) (trqLost_keeps h)

theorem trapRecord_keeps {s : State} {die : Nat} {r : TrapRec} (h : s.Inv) : (trapRecord s die r).Inv := by
  unfold trapRecord
  refine ite_keeps (trqLost_keeps h) ?_
  split
  · next e => exact snd_keeps e (trqPush_keeps h)
  · next e => exact trqHold_keeps (snd_keeps e (trqPush_keeps h))

theorem taskTrapRecord_keeps {s : State} {c cause origin : Nat} {pc addr info : Word} {tag : Nat} (h : s.Inv) :
    (taskTrapRecord s c cause origin pc addr info tag).Inv :=
  trapRecord_keeps h

theorem machineCheck_keeps {s : State} {c cause : Nat} {pc : Word} (h : s.Inv) : (machineCheck s c cause pc).Inv :=
  State.mk_keeps (trapRecord_keeps (telemetry_keeps h))

theorem fbEnter_keeps {s : State} {c job : Nat} {t : TrapInfo} (h : s.Inv) : (fbEnter s c job t).2.Inv := by
  unfold fbEnter
  dsimp only
  split
  · exact h
  · split
    · exact h
    · exact State.due_keeps (State.modDie_keeps (homePut_keeps h))

theorem fbHeld_keeps {s : State} {c job : Nat} {t : TrapInfo} (h : s.Inv) : (fbHeld s c job t).2.Inv :=
  ite_keeps (State.modDie_keeps (fbEnter_keeps h)) (fbEnter_keeps h)

/-! ### The device registers (`Machine/Device.lean`) -/

theorem beginSquareClear_keeps {s : State} {q : Nat} (h : s.Inv) : (beginSquareClear s q).Inv :=
  State.dueOnce_keeps (State.modSquare_keeps h)

theorem tryLeave_keeps {s : State} {q : Nat} (h : s.Inv) : (tryLeave s q).Inv :=
  ite_keeps h (beginSquareClear_keeps (State.modSquare_keeps h))

theorem writePart_keeps {s : State} {job : Nat} {v : Word} (h : s.Inv) : (writePart s job v).Inv :=
  foldl_keeps
    (fun _ _ h =>
      ite_keeps
        (tryLeave_keeps (State.modSquare_keeps h))
        (ite_keeps (ite_keeps (beginSquareClear_keeps (State.modSquare_keeps h)) (State.modSquare_keeps h)) h))
    (State.modJob_keeps h)

theorem clearSquare_keeps {s : State} {q : Nat} (h : s.Inv) : (clearSquare s q).Inv :=
  State.modSquare_keeps (State.clearRange_keeps _ _ _ (foldl_keeps
        (fun _ _ h =>
          State.modCore_keeps (State.clearRange_keeps _ _ _
            (State.clearRange_keeps _ _ _ (State.clearRange_keeps _ _ _ h))))
        h))

theorem deriveCap_keeps {s : State} (h : s.Inv) : (deriveCap s).Inv :=
  State.mk_keeps h

theorem writeCap_keeps {s : State} {v : Word} (h : s.Inv) : (writeCap s v).Inv :=
  deriveCap_keeps (State.mk_keeps h)

theorem writeJobCtl_keeps {s : State} {job : Nat} {v : Word} (h : s.Inv) : (writeJobCtl s job v).Inv :=
  have h1 := deriveCap_keeps (State.modJob_keeps h)
  ite_keeps
    (foldl_keeps
      (fun _ _ h => ite_keeps (foldl_keeps (fun _ _ h => State.modCore_keeps h) (State.modSquare_keeps h)) h)
      (State.modDie_keeps (State.modDie_keeps (State.modJob_keeps h1))))
    h1

theorem writeCspOwn_keeps {s : State} {die n : Nat} {v : Word} (h : s.Inv) : (writeCspOwn s die n v).Inv :=
  ite_keeps (State.modDie_keeps h) (State.dueOnce_keeps (State.modDie_keeps (State.modDie_keeps h)))

theorem forceRetire_keeps {s : State} {c : Nat} {v : Word} (h : s.Inv) : (forceRetire s c v).Inv :=
  foldl_keeps (fun _ _ h => ite_keeps (State.due_keeps (State.modCore_keeps h)) h) h

theorem writeSpadCtl_keeps {s : State} {c : Nat} {v : Word} (h : s.Inv) : (writeSpadCtl s c v).Inv :=
  forceRetire_keeps (State.modCore_keeps h)

theorem writePreCtl_keeps {s : State} {c : Nat} {v : Word} (h : s.Inv) : (writePreCtl s c v).Inv :=
  ite_keeps (State.due_keeps (State.modCore_keeps h)) h

theorem writeFbKill_keeps {s : State} {die : Nat} {v : Word} (h : s.Inv) : (writeFbKill s die v).Inv :=
  State.modDie_keeps h

theorem admitFaults_keeps {s : State} {die : Nat} (h : s.Inv) : (admitFaults s die).Inv :=
  foldl_keeps (fun _ _ h => ite_keeps h (ite_keeps h (State.mk_keeps (State.modDie_keeps (fbEnter_keeps h))))) h

theorem writeFbBase_keeps {s : State} {die : Nat} {v : Word} (h : s.Inv) : (writeFbBase s die v).Inv :=
  admitFaults_keeps (State.modDie_keeps h)

theorem writeSecPol_keeps {s : State} {v : Word} (h : s.Inv) : (writeSecPol s v).Inv :=
  ite_keeps h (State.mk_keeps h)

theorem writeAtreq_keeps {s : State} {v : Word} (h : s.Inv) : (writeAtreq s v).Inv :=
  State.due_keeps (State.mk_keeps h)

theorem writeRoute_keeps {s : State} {stream : Nat} {second : Bool} {v : Word} (h : s.Inv) :
    (writeRoute s stream second v).Inv :=
  ite_keeps (State.mk_keeps h) (State.mk_keeps h)

theorem writePtb_keeps {s : State} {job die : Nat} {v : Word} (h : s.Inv) : (writePtb s job die v).Inv :=
  State.modJob_keeps h

theorem writeHbwBase_keeps {s : State} {die : Nat} {v : Word} (h : s.Inv) : (writeHbwBase s die v).Inv :=
  State.modDie_keeps h

theorem writeDevReg_keeps {s : State} {r : DevReg} {v : Word} (h : s.Inv) : (writeDevReg s r v).Inv := by
  unfold writeDevReg
  split
  · split
    · exact writePtb_keeps h
    · exact writePtb_keeps h
    · exact State.modJob_keeps h
    · exact State.modJob_keeps h
    · exact State.modJob_keeps h
    · exact writePart_keeps h
    · exact writeJobCtl_keeps h
    · exact deriveCap_keeps (State.modJob_keeps h)
  · exact writeCspOwn_keeps h
  · exact h
  · exact h
  · exact writeSpadCtl_keeps h
  · exact writePreCtl_keeps h
  · exact h
  · exact State.modDie_keeps h
  · exact writeHbwBase_keeps h
  · split
    · exact State.modJob_keeps h
    · exact State.modJob_keeps h
    · exact State.modJob_keeps h
    · exact State.modJob_keeps h
    · exact h
  · exact h
  · split
    · exact writeFbBase_keeps h
    · exact State.modDie_keeps h
    · exact h
    · exact writeFbKill_keeps h
    · exact State.modDie_keeps h
  · exact State.modJob_keeps h
  · exact writeCap_keeps h
  · exact h
  · exact ite_keeps (State.modSquare_keeps h) (ite_keeps (State.modDie_keeps h) (State.modDistrict_keeps h))
  · exact h
  · exact State.modDie_keeps h
  · exact h
  · exact writeRoute_keeps h
  · exact State.mk_keeps h
  · exact h
  · exact State.mk_keeps h
  · exact writeSecPol_keeps h
  · exact ite_keeps (State.mk_keeps h) h
  · exact writeAtreq_keeps h
  · exact h

theorem writeDevice_keeps {s : State} {loc v n : Nat} (h : s.Inv) : (writeDevice s loc v n).Inv := by
  induction n generalizing s loc v with
  | zero => exact h
  | succ n ih =>
    unfold writeDevice
    exact ih (writeDevReg_keeps h)

theorem afterDeviceRead_keeps {s : State} (h : s.Inv) : (afterDeviceRead s).Inv :=
  State.fresh_keeps h

/-! ### Reads and writes at their homes (`Machine/Access.lean`) -/

theorem landParity_keeps {s : State} {c g : Nat} (h : s.Inv) : (landParity s c g).Inv := by
  unfold landParity
  split
  · exact h
  · exact State.modCore_keeps (State.write_keeps _ _ _ _ h)

theorem landGroup_keeps {s : State} {c g : Nat} (h : s.Inv) : (landGroup s c g).Inv :=
  foldl_keeps (fun _ _ h => landParity_keeps h) h

theorem retireBank_keeps {s : State} {c b cause : Nat} (h : s.Inv) : (retireBank s c b cause).Inv := by
  unfold retireBank
  extract_lets g s1 was s2 s3 s4
  have h1 : s1.Inv := landGroup_keeps h
  have h3 : s3.Inv := telemetry_keeps (State.modCore_keeps h1)
  exact ite_keeps (State.modCore_keeps h1) (ite_keeps
    (machineCheck_keeps (State.fresh_keeps (State.modCore_keeps h3))) h3)

theorem retireWaiting_keeps {s : State} {c g : Nat} (h : s.Inv) : (retireWaiting s c g).Inv :=
  foldl_keeps (fun _ _ h => retireBank_keeps h) h

theorem countError_keeps {s : State} {c b : Nat} (h : s.Inv) : (countError s c b).Inv :=
  ite_keeps (State.due_keeps (State.modCore_keeps (State.modCore_keeps h))) (State.modCore_keeps h)

theorem correctRow_keeps {s : State} {c b row : Nat} (h : s.Inv) : (correctRow s c b row).Inv :=
  ite_keeps (eccRecord_keeps (countError_keeps (rowMended_keeps h))) h

theorem reconstruct_keeps {s0 : State} {c b w : Nat} (h0 : s0.Inv) : SomeInv id (reconstruct s0 c b w) :=
  .ite .none (.next (State.evCount_keeps (foldl_keeps (fun _ _ h => correctRow_keeps h) (landGroup_keeps h0))))

theorem spadRow_keeps {s0 : State} {c a : Nat} (h0 : s0.Inv) : OkInv id (spadRow s0 c a) := by
  unfold spadRow
  refine .ite ?_ ?_
  · refine .ite .error ?_
    split
    · next e => exact .next (reconstruct_keeps (retireWaiting_keeps h0) _ e)
    · exact .error
  · refine .ite ?_ (.next (correctRow_keeps (retireWaiting_keeps h0)))
    refine .ite .error ?_
    split
    · next e =>
        exact .next (eccRecord_keeps (countError_keeps
          (rowMended_keeps (reconstruct_keeps (retireWaiting_keeps h0) _ e))))
    · exact .error

theorem spadRows_keeps {s : State} {c : Nat} {l : List Nat} (h : s.Inv) : OkInv id (spadRows s c l) :=
  match l with
  | [] => .next h
  | _ :: _ => .bind (spadRow_keeps h) fun _ h1 => spadRows_keeps h1

theorem parityAfter_keeps {s : State} {c row old : Nat} (h : s.Inv) : (parityAfter s c row old).Inv :=
  ite_keeps h (ite_keeps (State.write_keeps _ _ _ _ h)
    (State.dueOnce_keeps (State.modCore_keeps (ite_keeps (landParity_keeps h) h))))

theorem spadWrite_keeps {s : State} {c loc n v : Nat} (h : s.Inv) : (spadWrite s c loc n v).Inv :=
  foldl_keeps (fun _ _ h => parityAfter_keeps h) (State.write_keeps _ _ _ _ h)

theorem portCheck_keeps {s : State} {c loc n va : Nat} {write : Bool} (h : s.Inv) :
    OkInv id (portCheck s c loc n va write) := by
  unfold portCheck
  split
  · exact .next h
  · refine .ite (.next h) ?_
    split
    · next e => exact .next (spadRows_keeps h _ e)
    · exact .error
  · exact wordCheck_keeps h

theorem bytesCharged_keeps {s : State} {a : Access} {loc n : Nat} (h : s.Inv) : (bytesCharged s a loc n).Inv := by
  unfold bytesCharged
  dsimp only
  split
  · exact State.modCore_keeps h
  · exact State.modCore_keeps h
  · exact State.modCore_keeps h
  · exact State.modCore_keeps h
  · exact h

theorem served_keeps {s : State} {a : Access} {kind : AccessKind} {p : Piece} (h : s.Inv) :
    OkInv id (served s a kind p) := by
  unfold served
  refine .bind (metAlloc_keeps (portCheck_keeps (bytesCharged_keeps (revoked_keeps h)))) fun _ h1 => ?_
  refine .bindIte (metAlloc_keeps (portCheck_keeps h1)) (.next h1) fun _ h2 => ?_
  dsimp only
  split
  · exact .next (l2Access_keeps (ite_keeps (sliceCount_keeps h2) h2))
  · exact .next h2

theorem paired_keeps {s : State} {c loc n v : Nat} (h : s.Inv) : (paired s c loc n v).Inv := by
  unfold paired
  split
  · exact ite_keeps (spadWrite_keeps h) h
  · exact h

theorem ringRead_keeps {s : State} {c loc n : Nat} (h : s.Inv) : (ringRead s c loc n).2.Inv := by
  unfold ringRead
  split
  · next e => exact portCheck_keeps h _ e
  · exact machineCheck_keeps h

theorem ringWrite_keeps {s : State} {c loc n v : Nat} (h : s.Inv) : (ringWrite s c loc n v).Inv := by
  unfold ringWrite
  split
  · next e => exact paired_keeps (spadWrite_keeps (portCheck_keeps h _ e))
  · exact machineCheck_keeps h

theorem traceFlush_keeps {s : State} {c : Nat} (h : s.Inv) : (traceFlush s c).Inv := by
  unfold traceFlush
  dsimp only
  split
  · exact h
  · exact State.modCore_keeps (ringWrite_keeps h)

theorem traceOne_keeps {s : State} {o : Nat} {a : Access} {kind loc n : Nat} (h : s.Inv) :
    (traceOne s o a kind loc n).Inv :=
  ite_keeps (State.due_keeps (State.modCore_keeps (ite_keeps (traceFlush_keeps h) h))) h

theorem traced_keeps {s : State} {a : Access} {kind loc n : Nat} (h : s.Inv) : (traced s a kind loc n).Inv :=
  ite_keeps
    (ite_keeps
      (foldl_keeps (fun _ _ h => traceOne_keeps h) h)
      (foldl_keeps (fun _ _ h => foldl_keeps (fun _ _ h => traceOne_keeps h) h) h))
    h

theorem remoteSent_keeps {s : State} {c : Nat} {ps : List Piece} (h : s.Inv) : (remoteSent s c ps).Inv :=
  foldl_keeps (fun _ _ h => ite_keeps (sentAt_keeps h) h) h

theorem remoteUnsent_keeps {s : State} {c : Nat} {ps : List Piece} (h : s.Inv) : (remoteUnsent s c ps).Inv :=
  foldl_keeps (fun _ _ h => ite_keeps (State.modCore_keeps h) h) h

theorem remoteServed_keeps {s : State} {c : Nat} {ps : List Piece} (h : s.Inv) : (remoteServed s c ps).Inv := by
  unfold remoteServed
  refine foldl_keeps (fun _ _ h => ?_) h
  split
  · exact receivedAt_keeps h
  · exact h

theorem checkerRead_keeps {s : State} {a : Access} {p : Piece} {v : Nat} (h : s.Inv) :
    OkInv id (checkerRead s a p v) := by
  unfold checkerRead
  split
  · exact .next h
  · exact .ite (.next h) (.bind (served_keeps h) fun _ h1 => .guard (.next h1))

theorem checkerWrite_keeps {s : State} {a : Access} {p : Piece} {v : Nat} (h : s.Inv) :
    OkInv id (checkerWrite s a p v) := by
  unfold checkerWrite
  split
  · exact .next h
  · exact .bind (served_keeps h) fun _ h1 => .next (spadWrite_keeps h1)

theorem readPiece_keeps {s : State} {a : Access} {p : Piece} (h : s.Inv) : OkInv Prod.snd (readPiece s a p) := by
  unfold readPiece
  refine .bind (served_keeps h) fun _ h1 => ?_
  split
  · exact .val (afterDeviceRead_keeps h1)
  · exact .bind (checkerRead_keeps h1) fun _ h2 => .val h2

theorem readPieces_keeps {s : State} {a : Access} {l : List Piece} (h : s.Inv) : OkInv Prod.snd (readPieces s a l) :=
  match l with
  | [] => .val h
  | _ :: _ => .bind (readPiece_keeps h) fun _ h => .bind (readPieces_keeps h) fun _ h => .val h

theorem putBytes_keeps {s : State} {loc n v : Nat} (h : s.Inv) : (putBytes s loc n v).Inv := by
  unfold putBytes
  split
  · exact spadWrite_keeps h
  · exact State.write_keeps _ _ _ _ h

theorem writePiece_keeps {s : State} {a : Access} {kind : Nat} {p : Piece} {v : Nat} (h : s.Inv) :
    OkInv id (writePiece s a kind p v) := by
  unfold writePiece
  refine .bind (served_keeps h) fun _ h1 => ?_
  split
  · exact .next (writeDevice_keeps h1)
  · exact checkerWrite_keeps (traced_keeps (spadWrite_keeps h1))
  · exact .next (traced_keeps (State.write_keeps _ _ _ _ h1))

theorem writePieces_keeps {s : State} {a : Access} {kind : Nat} {l : List Piece} {v : Nat} (h : s.Inv) :
    OkInv id (writePieces s a kind l v) :=
  match l, v with
  | [], _ => .next h
  | _ :: _, _ => .bind (writePiece_keeps h) fun _ h1 => writePieces_keeps h1

theorem readRange_keeps {s : State} {a : Access} {fuel va len : Nat} (h : s.Inv) :
    OkInv Prod.snd (readRange s a fuel va len) := by
  match fuel, va, len with
  | 0, _, _ =>
    exact .val h
  | fuel + 1, va, len =>
    rw [readRange]
    refine .ite (.val h) ?_
    refine .bind (checkAccess_keeps h) fun ⟨_, _, _⟩ h => ?_
    dsimp only
    split
    · exact .error
    · exact .bind (readPieces_keeps h) fun _ h => .bind (readRange_keeps h) fun _ h => .val h

theorem writeRange_keeps {s : State} {a : Access} {fuel va len v : Nat} (h : s.Inv) :
    OkInv id (writeRange s a fuel va len v) := by
  match fuel, va, len, v with
  | 0, _, _, _ =>
    exact .next h
  | fuel + 1, va, len, v =>
    rw [writeRange]
    refine .ite (.next h) ?_
    refine .bind (checkAccess_keeps h) fun ⟨_, _, _⟩ h => ?_
    dsimp only
    split
    · exact .error
    · exact .bind (writePieces_keeps h) fun _ h2 => writeRange_keeps h2

theorem gatherCounted_keeps {s : State} {a : Access} (h : s.Inv) : (gatherCounted s a).Inv := by
  unfold gatherCounted
  split
  · next e => exact ite_keeps (sliceCount_keeps (checkAccess_keeps h _ e)) (checkAccess_keeps h _ e)
  · exact h

theorem dropBadLine_keeps {s : State} {c : Nat} {code : Bool} {e : Sector} (h : s.Inv) :
    (dropBadLine s c code e).Inv :=
  telemetry_keeps (State.modCore_keeps h)

theorem lookup_keeps {s : State} {c : Nat} {code : Bool} {job va : Nat} (h : s.Inv) :
    (lookup s c code job va).2.Inv := by
  unfold lookup
  dsimp only
  split
  · exact h
  · split
    · exact dropBadLine_keeps h
    · split <;> exact State.modCore_keeps h

theorem l1dInvalidate_keeps {s : State} {c job va len : Nat} (h : s.Inv) : (l1dInvalidate s c job va len).Inv :=
  ite_keeps (State.modCore_keeps h) h

theorem l1dPerformed_keeps {s : State} {c job : Nat} {ps : List Piece} (h : s.Inv) : (l1dPerformed s c job ps).Inv :=
  foldl_keeps (fun _ _ h => ite_keeps (l1dInvalidate_keeps h) h) h

theorem requestFill1_keeps {s : State} {c job : Nat} {p : Piece} (h : s.Inv) : (requestFill1 s c job p).Inv :=
  ite_keeps h (State.due_keeps (State.modCore_keeps h))

theorem loadPiece_keeps {s : State} {a : Access} {keep : Bool} {p : Piece} (h : s.Inv) :
    OkInv Prod.snd (loadPiece s a keep p) := by
  unfold loadPiece
  refine .ite ?_ (readPiece_keeps h)
  split
  · next e => exact .val (State.evCount_keeps (snd_keeps e (lookup_keeps h)))
  · next e =>
      exact .bind (readPiece_keeps (snd_keeps e (lookup_keeps h))) fun _ h => .val
        (ite_keeps (requestFill1_keeps (State.evCount_keeps h)) (State.evCount_keeps h))

theorem loadPieces_keeps {s : State} {a : Access} {keep : Bool} {l : List Piece} (h : s.Inv) :
    OkInv Prod.snd (loadPieces s a keep l) :=
  match l with
  | [] => .val h
  | _ :: _ => .bind (loadPiece_keeps h) fun _ h => .bind (loadPieces_keeps h) fun _ h => .val h

theorem performPart_keeps {s : State} {c : Nat} {b : BufStore} (h : s.Inv) : OkInv id (performPart s c b) :=
  .bind (writePieces_keeps (State.modCore_keeps h)) fun _ h2 => .next (remoteServed_keeps (l1dPerformed_keeps h2))

theorem performParts_keeps {s : State} {c : Nat} {b : BufStore} {l : List Piece} (h : s.Inv) :
    OkInv id (performParts s c b l) :=
  match l with
  | [] => .next h
  | _ :: _ => .bind (performPart_keeps h) fun _ h1 => performParts_keeps h1

theorem performStore_keeps {s : State} {c : Nat} {b : BufStore} (h : s.Inv) : OkInv id (performStore s c b) :=
  performParts_keeps h

theorem drainUpTo_keeps {s : State} {c : Nat} {p : BufStore → Bool} {l : List BufStore} (h : s.Inv) :
    OkInv id (drainUpTo s c p l) :=
  match l with
  | [] => .next h
  | _ :: _ => .ite (.bind (performStore_keeps h) fun _ h1 => drainUpTo_keeps h1) (.next h)

theorem drainStores_keeps {s : State} {c : Nat} {p : BufStore → Bool} (h : s.Inv) : OkInv id (drainStores s c p) :=
  drainUpTo_keeps h

theorem drainAll_keeps {s : State} {c : Nat} (h : s.Inv) : OkInv id (drainAll s c) :=
  drainStores_keeps h

theorem orderBefore_keeps {s : State} {c : Nat} {ps : List Piece} (h : s.Inv) : OkInv id (orderBefore s c ps) :=
  .check fun _ => .ite (.next h) (drainStores_keeps h)

theorem bufferStore_keeps {s : State} {c : Nat} {ps : List Piece} {len data : Nat} {release : Bool}
    {agent : AgentKind} (h : s.Inv) : OkInv id (bufferStore s c ps len data release agent) := by
  unfold bufferStore
  extract_lets enter
  have henter : ∀ s, s.Inv → OkInv id (enter s) := fun _ h =>
    .next (State.due_keeps (State.mk_keeps (State.modCore_keeps (remoteSent_keeps h))))
  split
  · exact .bindIte (performStore_keeps h) (.next h) henter
  · exact .bind (.next h) henter

/-! ### The tile table and the paging engine (`Machine/Tile.lean`) -/

theorem submitJob_keeps {s : State} {c engine : Nat} {reads writes : List (Nat × Nat)} {card : BitVec 512}
    {job : Nat} {sys : Bool} (h : s.Inv) : SomeInv Prod.snd (submitJob s c engine reads writes card job sys) :=
  .ite .none (.val (State.modCore_keeps h))

theorem completeJob_keeps {s : State} {c id : Nat} (h : s.Inv) : (completeJob s c id).Inv :=
  State.modCore_keeps h

theorem settleTask_keeps {s : State} {c scope : Nat} (h : s.Inv) : OkInv id (settleTask s c scope) :=
  .guard (.guard (drainAll_keeps h))

theorem State.modTile_keeps {s : State} {c n : Nat} {f : Tile → Tile} (h : s.Inv) : (s.modTile c n f).Inv :=
  State.modCore_keeps h

theorem beginMove_keeps {s : State} {c n : Nat} {fill : Bool} {cause : Nat} (h : s.Inv) :
    (beginMove s c n fill cause).Inv := by
  unfold beginMove
  dsimp only
  split
  · exact h
  · next e => exact State.due_keeps (sentAt_keeps (State.modTile_keeps (State.evCount_keeps (submitJob_keeps h _ e))))

theorem requestEvict_keeps {s : State} {c n cause : Nat} (h : s.Inv) : (requestEvict s c n cause).Inv :=
  ite_keeps (ite_keeps (beginMove_keeps h) (State.modTile_keeps h)) h

theorem requestFill_keeps {s : State} {c n cause : Nat} (h : s.Inv) : (requestFill s c n cause).Inv :=
  ite_keeps
    (ite_keeps h
      (have h1 := foldl_keeps (fun _ _ h => ite_keeps h (requestEvict_keeps h)) h
       ite_keeps (beginMove_keeps h1) h1))
    h

theorem requestKeep_keeps {s : State} {c n : Nat} (h : s.Inv) : (requestKeep s c n).Inv :=
  ite_keeps (State.modTile_keeps h) h

theorem poolCheck_keeps {s : State} {c i va : Nat} {write : Bool} (h : s.Inv) : OkInv id (poolCheck s c i va write) :=
  portCheck_keeps h

theorem poolPut_keeps {s : State} {c loc n v : Nat} (h : s.Inv) : (poolPut s c loc n v).Inv :=
  paired_keeps (spadWrite_keeps h)

theorem logAppend_keeps {s0 : State} {c n op w off v va : Nat} (h0 : s0.Inv) :
    OkInv (fun o : Option State => o.getD s0) (logAppend s0 c n op w off v va) := by
  unfold logAppend
  extract_lets t append
  have happend : ∀ s, s.Inv → OkInv (fun o : Option State => o.getD s0) (append s) := by
    intro s h
    unfold append
    extract_lets k tailLoc ctl same
    split
    · exact .given (State.evCount_keeps (poolPut_keeps h))
    · refine .ite (.ok h0) ?_
      split
      · exact .ok h0
      · exact .bind (poolCheck_keeps h) fun _ h1 => .given (State.modCore_keeps (State.evCount_keeps
          (ite_keeps (poolPut_keeps h1) (poolPut_keeps (poolPut_keeps h1)))))
  exact .bindIte (.next h0) (poolCheck_keeps h0) happend

theorem logApplyOne_keeps {s0 : State} {c n : Nat} (h0 : s0.Inv) : OkInv id (logApplyOne s0 c n) :=
  .bind (poolCheck_keeps h0) fun _ h =>
    .ite
      (.bind (.next (telemetry_keeps h)) fun _ h1 => .next (State.modCore_keeps h1))
      (.bind (portCheck_keeps h) fun _ h1 =>
        .bind (portCheck_keeps h1) fun _ h2 =>
          .bind (.next (paired_keeps (putBytes_keeps h2))) fun _ h1 => .next (State.modCore_keeps h1))

theorem tileDone_keeps {s : State} {c n : Nat} (h : s.Inv) : (tileDone s c n).Inv :=
  State.modTile_keeps h

theorem beginApply_keeps {s : State} {c n : Nat} (h : s.Inv) : (beginApply s c n).Inv :=
  ite_keeps (tileDone_keeps h) (State.due_keeps (State.modTile_keeps h))

theorem homeWrite_keeps {s : State} {a : Access} {loc n v : Nat} (h : s.Inv) : OkInv id (homeWrite s a loc n v) :=
  .bind (portCheck_keeps (revoked_keeps h)) fun _ h1 => .next (traced_keeps (paired_keeps (putBytes_keeps h1)))

theorem transferFault_keeps {s : State} {c n : Nat} {m : TileMove} {t0 : TrapInfo} (h : s.Inv) :
    (transferFault s c n m t0).Inv := by
  unfold transferFault
  extract_lets t s1 back buffer s2 s3 info
  have h2 : s2.Inv := State.modTile_keeps (receivedAt_keeps (completeJob_keeps (State.meets_keeps h)))
  have h3 : s3.Inv := State.modTile_keeps h2
  exact ite_keeps (ite_keeps (fbHeld_keeps h3) h3) (ite_keeps (State.modTile_keeps h2) (State.modTile_keeps h2))

theorem fillBeat_keeps {s : State} {c : Nat} {t : Tile} {pos : Nat} (h : s.Inv) : OkInv id (fillBeat s c t pos) :=
  .bind (readRange_keeps h) fun _ h => homeWrite_keeps h

theorem drainBeat_keeps {s : State} {c : Nat} {t : Tile} {pos : Nat} (h : s.Inv) : OkInv id (drainBeat s c t pos) :=
  .bind (portCheck_keeps (revoked_keeps h)) fun _ h1 => writeRange_keeps h1

theorem lastBeat_keeps {s : State} {c n : Nat} {m : TileMove} (h : s.Inv) : (lastBeat s c n m).Inv :=
  have h1 := State.modTile_keeps (receivedAt_keeps (completeJob_keeps h))
  ite_keeps (beginApply_keeps h1) (ite_keeps (beginApply_keeps (State.modTile_keeps h1))
    (State.modTile_keeps (State.modTile_keeps h1)))

theorem moveBeat_keeps {s : State} {c n : Nat} {m : TileMove} {j : Job} (h : s.Inv) : (moveBeat s c n m j).Inv := by
  unfold moveBeat
  extract_lets t s0
  have h0 : s0.Inv := State.modCore_keeps h
  have hbeat : OkInv id (if m.fill then fillBeat s0 c t m.pos else drainBeat s0 c t m.pos) :=
    .ite (fillBeat_keeps h0) (drainBeat_keeps h0)
  split
  · next e => exact ite_keeps (lastBeat_keeps (hbeat _ e)) (State.modTile_keeps (hbeat _ e))
  · exact transferFault_keeps h0
  · exact h0

theorem moveStep_keeps {s : State} {c n : Nat} (h : s.Inv) : (moveStep s c n).Inv := by
  unfold moveStep
  split
  · split
    · exact ite_keeps (moveBeat_keeps h) h
    · exact h
  · exact h

theorem moveAll_keeps {c n fuel : Nat} {s : State} (h : s.Inv) : (moveAll c n fuel s).Inv := by
  induction fuel generalizing s with
  | zero => exact h
  | succ fuel ih => rw [moveAll]; exact ih (moveStep_keeps h)

theorem runMove_keeps {s : State} {c n : Nat} (h : s.Inv) : (runMove s c n).Inv := by
  unfold runMove
  dsimp only
  split
  · exact ite_keeps (moveStep_keeps h) (State.due_keeps (moveStep_keeps h))
  · exact moveStep_keeps h

theorem tryWanted_keeps {s : State} {c n : Nat} (h : s.Inv) : (tryWanted s c n).Inv :=
  ite_keeps h (ite_keeps (State.modTile_keeps h)
    (ite_keeps (State.dueOnce_keeps (requestFill_keeps h)) (requestFill_keeps h)))

theorem runFill_keeps {s : State} {c n : Nat} (h : s.Inv) : (runFill s c n).Inv := by
  unfold runFill
  split
  · exact ite_keeps (runMove_keeps h) h
  · exact tryWanted_keeps h

theorem runDrain_keeps {s : State} {c n : Nat} (h : s.Inv) : (runDrain s c n).Inv := by
  unfold runDrain
  split
  · exact ite_keeps h (runMove_keeps h)
  · exact h

theorem runApply_keeps {s : State} {c n : Nat} (h : s.Inv) : OkInv id (runApply s c n) := by
  unfold runApply
  split
  · exact .ite (.next h) (.bind (logApplyOne_keeps h) fun _ h1 => .next
      (ite_keeps (tileDone_keeps h1) (State.due_keeps h1)))
  · exact .next h

theorem markDirty_keeps {s : State} {c n : Nat} (h : s.Inv) : (markDirty s c n).Inv :=
  ite_keeps (State.modTile_keeps h) h

theorem logOrWait_keeps {s : State} {c n op w off v va : Nat} (h : s.Inv) :
    OkInv id (logOrWait s c n op w off v va) := by
  unfold logOrWait
  refine .guard (.bindIte (p := fun o : Option State => o.getD s) (.ok h) (logAppend_keeps h) fun logged hlogged =>
    ?_)
  cases logged with
  | some s1 => exact .next (State.modCore_keeps hlogged)
  | none =>
    dsimp only
    split
    · exact .error
    · refine .ite ?_ (.ite .error .error)
      split
      · exact .error
      · exact .error

/-! ### Loads and atomics (`Machine/Load.lean`) -/

theorem loadData_keeps {s : State} {a0 : Access} {cp : Option Nat} {keep : Bool} (h : s.Inv) :
    OkInv Prod.snd (loadData s a0 cp keep) := by
  unfold loadData
  refine .bind (checkAccess_keeps h) fun ⟨_, _, _⟩ h => ?_
  dsimp only
  split
  · refine .bind (orderBefore_keeps h) fun _ h2 => ?_
    split
    · exact loadPieces_keeps h2
    · exact readPieces_keeps h2
  · exact .check fun _ => .bind (orderBefore_keeps h) fun _ h2 => readPiece_keeps h2

theorem loadStruct_keeps {s : State} {c va len align : Nat} (h : s.Inv) :
    OkInv Prod.snd (loadStruct s c va len align) :=
  loadData_keeps h

theorem commit_keeps {s : State} {c : Nat} (h : s.Inv) : (commit s c).Inv :=
  State.modCore_keeps h

theorem atomicAt_keeps {s : State} {a : Access} {kind : Nat} {near : Bool} {p : Piece} {o : AtomicOp} (h : s.Inv) :
    OkInv Prod.snd (atomicAt s a kind near p o) :=
  .bindIte (portCheck_keeps h) (served_keeps h) fun _ h2 =>
    .bind (checkerRead_keeps h2) fun _ h3 =>
      .bind (checkerWrite_keeps (putBytes_keeps h3)) fun _ h4 =>
        .val (traced_keeps (ite_keeps h4 (remoteServed_keeps (remoteSent_keeps (State.evCount_keeps h4)))))

theorem touchAtom_keeps {s : State} {c job va : Nat} (h : s.Inv) : (touchAtom s c job va).Inv :=
  State.modCore_keeps h

/-- The state that an atomic leaves. -/
def AtomicOut.after : AtomicOut → State
  | .done _ s => s
  | .asked s => s

theorem atomicData_keeps {s : State} {a : Access} {o : AtomicOp} {kind : Nat} {sc acquire : Bool} {log : Option Nat}
    (h : s.Inv) : OkInv AtomicOut.after (atomicData s a o kind sc acquire log) := by
  refine .bind (checkAccess_keeps h) fun ⟨r, t, s1⟩ h1 => ?_
  cases t with
  | tile n off =>
    refine .check fun e => .guard (.ite (.check fun p => .bind (orderBefore_keeps h1) fun s2 h2 => ?_)
      (.check fun _ => .bind (logOrWait_keeps h1) fun s2 h2 => .ok h2))
    exact .bind (atomicAt_keeps h2) fun _ h3 => .ok (commit_keeps (markDirty_keeps h3))
  | bytes ps =>
    refine .bind (orderBefore_keeps h1) fun s2 h2 => ?_
    cases ps with
    | nil => exact .error
    | cons p ps =>
      have h3 : (commit (l1dInvalidate s2 a.core a.job a.va a.len) a.core).Inv :=
        commit_keeps (l1dInvalidate_keeps h2)
      refine .ite (.bind (atomicAt_keeps h3) fun _ h4 => .ok h4)
        (.ite (.bind (atomicAt_keeps (touchAtom_keeps h3)) fun _ h4 => .ok h4) ?_)
      dsimp only
      have h4 : ∀ k, ((commit (l1dInvalidate s2 a.core a.job a.va a.len) a.core).setCore a.core k).Inv :=
        fun _ => State.setCore_keeps h3
      exact .ite (.bind (atomicAt_keeps (h4 _)) fun _ h5 => .ok h5)
        (.ok (State.due_keeps (State.modCore_keeps (h4 _))))

theorem grantOwnership_keeps {s : State} {c : Nat} (h : s.Inv) : OkInv id (grantOwnership s c) := by
  unfold grantOwnership
  dsimp only
  split
  · exact .next h
  · refine .bind (atomicAt_keeps (State.modCore_keeps
      (l2Access_keeps (foldl_keeps (fun _ _ h => l2Return_keeps h) (revoked_keeps h))))) fun ⟨_, _⟩ h => ?_
    dsimp only
    split
    · exact .next (State.due_keeps (State.modCore_keeps (l1dInvalidate_keeps h)))
    · exact .next (l1dInvalidate_keeps h)

theorem homeAtomic_keeps {s : State} {a : Access} {kind : Nat} {o : AtomicOp} (h : s.Inv) :
    OkInv Prod.snd (homeAtomic s a kind o) := by
  unfold homeAtomic
  refine .bind (checkAccess_keeps h) fun ⟨_, _, _⟩ h => ?_
  dsimp only
  split
  · exact atomicAt_keeps h
  · exact .error

/-! ### Levels and records (`Machine/Level.lean`) -/

theorem hwRead_keeps {s : State} {job va n : Nat} (h : s.Inv) : SomeInv Prod.snd (hwRead s job va n) := by
  unfold hwRead
  split
  · next e => exact .val (readRange_keeps h _ e)
  · exact .none

theorem hwStopped_keeps {s : State} {o : HwOp} {x : Stop} (h : s.Inv) : (hwStopped s o x).Inv := by
  unfold hwStopped
  split
  · exact State.mk_keeps h
  · exact ite_keeps (machineCheck_keeps (State.meets_keeps h)) (State.meets_keeps h)

theorem hwWrite_keeps {s : State} {job va n v : Nat} (h : s.Inv) : (hwWrite s job va n v).Inv := by
  unfold hwWrite
  refine ite_keeps (State.mk_keeps h) ?_
  split
  · next e => exact writeRange_keeps h _ e
  · exact hwStopped_keeps h

theorem levelSeen_keeps {s : State} {job i : Nat} (h : s.Inv) : (levelSeen s job i).Inv := by
  unfold levelSeen
  split
  · next e => exact hwRead_keeps h _ e
  · exact h

theorem setCnt_keeps {s : State} {job i v : Nat} (h : s.Inv) : (setCnt s job i v).Inv :=
  hwWrite_keeps h

theorem setAct_keeps {s : State} {job i v : Nat} (h : s.Inv) : (setAct s job i v).Inv :=
  hwWrite_keeps h

theorem setCtl_keeps {s : State} {job i : Nat} {b : LevelBlock} (h : s.Inv) : (setCtl s job i b).Inv :=
  hwWrite_keeps h

theorem chainSeen_keeps {s : State} {job i : Nat} (h : s.Inv) : (chainSeen s job i).Inv :=
  foldl_keeps (fun _ _ h => levelSeen_keeps h) h

theorem ringStore_keeps {s : State} {va : Nat} {r : Ready} (h : s.Inv) : (ringStore s va r).Inv :=
  hwWrite_keeps h

theorem ringLoad_keeps {s : State} {va : Nat} {r : Ready} (h : s.Inv) : (ringLoad s va r).1.Inv := by
  unfold ringLoad
  split
  · next e => exact hwRead_keeps h _ e
  · exact h

theorem spillReady_keeps {s : State} {die : Nat} {r : Ready} (h : s.Inv) : (spillReady s die r).Inv :=
  ite_keeps (State.modDie_keeps (ringStore_keeps h)) (State.modDie_keeps h)

theorem placeReady_keeps {s : State} {die : Nat} {front : Bool} {r : Ready} (h : s.Inv) :
    (placeReady s die front r).Inv :=
  have h1 := State.dueOnce_keeps (State.mk_keeps h)
  ite_keeps (spillReady_keeps h1) (State.modDie_keeps h1)

theorem unspill_keeps {s : State} {die : Nat} (h : s.Inv) : (unspill s die).Inv := by
  unfold unspill
  refine ite_keeps h ?_
  refine foldl_keeps (fun _ _ h => ite_keeps (State.modDie_keeps h) (spillReady_keeps h)) ?_
  refine foldl_keeps (fun _ _ h => ?_) (State.modDie_keeps h)
  split
  · next e =>
      refine State.modDie_keeps ?_
      refine fst_keeps e ?_
      split
      · exact ringLoad_keeps h
      · exact h

theorem spillDeque_keeps {s : State} {c n : Nat} (h : s.Inv) : (spillDeque s c n).Inv :=
  foldl_keeps (fun _ _ h => State.modCore_keeps (ringStore_keeps h)) (State.modCore_keeps h)

theorem pushDeque_keeps {s : State} {c : Nat} {r : Ready} (h : s.Inv) : (pushDeque s c r).Inv :=
  have h1 := State.dueOnce_keeps (State.mk_keeps h)
  ite_keeps (State.modCore_keeps h1) (ite_keeps (State.modCore_keeps (spillDeque_keeps h1)) (placeReady_keeps h))

theorem refillDeque_keeps {s : State} {c : Nat} (h : s.Inv) : (refillDeque s c).Inv := by
  unfold refillDeque
  refine ite_keeps h (foldl_keeps (fun s r h => ?_) (State.modCore_keeps h))
  split
  next e => exact State.modCore_keeps (fst_keeps e (ringLoad_keeps h))

theorem raiseAct_keeps {s : State} {job i n : Nat} (h : s.Inv) : (raiseAct s job i n).Inv :=
  foldl_keeps (fun _ _ h => setAct_keeps (levelSeen_keeps h)) h

theorem placeFrom_keeps {s : State} {c job va : Nat} {toDeque : Bool} (h : s.Inv) :
    (placeFrom s c job va toDeque).Inv := by
  unfold placeFrom
  dsimp only
  split
  · exact h
  · next e =>
      exact have h1 := ite_keeps (setCnt_keeps (hwRead_keeps h _ e)) (hwRead_keeps h _ e)
        ite_keeps (pushDeque_keeps (raiseAct_keeps h1)) (placeReady_keeps (raiseAct_keeps h1))

theorem decRecord_keeps {s : State} {c job va : Nat} (h : s.Inv) : OkInv id (decRecord s c job va) := by
  unfold decRecord
  refine .bind (checkAccess_keeps h) fun ⟨_, _, _⟩ h => ?_
  dsimp only
  split
  · exact .bind (atomicAt_keeps h) fun _ h => .next (ite_keeps (placeFrom_keeps h) h)
  · exact .error

theorem notifyOne_keeps {s : State} {o : HwOp} (h : s.Inv) : OkInv id (notifyOne s o) := by
  unfold notifyOne
  split
  · exact .bind (homeAtomic_keeps h) fun _ h => .next h
  · exact decRecord_keeps h
  · exact writeRange_keeps h

theorem hwDo_keeps {s : State} {o : HwOp} (h : s.Inv) : (hwDo s o).Inv := by
  unfold hwDo
  split
  · next e => exact notifyOne_keeps h _ e
  · exact hwStopped_keeps h

theorem hwAgain_keeps {s : State} (h : s.Inv) : (hwAgain s).Inv :=
  ite_keeps h (foldl_keeps (fun _ _ h => ite_keeps (State.mk_keeps h) (hwDo_keeps h)) (State.mk_keeps h))

theorem notifyLevel_keeps {s : State} {c job : Nat} {b : LevelBlock} (h : s.Inv) : (notifyLevel s c job b).Inv := by
  unfold notifyLevel
  split
  · exact hwDo_keeps h
  · split
    · exact h
    · next e =>
        refine foldl_keeps (fun _ _ h => ?_) (hwRead_keeps h _ e)
        split
        · next e => exact hwDo_keeps (hwRead_keeps h _ e)
        · exact h
  · exact h

theorem lowerCnt_keeps {c job fuel : Nat} {s : State} {i : Nat} (h : s.Inv) : (lowerCnt c job fuel s i).Inv :=
  match fuel, i with
  | 0, _ => h
  | _ + 1, _ =>
    have h1 := setCnt_keeps (levelSeen_keeps h)
    ite_keeps
      (ite_keeps
        (State.dueOnce_keeps (State.mk_keeps h1))
        (ite_keeps (notifyLevel_keeps (setCtl_keeps h1)) (lowerCnt_keeps (notifyLevel_keeps (setCtl_keeps h1)))))
      h1

theorem completePhase_keeps {s0 : State} {c0 job i : Nat} (h0 : s0.Inv) : (completePhase s0 c0 job i).Inv :=
  have h := State.mk_keeps (levelSeen_keeps h0)
  ite_keeps (ite_keeps (notifyLevel_keeps (setCtl_keeps h)) (lowerCnt_keeps (notifyLevel_keeps (setCtl_keeps h)))) h

theorem completeCancelled_keeps {s : State} {c job i : Nat} (h : s.Inv) : (completeCancelled s c job i).Inv :=
  ite_keeps
    (have h1 := foldl_keeps (fun _ _ h => setCtl_keeps h) (foldl_keeps (fun _ _ h => levelSeen_keeps h) h)
     ite_keeps (setCtl_keeps h1) (lowerCnt_keeps (setCtl_keeps h1)))
    h

theorem lowerAct_keeps {s : State} {c job i : Nat} (h : s.Inv) : (lowerAct s c job i).Inv :=
  foldl_keeps (fun _ _ h => completeCancelled_keeps (setAct_keeps (levelSeen_keeps h))) h

theorem setFail_keeps {s : State} {job i : Nat} (h : s.Inv) : (setFail s job i).Inv :=
  foldl_keeps (fun _ _ h => setCtl_keeps (levelSeen_keeps h)) h

theorem unitFinished_keeps {s : State} {c job launch : Nat} {fail : Bool} (h : s.Inv) :
    (unitFinished s c job launch fail).Inv :=
  lowerAct_keeps (lowerCnt_keeps (ite_keeps (setFail_keeps h) h))

/-! ### Engine job cards (`Machine/Engine.lean`) -/

theorem cardSent_keeps {s : State} {c engine : Nat} (h : s.Inv) : (cardSent s c engine).Inv :=
  ite_keeps (State.modSquare_keeps h) (sentAt_keeps h)

theorem cardReceived_keeps {s : State} {c engine : Nat} (h : s.Inv) : (cardReceived s c engine).Inv :=
  ite_keeps (State.modSquare_keeps h) (receivedAt_keeps h)

theorem connRead_keeps {s : State} {i : Nat} (h : s.Inv) : SomeInv Prod.snd (connRead s i) := by
  unfold connRead
  refine .ite .none ?_
  dsimp only
  split
  · next e => exact .some (l2Read_keeps h _ e)
  · exact .none

theorem connSeen_keeps {s : State} {i : Nat} (h : s.Inv) : (connSeen s i).Inv := by
  unfold connSeen
  split
  · next e => exact connRead_keeps h _ e
  · exact h

theorem transmitAt_keeps {s : State} {port : Nat} {o : HostOut} (h : s.Inv) : (transmitAt s port o).Inv :=
  ite_keeps h (ite_keeps (State.mk_keeps h) (State.mk_keeps h))

theorem releaseFrames_keeps {s : State} (h : s.Inv) : (releaseFrames s).Inv :=
  ite_keeps h (State.mk_keeps h)

theorem submitCard_keeps {s : State} {c : Nat} {k0 : Card} (h : s.Inv) : SomeInv id (submitCard s c k0) := by
  unfold submitCard
  refine .ite .none ?_
  split
  · dsimp only
    split
    · exact .none
    · next e =>
        exact .next (State.due_keeps (cardSent_keeps
          (ite_keeps (connSeen_keeps (submitJob_keeps h _ e)) (submitJob_keeps h _ e))))
  · exact .none

theorem jobUnit_keeps {s : State} {c : Nat} {j : Job} {k : Card} {r : Nat} (h : s.Inv) :
    OkInv id (jobUnit s c j k r) := by
  unfold jobUnit
  dsimp only
  split
  · exact .bind (readRange_keeps h) fun _ h => writeRange_keeps h
  · exact .bind (readRange_keeps h) fun _ h => .ite (writeRange_keeps h)
      (.bind (readRange_keeps (gatherCounted_keeps h)) fun _ h => writeRange_keeps h)
  · exact writeRange_keeps h
  · exact .guard (.bind (readRange_keeps (connSeen_keeps h)) fun _ h => .next (transmitAt_keeps h))

theorem jobUnits_keeps {c : Nat} {j : Job} {k : Card} {fuel : Nat} {s : State} {i : Nat} (h : s.Inv) :
    (jobUnits c j k fuel s i).1.Inv := by
  match fuel, i with
  | 0, _ =>
    exact h
  | fuel + 1, i =>
    rw [jobUnits]
    split
    · next e => exact jobUnits_keeps (State.modCore_keeps (jobUnit_keeps h _ e))
    · exact h

theorem setJob_keeps {s : State} {c id : Nat} {f : Job → Job} (h : s.Inv) : (setJob s c id f).Inv :=
  State.modCore_keeps h

theorem finishJob_keeps {s : State} {c : Nat} {j : Job} {k : Card} (h : s.Inv) : OkInv id (finishJob s c j k) :=
  .ite
    (.next (cardReceived_keeps (completeJob_keeps h)))
    (.bind (homeAtomic_keeps h) fun _ h => .next (cardReceived_keeps (completeJob_keeps h)))

theorem jobRecord_keeps {s : State} {c : Nat} {j : Job} {k : Card} {t : TrapInfo} (h : s.Inv) :
    (jobRecord s c j k t).Inv :=
  ite_keeps (machineCheck_keeps (trapRecord_keeps h)) (trapRecord_keeps h)

theorem holdJob_keeps {s : State} {c : Nat} {j : Job} {t : TrapInfo} (h : s.Inv) : (holdJob s c j t).Inv :=
  setJob_keeps (ite_keeps (State.modDie_keeps (fbEnter_keeps h)) (fbEnter_keeps h))

theorem endJob_keeps {s : State} {c : Nat} {j : Job} {t : TrapInfo} (h : s.Inv) : (endJob s c j t).Inv := by
  unfold endJob
  extract_lets k s1 gone s2
  have hgone : ∀ s, s.Inv → (gone s).Inv := fun _ h => cardReceived_keeps (completeJob_keeps h)
  have h1 : s1.Inv := jobRecord_keeps h
  have h2 : s2.Inv := setJob_keeps h1
  refine ite_keeps (hgone _ h1) ?_
  split
  · next e => exact finishJob_keeps h2 _ e
  · exact State.due_keeps h2
  · exact ite_keeps (holdJob_keeps h2) (hgone _ (jobRecord_keeps h2))

theorem closeJob_keeps {s : State} {c : Nat} {j : Job} {k : Card} (h : s.Inv) :
    OkInv (fun o : Option State => o.getD s) (closeJob s c j k) :=
  .ite (.ok h) (.bind (finishJob_keeps h) fun _ h1 => .given h1)

theorem runJob_keeps {s : State} {c id : Nat} (h : s.Inv) : (runJob s c id).Inv := by
  unfold runJob
  split
  · exact h
  · next j _ =>
    split
    · exact h
    · extract_lets k
      split
      next r e hunits =>
      extract_lets s2 j2 stop
      have h2 : s2.Inv := setJob_keeps (fst_keeps hunits (jobUnits_keeps h))
      have hstop : ∀ x, (stop x).Inv := by
        intro x
        cases x with
        | stall reqs => exact State.due_keeps h2
        | trap t => exact ite_keeps (holdJob_keeps h2) (endJob_keeps h2)
      split
      · exact hstop _
      · split
        · next hclose => exact closeJob_keeps h2 _ hclose
        · exact h2
        · exact hstop _

theorem acknowledge_keeps {s : State} {c id : Nat} (h : s.Inv) : (acknowledge s c id).Inv := by
  unfold acknowledge
  split
  · exact h
  · exact ite_keeps (State.due_keeps (setJob_keeps h)) h

theorem startJob_keeps {s : State} {c id : Nat} (h : s.Inv) : (startJob s c id).Inv := by
  unfold startJob
  split
  · exact h
  · exact ite_keeps h (ite_keeps (State.due_keeps (setJob_keeps h)) (State.due_keeps h))

/-! ### The matrix engine and the slew limiter (`Machine/Mxe.lean`) -/

theorem State.modMx_keeps {s : State} {c : Nat} {f : MxCore → MxCore} (h : s.Inv) : (s.modMx c f).Inv :=
  State.modCore_keeps h

theorem State.modMxe_keeps {s : State} {q : Nat} {f : Mxe → Mxe} (h : s.Inv) : (s.modMxe q f).Inv :=
  State.modSquare_keeps h

theorem mxEnter_keeps {s : State} {c : Nat} {r : MxReq} {codes : List Nat} (h : s.Inv) :
    OkInv id (mxEnter s c r codes) := by
  unfold mxEnter
  refine .guard ?_
  dsimp only
  split
  · exact .error
  · next e =>
      exact .next (State.dueOnce_keeps (State.modSquare_keeps
        (State.modMx_keeps (State.evCount_keeps (foldl_keeps (fun _ _ h => State.modTile_keeps h)
        (submitJob_keeps h _ e))))))

theorem mxSubmit_keeps {s : State} {c : Nat} {r : MxReq} (h : s.Inv) : OkInv id (mxSubmit s c r) :=
  .check fun _ => .bind (settleTask_keeps h) fun _ h1 => mxEnter_keeps h1

theorem tileBytes_keeps {s : State} {c n : Nat} (h : s.Inv) : OkInv Prod.snd (tileBytes s c n) :=
  .bind (portCheck_keeps h) fun _ h1 => .val (State.modCore_keeps h1)

theorem mulEffect_keeps {s : State} {c : Nat} {cmd : MxCmd} {v w : Nat} (h : s.Inv) :
    (mulEffect s c cmd v w).Inv := by
  unfold mulEffect
  refine ite_keeps ?_ (State.modMx_keeps h)
  dsimp only
  split
  · exact State.modMx_keeps h
  · exact telemetry_keeps (State.modMx_keeps h)

theorem mulCounted_keeps {s : State} {c : Nat} {cmd : MxCmd} {v : Nat} (h : s.Inv) : (mulCounted s c cmd v).Inv :=
  State.modCore_keeps (State.mxeCount_keeps (State.mxeCount_keeps (State.mxeCount_keeps h)))

theorem runMul_keeps {s : State} {c : Nat} {cmd : MxCmd} (h : s.Inv) : OkInv id (runMul s c cmd) :=
  .bind (tileBytes_keeps h) fun _ h =>
    .bindIte (tileBytes_keeps h) (.val h) fun _ h => .next (mulCounted_keeps (mulEffect_keeps h))

theorem runMst_keeps {s : State} {c : Nat} {cmd : MxCmd} (h : s.Inv) : OkInv id (runMst s c cmd) :=
  .bind (portCheck_keeps h) fun _ h1 => .next (markDirty_keeps
    (paired_keeps (putBytes_keeps (State.modCore_keeps h1))))

theorem runMld_keeps {s : State} {c : Nat} {cmd : MxCmd} (h : s.Inv) : OkInv id (runMld s c cmd) :=
  .bind (tileBytes_keeps h) fun _ h => .next (State.modMx_keeps h)

theorem runMwld_keeps {s : State} {c : Nat} {cmd : MxCmd} (h : s.Inv) : OkInv id (runMwld s c cmd) :=
  .bind (tileBytes_keeps h) fun _ h => .next (State.modMxe_keeps (State.modMx_keeps h))

theorem runCmd_keeps {s : State} {c : Nat} {cmd : MxCmd} (h : s.Inv) : OkInv id (runCmd s c cmd) := by
  unfold runCmd
  split
  · exact runMwld_keeps h
  · exact runMwld_keeps h
  · exact runMul_keeps h
  · exact runMul_keeps h
  · exact .next (State.modMx_keeps h)
  · exact runMst_keeps h
  · exact runMld_keeps h

theorem askStart_keeps {s : State} {q cyc : Nat} (h : s.Inv) : (askStart s q cyc).Inv :=
  State.modMxe_keeps h

theorem beginRows_keeps {s : State} {q c : Nat} {cmd : MxCmd} (h : s.Inv) : (beginRows s q c cmd).Inv :=
  ite_keeps
    (State.due_keeps (State.modMxe_keeps (State.modMxe_keeps h)))
    (ite_keeps (askStart_keeps (State.modMxe_keeps h)) (State.modMxe_keeps h))

theorem startCommand_keeps {s : State} {q : Nat} (h : s.Inv) : (startCommand s q).Inv := by
  unfold startCommand
  refine ite_keeps h ?_
  split
  · exact ite_keeps (State.due_keeps h) h
  · exact have h1 := State.modMxe_keeps (State.mxeCount_keeps (setJob_keeps h))
      ite_keeps (State.due_keeps (State.modMxe_keeps h1)) (beginRows_keeps (State.modMxe_keeps h1))

theorem latchLoaded_keeps {s : State} {q : Nat} (h : s.Inv) : (latchLoaded s q).Inv := by
  unfold latchLoaded
  refine ite_keeps h ?_
  refine ite_keeps (State.due_keeps h) ?_
  split
  · exact beginRows_keeps (State.modMxe_keeps (State.mxeCount_keeps h))
  · exact h

theorem injectRow_keeps {s : State} {q cyc : Nat} (h : s.Inv) : (injectRow s q cyc).Inv :=
  ite_keeps h (ite_keeps
      (State.modMxe_keeps (State.mxeCount_keeps h))
      (ite_keeps h
        (have h1 := State.modMxe_keeps (State.mxeCount_keeps h)
         ite_keeps h1 (State.due_keeps (State.modMxe_keeps h1)))))

theorem commandGone_keeps {s : State} {q c : Nat} {cmd : MxCmd} (h : s.Inv) : (commandGone s q c cmd).Inv :=
  State.dueOnce_keeps (State.modMxe_keeps (State.modSquare_keeps
    (State.modMx_keeps (completeJob_keeps (foldl_keeps (fun _ _ h => State.modTile_keeps h) h)))))

theorem commandCharged_keeps {s : State} {c : Nat} {cmd : MxCmd} (h : s.Inv) : (commandCharged s c cmd).Inv :=
  ite_keeps h (State.modCore_keeps h)

theorem commandDone_keeps {s : State} {q : Nat} (h : s.Inv) : (commandDone s q).1.Inv := by
  unfold commandDone
  dsimp only
  split
  · exact h
  · split
    · exact h
    · split
      · exact State.due_keeps h
      · split
        · next e => exact commandGone_keeps (commandCharged_keeps (runCmd_keeps h _ e))
        · exact commandGone_keeps h
        · exact State.due_keeps h

theorem grantStart_keeps {s : State} {d q : Nat} (h : s.Inv) : (grantStart s d q).Inv := by
  unfold grantStart
  extract_lets e plans st s1 wait su s2 s3
  have h2 : s2.Inv := State.modMxe_keeps (State.districtCount_keeps
    (State.mxeCount_keeps (State.modDistrict_keeps h)))
  have h3 : s3.Inv := by
    unfold s3
    split
    · exact State.modMx_keeps h2
    · exact h2
  exact ite_keeps (telemetry_keeps h3) h3

theorem grantStarts_keeps {s : State} {d step : Nat} (h : s.Inv) : (grantStarts s d step).Inv :=
  foldl_keeps (fun _ _ h => grantStart_keeps h) h

theorem rampUp_keeps {s : State} {step q : Nat} (h : s.Inv) : (rampUp s step q).Inv := by
  unfold rampUp
  dsimp only
  split
  · exact ite_keeps (State.modMxe_keeps h) h
  · exact State.modMxe_keeps h
  · exact h

theorem rampDown_keeps {s : State} {d step q : Nat} (h : s.Inv) : (rampDown s d step q).Inv := by
  unfold rampDown
  refine ite_keeps (ite_keeps (State.modMxe_keeps (State.modDistrict_keeps h)) h) ?_
  refine ite_keeps ?_ h
  split
  · refine ite_keeps h ?_
    split <;> exact State.modMxe_keeps h
  · exact h

theorem newMin_keeps {s : State} {d step q : Nat} (h : s.Inv) : (newMin s d step q).Inv := by
  unfold newMin
  dsimp only
  split
  · exact h
  · refine ite_keeps (State.modMxe_keeps h) ?_
    refine ite_keeps h ?_
    split
    · exact ite_keeps (State.modMxe_keeps h) h
    · exact ite_keeps (State.modMxe_keeps h) (ite_keeps (State.modMxe_keeps (State.modDistrict_keeps h))
        (State.modMxe_keeps (State.modDistrict_keeps h)))

theorem reask_keeps {s : State} {step q : Nat} (h : s.Inv) : (reask s step q).Inv :=
  ite_keeps (askStart_keeps h) h

theorem slewStep_keeps {s : State} {d step : Nat} (h : s.Inv) : (slewStep s d step).Inv :=
  State.modDistrict_keeps (State.districtCount_keeps
    (foldl_keeps (fun _ _ h => rampUp_keeps h) (grantStarts_keeps
    (foldl_keeps (fun _ _ h => reask_keeps (rampDown_keeps (newMin_keeps h))) h))))

theorem beaconCycle_keeps {s : State} {cyc : Nat} (h : s.Inv) : (beaconCycle s cyc).Inv :=
  ite_keeps h (foldl_keeps (fun _ _ h => injectRow_keeps h)
    (ite_keeps (foldl_keeps (fun _ _ h => slewStep_keeps h) h) h))

theorem pushCommand_keeps {s : State} {c v : Nat} (h : s.Inv) : OkInv id (pushCommand s c v) := by
  unfold pushCommand
  split
  · exact .error
  · exact .ite (.guard (.bind (loadStruct_keeps h) fun _ h => .next (State.modMx_keeps h))) (mxSubmit_keeps h)

theorem discardCommand_keeps {s : State} {c : Nat} {t : TrapInfo} (h : s.Inv) : (discardCommand s c t).Inv :=
  taskTrapRecord_keeps (State.modCore_keeps h)

/-! ### The coalescers (`Machine/Coalescer.lean`) -/

theorem State.modSlot_keeps {s : State} {q i : Nat} {f : CoSlot → CoSlot} (h : s.Inv) : (s.modSlot q i f).Inv :=
  State.modSquare_keeps h

theorem disarm_keeps {s : State} {q i : Nat} (h : s.Inv) : (disarm s q i).Inv :=
  State.dueOnce_keeps (State.modSquare_keeps (State.modSlot_keeps h))

theorem countOverflow_keeps {s : State} {c : Nat} (h : s.Inv) : (countOverflow s c).Inv :=
  ite_keeps h (State.modCore_keeps h)

theorem applyReq_keeps {s : State} {x : Req} (h : s.Inv) : (applyReq s x).Inv := by
  unfold applyReq
  split
  · exact State.dueOnce_keeps h
  · exact requestFill_keeps h
  · exact requestEvict_keeps h
  · exact requestKeep_keeps h
  · exact countOverflow_keeps h
  · exact ite_keeps (disarm_keeps h) h
  · exact ite_keeps (State.modCore_keeps h) h
  · exact State.modMx_keeps h

theorem applyReqs_keeps {s : State} {l : List Req} (h : s.Inv) : (applyReqs s l).Inv :=
  foldl_keeps (fun _ _ h => applyReq_keeps h) h

theorem arriveAtWindow_keeps {s : State} {c : Nat} {v : BitVec 512} {by_ : MxAgent} (h : s.Inv) :
    (arriveAtWindow s c v by_).Inv := by
  unfold arriveAtWindow
  refine ite_keeps (State.dueOnce_keeps (State.modMx_keeps h)) ?_
  split
  · next e => exact pushCommand_keeps h _ e
  · exact discardCommand_keeps h
  · exact applyReqs_keeps (State.dueOnce_keeps (State.modMx_keeps h))

theorem taskAtWindow_keeps {s : State} {c : Nat} {v : BitVec 512} (h : s.Inv) : OkInv id (taskAtWindow s c v) := by
  unfold taskAtWindow
  refine .ite ?_ .error
  dsimp only
  split
  · exact .error
  · exact pushCommand_keeps (ite_keeps h (State.dueOnce_keeps (State.modMx_keeps h)))

theorem retryWindow_keeps {c fuel : Nat} {s : State} (h : s.Inv) : (retryWindow c fuel s).Inv := by
  match fuel with
  | 0 =>
    exact h
  | fuel + 1 =>
    rw [retryWindow]
    split
    · exact h
    · exact h
    · dsimp only
      split
      · next e => exact retryWindow_keeps (pushCommand_keeps (State.modMx_keeps h) _ e)
      · exact retryWindow_keeps (discardCommand_keeps (State.modMx_keeps h))
      · exact State.dueOnce_keeps (applyReqs_keeps h)

theorem takeTwin_keeps {s : State} {q i : Nat} (h : s.Inv) : (takeTwin s q i).Inv := by
  unfold takeTwin
  refine ite_keeps h ?_
  refine ite_keeps (State.dueOnce_keeps h) ?_
  refine State.dueOnce_keeps ?_
  refine State.modSlot_keeps ?_
  refine State.modTile_keeps ?_
  split
  · next e => exact homeWrite_keeps h _ e
  · exact machineCheck_keeps h

theorem applyEntries_keeps {c n fuel : Nat} {s : State} (h : s.Inv) : OkInv id (applyEntries c n fuel s) :=
  match fuel with
  | 0 => .next h
  | _ + 1 => .bind (logApplyOne_keeps h) fun _ h1 => applyEntries_keeps h1

theorem applyLog_keeps {s : State} {c n : Nat} (h : s.Inv) : (applyLog s c n).Inv := by
  unfold applyLog
  split
  · next e => exact tileDone_keeps (applyEntries_keeps h _ e)
  · exact tileDone_keeps (State.modTile_keeps (machineCheck_keeps h))

theorem closeSlot_keeps {s : State} {q i : Nat} (h : s.Inv) : (closeSlot s q i).Inv := by
  unfold closeSlot
  refine takeTwin_keeps ?_
  refine State.modSlot_keeps ?_
  split
  · exact arriveAtWindow_keeps (applyLog_keeps h)
  · exact applyLog_keeps h

theorem contribute_keeps {s : State} {q i : Nat} {value : Word} {row col at_ : Nat} (h : s.Inv) :
    (contribute s q i value row col at_).Inv := by
  unfold contribute
  extract_lets x o t e loc a old v f new s1 s2 s3
  have h1 : s1.Inv := by
    unfold s1
    split
    · next e => exact homeWrite_keeps h _ e
    · exact machineCheck_keeps h
  have h3 : s3.Inv := ite_keeps (State.dueOnce_keeps (State.modSlot_keeps h1)) (State.modSlot_keeps h1)
  exact ite_keeps (closeSlot_keeps (State.modSquare_keeps h3)) h3

theorem disarmed_keeps {s : State} {q i : Nat} (h : s.Inv) : (disarmed s q i).Inv :=
  State.modSlot_keeps (ite_keeps h (applyLog_keeps h))

theorem applyEntry_keeps {s : State} {q : Nat} {x : CoEntry} (h : s.Inv) : (applyEntry s q x).Inv := by
  unfold applyEntry
  split
  · exact contribute_keeps h
  · exact closeSlot_keeps h
  · exact closeSlot_keeps h
  · exact disarmed_keeps h

theorem applyHead_keeps {s : State} {q : Nat} (h : s.Inv) : SomeInv id (applyHead s q) := by
  unfold applyHead
  split
  · exact .none
  · exact .ite .none (.next (applyEntry_keeps (State.modSquare_keeps h)))

theorem coStep_keeps {s : State} {q : Nat} (h : s.Inv) : (coStep s q).Inv := by
  unfold coStep
  split
  · exact h
  · next e => exact ite_keeps (applyHead_keeps h _ e) (State.dueOnce_keeps (applyHead_keeps h _ e))

theorem coTimedOut_keeps {s : State} {q i : Nat} (h : s.Inv) : (coTimedOut s q i).Inv := by
  unfold coTimedOut
  dsimp only
  split
  · exact ite_keeps h (ite_keeps (closeSlot_keeps h) (State.dueOnce_keeps h))
  · exact h

theorem windowBound_keeps {s : State} {c : Nat} (h : s.Inv) : (windowBound s c).Inv :=
  foldl_keeps (fun _ _ h => ite_keeps (State.dueOnce_keeps (State.modSquare_keeps h)) h) h

theorem disarmAll_keeps {s : State} {c : Nat} (h : s.Inv) : (disarmAll s c).Inv :=
  foldl_keeps (fun _ _ h => ite_keeps (disarm_keeps h) h) h

/-! ### The event queues (`Machine/Event.lean`) -/

theorem State.modEv_keeps {s : State} {c : Nat} {f : EvQueue → EvQueue} (h : s.Inv) : (s.modEv c f).Inv :=
  State.modCore_keeps h

theorem closeOne_keeps {s : State} {c : Nat} (h : s.Inv) : (closeOne s c).Inv := by
  unfold closeOne
  refine ite_keeps h ?_
  split
  · exact State.modEv_keeps h
  · exact h

theorem dropEvent_keeps {s : State} {c : Nat} (h : s.Inv) : (dropEvent s c).Inv :=
  ite_keeps (taskTrapRecord_keeps (State.modEv_keeps h)) (State.modEv_keeps h)

theorem dropLate_keeps {s : State} {c : Nat} (h : s.Inv) : (dropLate s c).Inv :=
  State.modEv_keeps h

theorem spillEvent_keeps {s : State} {c : Nat} {e : Ev} (h : s.Inv) : (spillEvent s c e).1.Inv :=
  State.modEv_keeps (ringWrite_keeps h)

/-- The reader of a ring as a variable, for the two recursions over it. The kernel evaluates `ringRead` at a ring's location where
it compares two matches on its answer, in their equation lemmas too, and does not come to an end; so those proofs unfold the
recursion itself, after the reader is replaced. -/
theorem exists_ringRead_keeps : ∃ read, ringRead = read ∧ ∀ {s c loc n}, s.Inv → (read s c loc n).2.Inv :=
  ⟨_, rfl, ringRead_keeps⟩

theorem unspillEvents_keeps {c fuel : Nat} {s : State} (h : s.Inv) : (unspillEvents c fuel s).Inv := by
  obtain ⟨read, heq, hread⟩ := exists_ringRead_keeps
  delta unspillEvents unspillEvents._f
  rw [heq]
  induction fuel generalizing s with
  | zero => exact h
  | succ fuel ih =>
    dsimp only [Nat.brecOn, Nat.brecOn.go] at ih ⊢
    split
    · exact h
    · exact ite_keeps h (ih (State.modEv_keeps (hread h)))

theorem countMissed_keeps {s : State} {c slot : Nat} (h : s.Inv) : (countMissed s c slot).Inv :=
  State.mk_keeps h

theorem enqueueEvent_keeps {s : State} {c slot : Nat} {hdr pay : Word} {fb : Option (Nat × Nat × Nat)} (h : s.Inv) :
    (enqueueEvent s c slot hdr pay fb).2.Inv := by
  unfold enqueueEvent
  dsimp only
  split
  · exact dropLate_keeps (State.modEv_keeps h)
  · have h2 : ∀ {f g}, ((s.modEv c f).modEv c g).Inv := State.modEv_keeps (State.modEv_keeps h)
    split
    · exact dropEvent_keeps h2
    · refine State.modEv_keeps ?_
      split
      · exact spillEvent_keeps h2
      · exact h2

theorem arriveEvent_keeps {s : State} {c slot : Nat} {hdr pay : Word} {origin : EventOrigin} (h : s.Inv) :
    (arriveEvent s c slot hdr pay origin).2.Inv := by
  unfold arriveEvent
  dsimp only
  split
  · exact dropEvent_keeps (countMissed_keeps h)
  · split
    · exact closeOne_keeps (State.modEv_keeps (countMissed_keeps h))
    · exact closeOne_keeps (enqueueEvent_keeps (countMissed_keeps h))

theorem popEvent_keeps {s0 : State} {c : Nat} (h0 : s0.Inv) : (popEvent s0 c).2.Inv := by
  unfold popEvent
  extract_lets s
  have h : s.Inv := ite_keeps (State.evCount_keeps h0) h0
  cases (s.core c).ev.next with
  | none => exact h
  | some next =>
    cases next with
    | inl e =>
      refine unspillEvents_keeps ?_
      split
      · exact State.modDie_keeps (State.modEv_keeps h)
      · exact State.modEv_keeps h
    | inr w =>
      dsimp only
      exact windowBound_keeps (State.modEv_keeps h)

theorem reclassify_keeps {s : State} {c : Nat} (h : s.Inv) : (reclassify s c).Inv :=
  unspillEvents_keeps (foldl_keeps (fun _ _ h => dropLate_keeps h) (State.modEv_keeps h))

theorem rebase_keeps {s : State} {c : Nat} (h : s.Inv) : (rebase s c).Inv :=
  closeOne_keeps (reclassify_keeps (State.modEv_keeps h))

theorem closeNow_keeps {s : State} {c : Nat} (h : s.Inv) : (closeNow s c).Inv :=
  ite_keeps h (State.modEv_keeps h)

theorem enableSlots_keeps {s : State} {c mask : Nat} (h : s.Inv) : (enableSlots s c mask).Inv :=
  closeOne_keeps (unspillEvents_keeps (foldl_keeps (fun _ _ h => dropEvent_keeps h) (State.modEv_keeps h)))

theorem spillAll_keeps {s : State} {c : Nat} (h : s.Inv) : (spillAll s c).Inv :=
  foldl_keeps (fun _ _ h => ite_keeps (State.modEv_keeps (spillEvent_keeps h)) h) h

theorem fromRing_keeps {s : State} {c : Nat} {q : EvQueue} {l : List Ev} (h : s.Inv) : (fromRing s c q l).2.Inv := by
  obtain ⟨read, heq, hread⟩ := exists_ringRead_keeps
  delta fromRing fromRing._f
  rw [heq]
  induction l generalizing s with
  | nil => exact h
  | cons e es ih =>
    dsimp only [List.brecOn, List.brecOn.go] at ih ⊢
    split
    · exact ih h
    · exact ih (hread h)

theorem restoreEvents_keeps {s0 : State} {c : Nat} (h0 : s0.Inv) : (restoreEvents s0 c).Inv :=
  closeOne_keeps (foldl_keeps (fun _ _ h => dropEvent_keeps h) (State.modEv_keeps (foldl_keeps
          (fun _ _ h => ite_keeps (State.modEv_keeps (spillEvent_keeps h)) (State.modEv_keeps h))
          (State.modEv_keeps (fromRing_keeps h0)))))

/-! ### The ends of units and traps (`Machine/Ops.lean`) -/

theorem darken_keeps {s : State} {c d n : Nat} (h : s.Inv) : (darken s c d n).Inv :=
  ite_keeps h (State.dueOnce_keeps (State.modCore_keeps h))

theorem clearQuarter_keeps {s : State} {n q : Nat} (h : s.Inv) : (clearQuarter s n q).Inv :=
  State.modCore_keeps (foldl_keeps
      (fun _ _ h => State.clearRange_keeps _ _ _ h)
      (State.clearRange_keeps _ _ _ (State.clearRange_keeps _ _ _ h)))

theorem lendingBegins_keeps {s : State} {n : Nat} (h : s.Inv) : (lendingBegins s n).Inv :=
  foldl_keeps (fun _ _ h => ite_keeps (State.modCore_keeps (clearQuarter_keeps h)) h) h

theorem lendingEnds_keeps {s : State} {c : Nat} (h : s.Inv) : (lendingEnds s c).Inv := by
  unfold lendingEnds
  refine foldl_keeps (fun _ _ h => ?_) h
  split
  · exact h
  · exact ite_keeps (State.dueOnce_keeps (State.modCore_keeps h)) h

theorem lendingOver_keeps {s : State} {n : Nat} (h : s.Inv) : (lendingOver s n).Inv := by
  unfold lendingOver
  extract_lets s1 k busy
  have h1 : s1.Inv := foldl_keeps (fun _ _ h => ite_keeps (State.modCore_keeps (clearQuarter_keeps h)) h) h
  exact ite_keeps (State.dueOnce_keeps (tryLeave_keeps (State.modCore_keeps h1))) h1

theorem performNear_keeps {c fuel : Nat} {s : State} (h : s.Inv) : OkInv id (performNear c fuel s) :=
  match fuel with
  | 0 => .next h
  | _ + 1 => .ite (.next h) (.bind (grantOwnership_keeps h) fun _ h1 => performNear_keeps h1)

theorem settleNear_keeps {s : State} {c : Nat} (h : s.Inv) : OkInv id (settleNear s c) :=
  performNear_keeps h

theorem finishNear_keeps {c fuel : Nat} {s : State} (h : s.Inv) : (finishNear c fuel s).Inv := by
  match fuel with
  | 0 =>
    exact h
  | fuel + 1 =>
    rw [finishNear]
    refine ite_keeps h ?_
    split
    · next e => exact finishNear_keeps (grantOwnership_keeps h _ e)
    · exact finishNear_keeps (State.modCore_keeps h)

theorem flushTrace_keeps {s : State} {c : Nat} (h : s.Inv) : (flushTrace s c).Inv :=
  foldl_keeps (fun _ _ h => traceFlush_keeps h) h

theorem finishRunning_keeps {s : State} {c : Nat} (h : s.Inv) : (finishRunning s c).Inv :=
  ite_keeps h (ite_keeps (State.dueOnce_keeps (State.modMxe_keeps h)) (commandDone_keeps (State.modMxe_keeps h)))

theorem discardQueue_keeps {s : State} {c : Nat} (h : s.Inv) : (discardQueue s c).Inv :=
  State.modMx_keeps (foldl_keeps
      (fun _ _ h => State.modSquare_keeps (completeJob_keeps (foldl_keeps (fun _ _ h => State.modTile_keeps h) h)))
      h)

theorem settleSlots_keeps {c q fuel : Nat} {s : State} (h : s.Inv) : (settleSlots c q fuel s).Inv := by
  match fuel with
  | 0 =>
    exact h
  | fuel + 1 =>
    rw [settleSlots]
    split
    · exact h
    · exact have h1 := ite_keeps (takeTwin_keeps h) h
        settleSlots_keeps (ite_keeps (State.modSquare_keeps h1)
          (discardQueue_keeps (applyEntry_keeps (State.modSquare_keeps h1))))

theorem finishTransfers_keeps {s : State} {c : Nat} (h : s.Inv) : (finishTransfers s c).Inv :=
  foldl_keeps
    (fun _ _ h =>
      have h1 := ite_keeps h (moveAll_keeps h)
      ite_keeps (receivedAt_keeps (completeJob_keeps h1)) h1)
    h

theorem discardJobs_keeps {s : State} {c : Nat} (h : s.Inv) : (discardJobs s c).Inv :=
  foldl_keeps (fun _ _ h => cardReceived_keeps (completeJob_keeps h)) h

theorem clearTask_keeps {s0 : State} {c : Nat} (h0 : s0.Inv) : (clearTask s0 c).Inv := by
  unfold clearTask
  extract_lets s1 s2 s2a s3 s4 s5 s6
  have h1 : s1.Inv := flushTrace_keeps (finishNear_keeps h0)
  have h2 : s2a.Inv := disarmAll_keeps (discardQueue_keeps (finishRunning_keeps (remoteServed_keeps h1)))
  have h4 : s4.Inv := finishTransfers_keeps (releaseBlocks_keeps (State.modCore_keeps (settleSlots_keeps h2)))
  exact State.modCore_keeps (State.mk_keeps (State.modSquare_keeps h4))

theorem idleCore_keeps {s : State} {c : Nat} (h : s.Inv) : (idleCore s c).Inv :=
  State.dueOnce_keeps (tryLeave_keeps (ite_keeps (lendingEnds_keeps (State.modCore_keeps h)) (State.modCore_keeps h)))

theorem discardUnit_keeps {s : State} {c : Nat} {fail : Bool} (h : s.Inv) : (discardUnit s c fail).Inv :=
  foldl_keeps (fun _ _ h => idleCore_keeps h) (unitFinished_keeps (foldl_keeps (fun _ _ h0 => clearTask_keeps h0) h))

theorem endUnit_keeps {s : State} {c : Nat} {t : TrapInfo} {pc : Word} (h : s.Inv) : (endUnit s c t pc).Inv :=
  discardUnit_keeps (ite_keeps (machineCheck_keeps (taskTrapRecord_keeps h)) (taskTrapRecord_keeps h))

theorem abortUnit_keeps {s : State} {c : Nat} {x : Option HeldFault} (h : s.Inv) : (abortUnit s c x).Inv :=
  foldl_keeps (fun _ _ h => idleCore_keeps h) (placeReady_keeps
    (foldl_keeps (fun _ _ h => discardJobs_keeps (clearTask_keeps h)) h))

theorem parkUnit_keeps {s : State} {c : Nat} {x : HeldFault} (h : s.Inv) : (parkUnit s c x).Inv :=
  State.modCore_keeps (foldl_keeps (fun _ _ h => State.modCore_keeps h) h)

theorem unparkUnit_keeps {s : State} {c : Nat} (h : s.Inv) : (unparkUnit s c).Inv :=
  foldl_keeps
    (fun _ _ h =>
      ite_keeps h
        (have h2 := ite_keeps (State.dueOnce_keeps (State.dueOnce_keeps (State.modCore_keeps h)))
          (State.modCore_keeps h)
         ite_keeps (State.dueOnce_keeps h2) h2))
    h

theorem mirror_keeps {s : State} {leader : Nat} (h : s.Inv) : (mirror s leader).Inv :=
  State.modCore_keeps h

theorem mirrored_keeps {s : State} {c : Nat} (h : s.Inv) : (mirrored s c).Inv :=
  ite_keeps (mirror_keeps h) h

theorem takeCheck_keeps {s : State} {c : Nat} (h : s.Inv) : (takeCheck s c).Inv :=
  ite_keeps h (foldl_keeps (fun _ _ h => foldl_keeps (fun _ _ h => ringWrite_keeps h) h) (State.modCore_keeps h))

theorem mismatchAt_keeps {s : State} {c : Nat} (h : s.Inv) : (mismatchAt s c).Inv := by
  unfold mismatchAt
  refine ite_keeps h ?_
  split
  · exact mirror_keeps (State.modCore_keeps (telemetry_keeps
      (foldl_keeps (fun _ _ h => remoteUnsent_keeps h) (State.mk_keeps h))))
  · exact endUnit_keeps h

theorem State.modHelper_keeps {s : State} {c : Nat} {storer : Bool} {f : Helper → Helper} (h : s.Inv) :
    (s.modHelper c storer f).Inv :=
  State.modCore_keeps h

theorem helperDelivered_keeps {s : State} {c : Nat} {storer : Bool} (h : s.Inv) : (helperDelivered s c storer).Inv :=
  State.modCore_keeps (State.modHelper_keeps h)

theorem bufferFault_keeps {s : State} {c : Nat} {t : TrapInfo} {pc : Word} (h : s.Inv) : (bufferFault s c t pc).Inv :=
  have h3 := ite_keeps (State.modCore_keeps (fbHeld_keeps h))
    (ite_keeps (State.modCore_keeps (fbHeld_keeps h)) (fbHeld_keeps h))
  ite_keeps (parkUnit_keeps h3) (abortUnit_keeps h3)

theorem dropHeldFaults_keeps {s0 : State} {c : Nat} {t : TrapInfo} (h0 : s0.Inv) : (dropHeldFaults s0 c t).Inv :=
  State.modCore_keeps (ite_keeps (helperDelivered_keeps h0) h0)

theorem takeTrap_keeps {s0 : State} {c : Nat} {t0 : TrapInfo} {pcOf : Nat → Word} (h0 : s0.Inv) :
    (takeTrap s0 c t0 pcOf).Inv := by
  unfold takeTrap
  extract_lets t s k
  have h : s.Inv := dropHeldFaults_keeps (State.meets_keeps h0)
  split
  · exact bufferFault_keeps h
  · exact ite_keeps (mismatchAt_keeps h) (endUnit_keeps h)
  · exact ite_keeps (endUnit_keeps h)
      (ite_keeps (foldl_keeps (fun _ _ h => State.modCore_keeps h) h) (mirrored_keeps (State.modCore_keeps h)))

theorem retryCores_keeps {s : State} {die entry gen : Nat} {killed : Bool} (h : s.Inv) :
    (retryCores s die entry gen killed).Inv := by
  refine foldl_keeps (fun s c h => ?_) h
  extract_lets k s1 held s2
  have h2 : s2.Inv := by
    refine foldl_keeps (fun s j h => ite_keeps ?_ (State.due_keeps (setJob_keeps h))) (State.modCore_keeps h)
    split
    · exact endJob_keeps (setJob_keeps h)
    · exact setJob_keeps h
  split
  · exact ite_keeps (ite_keeps (endUnit_keeps h2) (unparkUnit_keeps h2)) h2
  · exact h2

theorem retryRecords_keeps {s : State} {die entry gen : Nat} {killed : Bool} (h : s.Inv) :
    (retryRecords s die entry gen killed).Inv := by
  unfold retryRecords
  refine foldl_keeps (fun _ _ h => ?_) h
  refine ite_keeps h ?_
  refine ite_keeps ?_ (State.dueOnce_keeps (State.modDie_keeps h))
  refine foldl_keeps (fun _ _ h => ?_) (State.modDie_keeps h)
  refine unitFinished_keeps ?_
  split
  · exact State.mk_keeps (trapRecord_keeps h)
  · exact trapRecord_keeps h

theorem retrySaved_keeps {s : State} {die entry gen : Nat} {killed : Bool} (h : s.Inv) :
    (retrySaved s die entry gen killed).Inv :=
  State.mk_keeps h

theorem retryFault_keeps {s : State} {die entry gen : Nat} (h : s.Inv) : (retryFault s die entry gen).Inv :=
  retryRecords_keeps (retrySaved_keeps (retryCores_keeps (State.modDie_keeps h)))

/-! ### Stores (`Machine/Store.lean`) -/

theorem submitWindow_keeps {s : State} {c va data : Nat} {storer : Bool} (h : s.Inv) :
    OkInv id (submitWindow s c va data storer) := by
  unfold submitWindow
  refine .ite .error ?_
  split
  · exact .error
  · refine .ite .error ?_
    refine .bindIte (.next h) (settleTask_keeps h) fun _ h1 => ?_
    dsimp only
    split
    · exact .error
    · next e => exact .next (commit_keeps (submitCard_keeps h1 _ e))

theorem storeCommand_keeps {s : State} {c data : Nat} {storer : Bool} (h : s.Inv) :
    OkInv id (storeCommand s c data storer) :=
  .ite (.next (commit_keeps (arriveAtWindow_keeps h))) (taskAtWindow_keeps h)

theorem storeTile_keeps {s : State} {a : Access} {n off data : Nat} {scalar : Bool} (h : s.Inv) :
    OkInv id (storeTile s a n off data scalar) :=
  .check fun _ =>
    .guard (.ite
        (.check fun _ =>
          .bind (orderBefore_keeps h) fun _ h1 =>
            .bind (writePieces_keeps (remoteSent_keeps h1)) fun _ h2 => .next
              (markDirty_keeps (remoteServed_keeps h2)))
        (.check fun _ => logOrWait_keeps h))

theorem storeData_keeps {s : State} {a : Access} {data : Nat} {scalar release : Bool} (h : s.Inv) :
    OkInv id (storeData s a data scalar release) := by
  unfold storeData
  refine .bind (checkAccess_keeps h) fun ⟨_, _, _⟩ h => ?_
  dsimp only
  split
  · exact .bindIte (drainAll_keeps h) (.next h) fun _ h2 => storeTile_keeps h2
  · split
    · exact storeCommand_keeps h
    · exact submitWindow_keeps h
    · exact .check fun _ => bufferStore_keeps (l1dInvalidate_keeps h)

theorem accessCheck_keeps {s : State} {a : Access} (h : s.Inv) : OkInv id (accessCheck s a) := by
  unfold accessCheck
  refine .bind (checkAccess_keeps h) fun ⟨_, _, _⟩ h => ?_
  dsimp only
  split
  · exact .check fun _ => .next h
  · exact .next h

theorem accessChecks_keeps {s : State} {l : List Access} (h : s.Inv) : OkInv id (accessChecks s l) :=
  match l with
  | [] => .next h
  | _ :: _ => .bind (accessCheck_keeps h) fun _ h1 => accessChecks_keeps h1

theorem elementsReady_keeps {s : State} {l : List Access} (h : s.Inv) : OkInv id (elementsReady s l) :=
  .bind (accessChecks_keeps h) fun _ h1 => .check fun _ => .next h1

theorem storeEach_keeps {s : State} {l : List (Access × Nat)} (h : s.Inv) : OkInv id (storeEach s l) :=
  match l with
  | [] => .next h
  | _ :: _ => .bind (storeData_keeps h) fun _ h1 => storeEach_keeps h1

theorem storeMany_keeps {s : State} {l : List (Access × Nat)} (h : s.Inv) : OkInv id (storeMany s l) :=
  .bind (elementsReady_keeps h) fun _ h1 => storeEach_keeps h1

theorem loadEach_keeps {s : State} {cp : Option Nat} {l : List Access} (h : s.Inv) :
    OkInv Prod.snd (loadEach s cp l) :=
  match l with
  | [] => .val h
  | _ :: _ => .bind (loadData_keeps h) fun _ h => .bind (loadEach_keeps h) fun _ h => .val h

theorem storeHelper_keeps {s : State} {a : Access} {data : Nat} (h : s.Inv) : OkInv id (storeHelper s a data) := by
  unfold storeHelper
  refine .bind (checkAccess_keeps h) fun ⟨_, _, _⟩ h => ?_
  dsimp only
  split
  · exact .check fun _ => .bind (writePieces_keeps (remoteSent_keeps h)) fun _ h2 => .next
      (markDirty_keeps (remoteServed_keeps h2))
  · split
    · exact storeCommand_keeps h
    · exact submitWindow_keeps h
    · exact .bind (writePieces_keeps (remoteSent_keeps (l1dInvalidate_keeps h))) fun _ h2 => .next
        (remoteServed_keeps h2)

/-! ### Streams (`Machine/Port.lean`) -/

theorem State.modStrm_keeps {s : State} {c i : Nat} {f : Strm → Strm} (h : s.Inv) : (s.modStrm c i f).Inv :=
  State.modCore_keeps h

theorem popStream_keeps {s : State} {c i : Nat} (h : s.Inv) : OkInv Prod.snd (popStream s c i) := by
  unfold popStream
  refine .check fun _ => ?_
  refine .ite (.val (State.modStrm_keeps h)) ?_
  split
  · exact have h1 := State.modCore_keeps (State.modStrm_keeps h)
      .val (ite_keeps (State.dueOnce_keeps h1) h1)
  · refine .ite (.ite (.val (State.modStrm_keeps h)) .error) ?_
    split <;> exact .error

theorem pushCheck_keeps {s : State} {c i : Nat} (h : s.Inv) : OkInv id (pushCheck s c i) :=
  .check fun _ => .ite (accessCheck_keeps h) (.next h)

theorem giveBack_keeps {s : State} {c : Nat} {pops : List (Nat × BitVec 512)} (h : s.Inv) :
    (giveBack s c pops).Inv := by
  unfold giveBack
  induction pops with
  | nil => exact h
  | cons e pops ih => exact State.modStrm_keeps (f := fun x => { x with fifo := e.2 :: x.fifo, pos := x.pos - 1 }) ih

theorem pushStream_keeps {s : State} {c i : Nat} {v : Vec} (h : s.Inv) : OkInv id (pushStream s c i v) :=
  .check fun _ =>
    .ite (.next (State.modStrm_keeps h)) (.ite
        (.bind (storeData_keeps h) fun _ h1 => .next (State.modStrm_keeps h1))
        (.ite .error (.bind (settleTask_keeps h) fun _ h1 => .next (State.modStrm_keeps h1))))

theorem fetchElement_keeps {s : State} {c i : Nat} (h : s.Inv) : (fetchElement s c i).Inv := by
  unfold fetchElement
  refine ite_keeps h ?_
  dsimp only
  split
  · next e =>
      refine State.dueOnce_keeps ?_
      refine State.modStrm_keeps ?_
      split
      · exact State.modTile_keeps (loadData_keeps h _ e)
      · exact loadData_keeps h _ e
  · refine State.modStrm_keeps ?_
    split
    · exact State.modTile_keeps (State.meets_keeps h)
    · exact State.meets_keeps h
  · refine State.dueOnce_keeps ?_
    refine applyReqs_keeps ?_
    split
    · exact State.modTile_keeps h
    · exact h

theorem endStream_keeps {s : State} {c i : Nat} (h : s.Inv) : (endStream s c i).Inv := by
  unfold endStream
  refine State.modHelper_keeps ?_
  refine State.modStrm_keeps ?_
  split
  · exact ite_keeps (State.modTile_keeps h) h
  · exact h

theorem unbindStream_keeps {s : State} {c i : Nat} (h : s.Inv) : OkInv id (unbindStream s c i) :=
  .ite (.next h) (.check fun _ => .guard (.bindIte (drainAll_keeps h) (.next h) fun _ h1 => .next
    (endStream_keeps h1)))

theorem helperTrap_keeps {s0 : State} {c : Nat} {storer : Bool} {t0 : TrapInfo} {pc : Nat} (h0 : s0.Inv) :
    (helperTrap s0 c storer t0 pc).Inv :=
  have h := State.modCore_keeps (State.meets_keeps h0)
  ite_keeps (State.modHelper_keeps (fbHeld_keeps h)) (State.modHelper_keeps h)

theorem helperLoad_keeps {s : State} {a : Access} (h : s.Inv) : OkInv Prod.snd (helperLoad s a) := by
  unfold helperLoad
  refine .bind (checkAccess_keeps h) fun ⟨_, _, _⟩ h => ?_
  dsimp only
  split
  · exact readPieces_keeps h
  · exact .check fun _ => readPiece_keeps h

theorem loaderReturn_keeps {s : State} {c : Nat} (h : s.Inv) : (loaderReturn s c).Inv := by
  unfold loaderReturn
  dsimp only
  split
  · exact h
  · refine ite_keeps h ?_
    split
    · exact ite_keeps (State.modHelper_keeps h) (ite_keeps (helperTrap_keeps h)
        (ite_keeps (State.modHelper_keeps h) (State.modHelper_keeps (helperTrap_keeps h))))
    · exact State.dueOnce_keeps (applyReqs_keeps h)
    · next e =>
        exact State.dueOnce_keeps (State.modHelper_keeps
          (ite_keeps (helperLoad_keeps h _ e) (State.modStrm_keeps (helperLoad_keeps h _ e))))

/-! ### Pre-emption and resumption (`Machine/Context.lean`) -/

theorem hwTry_keeps {s : State} {job va n : Nat} (h : s.Inv) : OkInv Prod.snd (hwTry s job va n) := by
  unfold hwTry
  split
  · next e => exact .ok (readRange_keeps h _ e)
  · exact .error
  · exact .error

theorem imageCheck_keeps {s : State} {job va : Nat} (h : s.Inv) : OkInv id (imageCheck s job va) := by
  unfold imageCheck
  refine .ite (.next h) ?_
  refine .ite .error ?_
  split
  · exact .error
  · next e =>
      split
      · exact .error
      · split
        · exact .error
        · next e' => exact .next (hwTry_keeps (hwTry_keeps h _ e) _ e')

theorem copyImage_keeps {s : State} {c : Nat} {storer : Bool} {job va : Nat} {fresh : Bool} (h : s.Inv) :
    OkInv id (copyImage s c storer job va fresh) := by
  refine .bind (hwTry_keeps h) fun ⟨v, s1⟩ h1 => ?_
  dsimp -zeta only
  extract_lets held finish copyData
  have hfinish : ∀ s, s.Inv → OkInv id (finish s) := fun s h => .next (State.modHelper_keeps h)
  have hdata : ∀ s, s.Inv → OkInv id (copyData s) := fun s h =>
    .ite (.bind (hwTry_keeps h) fun _ h => .bind
      (.next (State.write_keeps _ _ _ _ (State.clearRange_keeps _ _ _ h))) hfinish)
      (.bind (.next h) hfinish)
  exact .ite (.bind (.next h1) hdata)
    (.bind (hwTry_keeps h1) fun _ h => .bind (.next
      (State.write_keeps _ _ _ _ (State.clearRange_keeps _ _ _ h))) hdata)

theorem savedParts_keeps {s : State} {c : Nat} {l : List (Nat × Nat × Nat)} (h : s.Inv) :
    (savedParts s c l).2.Inv := by
  induction l generalizing s with
  | nil => exact h
  | cons e l ih => rw [savedParts]; exact ih (ringRead_keeps h)

theorem writeParts_keeps {s : State} {job base : Nat} {l : List (Nat × Nat × Nat)} (h : s.Inv) :
    OkInv id (writeParts s job base l) :=
  match l with
  | [] => .next h
  | (_, _, _) :: _ => .bind (writeRange_keeps h) fun _ h1 => writeParts_keeps h1

theorem saveMember_keeps {s : State} {c unit key slot : Nat} (h : s.Inv) :
    OkInv id (saveMember s c unit key slot) := by
  unfold saveMember
  extract_lets k die job base dirs
  split
  next e =>
  exact .bind (writeParts_keeps (snd_keeps e (savedParts_keeps h))) fun _ h1 => .next (State.mk_keeps h1)

theorem saveMembers_keeps {s : State} {unit : Nat} {l : List (Nat × Nat)} (h : s.Inv) :
    OkInv id (saveMembers s unit l) :=
  match l with
  | [] => .next h
  | (_, _) :: _ => .bind (saveMember_keeps h) fun _ h1 => saveMembers_keeps (State.mk_keeps h1)

theorem finishReads_keeps {c fuel : Nat} {s : State} (h : s.Inv) : (finishReads c fuel s).Inv :=
  match fuel with
  | 0 => h
  | _ + 1 => ite_keeps h (finishReads_keeps (loaderReturn_keeps h))

theorem drainMember_keeps {s : State} {c : Nat} (h : s.Inv) : OkInv id (drainMember s c) :=
  .bind (settleNear_keeps (State.modMx_keeps h)) fun _ h0 =>
    .bind (drainAll_keeps h0) fun _ h1 =>
      .next (foldl_keeps (fun _ _ h => requestEvict_keeps h) (finishReads_keeps (disarmAll_keeps h1)))

theorem drainMembers_keeps {s : State} {l : List Nat} (h : s.Inv) : OkInv id (drainMembers s l) :=
  match l with
  | [] => .next h
  | _ :: _ => .bind (drainMember_keeps h) fun _ h1 => drainMembers_keeps h1

theorem placeSaved_keeps {s : State} {c unit : Nat} {reason : PreemptReason} {fault : Option HeldFault} (h : s.Inv) :
    (placeSaved s c unit reason fault).Inv :=
  placeReady_keeps h

theorem hardCancelAt_keeps {s : State} {c : Nat} (h : s.Inv) : (hardCancelAt s c).Inv :=
  ite_keeps h (ite_keeps (discardUnit_keeps h) (State.dueOnce_keeps (State.modCore_keeps h)))

theorem preemptStep_keeps {s : State} {c : Nat} (h : s.Inv) : (preemptStep s c).Inv := by
  unfold preemptStep
  dsimp only
  split
  · exact h
  · refine ite_keeps (State.modCore_keeps h) ?_
    refine ite_keeps (State.dueOnce_keeps h) ?_
    refine ite_keeps (discardUnit_keeps h) ?_
    refine ite_keeps (State.dueOnce_keeps h) ?_
    split
    · exact State.dueOnce_keeps h
    · split
      · exact endUnit_keeps h
      · exact State.dueOnce_keeps (applyReqs_keeps h)
      · next e =>
          refine ite_keeps (State.dueOnce_keeps (drainMembers_keeps h _ e)) ?_
          split
          · exact State.dueOnce_keeps (drainMembers_keeps h _ e)
          · next e' =>
              exact foldl_keeps (fun _ _ h => idleCore_keeps h)
                (foldl_keeps (fun _ _ h => State.modCore_keeps h)
                (placeSaved_keeps (saveMembers_keeps
                (foldl_keeps (fun _ _ h => releaseBlocks_keeps (spillAll_keeps h)) (drainMembers_keeps h _ e)) _ e')))

theorem readParts_keeps {s : State} {job base : Nat} {l : List (Nat × Nat × Nat)} (h : s.Inv) :
    (readParts s job base l).Inv := by
  match l with
  | [] =>
    exact h
  | (off, loc, n) :: rest =>
    rw [readParts]
    split
    · next e => exact readParts_keeps (putBytes_keeps (hwTry_keeps h _ e))
    · exact readParts_keeps h

theorem withSlot_keeps {job va n : Nat} {f : Nat → Core → Core} {e : Core × State} (h : e.2.Inv) :
    (withSlot job va n f e).2.Inv := by
  unfold withSlot
  split
  · next e => exact hwTry_keeps h _ e
  · exact State.meets_keeps h

theorem withEvents_keeps {job base : Nat} {e : Core × State} (h : e.2.Inv) : (withEvents job base e).2.Inv := by
  unfold withEvents
  extract_lets q
  split
  · exact h
  · cases hread : hwTry e.2 job (base + 0x22800) 0x1800 with
    | error t => exact State.meets_keeps h
    | ok r =>
      have h1 := hwTry_keeps h _ hread
      dsimp only
      split
      · exact h1
      · exact withSlot_keeps h1

theorem readSlot_keeps {s : State} {job base : Nat} {k : Core} (h : s.Inv) : (readSlot s job base k).2.Inv := by
  unfold readSlot
  extract_lets e1 e2
  have h1 : e1.2.Inv := withEvents_keeps (withSlot_keeps h)
  have h2 : e2.2.Inv := by
    unfold e2
    split
    · exact h1
    · exact withSlot_keeps h1
  split
  · exact h2
  · exact withSlot_keeps h2

theorem resumeHelper_keeps {s : State} {c : Nat} {storer : Bool} (h : s.Inv) : (resumeHelper s c storer).Inv := by
  unfold resumeHelper
  refine ite_keeps h ?_
  dsimp only
  split
  · next e => exact State.modHelper_keeps (copyImage_keeps (State.modHelper_keeps h) _ e)
  · exact helperTrap_keeps (State.modHelper_keeps h)

theorem resumeMember_keeps {s : State} {c leader key : Nat} {x : Saved} {prio : Nat} (h : s.Inv) :
    (resumeMember s c leader key x prio).Inv :=
  State.mk_keeps (resumeHelper_keeps (resumeHelper_keeps (readParts_keeps (State.setCore_keeps (readSlot_keeps h)))))

/-! ### The distributor (`Machine/Sched.lean`) -/

theorem typeOf_keeps {s : State} {die job type : Nat} (h : s.Inv) : OkInv Prod.snd (typeOf s die job type) := by
  unfold typeOf
  cases (s.die die).typeCache.find? fun e => e.1 = job ∧ e.2.1 = type with
  | some e => exact .val h
  | none =>
    dsimp only
    split
    · exact .error
    · next e => exact .val (State.modDie_keeps (hwTry_keeps h _ e))

theorem recordCheck_keeps {s : State} {die job : Nat} {record : BitVec 128} (h : s.Inv) :
    OkInv Prod.snd (recordCheck s die job record) := by
  unfold recordCheck
  refine .ite .error ?_
  split
  · exact .error
  · next e =>
      exact .ite .error (.bind (imageCheck_keeps (typeOf_keeps h _ e)) fun _ h2 => .bind (imageCheck_keeps h2)
        fun _ h3 => .val h3)

theorem unitCheck_keeps {s : State} {die : Nat} {r : Ready} (h : s.Inv) : OkInv Prod.snd (unitCheck s die r) := by
  unfold unitCheck
  split
  · exact recordCheck_keeps h
  · split
    · exact .val h
    · exact .error

theorem takeUnit_keeps {s : State} {c : Nat} {own : Bool} {r : Ready} (h : s.Inv) : (takeUnit s c own r).Inv :=
  ite_keeps (refillDeque_keeps (State.modCore_keeps h)) (unspill_keeps (State.modDie_keeps h))

theorem dropUnit_keeps {s : State} {c : Nat} {r : Ready} {invalid : Option Nat} (h : s.Inv) :
    (dropUnit s c r invalid).Inv := by
  unfold dropUnit
  refine unitFinished_keeps ?_
  split
  · refine State.mk_keeps ?_
    split
    · exact trapRecord_keeps h
    · exact h
  · split
    · exact trapRecord_keeps h
    · exact h

theorem dropReservation_keeps {s : State} {leader : Nat} (h : s.Inv) : (dropReservation s leader).Inv :=
  ite_keeps (State.mk_keeps h) h

theorem latchUnit_keeps {s : State} {c : Nat} {own : Bool} {r : Ready} {e : BitVec 512} (h : s.Inv) :
    (latchUnit s c own r e).Inv :=
  have h1 := dropReservation_keeps (takeUnit_keeps h)
  State.dueOnce_keeps (State.modCore_keeps (ite_keeps h1 (foldl_keeps (fun _ _ h => State.modCore_keeps h) h1)))

theorem endReservation_keeps {s : State} {leader : Nat} (h : s.Inv) : (endReservation s leader).Inv :=
  lendingEnds_keeps (dropReservation_keeps h)

theorem reserve_keeps {s : State} {leader : Nat} {r : Ready} {cores : List Nat} (h : s.Inv) :
    (reserve s leader r cores).Inv :=
  State.modCore_keeps (foldl_keeps (fun _ _ h => State.modCore_keeps h) h)

theorem unlatch_keeps {s : State} {c : Nat} (h : s.Inv) : (unlatch s c).Inv :=
  foldl_keeps (fun _ _ h => tryLeave_keeps h) (lendingEnds_keeps (foldl_keeps (fun _ _ h => State.modCore_keeps h) h))

theorem prepareLenders_keeps {s : State} {c job : Nat} (h : s.Inv) : (prepareLenders s c job).Inv :=
  foldl_keeps (fun _ _ h => ite_keeps (darken_keeps h) h) h

theorem selectWith_keeps {c fuel : Nat} {s : State} {wait : Option (Bool × Ready × List Nat)}
    {cands : List (Bool × Ready)} (h : s.Inv) : (selectWith c fuel s wait cands).1.Inv := by
  induction fuel generalizing s wait cands with
  | zero => exact h
  | succ fuel ih =>
    unfold selectWith
    split
    · split
      · exact prepareLenders_keeps (reserve_keeps h)
      · exact h
    · split
      · exact ih (dropUnit_keeps (takeUnit_keeps h))
      · split
        · exact ih (dropUnit_keeps (takeUnit_keeps h))
        · next e =>
          have h1 := unitCheck_keeps h _ e
          split
          · split
            · split
              · exact prepareLenders_keeps (reserve_keeps h1)
              · exact latchUnit_keeps h1
            · exact latchUnit_keeps h1
          · split
            · exact ih h1
            · exact ih h1
          · exact ih h1

theorem stepReservation_keeps {s : State} {c : Nat} (h : s.Inv) : (stepReservation s c).Inv := by
  unfold stepReservation
  split
  · exact endReservation_keeps h
  · refine ite_keeps (endReservation_keeps h) ?_
    split
    · exact endReservation_keeps h
    · next s1 e =>
      extract_lets s2
      have h1 : s1.Inv := unitCheck_keeps h _ e
      have h2 : s2.Inv := ite_keeps (prepareLenders_keeps h1) h1
      split
      · exact ite_keeps (latchUnit_keeps h2) h2
      · exact foldl_keeps (fun _ _ h => ite_keeps (State.modCore_keeps h) h) h2
      · exact endReservation_keeps h2

theorem cancelReservations_keeps {s : State} (h : s.Inv) : (cancelReservations s).Inv := by
  unfold cancelReservations
  refine foldl_keeps (fun _ _ h => ?_) h
  split
  · exact ite_keeps (endReservation_keeps h) h
  · exact h

theorem askNext_keeps {s : State} {c : Nat} {r : StealRound} (h : s.Inv) : (askNext s c r).Inv := by
  unfold askNext
  split
  · exact State.due_keeps (State.modCore_keeps (State.evCount_keeps h))
  · split
    · dsimp only
      split
      · exact State.due_keeps (State.modCore_keeps (State.evCount_keeps (State.modCore_keeps h)))
      · exact State.due_keeps (State.modCore_keeps (State.modCore_keeps h))

theorem beginSteal_keeps {s : State} {c : Nat} (h : s.Inv) : (beginSteal s c).Inv :=
  ite_keeps h (askNext_keeps h)

theorem takeTop_keeps {s : State} {v : Nat} {r : Ready} (h : s.Inv) : (takeTop s v r).1.Inv := by
  unfold takeTop
  split
  · next e =>
      refine refillDeque_keeps ?_
      refine State.modCore_keeps ?_
      refine fst_keeps e ?_
      split
      · exact ringLoad_keeps h
      · exact h

theorem stealAt_keeps {s : State} {thief : Nat} (h : s.Inv) : (stealAt s thief).Inv := by
  unfold stealAt
  split
  · exact h
  · split
    · exact h
    · dsimp only
      split
      · exact ite_keeps (State.due_keeps (State.modCore_keeps (takeTop_keeps h)))
          (State.due_keeps (State.modCore_keeps h))
      · exact State.due_keeps (State.modCore_keeps h)

theorem stealBack_keeps {s : State} {thief : Nat} (h : s.Inv) : (stealBack s thief).Inv := by
  unfold stealBack
  split
  · exact h
  · have h1 : ∀ {f}, (s.modCore thief f).Inv := State.modCore_keeps h
    split
    · exact h
    · exact ite_keeps (askNext_keeps h) (State.modCore_keeps h)
    · refine ite_keeps (State.dueOnce_keeps (dropUnit_keeps h1)) ?_
      split
      · exact State.dueOnce_keeps (dropUnit_keeps h1)
      · next e =>
        have h2 := recordCheck_keeps h1 _ e
        exact ite_keeps (placeReady_keeps h2) (State.dueOnce_keeps (State.modCore_keeps h2))

theorem stealAgain_keeps {s : State} {c : Nat} (h : s.Inv) : (stealAgain s c).Inv := by
  unfold stealAgain
  split
  · exact h
  · exact ite_keeps h (ite_keeps (State.dueOnce_keeps (State.modCore_keeps h)) (State.due_keeps h))

theorem serveCore_keeps {s : State} {c : Nat} (h : s.Inv) : (serveCore s c).Inv := by
  unfold serveCore
  refine ite_keeps h ?_
  split
  · exact beginSteal_keeps h
  · split
    · next e => exact fst_keeps e (selectWith_keeps h)
    · next e => exact beginSteal_keeps (fst_keeps e (selectWith_keeps h))

theorem selectionStep_keeps {s : State} {die : Nat} (h : s.Inv) : (selectionStep s die).Inv :=
  foldl_keeps (fun _ _ h => serveCore_keeps h) (foldl_keeps (fun _ _ h => stepReservation_keeps h) (unspill_keeps h))

theorem bindImages_keeps {s : State} {c job : Nat} {e : BitVec 512} (h : s.Inv) : OkInv id (bindImages s c job e) :=
  .bindIte (.next h) (copyImage_keeps h) fun _ h1 => .ite (.next h1) (copyImage_keeps h1)

theorem bindMembers_keeps {leader : Nat} {r : Ready} {e : BitVec 512} {s : State} {l : List Nat} {rank : Nat}
    (h : s.Inv) : OkInv id (bindMembers leader r e s l rank) :=
  match l, rank with
  | [], _ => .next h
  | _ :: _, _ => .bind (bindImages_keeps (State.setCore_keeps h)) fun _ h2 => bindMembers_keeps h2

theorem resumeUnit_keeps {s : State} {leader unit prio : Nat} (h : s.Inv) : (resumeUnit s leader unit prio).Inv :=
  foldl_keeps (fun _ _ h => State.modCore_keeps (resumeMember_keeps h)) h

theorem bindTask_keeps {s : State} {c : Nat} (h : s.Inv) : (bindTask s c).Inv := by
  unfold bindTask
  split
  · exact h
  · refine ite_keeps h ?_
    dsimp only
    split
    · exact State.dueOnce_keeps (resumeUnit_keeps h)
    · split
      · exact unlatch_keeps (dropUnit_keeps h)
      · next e =>
          split
          · next e' => exact State.dueOnce_keeps (bindMembers_keeps (recordCheck_keeps h _ e) _ e')
          · exact unlatch_keeps (dropUnit_keeps (recordCheck_keeps h _ e))

theorem wakeUnits_keeps {s : State} {c : Nat} (h : s.Inv) : (wakeUnits s c).Inv :=
  have h1 := foldl_keeps (fun _ _ h => ite_keeps (State.dueOnce_keeps h) h) h
  have h2 := ite_keeps h1 (State.dueOnce_keeps h1)
  have h3 := ite_keeps (State.dueOnce_keeps (State.dueOnce_keeps h2)) h2
  ite_keeps (State.dueOnce_keeps h3) h3

theorem startMember_keeps {s : State} {c : Nat} {resumed : Bool} {was : CoreMode} (h : s.Inv) :
    (startMember s c resumed was).Inv :=
  ite_keeps (wakeUnits_keeps (restoreEvents_keeps (State.modCore_keeps h)))
    (State.modCore_keeps (State.modCore_keeps h))

theorem startUnit_keeps {s : State} {c : Nat} (h : s.Inv) : (startUnit s c).Inv :=
  ite_keeps h
    (have h1 := foldl_keeps (fun _ _ h => startMember_keeps h) h
     have h2 := ite_keeps h1 (takeCheck_keeps h1)
     ite_keeps (hardCancelAt_keeps h2) h2)

theorem ageRecords_keeps {s : State} (h : s.Inv) : (ageRecords s).Inv :=
  State.mk_keeps h

theorem moveRecords_keeps {s : State} {die job : Nat} {l : List Ready} (h : s.Inv) :
    (moveRecords s die job l).Inv := by
  unfold moveRecords
  split
  · exact h
  · exact foldl_keeps (fun _ _ h => placeReady_keeps h) (unspill_keeps (State.modDie_keeps h))

theorem exchangeHalves_keeps {s : State} (h : s.Inv) : (exchangeHalves s).Inv :=
  foldl_keeps (fun _ _ h => foldl_keeps (fun _ _ h => moveRecords_keeps h) h) h

theorem lanternStep_keeps {s : State} (h : s.Inv) : (lanternStep s).Inv :=
  have h := foldl_keeps
      (fun _ _ h => ite_keeps (foldl_keeps (fun _ _ h => completePhase_keeps h) h) h)
      (State.mk_keeps (foldl_keeps
          (fun _ _ h =>
            State.modDie_keeps (State.modDie_keeps (foldl_keeps
                  (fun _ _ h =>
                    ite_keeps
                      (foldl_keeps (fun _ _ h => ite_keeps (State.modCore_keeps h) h)
                        (ite_keeps (State.modSquare_keeps h) h))
                      h)
                  h)))
          h))
  ite_keeps (State.mk_keeps h) (State.dueOnce_keeps h)

theorem forecastStep_keeps {s : State} (h : s.Inv) : (forecastStep s).Inv :=
  foldl_keeps (fun _ _ h => ite_keeps h (State.modCore_keeps h)) h

theorem cancelledRecord_keeps {s : State} {c job origin : Nat} {record : BitVec 128} {ka : Nat} (h : s.Inv) :
    (cancelledRecord s c job origin record ka).Inv :=
  trapRecord_keeps h

theorem placeAt_keeps {s0 : State} {c job ka v origin : Nat} {toDeque : Bool} (h0 : s0.Inv) :
    (placeAt s0 c job ka v origin toDeque).Inv :=
  ite_keeps
    (cancelledRecord_keeps (levelSeen_keeps h0))
    (have h1 := ite_keeps (levelSeen_keeps h0) (setCnt_keeps (levelSeen_keeps h0))
     ite_keeps (placeFrom_keeps h1) h1)

theorem firmwareWrite_keeps {s : State} {die pa : Nat} {data : List Byte} (h : s.Inv) :
    (firmwareWrite s die pa data).Inv :=
  ite_keeps h (State.write_keeps _ _ _ _ (l2Access_keeps (revoked_keeps h)))

theorem firmwarePlace_keeps {s : State} {va : Nat} (h : s.Inv) : (firmwarePlace s va).Inv := by
  unfold firmwarePlace
  refine ite_keeps h ?_
  split
  · exact h
  · next e => exact placeAt_keeps (State.mk_keeps (hwTry_keeps h _ e))

/-! ### Operands and the issue of an instruction (`Machine/Operands.lean`) -/

theorem beginIssue_keeps {s : State} {c : Nat} {g : Sig} (h : s.Inv) : (beginIssue s c g).Inv := by
  unfold beginIssue
  exact State.evCount_keeps (State.evCount_keeps (State.evCount_keeps (State.evCount_keeps (State.modCore_keeps h))))

theorem popOperands_keeps {s : State} {c : Nat} {l : List (RegFile × Nat)} (h : s.Inv) :
    OkInv Prod.snd (popOperands s c l) := by
  match l with
  | [] =>
    exact .val h
  | e :: es =>
    rw [popOperands]
    dsimp only
    split
    · exact .bind (popStream_keeps h) fun _ h => .bind (popOperands_keeps h) fun _ h => .val h
    · exact .bind (.val h) fun _ h => .bind (popOperands_keeps h) fun _ h => .val h

theorem endIssue_keeps {s : State} {c : Nat} {inRep : Bool} (h : s.Inv) : (endIssue s c inRep).Inv :=
  State.modCore_keeps h

theorem issueOne_keeps {g : Sig} {body : Body} {s : State} {c : Nat}
    (hbody : ∀ a0 a1 a2, a2.Inv → OkInv id (body a0 a1 a2)) (h : s.Inv) : OkInv id (issueOne g body s c) :=
  .check fun _ =>
    .bind (popOperands_keeps (beginIssue_keeps h)) fun _ h => .bind (hbody _ _ _ h) fun _ h2 => .next
      (endIssue_keeps h2)

/-- The states that an issue of several tasks carries have the canonical form. -/
def Issued.Keeps : Issued → Prop
  | .ok s => s.Inv
  | .stall _ => True
  | .trap _ _ s _ => s.Inv

theorem issueAll_keeps {g : Sig} {body : Body} {s : State} {cs done : List Nat}
    (hbody : ∀ a0 a1 a2, a2.Inv → OkInv id (body a0 a1 a2)) (h : s.Inv) : (issueAll g body s cs done).Keeps := by
  induction cs generalizing s done with
  | nil => exact h
  | cons c cs ih =>
    rw [issueAll]
    split
    · next e => exact ih (issueOne_keeps hbody h _ e)
    · trivial
    · exact h

theorem waitAtIssue_keeps {s : State} {ms : List Nat} {reqs : List Req} (h : s.Inv) : (waitAtIssue s ms reqs).Inv :=
  foldl_keeps (fun _ _ h => State.modCore_keeps h) (applyReqs_keeps h)

theorem trapAtIssue_keeps {s0 s : State} {m : Nat} {ms done : List Nat} {t : TrapInfo} (h0 : s0.Inv) (h : s.Inv) :
    (trapAtIssue s0 s m ms done t).Inv :=
  ite_keeps (waitAtIssue_keeps h0) (takeTrap_keeps (ite_keeps h h0))

theorem afterPair_keeps {s : State} {c : Nat} {committed : Bool} (h : s.Inv) : (afterPair s c committed).Inv := by
  unfold afterPair
  refine ite_keeps h ?_
  refine ite_keeps ?_ (mirrored_keeps (State.modCore_keeps h))
  split
  · next e => exact mirrored_keeps (takeCheck_keeps (settleNear_keeps (State.modCore_keeps h) _ e))
  · exact takeTrap_keeps (State.modCore_keeps h)
  · exact mirrored_keeps (State.modCore_keeps h)

theorem beforePair_keeps {s : State} {c : Nat} (h : s.Inv) : (beforePair s c).Inv :=
  ite_keeps h (State.modCore_keeps h)

theorem issueUnit_keeps {g : Sig} {body : Body} {s : State} {c : Nat}
    (hbody : ∀ a0 a1 a2, a2.Inv → OkInv id (body a0 a1 a2)) (h : s.Inv) : (issueUnit g body s c).Inv := by
  have hall := issueAll_keeps (cs := actingMembers s c) (done := []) (g := g) hbody (beforePair_keeps (c := c) h)
  unfold issueUnit
  dsimp only
  split
  · next e =>
    rw [e] at hall
    exact ite_keeps (afterPair_keeps hall) hall
  · exact mirrored_keeps (waitAtIssue_keeps h)
  · next e =>
    rw [e] at hall
    exact trapAtIssue_keeps h hall

theorem issue_keeps {g : Sig} {body : Body} {s : State} (hbody : ∀ a0 a1 a2, a2.Inv → OkInv id (body a0 a1 a2))
    (h : s.Inv) : OutInv (issue g body s) :=
  .ite (.next (issueUnit_keeps hbody h)) .fault

theorem putResult_keeps {s : State} {c : Nat} {f : RegFile} {d lat : Nat} {v : Vec} (h : s.Inv) :
    OkInv id (putResult s c f d lat v) := by
  unfold putResult
  split
  · exact .next (State.modCore_keeps h)
  · split
    · exact pushStream_keeps h
    · exact .next (State.modCore_keeps h)

theorem putVariable_keeps {s : State} {c : Nat} {f : RegFile} {d : Nat} {v : Vec} (h : s.Inv) :
    OkInv id (putVariable s c f d v) := by
  unfold putVariable
  split
  · exact .next (State.due_keeps (State.modCore_keeps h))
  · split
    · exact pushStream_keeps h
    · exact .ite (.next h) (.next (State.due_keeps (State.modCore_keeps h)))

theorem awaitCheck_keeps {s : State} {c d : Nat} (h : s.Inv) : OkInv id (awaitCheck s c d) := by
  unfold awaitCheck
  split
  · exact pushCheck_keeps h
  · exact .next h

theorem putAwaited_keeps {s0 : State} {c d : Nat} (h0 : s0.Inv) : OkInv Prod.snd (putAwaited s0 c d) := by
  unfold putAwaited
  refine .bind (awaitCheck_keeps h0) fun _ h => ?_
  dsimp only
  split <;> exact .val (State.modCore_keeps h)

theorem putK_keeps {s : State} {c d lat : Nat} {v : Word} (h : s.Inv) : OkInv id (putK s c d lat v) :=
  putResult_keeps h

theorem putKLater_keeps {s : State} {c d : Nat} {v : Word} (h : s.Inv) : OkInv id (putKLater s c d v) :=
  putVariable_keeps h

theorem bubble_keeps {s : State} {c n : Nat} (h : s.Inv) : (bubble s c n).Inv :=
  State.modCore_keeps h

theorem jumpTo_keeps {s : State} {c : Nat} {va : Word} (h : s.Inv) : (jumpTo s c va).Inv :=
  State.modCore_keeps h

/-! ### Vector instructions (`Machine/Vector.lean`) -/

theorem putLanes_keeps {s : State} {c d lat e mask : Nat} {new : List Nat} (h : s.Inv) :
    OkInv id (putLanes s c d lat e mask new) :=
  .ite (putVariable_keeps h) (putResult_keeps h)

theorem putVec_keeps {s : State} {c d lat e : Nat} {new : List Nat} (h : s.Inv) : OkInv id (putVec s c d lat e new) :=
  putResult_keeps h

theorem vecBinary_keeps {cls lat e : Nat} {use : HintUse} {f : Hints → Nat → Nat → Nat} {d : Fin 16} {a b : Fin 32}
    {m : Fin 8} {s : State} (h : s.Inv) : OutInv (vecBinary cls lat e use f d a b m s) :=
  issue_keeps (fun _ _ _ h => putLanes_keeps h) h

theorem vecAccumulate_keeps {cls lat e : Nat} {use : HintUse} {f : Hints → Nat → Nat → Nat → Nat} {d : Fin 16}
    {a b : Fin 32} {m : Fin 8} {s : State} (h : s.Inv) : OutInv (vecAccumulate cls lat e use f d a b m s) :=
  issue_keeps (fun _ _ _ h => putLanes_keeps h) h

theorem vecUnary_keeps {cls lat e : Nat} {use : HintUse} {f : Hints → Nat → Nat} {d : Fin 16} {a : Fin 32}
    {m : Fin 8} {s : State} (h : s.Inv) : OutInv (vecUnary cls lat e use f d a m s) :=
  issue_keeps (fun _ _ _ h => putLanes_keeps h) h

theorem vecCompare_keeps {e : Nat} {f : Nat → Nat → Bool} {d : Fin 16} {a b : Fin 32} {m : Fin 8} {s : State}
    (h : s.Inv) : OutInv (vecCompare e f d a b m s) :=
  issue_keeps (fun _ _ _ h => putResult_keeps h) h

theorem maskLogic_keeps {t : Nat} {f : Nat → Nat → Nat} {d : Fin 16} {a b : Fin 32} {s : State} (h : s.Inv) :
    OutInv (maskLogic t f d a b s) :=
  issue_keeps (fun _ _ _ h => putResult_keeps h) h

theorem maskCount_keeps {t : Nat} {f : Nat → Nat → Nat} {d : Fin 16} {a : Fin 32} {s : State} (h : s.Inv) :
    OutInv (maskCount t f d a s) :=
  issue_keeps (fun _ _ _ h => putK_keeps h) h

theorem vecPermute_keeps {t : Nat} {two : Bool} {f : Nat → (Nat → Nat) → (Nat → Nat) → Nat → Nat} {d : Fin 16}
    {a b : Fin 32} {m : Fin 8} {s : State} (h : s.Inv) : OutInv (vecPermute t two f d a b m s) :=
  issue_keeps (fun _ _ _ h => putLanes_keeps h) h

theorem vecSlide_keeps {t : Nat} {f : Nat → Nat → (Nat → Nat) → Nat → Nat} {d : Fin 16} {a b : Fin 32} {m : Fin 8}
    {s : State} (h : s.Inv) : OutInv (vecSlide t f d a b m s) :=
  issue_keeps (fun _ _ _ h => putLanes_keeps h) h

theorem vecReduce_keeps {e : Nat} {use : HintUse} {f : Hints → List Nat → Word} {d : Fin 16} {a : Fin 32}
    {m : Fin 8} {s : State} (h : s.Inv) : OutInv (vecReduce e use f d a m s) :=
  issue_keeps (fun _ _ _ h => putK_keeps h) h

theorem vecScan_keeps {t : Nat} {f : Nat → List Nat → Nat} {d : Fin 16} {a : Fin 32} {m : Fin 8} {s : State}
    (h : s.Inv) : OutInv (vecScan t f d a m s) :=
  issue_keeps (fun _ _ _ h => putLanes_keeps h) h

theorem floatBinary_keeps {f : Rm → Fp → Fp → Fp} {d : Fin 16} {a b : Fin 32} {t m : Fin 8} {s : State} (h : s.Inv) :
    OutInv (floatBinary f d a b t m s) := by
  unfold floatBinary
  exact vecBinary_keeps h

theorem floatFused_keeps {minus : Bool} {d : Fin 16} {a b : Fin 32} {t m : Fin 8} {s : State} (h : s.Inv) :
    OutInv (floatFused minus d a b t m s) := by
  unfold floatFused
  exact vecAccumulate_keeps h

theorem execVabsFp_keeps {d : Fin 16} {a : Fin 32} {t m : Fin 8} {s : State} (h : s.Inv) :
    OutInv (execVabsFp d a t m s) := by
  unfold execVabsFp
  exact vecUnary_keeps h

theorem execVnegFp_keeps {d : Fin 16} {a : Fin 32} {t m : Fin 8} {s : State} (h : s.Inv) :
    OutInv (execVnegFp d a t m s) := by
  unfold execVnegFp
  exact vecUnary_keeps h

theorem execVdiv_keeps {d : Fin 16} {a b : Fin 32} {t m : Fin 8} {s : State} (h : s.Inv) :
    OutInv (execVdiv d a b t m s) := by
  unfold execVdiv
  exact vecBinary_keeps h

theorem execVsqrt_keeps {d : Fin 16} {a : Fin 32} {t m : Fin 8} {s : State} (h : s.Inv) :
    OutInv (execVsqrt d a t m s) := by
  unfold execVsqrt
  exact vecUnary_keeps h

theorem vecInt_keeps {f : Int → Int → Int} {d : Fin 16} {a b : Fin 32} {t m : Fin 8} {s : State} (h : s.Inv) :
    OutInv (vecInt f d a b t m s) := by
  unfold vecInt
  exact vecBinary_keeps h

theorem vecPlain_keeps {f : Nat → Nat → Nat → Nat} {d : Fin 16} {a b : Fin 32} {t m : Fin 8} {s : State} (h : s.Inv) :
    OutInv (vecPlain f d a b t m s) :=
  vecBinary_keeps h

theorem vecPlain1_keeps {f : Nat → Nat → Nat} {d : Fin 16} {a : Fin 32} {t m : Fin 8} {s : State} (h : s.Inv) :
    OutInv (vecPlain1 f d a t m s) :=
  vecUnary_keeps h

theorem intCompare_keeps {code : Nat} {d : Fin 16} {a b : Fin 32} {t m : Fin 8} {s : State} (h : s.Inv) :
    OutInv (intCompare code d a b t m s) :=
  vecCompare_keeps h

theorem floatCompare_keeps {f : Fp → Fp → Bool} {d : Fin 16} {a b : Fin 32} {t m : Fin 8} {s : State} (h : s.Inv) :
    OutInv (floatCompare f d a b t m s) :=
  vecCompare_keeps h

theorem vecConvert_keeps {es ed : Nat} {use : HintUse} {f : Hints → Nat → Nat} {d : Fin 16} {a : Fin 32} {m : Fin 8}
    {s : State} (h : s.Inv) : OutInv (vecConvert es ed use f d a m s) :=
  issue_keeps (fun _ _ _ h => putVec_keeps h) h

theorem execVf2i_keeps {d : Fin 16} {a : Fin 32} {r : Fin 4} {f t m : Fin 8} {s : State} (h : s.Inv) :
    OutInv (execVf2i d a r f t m s) := by
  unfold execVf2i
  exact vecConvert_keeps h

theorem execVi2f_keeps {d : Fin 16} {a : Fin 32} {r : Fin 4} {f t m : Fin 8} {s : State} (h : s.Inv) :
    OutInv (execVi2f d a r f t m s) := by
  unfold execVi2f
  exact vecConvert_keeps h

theorem execVnarrow_keeps {d : Fin 16} {a : Fin 32} {q : Fin 4} {f t m : Fin 8} {s : State} (h : s.Inv) :
    OutInv (execVnarrow d a q f t m s) := by
  unfold execVnarrow
  exact vecConvert_keeps h

theorem intReduce_keeps {use : HintUse} {f : Nat → List Nat → Word} {d : Fin 16} {a : Fin 32} {t m : Fin 8}
    {s : State} (h : s.Inv) : OutInv (intReduce use f d a t m s) :=
  vecReduce_keeps h

/-! ### Memory instructions (`Machine/MemInstr.lean`) -/

theorem execLd_keeps {d : Fin 16} {a : Fin 32} {w : Fin 4} {x : Fin 2} {c : Fin 4} {o : Fin 2048} {s : State}
    (h : s.Inv) : OutInv (execLd d a w x c o s) :=
  issue_keeps (fun _ _ _ h => .bind (loadData_keeps h) fun _ h => putKLater_keeps h) h

theorem execLdx_keeps {d : Fin 16} {a b : Fin 32} {w : Fin 4} {x : Fin 2} {c : Fin 4} {k : Fin 2} {s : State}
    (h : s.Inv) : OutInv (execLdx d a b w x c k s) :=
  issue_keeps (fun _ _ _ h => .bind (loadData_keeps h) fun _ h => putKLater_keeps h) h

theorem execVld_keeps {d : Fin 16} {a : Fin 32} {z c : Fin 4} {o : Fin 2048} {s : State} (h : s.Inv) :
    OutInv (execVld d a z c o s) :=
  issue_keeps (fun _ _ _ h => .bind (loadData_keeps h) fun _ h => putVariable_keeps h) h

theorem execVlss_keeps {d : Fin 16} {a b : Fin 32} {t : Fin 8} {c : Fin 4} {m : Fin 8} {s : State} (h : s.Inv) :
    OutInv (execVlss d a b t c m s) :=
  issue_keeps (fun _ _ _ h => .bind (loadEach_keeps h) fun _ h => putLanes_keeps h) h

theorem clearDropped_keeps {s : State} {c m n mask : Nat} {gone : List Nat} (h : s.Inv) :
    OkInv id (clearDropped s c m n mask gone) :=
  .ite (.next h) (putVariable_keeps h)

theorem execVgth_keeps {d : Fin 16} {a b : Fin 32} {k : Fin 16} {i e : Fin 4} {m : Fin 8} {s : State} (h : s.Inv) :
    OutInv (execVgth d a b k i e m s) :=
  issue_keeps
    (fun _ _ _ h =>
      .bind (elementsReady_keeps h) fun _ h0 =>
        .bind (loadEach_keeps (foldl_keeps (fun _ _ h => gatherCounted_keeps h) h0)) fun _ h =>
          .bind (putLanes_keeps h) fun _ h2 => clearDropped_keeps h2)
    h

theorem execVsct_keeps {d : Fin 16} {a b : Fin 32} {k : Fin 16} {i e : Fin 4} {m : Fin 8} {s : State} (h : s.Inv) :
    OutInv (execVsct d a b k i e m s) :=
  issue_keeps
    (fun _ _ _ h =>
      .bind (storeMany_keeps h) fun _ h1 => clearDropped_keeps (foldl_keeps (fun _ _ h => gatherCounted_keeps h) h1))
    h

theorem sliceRead_keeps {s : State} {c j off n : Nat} (h : s.Inv) : OkInv Prod.snd (sliceRead s c j off n) :=
  .bind (portCheck_keeps (State.modCore_keeps h)) fun _ h1 =>
    .ite (.val h1) (.bind (portCheck_keeps h1) fun _ h2 => .guard (.val h2))

theorem sliceWrite_keeps {s : State} {c j off n v : Nat} (h : s.Inv) : OkInv id (sliceWrite s c j off n v) :=
  .bind (portCheck_keeps (State.modCore_keeps h)) fun _ h1 =>
    have h2 := State.write_keeps _ _ _ _ h1
    .ite (.next h2) (.bind (portCheck_keeps h2) fun _ h3 => .next (State.write_keeps _ _ _ _ h3))

theorem readParts32_keeps {s : State} {c off : Nat} {l : List (Nat × Nat)} (h : s.Inv) :
    OkInv Prod.snd (readParts32 s c off l) :=
  match l with
  | [] => .val h
  | _ :: _ => .bind (sliceRead_keeps h) fun _ h => .bind (readParts32_keeps h) fun _ h => .val h

theorem writeParts32_keeps {s : State} {c off : Nat} {l : List (Nat × Nat)} {v : Nat} (h : s.Inv) :
    OkInv id (writeParts32 s c off l v) :=
  match l, v with
  | [], _ => .next h
  | _ :: _, _ => .bind (sliceWrite_keeps h) fun _ h1 => writeParts32_keeps h1

theorem readLanes_keeps {s : State} {c e : Nat} {idx : Vec} {l : List Nat} (h : s.Inv) :
    OkInv Prod.snd (readLanes s c e idx l) :=
  match l with
  | [] => .val h
  | _ :: _ => .bindIte (.val h) (readParts32_keeps h) fun _ h => .bind (readLanes_keeps h) fun _ h => .val h

theorem writeLanes_keeps {s : State} {c e : Nat} {idx data : Vec} {l : List Nat} (h : s.Inv) :
    OkInv id (writeLanes s c e idx data l) :=
  match l with
  | [] => .next h
  | _ :: _ => .bindIte (.next h) (writeParts32_keeps h) fun _ h1 => writeLanes_keeps h1

theorem readUniform_keeps {s : State} {c o e mask : Nat} {l : List Nat} (h : s.Inv) :
    OkInv Prod.snd (readUniform s c o e mask l) :=
  match l with
  | [] => .val h
  | _ :: _ => .bindIte (sliceRead_keeps h) (.val h) fun _ h => .bind (readUniform_keeps h) fun _ h => .val h

theorem writeBytes_keeps {s : State} {c j o v : Nat} {l : List Nat} (h : s.Inv) : OkInv id (writeBytes s c j o v l) :=
  match l with
  | [] => .next h
  | _ :: _ => .bind (sliceWrite_keeps h) fun _ h1 => writeBytes_keeps h1

theorem writeUniform_keeps {s : State} {c o e mask : Nat} {data : Vec} {l : List Nat} (h : s.Inv) :
    OkInv id (writeUniform s c o e mask data l) :=
  match l with
  | [] => .next h
  | _ :: _ => .bindIte (sliceWrite_keeps h) (writeBytes_keeps h) fun _ h1 => writeUniform_keeps h1

theorem execVldl_keeps {d : Fin 16} {a : Fin 32} {t m : Fin 8} {s : State} (h : s.Inv) :
    OutInv (execVldl d a t m s) :=
  issue_keeps (fun _ _ _ h => .check fun _ => .bind (readUniform_keeps h) fun _ h => putLanes_keeps h) h

theorem execVldlx_keeps {d : Fin 16} {a : Fin 32} {t m : Fin 8} {s : State} (h : s.Inv) :
    OutInv (execVldlx d a t m s) :=
  issue_keeps (fun _ _ _ h => .bind (readLanes_keeps h) fun _ h => putLanes_keeps h) h

theorem execVstl_keeps {a b : Fin 32} {t m : Fin 8} {s : State} (h : s.Inv) : OutInv (execVstl a b t m s) :=
  issue_keeps (fun _ _ _ h => .check fun _ => writeUniform_keeps h) h

/-! ### Fetching and turns (`Machine/Fetch.lean`) -/

theorem readSector_keeps {s : State} {a : Access} {p : Piece} (h : s.Inv) : OkInv Prod.snd (readSector s a p) :=
  .bind (served_keeps h) fun _ h1 => .val h1

theorem fetchWord_keeps {s : State} {c : Nat} {va : Word} (h : s.Inv) : OkInv Prod.snd (fetchWord s c va) := by
  unfold fetchWord
  refine .bind (checkAccess_keeps h) fun ⟨_, _, _⟩ h => ?_
  dsimp only
  split
  · refine .ite ?_ ?_
    · split
      · next e => exact .val (snd_keeps e (lookup_keeps h))
      · next e =>
          exact .bind (readSector_keeps (snd_keeps e (lookup_keeps h))) fun _ h => .val
            (State.modCore_keeps (State.evCount_keeps h))
    · split
      · exact .val h
      · exact .bind (readSector_keeps h) fun _ h => .val (State.modCore_keeps h)
  · exact .error

theorem captureBody_keeps {c fuel : Nat} {s : State} {va : Word} {x : Hints} {stalls : List Nat} {n : Nat}
    {acc : List BodyInstr} (h : s.Inv) : OkInv (·.2.2.2) (captureBody c fuel s va x stalls n acc) := by
  induction fuel generalizing s va x stalls n acc with
  | zero => exact .error
  | succ fuel ih =>
    rw [captureBody]
    exact .ite (.ok h) (.bind (fetchWord_keeps h) fun _ h => .ite (ih h) (.ite .error (ih h)))

theorem helperFetch_keeps {s : State} {c : Nat} {storer : Bool} (h : s.Inv) :
    OkInv Prod.snd (helperFetch s c storer) :=
  .guard (.bind (portCheck_keeps h) fun _ h1 => .ite (.guard (.bind (portCheck_keeps h1) fun _ h2 => .val h2))
    (.val h1))

theorem passAway_keeps {s : State} (h : s.Inv) : (passAway s).Inv :=
  foldl_keeps (fun _ _ h => ite_keeps (State.modCore_keeps (ite_keeps (State.evCount_keeps h) h)) h) h

theorem tick_keeps {s : State} (h : s.Inv) : (tick s).Inv :=
  foldl_keeps (fun _ _ h => State.dueOnce_keeps h)
    (foldl_keeps (fun _ _ h => closeOne_keeps h)
    (releaseFrames_keeps (passAway_keeps (hwAgain_keeps (State.mk_keeps (beaconCycle_keeps h))))))

theorem toBody_keeps {s : State} {c : Nat} (h : s.Inv) : (toBody s c).Inv :=
  foldl_keeps (fun _ _ h => State.modCore_keeps h) h

theorem bodyTurn_keeps {s : State} {b : BodyInstr} {r : Rep} (h : s.Inv) : (bodyTurn s b r).1.Inv := by
  unfold bodyTurn
  split <;> exact h

theorem fetchTurn_keeps {s : State} {c : Nat} (h : s.Inv) : (fetchTurn s c).1.Inv := by
  unfold fetchTurn
  dsimp only
  split
  · next e =>
      split
      · exact foldl_keeps (fun _ _ h => State.modCore_keeps h) (fetchWord_keeps h _ e)
      · split <;> exact fetchWord_keeps h _ e
  · split
    · exact State.modCore_keeps h
    · exact h
  · exact waitAtIssue_keeps h

theorem coreTurn_keeps {s0 : State} {c : Nat} (h0 : s0.Inv) : (coreTurn s0 c).1.Inv := by
  unfold coreTurn
  dsimp only
  split
  · exact bodyTurn_keeps (toBody_keeps (State.mk_keeps h0))
  · exact fetchTurn_keeps (toBody_keeps (State.mk_keeps h0))

theorem helperTurn_keeps {s0 : State} {c : Nat} {storer : Bool} (h0 : s0.Inv) : (helperTurn s0 c storer).1.Inv := by
  unfold helperTurn
  dsimp only
  split
  · next e =>
      split <;> exact helperFetch_keeps (State.mk_keeps h0) _ e
  · exact State.mk_keeps h0

theorem runTurn_keeps {s : State} {x : Turn} (h : s.Inv) : (runTurn s x).1.Inv := by
  unfold runTurn
  split
  · dsimp only
    split
    · exact coreTurn_keeps h
    · exact h
  · split
    · exact helperTurn_keeps h
    · exact h
  · split <;> exact h
  · exact State.mk_keeps h
  · exact State.modCore_keeps h
  · exact acknowledge_keeps h
  · exact h
  · exact firmwareWrite_keeps h
  · exact firmwarePlace_keeps h
  · exact ite_keeps (State.mk_keeps h) h

/-! ### Branches, loop nests and repetitions (`Machine/Control.lean`) -/

theorem followPc_keeps {s : State} {c : Nat} (h : s.Inv) : (followPc s c).Inv :=
  State.modCore_keeps h

theorem resolveBranch_keeps {s : State} {c : Nat} {x : Hints} {n p : Nat} {taken : Bool} (h : s.Inv) :
    (resolveBranch s c x n p taken).Inv :=
  have h1 := ite_keeps (jumpTo_keeps h) h
  ite_keeps (ite_keeps (bubble_keeps h1) h1) (bubble_keeps (State.evCount_keeps h1))

theorem execBr_keeps {a b : Fin 32} {c : Fin 8} {p : Fin 4096} {s : State} (h : s.Inv) : OutInv (execBr a b c p s) :=
  issue_keeps (fun _ _ _ h => .ite (.next (followPc_keeps h)) (.next (resolveBranch_keeps h))) h

theorem execJmp_keeps {p : Fin 33554432} {s : State} (h : s.Inv) : OutInv (execJmp p s) :=
  issue_keeps (fun _ _ _ h => .ite (.next (followPc_keeps h)) (.next (bubble_keeps (jumpTo_keeps h)))) h

theorem putLink_keeps {s : State} {m : Nat} (h : s.Inv) : (putLink s m).Inv :=
  State.modCore_keeps h

theorem execCall_keeps {p : Fin 33554432} {s : State} (h : s.Inv) : OutInv (execCall p s) :=
  issue_keeps
    (fun _ _ _ h => .ite (.next (followPc_keeps (putLink_keeps h)))
      (.next (bubble_keeps (jumpTo_keeps (putLink_keeps h)))))
    h

theorem registerJump_keeps {s : State} {m : Nat} {target : Word} (h : s.Inv) : OkInv id (registerJump s m target) :=
  .ite (.next (followPc_keeps h)) (.ite .error (.next (bubble_keeps (jumpTo_keeps h))))

theorem execCallr_keeps {a : Fin 32} {s : State} (h : s.Inv) : OutInv (execCallr a s) :=
  issue_keeps (fun _ _ _ h => .bind (registerJump_keeps h) fun _ h1 => .next (putLink_keeps h1)) h

theorem claimChunk_keeps {s : State} {c : Nat} {x : Nest} (h : s.Inv) : OkInv (·.2.2) (claimChunk s c x) := by
  unfold claimChunk
  refine .bind (checkAccess_keeps h) fun ⟨_, _, _⟩ h => ?_
  dsimp only
  split
  · exact .bind (orderBefore_keeps h) fun _ h2 =>
        have h3 := commit_keeps (l1dInvalidate_keeps h2)
        .ite
          (.bind (served_keeps h3) fun _ h4 => .ok (State.evCount_keeps h4))
          (.bind (atomicAt_keeps h3) fun _ h => .ok (remoteServed_keeps (remoteSent_keeps (State.evCount_keeps h))))
  · exact .error

theorem putIndices_keeps {s : State} {c : Nat} {l : List Nat} (h : s.Inv) : (putIndices s c l).Inv :=
  foldl_keeps (fun _ _ h => State.modCore_keeps h) h

theorem takeChunk_keeps {s : State} {c : Nat} {x : Nest} {start size : Nat} (h : s.Inv) :
    (takeChunk s c x start size).Inv :=
  ite_keeps (State.modCore_keeps h) (putIndices_keeps (State.modCore_keeps h))

theorem followNest_keeps {s : State} {c : Nat} (h : s.Inv) : (followNest s c).Inv :=
  ite_keeps (putIndices_keeps (State.modCore_keeps h)) (State.modCore_keeps h)

theorem execLnest_keeps {d : Fin 16} {a : Fin 32} {s : State} (h : s.Inv) : OutInv (execLnest d a s) :=
  issue_keeps
    (fun _ _ _ h =>
      .ite (putKLater_keeps (followNest_keeps h)) (.bind (loadStruct_keeps h) fun _ h =>
          .check fun _ => .guard (.bind (claimChunk_keeps h) fun _ h => putKLater_keeps (takeChunk_keeps h))))
    h

theorem execLnext_keeps {p : Fin 4096} {s : State} (h : s.Inv) : OutInv (execLnext p s) :=
  issue_keeps
    (fun _ _ _ h =>
      .ite
        (.next (followPc_keeps (ite_keeps (followNest_keeps h) h)))
        (.ite (.next (resolveBranch_keeps h)) (.ite
            (.next (resolveBranch_keeps (takeChunk_keeps h)))
            (.bind (claimChunk_keeps h) fun _ h => .next (resolveBranch_keeps (takeChunk_keeps h))))))
    h

theorem execRep_keeps {n : Fin 8} {a : Fin 32} {st t : Fin 8} {c : Fin 2048} {s : State} (h : s.Inv) :
    OutInv (execRep n a st t c s) :=
  issue_keeps
    (fun _ _ _ h =>
      .ite (.next (State.modCore_keeps h)) (.ite .error
        (.bind (captureBody_keeps h) fun _ h => .next (State.modCore_keeps h))))
    h

theorem execRepw_keeps {s : State} (h : s.Inv) : OutInv (execRepw s) :=
  issue_keeps (fun _ _ _ h => .next h) h

/-! ### Waits and barriers (`Machine/Wait.lean`) -/

theorem waitRead_keeps {s : State} {c va len : Nat} (h : s.Inv) : OkInv Prod.snd (waitRead s c va len) :=
  loadData_keeps h

theorem condMet_keeps {s : State} {c d : Nat} (h : s.Inv) : OkInv Prod.snd (condMet s c d) := by
  unfold condMet
  split
  · exact .val h
  · exact .val h
  · exact .val h
  · exact .bind (waitRead_keeps h) fun _ h => .val h
  · exact .bind (waitRead_keeps h) fun _ h => .val h
  · exact .bind (waitRead_keeps h) fun _ h => .val h
  · exact .val h

theorem waitChecks_keeps {s : State} {c : Nat} {desc : Vec} {ctl : Word} (h : s.Inv) :
    OkInv id (waitChecks s c desc ctl) := by
  unfold waitChecks
  extract_lets ds tiles words checkWords checkTiles
  have hwords : OkInv id (checkWords ()) :=
    foldlM_keeps (fun s d hs => .bind (checkAccess_keeps hs) fun _ h1 => .next h1) h
  refine .guard ?_
  unfold checkTiles
  split
  · exact .errorBind
  · exact hwords

theorem softSeen_keeps {s : State} {c : Nat} (h : s.Inv) : (softSeen s c).Inv :=
  chainSeen_keeps h

theorem waitHeld_keeps {s : State} {c : Nat} {w : WaitSt} (h : s.Inv) : OkInv Prod.snd (waitHeld s c w) := by
  refine foldlM_keeps (fun acc i hacc => ?_) (b := (0, s)) h
  split
  · next e => exact .ok (condMet_keeps hacc _ e)
  · next e => exact .ok (condMet_keeps hacc _ e)
  · exact .ok hacc
  · exact .error

theorem waitResult_keeps {s : State} {c : Nat} {w : WaitSt} (h : s.Inv) : OkInv (·.2.2) (waitResult s c w) :=
  .bind (waitHeld_keeps h) fun _ h => .ok (softSeen_keeps h)

theorem endWait_keeps {s : State} {c bitmap : Nat} {w : WaitSt} (h : s.Inv) : OkInv id (endWait s c bitmap w) :=
  .bind (putKLater_keeps h) fun _ h1 => .next (State.modCore_keeps h1)

theorem endWaits_keeps {s : State} {l : List (Nat × Nat × WaitSt)} (h : s.Inv) : OkInv id (endWaits s l) :=
  match l with
  | [] => .next h
  | _ :: _ => .bind (endWait_keeps h) fun _ h1 => endWaits_keeps h1

theorem waitOn_keeps {s : State} {c : Nat} (h : s.Inv) : (waitOn s c).Inv :=
  State.dueOnce_keeps (State.dueOnce_keeps h)

theorem waitResults_keeps {s : State} {l : List Nat} (h : s.Inv) : OkInv (·.2.2) (waitResults s l) := by
  match l with
  | [] =>
    exact .ok h
  | r :: rs =>
    rw [waitResults]
    split
    · exact waitResults_keeps h
    · exact .bind (waitResult_keeps h) fun _ h => .bind (waitResults_keeps h) fun _ h => .ok h

theorem tryWait_keeps {s : State} {c : Nat} (h : s.Inv) : OkInv id (tryWait s c) :=
  .bind (waitResults_keeps h) fun _ h => .ite (endWaits_keeps h) (.next (waitOn_keeps h))

theorem trapAsleep_keeps {s : State} {c : Nat} {t : TrapInfo} {again : State → State} (h : s.Inv)
    (hagain : ∀ a0, a0.Inv → (again a0).Inv) : (trapAsleep s c t again).Inv :=
  ite_keeps (hagain _ h) (takeTrap_keeps (ite_keeps (foldl_keeps (fun _ _ h => giveBack_keeps h) h) h))

theorem lookAtWait_keeps {s : State} {c : Nat} (h : s.Inv) : (lookAtWait s c).Inv := by
  unfold lookAtWait
  refine ite_keeps ?_ h
  split
  · next e => exact mirrored_keeps (tryWait_keeps h _ e)
  · exact waitOn_keeps (applyReqs_keeps h)
  · exact trapAsleep_keeps h fun _ h => waitOn_keeps h

theorem beginWait_keeps {s : State} {c d : Nat} {desc : Vec} {ctl : Word} (h : s.Inv) :
    (beginWait s c d desc ctl).Inv :=
  State.modCore_keeps h

theorem execWait_keeps {d : Fin 16} {a b : Fin 32} {s : State} (h : s.Inv) : OutInv (execWait d a b s) :=
  issue_keeps
    (fun _ _ _ h =>
      .bind (waitChecks_keeps h) fun _ h1 =>
        .bind (awaitCheck_keeps h1) fun _ h1 => .ite (tryWait_keeps (beginWait_keeps h1))
          (.next (beginWait_keeps h1)))
    h

theorem endBarrier_keeps {s : State} {c result : Nat} {x : BarSt} (h : s.Inv) : OkInv id (endBarrier s c result x) :=
  .bind (putKLater_keeps h) fun _ h1 => .next (State.modCore_keeps h1)

theorem endBarriers_keeps {s : State} {result : Nat} {l : List (Nat × BarSt)} (h : s.Inv) :
    OkInv id (endBarriers s result l) :=
  match l with
  | [] => .next h
  | _ :: _ => .bind (endBarrier_keeps h) fun _ h1 => endBarriers_keeps h1

theorem barGen_keeps {s : State} {c : Nat} {x : BarSt} (h : s.Inv) : SomeInv Prod.snd (barGen s c x) := by
  unfold barGen
  split
  · next e => exact .some (waitRead_keeps h _ e)
  · exact .none

theorem tryBarrier_keeps {s : State} {c : Nat} {x : BarSt} (h : s.Inv) : OkInv id (tryBarrier s c x) := by
  unfold tryBarrier
  extract_lets gone gen s1
  have h1 : s1.Inv := by
    refine softSeen_keeps ?_
    unfold gen
    cases hgen : barGen s (if followsLeader s c then (s.core c).task.leader else c) x with
    | none => exact h
    | some r => exact barGen_keeps h r hgen
  exact .ite (endBarriers_keeps h1) (.next (State.dueOnce_keeps h1))

theorem lookAtBarrier_keeps {s : State} {c : Nat} (h : s.Inv) : (lookAtBarrier s c).Inv := by
  unfold lookAtBarrier
  dsimp only
  split
  · exact h
  · refine ite_keeps h ?_
    split
    · next e => exact mirrored_keeps (tryBarrier_keeps h _ e)
    · exact State.dueOnce_keeps (applyReqs_keeps h)
    · exact trapAsleep_keeps h fun _ h => State.dueOnce_keeps h

theorem arrive_keeps {s : State} {c : Nat} {p : Piece} {parties : Nat} (h : s.Inv) :
    OkInv (·.2.2.2) (arrive s c p parties) :=
  .bind (served_keeps h) fun _ h2 =>
    .ok (remoteServed_keeps (remoteSent_keeps (State.evCount_keeps (traced_keeps (putBytes_keeps h2)))))

theorem joinBarrier_keeps {s : State} {c d va : Nat} {parties : Word} (h : s.Inv) :
    OkInv id (joinBarrier s c d va parties) := by
  unfold joinBarrier
  refine .guard ?_
  refine .bind (checkAccess_keeps h) fun ⟨_, _, _⟩ h => ?_
  refine .bind (awaitCheck_keeps h) fun _ h1 => ?_
  split
  · exact .bind (settleTask_keeps h1) fun _ h3 => .bind (arrive_keeps (commit_keeps (l1dInvalidate_keeps h3)))
      fun _ h => .next (State.modCore_keeps h)
  · exact .error

theorem followBarrier_keeps {s : State} {c d : Nat} (h : s.Inv) : (followBarrier s c d).Inv :=
  State.modCore_keeps h

theorem execBar_keeps {d : Fin 16} {a b : Fin 32} {s : State} (h : s.Inv) : OutInv (execBar d a b s) := by
  refine issue_keeps (fun m vs s h => .bindIte (.map (awaitCheck_keeps h) fun _ h1 => followBarrier_keeps h1)
    (joinBarrier_keeps h) fun s1 h1 => ?_) h
  dsimp only
  split
  · exact .ite (tryBarrier_keeps h1) (.next h1)
  · exact .next h1

/-! ### The ends of tasks (`Machine/Finish.lean`) -/

theorem endTile_keeps {s : State} {c : Nat} {e : Nat × Tile} (h : s.Inv) : OkInv Prod.snd (endTile s c e) := by
  unfold endTile
  refine .ite (.val h) ?_
  split
  · exact .error
  · refine .ite (.val h) ?_
    refine .ite (.val (requestEvict_keeps h)) ?_
    refine .ite ?_ (.val h)
    refine .ite ?_ (.val (requestKeep_keeps h))
    split
    · exact .error
    · exact .val (applyReqs_keeps h)
    · exact .val h

theorem endTiles_keeps {s : State} {c : Nat} {l : List (Nat × Tile)} (h : s.Inv) : OkInv Prod.snd (endTiles s c l) :=
  match l with
  | [] => .val h
  | _ :: _ => .bind (endTile_keeps h) fun _ h => .bind (endTiles_keeps h) fun _ h => .val h

theorem endMember_keeps {s0 : State} {c : Nat} (h0 : s0.Inv) : OkInv Prod.snd (endMember s0 c) :=
  .bind (settleNear_keeps h0) fun _ h =>
    .bind (drainAll_keeps h) fun _ h =>
      .ite (.val h) (.bind (endTiles_keeps h) fun _ h => .ite (.val h) (.check fun _ => .val h))

theorem endMembers_keeps {s : State} {l : List Nat} (h : s.Inv) : OkInv Prod.snd (endMembers s l) :=
  match l with
  | [] => .val h
  | _ :: _ => .bind (endMember_keeps h) fun _ h => .bind (endMembers_keeps h) fun _ h => .val h

theorem leaveTask_keeps {s : State} {c : Nat} (h : s.Inv) : (leaveTask s c).Inv :=
  idleCore_keeps (ite_keeps (State.modCore_keeps (clearTask_keeps h)) (clearTask_keeps h))

theorem finishUnit_keeps {s : State} {c : Nat} {ms : List Nat} (h : s.Inv) : (finishUnit s c ms).Inv :=
  foldl_keeps (fun _ _ h => leaveTask_keeps h) (ite_keeps (unitFinished_keeps h) h)

theorem endFault_keeps {s : State} {c : Nat} {ms : List Nat} {t : TrapInfo} (h : s.Inv) :
    (endFault s c ms t).Inv := by
  unfold endFault
  exact takeTrap_keeps (foldl_keeps (fun _ _ h => State.modCore_keeps h) h)

theorem taskEndStep_keeps {s : State} {c : Nat} (h : s.Inv) : (taskEndStep s c).Inv := by
  unfold taskEndStep
  refine ite_keeps h ?_
  dsimp only
  split
  · exact ite_keeps (State.dueOnce_keeps h) (ite_keeps (discardUnit_keeps h) (endFault_keeps h))
  · exact State.dueOnce_keeps (applyReqs_keeps h)
  · next e => exact State.dueOnce_keeps (endMembers_keeps h _ e)
  · next e => exact finishUnit_keeps (endMembers_keeps h _ e)

theorem beginEnd_keeps {halt : Bool} {s : State} (h : s.Inv) : OutInv (beginEnd halt s) :=
  issue_keeps
    (fun _ _ _ h => .check fun _ => .check fun _ => .next
      (State.dueOnce_keeps (State.modCore_keeps (disarmAll_keeps h))))
    h

theorem execYield_keeps {s : State} (h : s.Inv) : OutInv (execYield s) :=
  issue_keeps (fun _ _ _ h => .ite (.next h) (.ite (.next (State.dueOnce_keeps (State.modCore_keeps h))) (.next h))) h

/-! ### The sys group and the control registers (`Machine/System.lean`) -/

theorem softTrap_keeps {cause : Nat} {value : Word} : OkInv id (softTrap cause value) :=
  .error

theorem execTrap_keeps {a : Fin 32} {s : State} (h : s.Inv) : OutInv (execTrap a s) :=
  issue_keeps (fun _ _ _ _ => softTrap_keeps) h

theorem execBrk_keeps {s : State} (h : s.Inv) : OutInv (execBrk s) :=
  issue_keeps (fun _ _ _ _ => softTrap_keeps) h

theorem execEret_keeps {s : State} (h : s.Inv) : OutInv (execEret s) :=
  issue_keeps (fun _ _ _ h => .ite .error (.ite .error (.next (State.modCore_keeps h)))) h

theorem execChk_keeps {s : State} (h : s.Inv) : OutInv (execChk s) :=
  issue_keeps (fun _ _ _ h => .bind (settleNear_keeps (State.modCore_keeps h)) fun _ h1 => .next
    (takeCheck_keeps h1)) h

theorem execNop_keeps {s : State} (h : s.Inv) : OutInv (execNop s) :=
  issue_keeps (fun _ _ _ h => .next h) h

theorem cancelLevel_keeps {s : State} {c job i : Nat} {hard : Bool} (h : s.Inv) : (cancelLevel s c job i hard).Inv :=
  ite_keeps (levelSeen_keeps h)
    (have h2 := cancelReservations_keeps (completeCancelled_keeps (setCtl_keeps (levelSeen_keeps h)))
     ite_keeps (foldl_keeps (fun _ _ h => hardCancelAt_keeps h) h2) h2)

theorem cancelOrder_keeps {s : State} {c job i : Nat} (h : s.Inv) : OkInv id (cancelOrder s c job i) := by
  unfold cancelOrder
  split
  · next e => exact orderBefore_keeps (checkAccess_keeps h _ e)
  · exact orderBefore_keeps h

theorem cancelWith_keeps {hard : Bool} {a b : Fin 32} {s : State} (h : s.Inv) : OutInv (cancelWith hard a b s) :=
  issue_keeps
    (fun _ _ _ h => .ite .error (.ite .error (.bind (cancelOrder_keeps h) fun _ h1 => .next (cancelLevel_keeps h1))))
    h

theorem invalidate_keeps {s : State} {job : Nat} {a b : Word} (h : s.Inv) : (invalidate s job a b).Inv :=
  State.mk_keeps (foldl_keeps (fun _ _ h => State.modDie_keeps h) h)

theorem execTlbinv_keeps {a b : Fin 32} {s : State} (h : s.Inv) : OutInv (execTlbinv a b s) :=
  issue_keeps
    (fun _ _ _ h =>
      .guard (.guard (.bind (settleTask_keeps h) fun _ h1 =>
            .next (State.dueOnce_keeps (State.modCore_keeps (State.mk_keeps (invalidate_keeps h1)))))))
    h

theorem targetsGone_keeps {s : State} {w : TlbWait} (h : s.Inv) : (targetsGone s w).Inv :=
  have h1 := foldl_keeps (fun _ _ h => releaseBlocks_keeps h) h
  ite_keeps (State.modDie_keeps (State.modDie_keeps (State.mk_keeps h1))) (State.mk_keeps h1)

theorem execTlbinvComplete_keeps {c : CoreId} {s : State} (h : s.Inv) : OutInv (execTlbinvComplete c s) := by
  unfold execTlbinvComplete
  split
  · exact .next h
  · exact .ite (.next (State.modCore_keeps (targetsGone_keeps h))) (.next (State.dueOnce_keeps h))

theorem endDrainFault_keeps {s : State} {e : FbEntry} (h : s.Inv) : (endDrainFault s e).Inv :=
  ite_keeps (endUnit_keeps h) h

theorem flushFaults_keeps {s : State} {die : Nat} (h : s.Inv) : (flushFaults s die).Inv :=
  admitFaults_keeps (foldl_keeps (fun _ _ h => endDrainFault_keeps h)
    (foldl_keeps (fun _ _ h => State.due_keeps h) (State.modDie_keeps h)))

theorem execFbflush_keeps {d : Fin 16} {a : Fin 32} {s : State} (h : s.Inv) : OutInv (execFbflush d a s) :=
  issue_keeps (fun _ _ _ h => .ite .error (putKLater_keeps (flushFaults_keeps h))) h

theorem retryHelpers_keeps {s : State} (h : s.Inv) : (retryHelpers s).Inv :=
  foldl_keeps
    (fun _ _ h =>
      have h1 := ite_keeps (resumeHelper_keeps (ite_keeps (resumeHelper_keeps h) h))
        (ite_keeps (resumeHelper_keeps h) h)
      ite_keeps (State.dueOnce_keeps h1) h1)
    h

theorem execFaultRetry_keeps {die : Fin 2} {entry gen : Nat} {s : State} (h : s.Inv) :
    OutInv (execFaultRetry die entry gen s) :=
  .next (retryHelpers_keeps (retryFault_keeps h))

theorem execGetc_keeps {d : Fin 16} {n : Fin 4096} {s : State} (h : s.Inv) : OutInv (execGetc d n s) := by
  unfold execGetc
  refine issue_keeps (fun _ _ _ h => ?_) h
  refine .ite .error ?_
  split
  · exact .error
  · exact .ite (putKLater_keeps h) (putK_keeps h)

theorem execSetc_keeps {a : Fin 32} {n : Fin 4096} {s : State} (h : s.Inv) : OutInv (execSetc a n s) := by
  unfold execSetc
  refine issue_keeps (fun _ _ _ h => ?_) h
  split
  · exact .error
  · exact .next (State.setCore_keeps h)

theorem execSetcLogBase_keeps {a : Fin 32} {s : State} (h : s.Inv) : OutInv (execSetcLogBase a s) :=
  issue_keeps (fun _ _ _ h => .guard (.guard (.check fun _ => .guard (.next (State.modCore_keeps h))))) h

theorem execSetcTrace_keeps {a : Fin 32} {n : Fin 2} {s : State} (h : s.Inv) : OutInv (execSetcTrace a n s) :=
  issue_keeps (fun _ _ _ h => .ite .error (.ite (.next (State.modCore_keeps h)) .error)) h

theorem execSetcEvRebase_keeps {a : Fin 32} {n : Fin 2} {s : State} (h : s.Inv) : OutInv (execSetcEvRebase a n s) :=
  issue_keeps (fun _ _ _ h => .ite .error (.next (rebase_keeps (State.modEv_keeps h)))) h

theorem execSetcEvSpill_keeps {a : Fin 32} {s : State} (h : s.Inv) : OutInv (execSetcEvSpill a s) :=
  issue_keeps (fun _ _ _ h => .ite .error (.ite .error (.ite .error (.next (State.modEv_keeps h))))) h

theorem execSetcMxMode_keeps {a : Fin 32} {n : Fin 2} {s : State} (h : s.Inv) : OutInv (execSetcMxMode a n s) :=
  issue_keeps (fun _ _ _ h => .ite (.ite .error (.next (State.modMx_keeps h)))
    (.ite .error (.next (State.modMx_keeps h)))) h

/-! ### Ordered accesses, atomics and fences (`Machine/Atomic.lean`) -/

theorem scIssue_keeps {s : State} {c : Nat} {ps : List Piece} {r : ScReq} {dest : Option Nat} (h : s.Inv) :
    OkInv id (scIssue s c ps r dest) :=
  .bind (drainAll_keeps h) fun _ h1 =>
    .next (State.dueOnce_keeps (State.evCount_keeps (State.mk_keeps (ite_keeps (remoteSent_keeps h1) h1))))

theorem scTarget_keeps {s : State} {a : Access} {write : Bool} (h : s.Inv) : OkInv Prod.snd (scTarget s a write) := by
  unfold scTarget
  refine .bind (checkAccess_keeps h) fun ⟨_, _, _⟩ h => ?_
  dsimp only
  split
  · exact .val h
  · exact .check fun _ => .val (ite_keeps (markDirty_keeps h) h)

theorem scPerform_keeps {s : State} {o : ScOp} (h : s.Inv) : OkInv Prod.snd (scPerform s o) := by
  unfold scPerform
  dsimp only
  split
  · exact .bind (readPieces_keeps h) fun _ h => .val h
  · exact .bind (writePieces_keeps h) fun _ h1 => .val (l1dPerformed_keeps (remoteServed_keeps h1))
  · split
    · exact .bind (atomicAt_keeps (remoteUnsent_keeps h)) fun _ h => .val (l1dPerformed_keeps h)
    · exact .val h

theorem scChecked_keeps {s : State} {o : ScOp} (h : s.Inv) : (scChecked s o).Inv :=
  ite_keeps (mirrored_keeps (takeCheck_keeps h)) h

theorem scRun_keeps {fuel : Nat} {s : State} (h : s.Inv) : (scRun fuel s).Inv := by
  match fuel with
  | 0 =>
    exact h
  | fuel + 1 =>
    rw [scRun]
    split
    · exact h
    · dsimp only
      split
      · next e =>
          refine scRun_keeps ?_
          refine scChecked_keeps ?_
          split
          · exact State.due_keeps (State.modCore_keeps (scPerform_keeps (State.mk_keeps h) _ e))
          · exact scPerform_keeps (State.mk_keeps h) _ e
      · exact scRun_keeps (ite_keeps (endUnit_keeps (State.mk_keeps h)) (State.mk_keeps h))
      · exact h

theorem execBeaconWindow_keeps {s : State} (h : s.Inv) : OutInv (execBeaconWindow s) :=
  .next (ite_keeps (scRun_keeps h) (State.dueOnce_keeps (scRun_keeps h)))

theorem execLdAcq_keeps {d : Fin 16} {a : Fin 32} {x : Fin 8} {w : Fin 4} {x' : Fin 2} {s : State} (h : s.Inv) :
    OutInv (execLdAcq d a x w x' s) :=
  issue_keeps (fun _ _ _ h => .bind (loadData_keeps h) fun _ h => putKLater_keeps h) h

theorem execStRel_keeps {a b : Fin 32} {p : Fin 8} {w : Fin 4} {s : State} (h : s.Inv) :
    OutInv (execStRel a b p w s) :=
  issue_keeps (fun _ _ _ h => .check fun _ => storeData_keeps h) h

theorem execLdSc_keeps {d : Fin 16} {a : Fin 32} {p : Fin 8} {w : Fin 4} {x : Fin 2} {s : State} (h : s.Inv) :
    OutInv (execLdSc d a p w x s) :=
  issue_keeps
    (fun _ _ _ h => .bind (scTarget_keeps h) fun _ h => .check fun _ => .bind (putAwaited_keeps h) fun _ h =>
      scIssue_keeps h)
    h

theorem execStSc_keeps {a b : Fin 32} {p : Fin 8} {w : Fin 4} {s : State} (h : s.Inv) : OutInv (execStSc a b p w s) :=
  issue_keeps
    (fun _ _ _ h => .bind (scTarget_keeps h) fun _ h => .check fun _ => scIssue_keeps
      (commit_keeps (l1dInvalidate_keeps h)))
    h

theorem returningAtomic_keeps {op : Nat} {expected : Option Nat} {m d va operand n p o : Nat} {s : State}
    (h : s.Inv) : OkInv id (returningAtomic op expected m d va operand n p o s) := by
  unfold returningAtomic
  extract_lets x acc asked
  have hasked : ∀ s, s.Inv → OkInv id (asked s) := by
    intro s h
    refine .bind (atomicData_keeps h) fun r hr => ?_
    cases r with
    | done old s2 => exact putKLater_keeps hr
    | asked s2 => exact .bind (putAwaited_keeps hr) fun _ h3 => .next (State.modCore_keeps h3)
  refine .ite (.bind (scTarget_keeps h) fun _ h1 => .check fun _ => .bind
    (putAwaited_keeps (commit_keeps (l1dInvalidate_keeps h1))) fun _ h3 => scIssue_keeps h3) ?_
  exact .ite (.check fun _ => .check fun _ => .bind (drainAll_keeps h) hasked) (hasked s h)

theorem amoWith_keeps {op : Nat} {d : Fin 16} {a b : Fin 32} {p : Fin 8} {o : Fin 4} {w : Fin 2} {s : State}
    (h : s.Inv) : OutInv (amoWith op d a b p o w s) :=
  issue_keeps (fun _ _ _ h => returningAtomic_keeps h) h

theorem redWith_keeps {op : Nat} {a b : Fin 32} {x : Fin 8} {w : Fin 2} {s : State} (h : s.Inv) :
    OutInv (redWith op a b x w s) := by
  refine issue_keeps (fun m vs s h => .bind (atomicData_keeps h) fun r hr => ?_) h
  cases r with
  | done old s1 => exact .next hr
  | asked s1 => exact .next hr

theorem execFenceAcq_keeps {x : Fin 8} {s : State} (h : s.Inv) : OutInv (execFenceAcq x s) :=
  issue_keeps (fun _ _ _ h => .ite .error (.next h)) h

theorem prefetch_keeps {s : State} {c va : Nat} (h : s.Inv) : (prefetch s c va).Inv := by
  unfold prefetch
  dsimp only
  split
  · next e =>
    have h1 := checkAccess_keeps h _ e
    refine ite_keeps h1 ?_
    split
    · next e' =>
      have h2 := readSector_keeps h1 _ e'
      exact ite_keeps (requestFill1_keeps h2) h2
    · exact State.meets_keeps h1
    · exact h1
  · exact State.meets_keeps h
  · exact h

theorem execPf_keeps {a : Fin 32} {s : State} (h : s.Inv) : OutInv (execPf a s) :=
  issue_keeps (fun _ _ _ h => .next (prefetch_keeps h)) h

theorem execL1inv_keeps {a b : Fin 32} {s : State} (h : s.Inv) : OutInv (execL1inv a b s) :=
  issue_keeps (fun _ _ _ h => .next (State.setCore_keeps (releaseBlocks_keeps h))) h

theorem dropResult_keeps {s : State} {c seq : Nat} (h : s.Inv) : (dropResult s c seq).Inv :=
  State.modCore_keeps h

theorem swapFull_keeps {s : State} {c : Nat} (h : s.Inv) : (swapFull s c).Inv :=
  State.modCore_keeps h

theorem pushLate_keeps {s : State} {c : Nat} {p : Pending} (h : s.Inv) : OkInv id (pushLate s c p) :=
  .bind (pushStream_keeps (swapFull_keeps h)) fun _ h1 => .next (dropResult_keeps (State.modCore_keeps h1))

theorem writeBehind_keeps {s : State} {c seq : Nat} (h : s.Inv) : (writeBehind s c seq).Inv := by
  unfold writeBehind
  split
  · exact h
  · refine ite_keeps ?_ (mirrored_keeps (State.modCore_keeps h))
    split
    · next e => exact pushLate_keeps h _ e
    · exact h

theorem lateTrap_keeps {s : State} {c : CoreId} {p : Pending} {t : TrapInfo} (h : s.Inv) : (lateTrap s c p t).Inv :=
  ite_keeps (State.dueOnce_keeps (takeTrap_keeps h))
    (ite_keeps (State.dueOnce_keeps (writeBehind_keeps h)) (takeTrap_keeps (giveBack_keeps (dropResult_keeps h))))

theorem execResultWriteback_keeps {c : CoreId} {s : State} (h : s.Inv) : OutInv (execResultWriteback c s) := by
  unfold execResultWriteback
  split
  · exact .next h
  · refine .ite (.next (State.dueOnce_keeps h)) ?_
    refine .ite ?_ (.next (mirrored_keeps (State.modCore_keeps h)))
    split
    · next e => exact .next (pushLate_keeps h _ e)
    · exact .next (State.dueOnce_keeps (swapFull_keeps (applyReqs_keeps (swapFull_keeps h))))
    · exact .next (lateTrap_keeps h)

theorem execStorePerform_keeps {c : CoreId} {i : Nat} {s : State} (h : s.Inv) : OutInv (execStorePerform c i s) := by
  unfold execStorePerform
  dsimp only
  split
  · exact .next h
  · refine .ite ?_ (.next (State.dueOnce_keeps h))
    split
    · next e => exact .next (ite_keeps (performPart_keeps h _ e) (State.due_keeps (performPart_keeps h _ e)))
    · exact .next (takeTrap_keeps h)
    · exact .next (State.dueOnce_keeps (applyReqs_keeps h))

theorem execL1dSectorFill_keeps {c : CoreId} {s : State} (h : s.Inv) : OutInv (execL1dSectorFill c s) := by
  unfold execL1dSectorFill
  split
  · exact .next h
  · exact .next (State.modCore_keeps h)

theorem execOwnershipGrant_keeps {c : CoreId} {s : State} (h : s.Inv) : OutInv (execOwnershipGrant c s) := by
  unfold execOwnershipGrant
  split
  · next e => exact .next (mirrored_keeps (grantOwnership_keeps h _ e))
  · exact .next (takeTrap_keeps (State.modCore_keeps h))
  · exact .next (State.dueOnce_keeps (applyReqs_keeps h))

theorem execRevoke_keeps {c : CoreId} {block : Nat} {byOther : Bool} {s : State} (h : s.Inv) :
    OutInv (execRevoke c block byOther s) :=
  .ite (.next (State.due_keeps (State.mk_keeps (revoked_keeps h)))) (.next h)

/-! ### The stream group (`Machine/Stream.lean`) -/

theorem bindStream_keeps {s : State} {c i d : Nat} (h : s.Inv) : (bindStream s c i d).Inv :=
  State.modStrm_keeps h

theorem execSbind_keeps {i : Fin 8} {b : Fin 32} {s : State} (h : s.Inv) : OutInv (execSbind i b s) :=
  issue_keeps
    (fun _ _ _ h =>
      .bind (loadStruct_keeps h) fun _ h =>
        .guard (.guard (.check fun _ =>
              .bind (unbindStream_keeps h) fun _ h2 =>
                .bind (settleTask_keeps h2) fun _ h3 =>
                  .next (ite_keeps (State.dueOnce_keeps (bindStream_keeps h3)) (bindStream_keeps h3)))))
    h

/-! ### The engine instructions (`Machine/EngineInstr.lean`) -/

theorem execEjob_keeps {a : Fin 32} {s : State} (h : s.Inv) : OutInv (execEjob a s) := by
  unfold execEjob
  refine issue_keeps (fun _ _ _ h => ?_) h
  refine .bind (loadStruct_keeps h) fun ⟨_, _⟩ h => ?_
  refine .check fun _ => ?_
  refine .bind (settleTask_keeps h) fun _ h2 => ?_
  split
  · exact .error
  · next e => exact .next (commit_keeps (submitCard_keeps h2 _ e))

theorem retryCopies_keeps {q : Nat} {l : List (BitVec 512 × CoreId × Bool)} {seen : List Nat} {s : State}
    (h : s.Inv) : (retryCopies q l seen s).Inv := by
  match l, seen with
  | [], _ =>
    exact h
  | (v, c, storer) :: rest, seen =>
    rw [retryCopies]
    refine ite_keeps (retryCopies_keeps (State.modSquare_keeps h)) ?_
    split
    · next e => exact retryCopies_keeps (submitWindow_keeps h _ e)
    · exact retryCopies_keeps (State.modSquare_keeps h)
    · exact retryCopies_keeps (ite_keeps (helperTrap_keeps h) (takeTrap_keeps h))

theorem retryCopyWindow_keeps {s : State} {q : Nat} (h : s.Inv) : (retryCopyWindow s q).Inv :=
  ite_keeps h (retryCopies_keeps (State.modSquare_keeps h))

theorem execCopyQueueWindowStore_keeps {c : CoreId} {byStorer : Bool} {data : BitVec 512} {s : State} (h : s.Inv) :
    OutInv (execCopyQueueWindowStore c byStorer data s) :=
  .ite (.next h) (.next (retryCopyWindow_keeps (State.modSquare_keeps h)))

theorem execEngineJobStart_keeps {c : CoreId} {id : Nat} {s : State} (h : s.Inv) :
    OutInv (execEngineJobStart c id s) :=
  .next (retryCopyWindow_keeps (startJob_keeps h))

theorem execEngineJobComplete_keeps {c : CoreId} {id : Nat} {s : State} (h : s.Inv) :
    OutInv (execEngineJobComplete c id s) :=
  .next (retryCopyWindow_keeps (runJob_keeps h))

theorem execEngineJobFault_keeps {c : CoreId} {id : Nat} {s : State} (h : s.Inv) :
    OutInv (execEngineJobFault c id s) := by
  unfold execEngineJobFault
  split
  · exact .next h
  · split
    · exact .next h
    · exact .next (endJob_keeps h)

/-! ### The tile instructions (`Machine/TileInstr.lean`) -/

theorem configure_keeps {s : State} {c n : Nat} {cfg back : Word} (h : s.Inv) :
    OkInv id (configure s c n cfg back) := by
  unfold configure
  refine .guard ?_
  dsimp only
  split
  · exact .error
  · exact .guard (.ite (.check fun _ => .guard (.guard (.next (State.modTile_keeps h))))
      (.guard (.guard (.next (State.modTile_keeps h)))))

theorem copyRow_keeps {s : State} {c n : Nat} {into : Bool} {base stride : Word} {r : Nat} (h : s.Inv) :
    OkInv id (copyRow s c n into base stride r) :=
  .ite
    (.bind (loadData_keeps h) fun _ h => .bind (orderBefore_keeps h) fun _ h2 => homeWrite_keeps h2)
    (.bind (orderBefore_keeps h) fun _ h1 => .bind (readPiece_keeps h1) fun _ h => storeData_keeps h)

theorem copyRows_keeps {c n : Nat} {into : Bool} {base stride : Word} {fuel : Nat} {s : State} {i : Nat} (h : s.Inv) :
    (copyRows c n into base stride fuel s i).1.Inv := by
  match fuel, i with
  | 0, _ =>
    exact h
  | fuel + 1, i =>
    rw [copyRows]
    split
    · next e => exact copyRows_keeps (copyRow_keeps h _ e)
    · exact h

theorem copyTile_keeps {s : State} {c n : Nat} {into : Bool} {base stride : Word} (h : s.Inv) :
    OkInv id (copyTile s c n into base stride) := by
  unfold copyTile
  split
  · next e => exact .next (ite_keeps (markDirty_keeps (fst_keeps e (copyRows_keeps h)))
      (fst_keeps e (copyRows_keeps h)))
  · exact .error

theorem rowBody_keeps {n : Fin 64} {into : Bool} {n' : Nat} {l : List Vec} {s : State} (h : s.Inv) :
    OkInv id (rowBody n into n' l s) :=
  .check fun _ => .ite (.check fun _ => copyTile_keeps h) (.check fun _ => copyTile_keeps h)

theorem earlierRows_keeps {s : State} {n : Fin 64} {into : Bool} {a b : Fin 32} (h : s.Inv) :
    (earlierRows s n into a b).Inv := by
  unfold earlierRows
  dsimp only
  split
  · split
    · split
      · next e => exact ite_keeps (markDirty_keeps (fst_keeps e (copyRows_keeps h))) (fst_keeps e (copyRows_keeps h))
      · exact h
    · exact h
  · exact h

theorem execTld_keeps {n : Fin 64} {a b : Fin 32} {s : State} (h : s.Inv) : OutInv (execTld n a b s) :=
  issue_keeps (fun _ _ _ h => rowBody_keeps h) (earlierRows_keeps h)

theorem execTst_keeps {n : Fin 64} {a b : Fin 32} {s : State} (h : s.Inv) : OutInv (execTst n a b s) :=
  issue_keeps (fun _ _ _ h => rowBody_keeps h) (earlierRows_keeps h)

theorem execTzero_keeps {n : Fin 64} {s : State} (h : s.Inv) : OutInv (execTzero n s) :=
  issue_keeps
    (fun _ _ _ h =>
      .check fun _ =>
        .check fun _ =>
          .bind (orderBefore_keeps h) fun _ h1 => .bind (homeWrite_keeps h1) fun _ h2 => .next (markDirty_keeps h2))
    h

theorem fetchTile_keeps {s : State} {c n : Nat} (h : s.Inv) : OkInv id (fetchTile s c n) :=
  .check fun _ => .ite (.next h) (.ite (.next (requestKeep_keeps h))
    (.next (tryWanted_keeps (State.modTile_keeps h))))

theorem evictTile_keeps {s : State} {c n : Nat} (h : s.Inv) : OkInv id (evictTile s c n) :=
  .check fun _ => .ite (.next h) (.ite .error (.ite .error (.next (State.modTile_keeps (requestEvict_keeps h)))))

theorem pinTile_keeps {n : Nat} {b : Bool} {n' : Nat} {l : List Vec} {s : State} (h : s.Inv) :
    OkInv id (pinTile n b n' l s) :=
  .check fun _ => .next (State.modTile_keeps h)

theorem execTstat_keeps {n : Fin 64} {sel : Fin 32} {s : State} (h : s.Inv) : OutInv (execTstat n sel s) := by
  unfold execTstat
  refine issue_keeps (fun _ _ _ h => ?_) h
  dsimp only
  split
  · exact putKLater_keeps h
  · exact putKLater_keeps h
  · exact putKLater_keeps h
  · exact .error

theorem execTileFillLastBeat_keeps {c : CoreId} {n : Fin 64} {s : State} (h : s.Inv) :
    OutInv (execTileFillLastBeat c n s) :=
  .next (mirrored_keeps (runFill_keeps h))

theorem execLogApplyEntry_keeps {c : CoreId} {n : Fin 64} {s : State} (h : s.Inv) :
    OutInv (execLogApplyEntry c n s) := by
  unfold execLogApplyEntry
  split
  · next e => exact .next (mirrored_keeps (runApply_keeps h _ e))
  · exact .next (takeTrap_keeps h)
  · exact .next (State.dueOnce_keeps (applyReqs_keeps h))

theorem execTileDrainDone_keeps {c : CoreId} {n : Fin 64} {s : State} (h : s.Inv) :
    OutInv (execTileDrainDone c n s) :=
  .next (mirrored_keeps (runDrain_keeps h))

theorem execTileTransferFault_keeps {c : CoreId} {n : Fin 64} {s : State} (h : s.Inv) :
    OutInv (execTileTransferFault c n s) := by
  unfold execTileTransferFault
  split
  · exact .next (mirrored_keeps (transferFault_keeps h))
  · exact .next h

/-! ### The matrix instructions (`Machine/Matrix.lean`) -/

theorem matrix_keeps {tiles : List Nat} {srcs : List (RegFile × Nat)} {req : Word → MxReq} {s : State} (h : s.Inv) :
    OutInv (matrix tiles srcs req s) :=
  issue_keeps (fun _ _ _ h => mxSubmit_keeps h) h

theorem execMmeta_keeps {sel a : Fin 32} {s : State} (h : s.Inv) : OutInv (execMmeta sel a s) :=
  issue_keeps (fun _ _ _ h => .ite .error (.next (State.modMx_keeps h))) h

theorem execMfence_keeps {s : State} (h : s.Inv) : OutInv (execMfence s) :=
  issue_keeps (fun _ _ _ h => .ite .error (.next h)) h

theorem mirrorSquare_keeps {s : State} {q : Nat} (h : s.Inv) : (mirrorSquare s q).Inv :=
  foldl_keeps (fun _ _ h => mirrored_keeps h) h

theorem execMxeCommandStart_keeps {q : SquareId} {s : State} (h : s.Inv) : OutInv (execMxeCommandStart q s) :=
  .next (mirrorSquare_keeps (startCommand_keeps (foldl_keeps (fun _ _ h => retryWindow_keeps h) h)))

theorem execMxeCommandComplete_keeps {q : SquareId} {s : State} (h : s.Inv) :
    OutInv (execMxeCommandComplete q s) := by
  unfold execMxeCommandComplete
  split
  · next e => exact .next (mirrorSquare_keeps (fst_keeps e (commandDone_keeps h)))
  · next e => exact .next (mirrorSquare_keeps (takeTrap_keeps (fst_keeps e (commandDone_keeps h))))

theorem execMxeQueueWindowStore_keeps {c : CoreId} {byStorer : Bool} {data : BitVec 512} {s : State} (h : s.Inv) :
    OutInv (execMxeQueueWindowStore c byStorer data s) := by
  unfold execMxeQueueWindowStore
  refine .ite (.next h) ?_
  split
  · next e => exact .next (mirrored_keeps (storeCommand_keeps h _ e))
  · exact .next (takeTrap_keeps h)
  · exact .next (applyReqs_keeps h)

/-! ### The coalescer instructions (`Machine/CoalescerInstr.lean`) -/

theorem readTemplate_keeps {s : State} {c va : Nat} (h : s.Inv) : OkInv Prod.snd (readTemplate s c va) := by
  unfold readTemplate
  refine .ite (.val h) ?_
  refine .bind (loadStruct_keeps h) fun ⟨_, _⟩ h => ?_
  dsimp only
  split
  · exact .error
  · exact .val h

theorem armSlot_keeps {s : State} {c i desc templ : Nat} (h : s.Inv) : OkInv id (armSlot s c i desc templ) := by
  unfold armSlot
  refine .bind (loadStruct_keeps h) fun ⟨_, _⟩ h => ?_
  refine .bind (readTemplate_keeps h) fun ⟨_, _⟩ h => ?_
  dsimp only
  split
  · exact .error
  · exact .check fun _ => .check fun _ => .guard
      (.guard (.guard (.guard (.next (commit_keeps (takeTwin_keeps (State.modSlot_keeps h)))))))

theorem disarmSlot_keeps {s : State} {c i : Nat} (h : s.Inv) : OkInv id (disarmSlot s c i) :=
  .ite .error (.next (commit_keeps (ite_keeps (disarm_keeps h) h)))

theorem execCarm_keeps {a b : Fin 32} {i : Fin 8} {s : State} (h : s.Inv) : OutInv (execCarm a b i s) :=
  issue_keeps (fun _ _ _ h => .ite (disarmSlot_keeps h) (armSlot_keeps h)) h

theorem enterQueue_keeps {s : State} {c : Nat} {e : CoEntry} (h : s.Inv) : OkInv id (enterQueue s c e) :=
  .ite .error (.next (commit_keeps (State.dueOnce_keeps (State.modSquare_keeps h))))

theorem execCpush_keeps {a b : Fin 32} {i : Fin 8} {s : State} (h : s.Inv) : OutInv (execCpush a b i s) :=
  issue_keeps (fun _ _ _ h => .check fun _ => .guard (enterQueue_keeps h)) h

theorem execCflush_keeps {i : Fin 8} {s : State} (h : s.Inv) : OutInv (execCflush i s) :=
  issue_keeps (fun _ _ _ h => .check fun _ => enterQueue_keeps h) h

theorem execCoalescerApply_keeps {q : SquareId} {s : State} (h : s.Inv) : OutInv (execCoalescerApply q s) :=
  .next (mirrorSquare_keeps (coStep_keeps h))

theorem execCoalescerTimeout_keeps {q : SquareId} {i : Fin 8} {s : State} (h : s.Inv) :
    OutInv (execCoalescerTimeout q i s) :=
  .next (mirrorSquare_keeps (coTimedOut_keeps h))

theorem execCoalescerTwinReady_keeps {q : SquareId} {i : Fin 8} {s : State} (h : s.Inv) :
    OutInv (execCoalescerTwinReady q i s) :=
  .next (mirrorSquare_keeps (takeTwin_keeps h))

/-! ### The event instructions (`Machine/EventInstr.lean`) -/

theorem execEvpop_keeps {d : Fin 16} {s : State} (h : s.Inv) : OutInv (execEvpop d s) :=
  issue_keeps (fun _ _ _ h => putKLater_keeps (popEvent_keeps (commit_keeps h))) h

theorem sendEvent_keeps {s : State} {c dest slot : Nat} {hdr pay : Word} (h : s.Inv) :
    (sendEvent s c dest slot hdr pay).Inv :=
  receivedAt_keeps (arriveEvent_keeps (sentAt_keeps h))

theorem execEvsend_keeps {a b : Fin 32} {now : Fin 2} {s : State} (h : s.Inv) : OutInv (execEvsend a b now s) :=
  issue_keeps (fun _ _ _ h => .ite .error (.ite .error (.check fun _ => .next (sendEvent_keeps (commit_keeps h))))) h

theorem windowOp_keeps {s : State} {c : Nat} {op value : Word} (h : s.Inv) : OkInv id (windowOp s c op value) := by
  unfold windowOp
  refine .ite .error ?_
  split
  · exact .ite .error (.next (closeNow_keeps h))
  · exact .next (rebase_keeps (State.modEv_keeps h))
  · exact .ite .error (.next (enableSlots_keeps h))

theorem evwin_keeps {a b : Fin 32} {s : State} (h : s.Inv) : OutInv (evwin a b s) :=
  issue_keeps (fun _ _ _ h => windowOp_keeps h) h

theorem execEventArrive_keeps {c : CoreId} {slot : Fin 8} {header payload : BitVec 64} {origin : EventOrigin}
    {s : State} (h : s.Inv) : OutInv (execEventArrive c slot header payload origin s) := by
  unfold execEventArrive
  dsimp only
  split
  · exact .next (receivedAt_keeps (arriveEvent_keeps h))
  · exact .next (arriveEvent_keeps h)

theorem execWindowStaleTimeout_keeps {c : CoreId} {s : State} (h : s.Inv) : OutInv (execWindowStaleTimeout c s) :=
  .ite (.next (closeOne_keeps h)) (.next h)

theorem sendFault_keeps {s : State} {die index : Nat} (h : s.Inv) : (sendFault s die index).Inv := by
  unfold sendFault
  split
  · exact h
  · exact ite_keeps h (ite_keeps (State.modDie_keeps (arriveEvent_keeps h))
      (State.dueOnce_keeps (arriveEvent_keeps h)))

/-! ### The task instructions (`Machine/TaskInstr.lean`) -/

theorem halfReceives_keeps {s : State} {die job : Nat} (h : s.Inv) : (halfReceives s die job).Inv :=
  State.modDie_keeps h

theorem spawnAt_keeps {s : State} {c job ka v : Nat} (h : s.Inv) : (spawnAt s c job ka v).Inv :=
  placeAt_keeps h

theorem execSpawn_keeps {a : Fin 32} {s : State} (h : s.Inv) : OutInv (execSpawn a s) :=
  issue_keeps
    (fun _ _ _ h =>
      .check fun _ =>
        .bind (loadStruct_keeps h) fun _ h =>
          .guard (.bind (settleTask_keeps h) fun _ h2 =>
              .next (halfReceives_keeps (spawnAt_keeps (sentAt_keeps (commit_keeps h2))))))
    h

theorem execDec_keeps {a : Fin 32} {s : State} (h : s.Inv) : OutInv (execDec a s) :=
  issue_keeps
    (fun _ _ _ h =>
      .check fun _ =>
        .bind (checkAccess_keeps h) fun _ h =>
          .bind (settleTask_keeps h) fun _ h2 => decRecord_keeps (revoked_keeps (commit_keeps h2)))
    h

theorem openQueue_keeps {s : State} {c va : Nat} (h : s.Inv) : OkInv Prod.snd (openQueue s c va) :=
  .check fun _ => .bind (loadStruct_keeps h) fun _ h => .guard (.bind (checkAccess_keeps h) fun _ h => .val h)

theorem deschedule_keeps {s : State} {c va : Nat} (h : s.Inv) : (deschedule s c va).Inv :=
  ite_keeps h (State.dueOnce_keeps (State.modCore_keeps h))

theorem releaseHolds_keeps {s : State} {job va : Nat} (h : s.Inv) : (releaseHolds s job va).Inv :=
  State.dueOnce_keeps (State.dueOnce_keeps (State.mk_keeps h))

theorem ringOrder_keeps {s : State} {c va loc : Nat} {kind : AccessKind} (h : s.Inv) :
    OkInv id (ringOrder s c va loc kind) := by
  unfold ringOrder
  dsimp only
  split
  · next e => exact orderBefore_keeps (checkAccess_keeps h _ e)
  · exact .next h

theorem pushEntry_keeps {s : State} {c va data : Nat} (h : s.Inv) : OkInv Prod.snd (pushEntry s c va data) :=
  .bind (openQueue_keeps h) fun _ h =>
    .bind (ringOrder_keeps h) fun _ h1 =>
      .bind (queuePush_keeps (receivedAt_keeps (sentAt_keeps (commit_keeps h1)))) fun _ h =>
        .val (ite_keeps (deschedule_keeps h) h)

theorem popEntry_keeps {s : State} {c va : Nat} (h : s.Inv) : OkInv Prod.snd (popEntry s c va) :=
  .bind (openQueue_keeps h) fun _ h =>
    .bind (ringOrder_keeps h) fun _ h1 =>
      .bind (queuePop_keeps (commit_keeps h1)) fun _ h => .val (ite_keeps (releaseHolds_keeps h) h)

theorem ringCommit_keeps {g : Sig} {body : Body} {s : State} (_ : ∀ a0 a1 a2, a2.Inv → OkInv id (body a0 a1 a2))
    (h : s.Inv) : (ringCommit g body s).Inv := by
  unfold ringCommit
  dsimp only
  split
  · split
    · split
      · exact commit_keeps h
      · exact h
    · exact h
  · exact h

theorem execQpush_keeps {d : Fin 16} {a b : Fin 32} {s : State} (h : s.Inv) : OutInv (execQpush d a b s) :=
  issue_keeps
    (fun _ _ _ h => .bind (pushEntry_keeps h) fun _ h => putKLater_keeps h)
    (ringCommit_keeps (fun _ _ _ h => .bind (pushEntry_keeps h) fun _ h => putKLater_keeps h) h)

theorem execQpop_keeps {d : Fin 16} {a : Fin 32} {s : State} (h : s.Inv) : OutInv (execQpop d a s) :=
  issue_keeps
    (fun _ _ _ h => .bind (popEntry_keeps h) fun _ h => putVariable_keeps h)
    (ringCommit_keeps (fun _ _ _ h => .bind (popEntry_keeps h) fun _ h => putVariable_keeps h) h)

/-! ### The steps of the distributor (`Machine/Distributor.lean`) -/

theorem execSelectionRound_keeps {die : Fin 2} {s : State} (h : s.Inv) : OutInv (execSelectionRound die s) :=
  .next (ite_keeps (State.dueOnce_keeps (selectionStep_keeps h)) (selectionStep_keeps h))

theorem execTaskBind_keeps {c : CoreId} {s : State} (h : s.Inv) : OutInv (execTaskBind c s) :=
  .next (ite_keeps (State.dueOnce_keeps (bindTask_keeps h)) (bindTask_keeps h))

/-! ### The steps of the hardware (`Machine/Hardware.lean`) -/

theorem execParityLand_keeps {c : CoreId} {g : Fin 4} {s : State} (h : s.Inv) : OutInv (execParityLand c g s) :=
  .next (ite_keeps (State.dueOnce_keeps (landParity_keeps h)) (landParity_keeps h))

theorem scrubRetire_keeps {s : State} {c b : Nat} (h : s.Inv) : (scrubRetire s c b).Inv :=
  ite_keeps h (State.dueOnce_keeps (State.modCore_keeps h))

theorem scrubParity_keeps {s : State} {c g w : Nat} (h : s.Inv) : (scrubParity s c g w).Inv := by
  unfold scrubParity
  exact ite_keeps h (telemetry_keeps (State.write_keeps _ _ _ _ h))

theorem scrubLane_keeps {s : State} {c i : Nat} (h : s.Inv) : (scrubLane s c i).Inv :=
  foldl_keeps (fun _ _ h => ite_keeps (eccRecord_keeps (unitMended_keeps h)) h) h

theorem scrubStep_keeps {s0 : State} {c : Nat} (h0 : s0.Inv) : (scrubStep s0 c).Inv :=
  ite_keeps h0
    (have h3 := foldl_keeps (fun _ _ h => scrubRetire_keeps h)
      (foldl_keeps (fun _ _ h => ite_keeps (countError_keeps (rowMended_keeps h)) h) (landGroup_keeps h0))
     State.modCore_keeps (scrubLane_keeps (ite_keeps (scrubParity_keeps h3) h3)))

theorem execBankRetire_keeps {c : CoreId} {bank : Fin 20} {s : State} (h : s.Inv) :
    OutInv (execBankRetire c bank s) := by
  unfold execBankRetire
  split
  · exact .next (retireBank_keeps h)
  · exact .next h

theorem sqmScrub_keeps {s : State} {u : ScrubUnit} (h : s.Inv) : (sqmScrub s u).Inv := by
  unfold sqmScrub
  split
  · split
    · exact h
    · exact have h1 := eccRecord_keeps (unitMended_keeps h)
        ite_keeps h1 (State.mk_keeps h1)

theorem execSquareClearDone_keeps {q : SquareId} {s : State} (h : s.Inv) : OutInv (execSquareClearDone q s) :=
  .ite (.next (State.dueOnce_keeps (clearSquare_keeps h))) (.next h)

theorem clearSegment_keeps {s : State} {die seg : Nat} (h : s.Inv) : (clearSegment s die seg).Inv :=
  State.modDie_keeps (State.clearRange_keeps _ _ _ h)

theorem execCspClearDone_keeps {die : Fin 2} {seg : Fin 32} {s : State} (h : s.Inv) :
    OutInv (execCspClearDone die seg s) :=
  .ite (.next (clearSegment_keeps h)) (.next h)

theorem retryRecordsHeld_keeps {die : Nat} {s : State} {stay l : List TrapRec} (h : s.Inv) :
    (retryRecordsHeld die s stay l).Inv := by
  match stay, l with
  | _, [] =>
    exact h
  | stay, r :: rest =>
    rw [retryRecordsHeld]
    refine ite_keeps (retryRecordsHeld_keeps h) ?_
    split
    · next e => exact retryRecordsHeld_keeps (State.modDie_keeps (snd_keeps e (trqPush_keeps h)))
    · next e => exact retryRecordsHeld_keeps (snd_keeps e (trqPush_keeps h))

theorem execTrqRetry_keeps {die : Fin 2} {s : State} (h : s.Inv) : OutInv (execTrqRetry die s) :=
  .next (ite_keeps (retryRecordsHeld_keeps h) (State.dueOnce_keeps (retryRecordsHeld_keeps h)))

theorem execWatchdog_keeps {c : CoreId} {s : State} (h : s.Inv) : OutInv (execWatchdog c s) :=
  .ite (.next (endUnit_keeps h)) (.next h)

theorem execRegisterWrite_keeps {address value : BitVec 64} {s : State} (h : s.Inv) :
    OutInv (execRegisterWrite address value s) := by
  unfold execRegisterWrite
  split
  · exact .ite (.next (writeDevReg_keeps h)) (.next h)
  · exact .next h

/-! ### The helpers (`Machine/Helper.lean`) -/

theorem helperIssue_keeps {len : Nat} {body : Nat → Bool → State → Res HelperStep} {s : State}
    (hbody : ∀ c storer s, s.Inv → OkInv HelperStep.after (body c storer s)) (h : s.Inv) :
    OutInv (helperIssue len body s) := by
  unfold helperIssue
  refine .ite .fault ?_
  split
  · next e => exact .next (State.modCore_keeps (State.modHelper_keeps (hbody _ _ _ h _ e)))
  · exact .next (helperTrap_keeps h)
  · exact .next (applyReqs_keeps h)

theorem HelperStep.on_keeps {s : State} (h : s.Inv) : (HelperStep.on s).after.Inv :=
  h

theorem helperPut_keeps {s : State} {c : Nat} {storer : Bool} {r v : Nat} (h : s.Inv) :
    (helperPut s c storer r v).after.Inv :=
  HelperStep.on_keeps (State.modHelper_keeps h)

theorem dataCheck_keeps {s : State} {c : Nat} {storer : Bool} {addr len : Nat} {write : Bool} (h : s.Inv) :
    OkInv id (dataCheck s c storer addr len write) :=
  .guard (.guard (portCheck_keeps h))

theorem rvStep_keeps {len : Nat} {op : Rv.Op} {c : Nat} {storer : Bool} {s : State} (h : s.Inv) :
    OkInv HelperStep.after (rvStep len op c storer s) := by
  cases op with
  | load => exact .bind (dataCheck_keeps h) fun _ h => .ok (helperPut_keeps h)
  | store => exact .bind (dataCheck_keeps h) fun _ h => .ok (HelperStep.on_keeps (State.write_keeps _ _ _ _ h))
  | branch => exact .ok h
  | lui | auipc | jal | jalr | aluImm | alu => exact .ok (State.modHelper_keeps h)

theorem execHelperRv32Instr_keeps {compressed : Bool} {op : Rv.Op} {s : State} (h : s.Inv) :
    OutInv (execHelperRv32Instr compressed op s) :=
  helperIssue_keeps (fun _ _ _ h => rvStep_keeps h) h

theorem execHelperFence_keeps {s : State} (h : s.Inv) : OutInv (execHelperFence s) :=
  helperIssue_keeps (fun _ _ _ h => .check fun _ => .guard (.ok (HelperStep.on_keeps h))) h

theorem execHelperEbreak_keeps {compressed : Bool} {s : State} (h : s.Inv) : OutInv (execHelperEbreak compressed s) :=
  helperIssue_keeps (fun _ _ _ _ => .error) h

theorem execYlLdFifo_keeps {n : Fin 8} {x : Fin 4} {r : Fin 32} {s : State} (h : s.Inv) :
    OutInv (execYlLdFifo n x r s) :=
  helperIssue_keeps (fun _ _ _ h => .check fun _ => .check fun _ => .guard
    (.bind (checkAccess_keeps h) fun _ h => .ok (HelperStep.on_keeps
      (State.dueOnce_keeps (State.modHelper_keeps h))))) h

theorem execYlLdReg_keeps {x : Fin 4} {r d : Fin 32} {s : State} (h : s.Inv) : OutInv (execYlLdReg x r d s) :=
  helperIssue_keeps (fun _ _ _ h => .check fun _ => .bind (helperLoad_keeps h) fun _ h => .ok (helperPut_keeps h)) h

theorem execYlPush_keeps {n : Fin 8} {r : Fin 32} {s : State} (h : s.Inv) : OutInv (execYlPush n r s) :=
  helperIssue_keeps (fun _ _ _ h => .check fun _ => .check fun _ => .check fun _ => .guard
    (.ite (.ok (HelperStep.on_keeps (State.modHelper_keeps (State.modStrm_keeps h))))
      (.ok (HelperStep.on_keeps (State.modStrm_keeps h))))) h

theorem execYlBase_keeps {b : Fin 4} {t r : Fin 32} {s : State} (h : s.Inv) : OutInv (execYlBase b t r s) :=
  helperIssue_keeps (fun _ _ _ h => .ok (HelperStep.on_keeps (State.modHelper_keeps h))) h

theorem execYlWait_keeps {n : Fin 8} {d : Fin 32} {s : State} (h : s.Inv) : OutInv (execYlWait n d s) :=
  helperIssue_keeps (fun _ _ _ h => .check fun _ => .ite (.ok (helperPut_keeps h)) .error) h

theorem execYlEnd_keeps {f : Fin 2} {n : Fin 8} {s : State} (h : s.Inv) : OutInv (execYlEnd f n s) :=
  helperIssue_keeps (fun _ _ _ h => .check fun _ => .guard
    (.ok (HelperStep.on_keeps (ite_keeps (State.modHelper_keeps (State.modStrm_keeps h)) (State.modStrm_keeps h))))) h

theorem execYlPop_keeps {n : Fin 8} {d : Fin 32} {s : State} (h : s.Inv) : OutInv (execYlPop n d s) := by
  refine helperIssue_keeps (fun _ _ _ h => .check fun _ => .check fun _ => ?_) h
  split
  · exact .ite (.ok (helperPut_keeps h)) .error
  · exact .ok (helperPut_keeps (State.modStrm_keeps h))

theorem execYlSt_keeps {n : Fin 8} {x : Fin 4} {r : Fin 32} {s : State} (h : s.Inv) : OutInv (execYlSt n x r s) := by
  refine helperIssue_keeps (fun _ _ _ h => .check fun _ => .check fun _ => ?_) h
  split
  · exact .ite (.ok (HelperStep.on_keeps h)) .error
  · exact .bind (storeHelper_keeps h) fun _ h => .ok (HelperStep.on_keeps (State.modStrm_keeps h))

theorem trapHere_keeps {t : TrapInfo} {s : State} (h : s.Inv) : OutInv (trapHere t s) :=
  .ite (.ite (.next (mirrored_keeps (trapAtIssue_keeps h h))) .fault) (helperIssue_keeps (fun _ _ _ _ => .error) h)

theorem execInstructionFetchFault_keeps {s : State} (h : s.Inv) : OutInv (execInstructionFetchFault s) := by
  unfold execInstructionFetchFault
  split
  · exact trapHere_keeps h
  · exact .next h

/-! ### Hints (`Machine/Hint.lean`) -/

theorem passHint_keeps {kind payload : Nat} {s : State} (h : s.Inv) : OutInv (passHint kind payload s) :=
  .ite (.next (mirrored_keeps (foldl_keeps (fun _ _ h => State.modCore_keeps h) h))) .fault

/-! ### The host and the outside world (`Machine/Host.lean`) -/

theorem transmit_keeps {s : State} {conn : Nat} {o : HostOut} (h : s.Inv) : (transmit s conn o).Inv :=
  transmitAt_keeps h

theorem dropFrame_keeps {s : State} (h : s.Inv) : (dropFrame s).Inv :=
  State.mk_keeps h

theorem metered_keeps {s : State} {n cir size : Nat} (h : s.Inv) : (metered s n cir size).2.Inv := by
  unfold metered
  split
  · exact h
  · exact State.mk_keeps h

theorem deliverFrame_keeps {s : State} {n : Nat} {rtb : Word} {events : List (Word × Word)} (h : s.Inv) :
    (deliverFrame s n rtb events).Inv :=
  foldl_keeps (fun _ _ h => arriveEvent_keeps h) h

theorem rememberFrame_keeps {s : State} {n : Nat} {rtb : Word} {seq : Nat} (h : s.Inv) :
    (rememberFrame s n rtb seq).Inv :=
  ite_keeps (State.mk_keeps h) h

theorem execEthFrameReceive_keeps {f : EthFrame} {s : State} (h : s.Inv) : OutInv (execEthFrameReceive f s) := by
  unfold execEthFrameReceive
  refine .ite (.next h) ?_
  split
  · exact .next (dropFrame_keeps h)
  · exact .ite (.next (State.mk_keeps h)) (.ite (.next (dropFrame_keeps (rememberFrame_keeps h)))
      (.next (ite_keeps (deliverFrame_keeps (metered_keeps (rememberFrame_keeps h)))
      (dropFrame_keeps (metered_keeps (rememberFrame_keeps h))))))

theorem hostRequest_keeps {conn : Nat} {i : HostReq} {s : State} {f : State → Res State} (h : s.Inv)
    (hf : ∀ s, s.Inv → OkInv id (f s)) : OutInv (hostRequest conn i s f) := by
  unfold hostRequest
  extract_lets mine others eth s0 s1
  have h0 : s0.Inv := ite_keeps (State.mk_keeps h) h
  have h1 : s1.Inv := by
    unfold s1
    split
    · exact connSeen_keeps h0
    · exact h0
  refine .ite (.next (State.mk_keeps h)) ?_
  split
  · next e => exact .next (hf _ h1 _ e)
  · exact .next (State.mk_keeps h1)
  · exact .next (transmit_keeps h1)

theorem execRoceWrite_keeps {conn : Nat} {rkey : BitVec 32} {va : BitVec 64} {data : List (BitVec 8)} {s : State}
    (h : s.Inv) : OutInv (execRoceWrite conn rkey va data s) :=
  hostRequest_keeps h fun _ h =>
    .check fun _ =>
      .ite
        (.check fun _ => .bind (writeRange_keeps h) fun _ h1 => .next (transmit_keeps h1))
        (.bind (writeRange_keeps h) fun _ h1 => .next (transmit_keeps h1))

theorem execRoceRead_keeps {conn : Nat} {rkey : BitVec 32} {va : BitVec 64} {len : Nat} {s : State} (h : s.Inv) :
    OutInv (execRoceRead conn rkey va len s) :=
  hostRequest_keeps h fun _ h =>
    .check fun _ =>
      .ite
        (.check fun _ => .bind (readRange_keeps h) fun _ h => .next (transmit_keeps h))
        (.bind (readRange_keeps h) fun _ h => .next (transmit_keeps h))

theorem hostAtomic_keeps {s : State} {k : Conn} {va : Nat} {o : AtomicOp} (h : s.Inv) :
    OkInv Prod.snd (hostAtomic s k va o) := by
  unfold hostAtomic
  refine .ite ?_ ?_
  · refine .check fun _ => ?_
    refine .bind (checkAccess_keeps h) fun ⟨_, _, _⟩ h => ?_
    dsimp only
    split
    · exact .ite (atomicAt_keeps h) .error
    · exact .error
  · refine .bind (checkAccess_keeps h) fun ⟨_, _, _⟩ h => ?_
    dsimp only
    split
    · exact .ite (atomicAt_keeps h) .error
    · exact .error

theorem roceAtomic_keeps {conn : Nat} {rkey : BitVec 32} {va : BitVec 64} {o : AtomicOp} {i : HostReq} {s : State}
    (h : s.Inv) : OutInv (roceAtomic conn rkey va o i s) :=
  hostRequest_keeps h fun _ h => .check fun _ => .bind (hostAtomic_keeps h) fun _ h => .next (transmit_keeps h)

theorem execRoceUnsupportedRequest_keeps {conn : Nat} {s : State} (h : s.Inv) :
    OutInv (execRoceUnsupportedRequest conn s) :=
  hostRequest_keeps h fun _ _ => .error

theorem frameRecord_keeps {s : State} {k : Conn} {ka : Nat} (h : s.Inv) : OkInv Prod.snd (frameRecord s k ka) :=
  .check fun _ => .bind (readRange_keeps h) fun _ h => .guard (.val h)

theorem hostPlace_keeps {s : State} {c job ka v : Nat} (h : s.Inv) : (hostPlace s c job ka v).Inv :=
  placeAt_keeps h

theorem execPlace_keeps {conn : Nat} {va : BitVec 64} {s : State} (h : s.Inv) : OutInv (execPlace conn va s) :=
  hostRequest_keeps h fun _ h =>
    .check fun _ => .check fun _ => .bind (frameRecord_keeps h) fun _ h => .next (transmit_keeps (hostPlace_keeps h))

theorem hostDecAt_keeps {s : State} {k : Conn} {c ka : Nat} (h : s.Inv) : OkInv id (hostDecAt s k c ka) :=
  .bind (frameRecord_keeps h) fun _ h => .bind (checkAccess_keeps h) fun _ h => decRecord_keeps h

theorem execHostDec_keeps {conn : Nat} {va : BitVec 64} {s : State} (h : s.Inv) : OutInv (execHostDec conn va s) :=
  hostRequest_keeps h fun _ h =>
    .check fun _ => .check fun _ => .bind (hostDecAt_keeps h) fun _ h1 => .next (transmit_keeps h1)

theorem hostCancelWith_keeps {hard : Bool} {conn : Nat} {level : BitVec 64} {s : State} (h : s.Inv) :
    OutInv (hostCancelWith hard conn level s) :=
  hostRequest_keeps h fun _ h =>
    .check fun _ =>
      .ite (.check fun _ => .next (transmit_keeps (cancelLevel_keeps h)))
        (.next (transmit_keeps (cancelLevel_keeps h)))

theorem haltDevice_keeps {s : State} (h : s.Inv) : (haltDevice s).Inv :=
  State.mk_keeps h

theorem eraseKeys_keeps {s : State} (h : s.Inv) : (eraseKeys s).Inv :=
  State.mk_keeps h

theorem raiseAlarm_keeps {s : State} {x : AlarmSource} (h : s.Inv) : (raiseAlarm s x).Inv := by
  unfold raiseAlarm
  dsimp only
  split
  · exact telemetry_keeps h
  · exact haltDevice_keeps (telemetry_keeps h)
  · exact eraseKeys_keeps (telemetry_keeps h)
  · exact State.mk_keeps (haltDevice_keeps (eraseKeys_keeps (telemetry_keeps h)))

theorem execDebugUnlockFail_keeps {s : State} (h : s.Inv) : OutInv (execDebugUnlockFail s) :=
  .next (ite_keeps (raiseAlarm_keeps (State.mk_keeps h)) (State.mk_keeps h))

theorem execUcieModuleFail_keeps {s : State} (h : s.Inv) : OutInv (execUcieModuleFail s) :=
  .ite (.next h)
    (have h1 := telemetry_keeps (State.mk_keeps h)
     .next (ite_keeps (raiseAlarm_keeps h1) h1))

theorem bootWith_keeps {s : State} {image : List Byte} (h : s.Inv) : (bootWith s image).Inv :=
  ite_keeps (State.mk_keeps h) (State.mk_keeps h)

theorem execColdReset_keeps {flash : List (BitVec 8)} {s : State} (_ : s.Inv) : OutInv (execColdReset flash s) :=
  .next (bootWith_keeps (State.mk_keeps State.reset_keeps))

theorem execBootTransferEnd_keeps {s : State} (h : s.Inv) : OutInv (execBootTransferEnd s) :=
  .ite (.next (bootWith_keeps h)) (.next h)

theorem execBootDatagram_keeps {offset : Nat} {data : List (BitVec 8)} {s : State} (h : s.Inv) :
    OutInv (execBootDatagram offset data s) :=
  .ite (.next h) (.ite (execBootTransferEnd_keeps h) (.next (State.mk_keeps h)))

theorem writeReport_keeps {s : State} {va : Nat} (h : s.Inv) : OkInv id (writeReport s va) :=
  .check fun _ => .bind (readRange_keeps h) fun _ h => writeRange_keeps (State.mk_keeps h)

theorem execAttestationReportDone_keeps {s : State} (h : s.Inv) : OutInv (execAttestationReportDone s) := by
  unfold execAttestationReportDone
  split
  · exact .next h
  · dsimp only
    split
    · next e => exact .next (State.mk_keeps (writeReport_keeps (State.mk_keeps h) _ e))
    · exact .next (State.mk_keeps h)

/-! ### The power manager (`Machine/Power.lean`) -/

theorem setTarget_keeps {s : State} {q : Nat} (h : s.Inv) : (setTarget s q).Inv :=
  ite_keeps h (State.modSquare_keeps h)

theorem railStep_keeps {s : State} {d : Nat} (h : s.Inv) : (railStep s d).Inv := by
  unfold railStep
  dsimp only
  split
  · exact ite_keeps (State.dueOnce_keeps h) h
  · exact have h1 := State.modDistrict_keeps (State.districtCount_keeps h)
      ite_keeps (State.dueOnce_keeps h1) h1

theorem execRailSettle_keeps {district : Fin 8} {s : State} (h : s.Inv) : OutInv (execRailSettle district s) :=
  .ite (.next h) (.next (foldl_keeps (fun _ _ h => ite_keeps (State.modSquare_keeps h) h) h))

theorem setMin_keeps {s : State} {q m : Nat} (h : s.Inv) : (setMin s q m).Inv :=
  State.modMxe_keeps h

theorem lowerSquare_keeps {s : State} {q : Nat} (h : s.Inv) : (lowerSquare s q).Inv :=
  ite_keeps (setMin_keeps h) (State.modSquare_keeps h)

theorem releaseSquares_keeps {s : State} (h : s.Inv) : (releaseSquares s).Inv :=
  foldl_keeps (fun _ _ h => ite_keeps (setMin_keeps h) (ite_keeps (State.modSquare_keeps h) h)) h

theorem capStep_keeps {s : State} (h : s.Inv) : (capStep s).Inv := by
  unfold capStep
  extract_lets n l mean s1
  have h1 : s1.Inv := State.mk_keeps (State.fresh_keeps h)
  refine ite_keeps ?_ (ite_keeps (releaseSquares_keeps h1) h1)
  split
  · exact lowerSquare_keeps h1
  · exact h1

theorem execForecastTick_keeps {s : State} (h : s.Inv) : OutInv (execForecastTick s) :=
  .next (foldl_keeps (fun _ _ h => railStep_keeps h)
    (foldl_keeps (fun _ _ h => setTarget_keeps h) (capStep_keeps (forecastStep_keeps h))))

theorem chargeEnergy_keeps {s : State} {c : Nat} (h : s.Inv) : (chargeEnergy s c).Inv :=
  State.modCore_keeps (foldl_keeps (fun _ _ h => State.modJob_keeps h) h)

theorem execNrgUpdate_keeps {s : State} (h : s.Inv) : OutInv (execNrgUpdate s) :=
  .next (foldl_keeps (fun _ _ h => chargeEnergy_keeps h) h)

theorem execThermalThreshold_keeps {sensor : Fin 256} {celsius : Int} {s : State} (h : s.Inv) :
    OutInv (execThermalThreshold sensor celsius s) :=
  .ite (.next (telemetry_keeps (State.mk_keeps h))) (.ite (.next (telemetry_keeps (State.mk_keeps h))) (.next h))

/-! ### Scalar instructions (`Machine/Scalar.lean`) -/

theorem scalar2_keeps {lat : Nat} {f : Nat → Nat → Nat → Nat} {d : Fin 16} {a b : Fin 32} {w : Fin 4} {s : State}
    (h : s.Inv) : OutInv (scalar2 lat f d a b w s) :=
  issue_keeps (fun _ _ _ h => putK_keeps h) h

theorem scalar1_keeps {f : Nat → Nat → Nat} {d : Fin 16} {a : Fin 32} {w : Fin 4} {s : State} (h : s.Inv) :
    OutInv (scalar1 f d a w s) :=
  issue_keeps (fun _ _ _ h => putK_keeps h) h

theorem takeDivider_keeps {s : State} {c n : Nat} (h : s.Inv) : (takeDivider s c n).Inv :=
  State.modCore_keeps h

theorem scalarDiv_keeps {f : Nat → Nat → Nat → Nat} {d : Fin 16} {a b : Fin 32} {w : Fin 4} {s : State} (h : s.Inv) :
    OutInv (scalarDiv f d a b w s) :=
  issue_keeps (fun _ _ _ h => putKLater_keeps (takeDivider_keeps h)) h

theorem scalarCmp_keeps {code : Nat} {d : Fin 16} {a b : Fin 32} {w : Fin 4} {s : State} (h : s.Inv) :
    OutInv (scalarCmp code d a b w s) :=
  issue_keeps (fun _ _ _ h => putK_keeps h) h

theorem scalarImm_keeps {signed : Bool} {f : Nat → Nat → Nat} {d : Fin 16} {a : Fin 32} {i : Fin 65536} {s : State}
    (h : s.Inv) : OutInv (scalarImm signed f d a i s) :=
  issue_keeps (fun _ _ _ h => putK_keeps h) h

theorem scalarShift_keeps {f : Nat → Nat → Nat → Nat} {d : Fin 16} {a : Fin 32} {w : Fin 2} {sh : Fin 64}
    {s : State} (h : s.Inv) : OutInv (scalarShift f d a w sh s) :=
  issue_keeps (fun _ _ _ h => putK_keeps h) h

/-! ### Every instruction (`Machine/Dispatch.lean`) -/

theorem exec_keeps {i : Instr} {s : State} (h : s.Inv) : OutInv (exec i s) := by
  unfold exec
  cases i with
  | add | sub | and | or | xor | andn | orn | sll | srl | sra | rol | ror | min | max | minz | maxz | addx2 | addx4
    | addx8 | addx16 | clmul | clmulh | mul | mulh | mulhz | mulhsz => exact scalar2_keeps h
  | clz | ctz | pop | brev | bswap | sextb | sexth | sextw | zextb | zexth | zextw | neg | not | mov =>
    exact scalar1_keeps h
  | div | divz | rem | remz => exact scalarDiv_keeps h
  | seq | sne | slt | sge | slo | shs => exact scalarCmp_keeps h
  | sel | bfx | bfxs | bfi | cmpi | li | vext => exact issue_keeps (fun _ _ _ h => putK_keeps h) h
  | addi | andi | ori | xori => exact scalarImm_keeps h
  | slli | srli | srai | roli => exact scalarShift_keeps h
  | getc => exact execGetc_keeps h
  | setc => exact execSetc_keeps h
  | setcLogBase => exact execSetcLogBase_keeps h
  | setcTrace => exact execSetcTrace_keeps h
  | setcEvRebase => exact execSetcEvRebase_keeps h
  | setcEvSpill => exact execSetcEvSpill_keeps h
  | setcMxMode => exact execSetcMxMode_keeps h
  | br => exact execBr_keeps h
  | jmp => exact execJmp_keeps h
  | call => exact execCall_keeps h
  | jr => exact issue_keeps (fun _ _ _ h => registerJump_keeps h) h
  | callr => exact execCallr_keeps h
  | lnest => exact execLnest_keeps h
  | lnext => exact execLnext_keeps h
  | rep => exact execRep_keeps h
  | repw => exact execRepw_keeps h
  | wait => exact execWait_keeps h
  | done | halt => exact beginEnd_keeps h
  | yield => exact execYield_keeps h
  | trap => exact execTrap_keeps h
  | brk => exact execBrk_keeps h
  | eret => exact execEret_keeps h
  | chk => exact execChk_keeps h
  | nop => exact execNop_keeps h
  | cancel | cancelh => exact cancelWith_keeps h
  | tlbinv => exact execTlbinv_keeps h
  | fbflush => exact execFbflush_keeps h
  | ld => exact execLd_keeps h
  | st | stx | vst => exact issue_keeps (fun _ _ _ h => storeData_keeps h) h
  | ldx => exact execLdx_keeps h
  | ldAcq => exact execLdAcq_keeps h
  | stRel => exact execStRel_keeps h
  | ldSc => exact execLdSc_keeps h
  | stSc => exact execStSc_keeps h
  | amoAdd | amoAnd | amoOr | amoXor | amoMin | amoMax | amoMinz | amoMaxz | amoSwap | amoFadd | amoIncw =>
    exact amoWith_keeps h
  | redAdd | redAnd | redOr | redXor | redMin | redMax | redMinz | redMaxz | redSwap | redFadd =>
    exact redWith_keeps h
  | cas => exact issue_keeps (fun _ _ _ h => returningAtomic_keeps h) h
  | fenceAcq => exact execFenceAcq_keeps h
  | fenceRel | fenceFull => exact issue_keeps (fun _ _ _ h => settleTask_keeps h) h
  | pf => exact execPf_keeps h
  | l1inv => exact execL1inv_keeps h
  | sbind => exact execSbind_keeps h
  | sunbind => exact issue_keeps (fun _ _ _ h => unbindStream_keeps h) h
  | sstat | evpay | evstat => exact issue_keeps (fun _ _ _ h => putKLater_keeps h) h
  | ejob => exact execEjob_keeps h
  | vaddFp | vsubFp | vmulFp => exact floatBinary_keeps h
  | vmlaFp | vmlsFp => exact floatFused_keeps h
  | vminFp | vmaxFp => exact vecBinary_keeps h
  | vabsFp => exact execVabsFp_keeps h
  | vnegFp => exact execVnegFp_keeps h
  | vdiv => exact execVdiv_keeps h
  | vsqrt => exact execVsqrt_keeps h
  | vrcp | vrsq => exact vecUnary_keeps h
  | vaddInt | vsubInt | vmulInt => exact vecInt_keeps h
  | vmlaInt => exact vecAccumulate_keeps h
  | vminInt | vmaxInt | vminz | vmaxz | vadds | vsubs | vaddsz | vsubsz | vmulh | vdot4 | vdot4z | vclmul | vclmulh
    | vand | vor | vxor | vandn | vshl | vshr | vsra => exact vecPlain_keeps h
  | vabsInt | vnegInt | vnot | vpopc | vclz | vshli | vshri | vsrai | vmov => exact vecPlain1_keeps h
  | veq | vne | vlt | vge | vlo | vhs => exact intCompare_keeps h
  | vfeq | vflt | vfle | vfun => exact floatCompare_keeps h
  | mand | mor | mxor | mandn => exact maskLogic_keeps h
  | mpop | mffs | vbits => exact maskCount_keeps h
  | vsel | vcompress | vins => exact issue_keeps (fun _ _ _ h => putVec_keeps h) h
  | vcvt => exact vecConvert_keeps h
  | vf2i => exact execVf2i_keeps h
  | vi2f => exact execVi2f_keeps h
  | vnarrow => exact execVnarrow_keeps h
  | vwiden | vexpand | vsplat | vidx => exact issue_keeps (fun _ _ _ h => putLanes_keeps h) h
  | vperm | vzipLo | vzipHi | vuzpEv | vuzpOd | vrev | vpack => exact vecPermute_keeps h
  | vslideup | vslidedn => exact vecSlide_keeps h
  | vradd | vrmin | vrmax | vrminz | vrmaxz | vrand | vror | vrxor => exact intReduce_keeps h
  | vrfadd => exact vecReduce_keeps h
  | vscanAdd | vscanXor | vscanMax => exact vecScan_keeps h
  | vmsk => exact issue_keeps (fun _ _ _ h => putResult_keeps h) h
  | vld => exact execVld_keeps h
  | vlss => exact execVlss_keeps h
  | vsss => exact issue_keeps (fun _ _ _ h => storeMany_keeps h) h
  | vgth => exact execVgth_keeps h
  | vsct => exact execVsct_keeps h
  | vldl => exact execVldl_keeps h
  | vldlx => exact execVldlx_keeps h
  | vstl => exact execVstl_keeps h
  | vstlx => exact issue_keeps (fun _ _ _ h => writeLanes_keeps h) h
  | tcfg => exact issue_keeps (fun _ _ _ h => configure_keeps h) h
  | tld => exact execTld_keeps h
  | tst => exact execTst_keeps h
  | tfetch => exact issue_keeps (fun _ _ _ h => fetchTile_keeps h) h
  | tevict => exact issue_keeps (fun _ _ _ h => evictTile_keeps h) h
  | tzero => exact execTzero_keeps h
  | tstat => exact execTstat_keeps h
  | tpin | tunpin => exact issue_keeps (fun _ _ _ h => pinTile_keeps h) h
  | mwld | mwldSp | mmul | mmulSc | mwsc | mst | mld => exact matrix_keeps h
  | mmeta => exact execMmeta_keeps h
  | mfence => exact execMfence_keeps h
  | cpush => exact execCpush_keeps h
  | cflush => exact execCflush_keeps h
  | carm => exact execCarm_keeps h
  | evpop => exact execEvpop_keeps h
  | evsend => exact execEvsend_keeps h
  | evwinClose | evwinOrigin | evwinSlots => exact evwin_keeps h
  | spawn => exact execSpawn_keeps h
  | dec => exact execDec_keeps h
  | qpush => exact execQpush_keeps h
  | qpop => exact execQpop_keeps h
  | bar => exact execBar_keeps h
  | hntStall | hntImm | hntMod | hntBr | hntNop => exact passHint_keeps h
  | ylLdFifo => exact execYlLdFifo_keeps h
  | ylLdReg => exact execYlLdReg_keeps h
  | ylPush => exact execYlPush_keeps h
  | ylBase => exact execYlBase_keeps h
  | ylWait => exact execYlWait_keeps h
  | ylEnd => exact execYlEnd_keeps h
  | ylPop => exact execYlPop_keeps h
  | ylSt => exact execYlSt_keeps h
  | helperRv32Instr => exact execHelperRv32Instr_keeps h
  | helperFence => exact execHelperFence_keeps h
  | helperEbreak => exact execHelperEbreak_keeps h
  | resultWriteback => exact execResultWriteback_keeps h
  | storePerform => exact execStorePerform_keeps h
  | l1dSectorFill => exact execL1dSectorFill_keeps h
  | fbEventResend => exact .next (sendFault_keeps h)
  | faultRetry => exact execFaultRetry_keeps h
  | tlbinvComplete => exact execTlbinvComplete_keeps h
  | parityLand => exact execParityLand_keeps h
  | scrubStep => exact .next (scrubStep_keeps h)
  | sqmScrubStep => exact .next (sqmScrub_keeps h)
  | epochEnd | revokeDataReturn | gptpMessageReceive => exact .next (State.mk_keeps h)
  | bankRetire => exact execBankRetire_keeps h
  | lendClearDone => exact .next (lendingBegins_keeps h)
  | lendEndClearDone => exact .next (lendingOver_keeps h)
  | squareClearDone => exact execSquareClearDone_keeps h
  | cspClearDone => exact execCspClearDone_keeps h
  | tileFillLastBeat => exact execTileFillLastBeat_keeps h
  | logApplyEntry => exact execLogApplyEntry_keeps h
  | tileDrainDone => exact execTileDrainDone_keeps h
  | tileTransferFault => exact execTileTransferFault_keeps h
  | beaconWindow => exact execBeaconWindow_keeps h
  | traceRecordWrite => exact .next (traceFlush_keeps h)
  | engineJobStart => exact execEngineJobStart_keeps h
  | engineJobComplete => exact execEngineJobComplete_keeps h
  | engineJobFault => exact execEngineJobFault_keeps h
  | ownershipGrant => exact execOwnershipGrant_keeps h
  | revoke => exact execRevoke_keeps h
  | dramRefresh | memTempChange => exact .next (State.modDie_keeps h)
  | streamFetchReturn => exact .next (fetchElement_keeps h)
  | mxeLatchLoadDone => exact .next (latchLoaded_keeps h)
  | mxeCommandStart => exact execMxeCommandStart_keeps h
  | mxeRowInject => exact .next (injectRow_keeps h)
  | mxeCommandComplete => exact execMxeCommandComplete_keeps h
  | mxeQueueWindowStore => exact execMxeQueueWindowStore_keeps h
  | copyQueueWindowStore => exact execCopyQueueWindowStore_keeps h
  | coalescerApply => exact execCoalescerApply_keeps h
  | coalescerTimeout => exact execCoalescerTimeout_keeps h
  | coalescerTwinReady => exact execCoalescerTwinReady_keeps h
  | eventArrive => exact execEventArrive_keeps h
  | windowStaleTimeout => exact execWindowStaleTimeout_keeps h
  | waitWake | waitTimeout => exact .next (lookAtWait_keeps h)
  | barRelease => exact .next (lookAtBarrier_keeps h)
  | taskEnd => exact .next (taskEndStep_keeps h)
  | selectionRound => exact execSelectionRound_keeps h
  | taskBind => exact execTaskBind_keeps h
  | taskStart => exact .next (startUnit_keeps h)
  | agingTick => exact .next (ageRecords_keeps h)
  | stealRequest => exact .next (stealAt_keeps h)
  | stealReply => exact .next (stealBack_keeps h)
  | stealBackoff => exact .next (stealAgain_keeps h)
  | halfExchange => exact .next (exchangeHalves_keeps h)
  | lanternCircuit => exact .next (lanternStep_keeps h)
  | forecastTick => exact execForecastTick_keeps h
  | railSettle => exact execRailSettle_keeps h
  | slewStep => exact .next (slewStep_keeps h)
  | nrgUpdate => exact execNrgUpdate_keeps h
  | trqRetry => exact execTrqRetry_keeps h
  | watchdog => exact execWatchdog_keeps h
  | lockstepMismatch => exact .next (mismatchAt_keeps h)
  | preemptDrainDone => exact .next (preemptStep_keeps h)
  | jobPtbWrite | cspOwnWrite | spadForceRetire | jobPartWrite | jobCtlWrite | hbwBaseWrite | fbKill | preCtlReq
    | pwrCapWrite | secAtreq | secPolWrite | ethRouteWrite => exact .next (writeDevReg_keeps h)
  | registerWrite => exact execRegisterWrite_keeps h
  | ethFrameReceive => exact execEthFrameReceive_keeps h
  | roceWrite => exact execRoceWrite_keeps h
  | roceRead => exact execRoceRead_keeps h
  | roceFetchAdd | roceCompareSwap => exact roceAtomic_keeps h
  | place => exact execPlace_keeps h
  | hostDec => exact execHostDec_keeps h
  | hostCancel | hostCancelh => exact hostCancelWith_keeps h
  | ucieModuleFail => exact execUcieModuleFail_keeps h
  | thermalThreshold => exact execThermalThreshold_keeps h
  | tamperAlarm => exact .next (raiseAlarm_keeps h)
  | debugUnlockFail => exact execDebugUnlockFail_keeps h
  | coldReset => exact execColdReset_keeps h
  | bootDatagram => exact execBootDatagram_keeps h
  | bootTransferEnd => exact execBootTransferEnd_keeps h
  | illegalOpEncoding => exact trapHere_keeps h
  | instructionFetchFault => exact execInstructionFetchFault_keeps h
  | loaderReadReturn => exact .next (loaderReturn_keeps h)
  | roceUnsupportedRequest => exact execRoceUnsupportedRequest_keeps h
  | attestationReportDone => exact execAttestationReportDone_keeps h

theorem turn_keeps {s0 : State} (h0 : s0.Inv) : (turn s0).1.Inv := by
  unfold turn
  split
  · exact runTurn_keeps (State.mk_keeps h0)
  · have h1 := tick_keeps h0
    dsimp only
    split
    · exact h0
    · split
      · exact State.mk_keeps h1
      · split
        · exact State.mk_keeps h1
        · split
          · exact State.mk_keeps h1
          · exact runTurn_keeps (State.mk_keeps h1)
        · exact runTurn_keeps (State.mk_keeps h1)
        · exact h1

theorem step_keeps {s : State} (h : s.Inv) : OutInv (step s) := by
  unfold step
  split
  · next e => exact exec_keeps (fst_keeps e (turn_keeps h))
  · next e => exact .next (fst_keeps e (turn_keeps h))

/-- Settles O6: each function of the model that gives a state keeps the form, down to the writes and the clearing of a range, and so
does each step, which is one turn and one instruction. -/
theorem everyStepKeepsTheMemoryForm : Obligations.EveryStepKeepsTheMemoryForm :=
  fun _ t h hstep => step_keeps h t hstep

end Sys2Proof.Machine

/-! # The lane slices, and the state after reset (O18, O4) -/

namespace Sys2Proof.Machine

/-! ### The lane slices (02 R45, 11 R287)

Each form of the lane-slice instructions is an issue (`issue_next`); its effect is a chain of answers, and a part that comes about
passes its answer on. -/

theorem Res.bind_of_ok {α β : Type} {x : Res α} {a : α} (k : α → Res β) (h : x = .ok a) : (x >>= k) = k a := by
  rw [h]
  rfl

theorem sliceOffset_of_aligned {o : Word} (halign : o.toNat % 4 = 0) (hlt : o.toNat < 4096) : sliceOffset o = .ok o.toNat := by
  rw [sliceOffset, if_neg (not_not_intro halign), if_neg (Nat.not_le_of_lt hlt)]

theorem bits_eq_div_mod (v lo n : Nat) : bits v lo n = v / 2 ^ lo % 2 ^ n := by
  rw [bits, Nat.shiftRight_eq_div_pow]

section
variable {d : Fin 16} {a b : Fin 32} {t m : Fin 8} {s : State} {c : Nat} {vs : List Vec} {s1 s2 s3 : State}

theorem vldl_next {v : Nat} (hi : Issues s c { srcs := [(.k, a)], also := maskReg m, dst := some (.v, d), cls := 4 } vs s1)
    (halign : (arg vs 0).toNat % 4 = 0) (hlt : (arg vs 0).toNat < 4096)
    (hread : readUniform s1 c (arg vs 0).toNat (laneBits t) (maskOf (s1.core c) m) (List.range 16) = .ok (v, s2))
    (hput : putLanes s2 c d 0 (laneBits t) (maskOf (s1.core c) m)
      (lanesOf (laneCount (laneBits t)) (fun j => bits v (laneBits t * j) (laneBits t))) = .ok s3) :
    exec (.vldl d a t m) s = .next (finished s c s3) := by
  rw [exec_vldl, execVldl]
  refine issue_next hi ?_
  rw [Res.bind_of_ok _ (sliceOffset_of_aligned halign hlt), Res.bind_of_ok _ hread]
  exact hput

theorem vldlx_next {l : List Nat} (hi : Issues s c { srcs := [(.v, a)], also := maskReg m, dst := some (.v, d), cls := 4 } vs s1)
    (hread : readLanes s1 c (laneBits t) (argV vs 0) (activeLanes (laneCount (laneBits t)) (maskOf (s1.core c) m)) = .ok (l, s2))
    (hput : putLanes s2 c d 0 (laneBits t) (maskOf (s1.core c) m)
      (atLanes (laneCount (laneBits t)) (activeLanes (laneCount (laneBits t)) (maskOf (s1.core c) m)) l) = .ok s3) :
    exec (.vldlx d a t m) s = .next (finished s c s3) := by
  rw [exec_vldlx, execVldlx]
  refine issue_next hi ?_
  rw [Res.bind_of_ok _ hread]
  exact hput

theorem vstl_next (hi : Issues s c { srcs := [(.k, a), (.v, b)], also := maskReg m, cls := 4 } vs s1)
    (halign : (arg vs 0).toNat % 4 = 0) (hlt : (arg vs 0).toNat < 4096)
    (hwrite : writeUniform s1 c (arg vs 0).toNat (laneBits t) (maskOf (s1.core c) m) (argV vs 1) (List.range 16) = .ok s2) :
    exec (.vstl a b t m) s = .next (finished s c s2) := by
  rw [exec_vstl, execVstl]
  refine issue_next hi ?_
  rw [Res.bind_of_ok _ (sliceOffset_of_aligned halign hlt)]
  exact hwrite

theorem vstlx_next (hi : Issues s c { srcs := [(.v, a), (.v, b)], also := maskReg m, cls := 4 } vs s1)
    (hwrite : writeLanes s1 c (laneBits t) (argV vs 0) (argV vs 1)
      (activeLanes (laneCount (laneBits t)) (maskOf (s1.core c) m)) = .ok s2) :
    exec (.vstlx a b t m) s = .next (finished s c s2) := by
  rw [exec_vstlx, execVstlx]
  exact issue_next hi hwrite

end

/-- Settles O18, one form at a time: the offset of a uniform form passes its checks, and the parts of the effect come about in
their order. -/
theorem laneSliceAccessesComplete : Obligations.LaneSliceAccessesComplete := by
  intro d a b t m s c _
  refine ⟨fun vs s1 v s2 s3 hi ⟨halign, hlt⟩ hread hput => ?_, fun vs s1 l s2 s3 hi hread hput => ?_,
    fun vs s1 s2 hi ⟨halign, hlt⟩ hwrite => ?_, fun vs s1 s2 hi hwrite => ?_⟩
  · simp only [← bits_eq_div_mod] at hput
    exact vldl_next hi halign hlt hread hput
  · exact vldlx_next hi hread hput
  · exact vstl_next hi halign hlt hwrite
  · exact vstlx_next hi hwrite

/-! ### The state after device reset

No table of the reset state lists anything: each unit reads as its own reset value. -/

@[simp] theorem State.core_reset (c : Nat) : State.reset.core c = Core.reset c := rfl
@[simp] theorem State.square_reset (q : Nat) : State.reset.square q = Square.reset q := rfl
@[simp] theorem State.job_reset (j : Nat) : State.reset.job j = JobRegs.reset j := rfl

theorem Square.clearing_reset_iff (q : Nat) : (Square.reset q).clearing = true ↔ q = 0 ∨ q = 32 := by
  simp [Square.reset]

/-- Settles O4: the reset values of the units, read off one unit at a time. -/
theorem stateAfterReset : Obligations.StateAfterReset := by
  refine ⟨State.reset_inv, rfl, rfl, rfl, fun c => ?core, fun q => ?engine, fun q _ => ?clearing, fun j => ?ctl, fun j => ?part,
    rfl, rfl, rfl⟩
  case core =>
    rw [State.core_reset]
    exact ⟨rfl, rfl, rfl, rfl, rfl, rfl, rfl, rfl, rfl, rfl, rfl⟩
  case engine =>
    rw [State.square_reset]
    exact ⟨rfl, rfl⟩
  case clearing =>
    rw [State.square_reset]
    exact Square.clearing_reset_iff q
  case ctl => rw [State.job_reset, JobRegs.reset]
  case part => rw [State.job_reset, JobRegs.reset]

end Sys2Proof.Machine

/-! # Atomics without a result (O22) -/

namespace Sys2Proof.Machine

/-! ### The atomics without a result (06 R142, 11 R289)

The ten forms differ in the number of their operation alone, which gives the log code: one rule holds for each of them. -/

/-- The state that an atomic leaves: it has performed, or it has asked for its block. -/
def AtomicOut.left : AtomicOut → State
  | .done _ s => s
  | .asked s => s

theorem redWith_next {op : Nat} {a b : Fin 32} {p : Fin 8} {w : Fin 2} {s : State} {c : Nat} {vs : List Vec} {s1 : State}
    {r : AtomicOut} (hi : Issues s c { srcs := [(.k, a), (.k, b)], cls := 4, use := { scope := true } } vs s1)
    (hr : atomicData s1 (taskAccess s1 c .atomic (arg vs 0).toNat (atomicWidth w) (atomicWidth w))
      { op := op, operand := (arg vs 1).toNat % 2 ^ (8 * atomicWidth w), expected := none } 1 false false
      (redLog op (atomicWidth w)) = .ok r) :
    redWith op a b p w s = .next (finished s c r.left) := by
  rw [redWith]
  refine issue_next hi ?_
  rw [Res.bind_of_ok _ hr]
  cases r <;> rfl

theorem redLog_of_le {op : Nat} (h : op ≤ 7) (n : Nat) : redLog op n = some (op + 1) := by
  rw [redLog, if_pos h]

theorem redLog_swap (n : Nat) : redLog 8 n = none := by
  simp [redLog]

theorem redLog_fadd (n : Nat) : redLog 9 n = if n = 4 then some 9 else none := by
  simp [redLog]

/-- Settles O22: each form is `redWith` of its operation, logged under the code that `redLog` gives it. -/
theorem reductionsToMemoryComplete : Obligations.ReductionsToMemoryComplete := by
  intro a b p w s c n red
  have next : ∀ (i : Instr) (op : Nat) (log : Option Nat), exec i s = redWith op a b p w s → redLog op n = log →
      red i op log := by
    rintro i op _ hexec rfl vs s1 r hi hr
    rw [hexec, redWith_next hi hr]
    cases r <;> rfl
  exact ⟨next _ 0 _ (exec_redAdd ..) (redLog_of_le (by decide) n), next _ 1 _ (exec_redAnd ..) (redLog_of_le (by decide) n),
    next _ 2 _ (exec_redOr ..) (redLog_of_le (by decide) n), next _ 3 _ (exec_redXor ..) (redLog_of_le (by decide) n),
    next _ 4 _ (exec_redMin ..) (redLog_of_le (by decide) n), next _ 5 _ (exec_redMax ..) (redLog_of_le (by decide) n),
    next _ 6 _ (exec_redMinz ..) (redLog_of_le (by decide) n), next _ 7 _ (exec_redMaxz ..) (redLog_of_le (by decide) n),
    next _ 8 _ (exec_redSwap ..) (redLog_swap n), next _ 9 _ (exec_redFadd ..) (redLog_fadd n)⟩

end Sys2Proof.Machine

/-! # Writes of control registers (O26) -/

namespace Sys2Proof.Machine

/-! ### Reserved bits, fields and regions -/

/-- A value with no bit outside the mask sets no reserved bit. -/
theorem reserved_eq_false {v mask : Word} {allowed : Nat} (hmask : mask.toNat = allowed) (h : v &&& ~~~mask = 0) :
    reserved v allowed = false := by
  have hv : v &&& mask = v := by
    ext i hi
    have hbit := congrArg (fun x : Word => x[i]) h
    simp only [BitVec.getElem_and, BitVec.getElem_not, BitVec.getElem_zero, BitVec.ofNat_eq_ofNat] at hbit ⊢
    cases hvi : v[i] <;> simp_all
  rw [reserved, ← hmask, ← BitVec.toNat_and, hv]
  simp

theorem field_zero {w : Nat} (v : BitVec w) (n : Nat) : field v 0 n = v.toNat % 2 ^ n := by
  rw [field, bits_eq_div_mod, Nat.pow_zero, Nat.div_one]

theorem inRegion_of_le {t : Task} {lo n : Nat} (h : lo + n ≤ t.region) : inRegion t lo n = true := by
  simp [inRegion, h]

theorem setIfInBounds_fin {α : Type} {n : Nat} (v : Vector α n) (i : Fin n) (x : α) :
    v.setIfInBounds i.val x = v.set i.val x := by
  ext j hj
  rw [Vector.getElem_setIfInBounds, Vector.getElem_set]

/-- The sticky bits of each stream are cleared where the value written to STRM.STAT has a 1 (11 R302). -/
def Core.clearSticky (v : Word) (k : Core) : Core :=
  { k with streams := Vector.ofFn (fun i : Fin 8 => { k.strm i with
    endB := (k.strm i).endB && !v.getLsbD i, overB := (k.strm i).overB && !v.getLsbD (8 + i) }) }

theorem Core.strm_clearSticky (v : Word) (k : Core) (n : Fin 8) : (k.clearSticky v).strm n = { k.strm n with
    endB := (k.strm n).endB && !v.getLsbD n, overB := (k.strm n).overB && !v.getLsbD (8 + n) } := by
  rw [Core.strm, Core.clearSticky]
  simp

/-! ### A register without a row of its own (08 R190, 09 R229)

`writeReg` says what the core is after the write; an equation for each register, and `setc` issues it. -/

section
variable (k : Core) (v : Word)

theorem writeReg_trapCause : writeReg k 0x010 v = if reserved v 0x1FF then none else
    some { k with trap := { k.trap with cause := setField k.trap.cause 0 8 (v.toNat % 256) } } := by
  have hcode : field v 0 8 = v.toNat % 256 := field_zero v 8
  rw [← hcode]
  rfl

theorem writeReg_trapPc : writeReg k 0x011 v = some { k with trap := { k.trap with pc := v } } := rfl

theorem writeReg_trapAddr : writeReg k 0x012 v = some { k with trap := { k.trap with addr := v } } := rfl

theorem writeReg_trapInfo : writeReg k 0x013 v = if reserved v 0xFFFF000F3F7FFFFF then none else
    some { k with trap := { k.trap with info := setField k.trap.info 0 1 (v.toNat % 2) } } := by
  have hskip : field v 0 1 = v.toNat % 2 := field_zero v 1
  rw [← hskip]
  rfl

theorem writeReg_strmStat : writeReg k 0x020 v = if reserved v 0xFFFFFF then none else
    some (k.clearSticky v) := rfl

theorem writeReg_mxStat : writeReg k 0x042 v = if reserved v 0x1FF805 then none else
    some { k with mx := { k.mx with
      drop := k.mx.drop && !v.getLsbD 2, satStat := k.mx.satStat && !v.getLsbD 0 } } := rfl

theorem writeReg_evWtmo : writeReg k 0x062 v = if reserved v 0xFFFF then none else
    some { k with ev := { k.ev with wtmo := v.toNat } } := rfl

theorem writeReg_evDrop : writeReg k 0x063 v = if reserved v 0xFFFFFFFF00000001 then none else
    some { k with ev := { k.ev with lateDrop := v.getLsbD 0 } } := rfl

theorem writeReg_evc (n : Fin 8) : writeReg k (0x090 + n) v = some { k with evc := k.evc.set n v } := by
  rw [← setIfInBounds_fin]
  match n with
  | 0 | 1 | 2 | 3 | 4 | 5 | 6 | 7 => rfl

theorem writeReg_evcSel (n : Fin 8) (hcode : v.toNat % 256 ≤ 0x16) :
    writeReg k (0x098 + n) v = if reserved v 0x1FF then none else some { k with evcSel := k.evcSel.set n v } := by
  have hfield : ¬ 0x16 < field v 0 8 := by
    rw [field_zero]
    omega
  rw [← setIfInBounds_fin]
  match n with
  | 0 | 1 | 2 | 3 | 4 | 5 | 6 | 7 => exact if_neg hfield

end

section
variable {a : Fin 32} {n : Fin 4096} {s : State} {c : Nat} {vs : List Vec} {s1 : State}

/-- `setc` of a register of the tasks' range completes where the core takes the value. -/
theorem setc_next {f : Core → Core} (hn : n.val < 0x800) (hi : Issues s c { srcs := [(.k, a)] } vs s1)
    (hw : writeReg (s1.core c) n (arg vs 0) = some (f (s1.core c))) :
    exec (.setc a n) s = .next (finished s c (s1.modCore c f)) := by
  have hsys : decide (0x800 ≤ n.val) = false := decide_eq_false (Nat.not_le_of_lt hn)
  rw [exec_setc, execSetc]
  simp only [hsys]
  refine issue_next hi ?_
  simp only [hw]
  rfl

/-- The same of a register with reserved bits, where the value sets none. -/
theorem setc_next_of_allowed {mask : Word} {allowed : Nat} {f : Core → Core} (hn : n.val < 0x800)
    (hi : Issues s c { srcs := [(.k, a)] } vs s1) (h : arg vs 0 &&& ~~~mask = 0) (hmask : mask.toNat = allowed)
    (hw : writeReg (s1.core c) n (arg vs 0) = if reserved (arg vs 0) allowed then none else some (f (s1.core c))) :
    exec (.setc a n) s = .next (finished s c (s1.modCore c f)) := by
  refine setc_next hn hi ?_
  rw [hw, reserved_eq_false hmask h]
  rfl

/-- The write of STRM.STAT clears the sticky bits of each stream that the value names, and writes no byte. -/
theorem setc_strmStat (hi : Issues s c { srcs := [(.k, a)] } vs s1) (h : arg vs 0 &&& ~~~0xFFFFFF = 0) :
    ∃ t, exec (.setc a 0x020) s = .next t ∧ SameBytes s1 t ∧
      ∀ n : Fin 8, (t.core c).strm n = { (s1.core c).strm n with
        endB := ((s1.core c).strm n).endB && !(arg vs 0).getLsbD n
        overB := ((s1.core c).strm n).overB && !(arg vs 0).getLsbD (8 + n) } := by
  refine ⟨_, setc_next_of_allowed (f := Core.clearSticky (arg vs 0)) (by decide) hi h rfl (writeReg_strmStat ..),
    ((OnlyCore.modCore _ _ _).trans (endIssue_onlyCore _ _ _)).bytes, fun n => ?_⟩
  rw [finished, endIssue_core, State.core_modCore]
  exact Core.strm_clearSticky _ _ n

/-! ### The registers that have a row of their own -/

theorem setcMxMode_mode (hi : Issues s c { srcs := [(.k, a)] } vs s1) (hv : (arg vs 0).toNat < 4) :
    exec (.setcMxMode a 0) s = .next (finished s c (s1.modMx c (fun x => { x with mode := (arg vs 0).toNat }))) := by
  rw [exec_setcMxMode, execSetcMxMode]
  exact issue_next hi ((if_pos rfl).trans (if_neg (Nat.not_le_of_lt hv)))

theorem setcMxMode_sample (hi : Issues s c { srcs := [(.k, a)] } vs s1) (hv : (arg vs 0).toNat ≤ 16) :
    exec (.setcMxMode a 1) s = .next (finished s c (s1.modMx c (fun x => { x with sample := (arg vs 0).toNat }))) := by
  rw [exec_setcMxMode, execSetcMxMode]
  exact issue_next hi ((if_neg (by decide)).trans (if_neg (Nat.not_lt_of_le hv)))

theorem setcEvRebase_win (hi : Issues s c { srcs := [(.k, a)] } vs s1) (hv : arg vs 0 &&& ~~~0xFFFFFFFF = 0) :
    exec (.setcEvRebase a 0) s =
      .next (finished s c (rebase (s1.modEv c (fun q => { q with win := (arg vs 0).toNat })) c)) := by
  rw [exec_setcEvRebase, execSetcEvRebase]
  refine issue_next hi (if_neg ?_)
  simp [reserved_eq_false (allowed := 0xFFFFFFFF) rfl hv]

theorem setcEvRebase_org (hi : Issues s c { srcs := [(.k, a)] } vs s1) :
    exec (.setcEvRebase a 1) s = .next (finished s c (rebase (s1.modEv c (fun q => { q with org := arg vs 0 })) c)) := by
  rw [exec_setcEvRebase, execSetcEvRebase]
  exact issue_next hi (if_neg (by simp))

/-- The check of EV.SPILL and LOG.BASE (03 R83, 13 R344): at most 4,096 entries, all in the declared region. -/
theorem ringCheck_passes {t : Task} {v : Word} (hsize : field v 16 13 ≤ 4096)
    (hregion : field v 0 12 * 64 + field v 16 13 * 16 ≤ t.region) :
    ¬ (4096 < field v 16 13 ∨ inRegion t (field v 0 12 * 64) (field v 16 13 * 16) = false) := by
  simp [inRegion_of_le hregion, hsize]

theorem setcEvSpill_next (hi : Issues s c { srcs := [(.k, a)] } vs s1) (hv : arg vs 0 &&& ~~~0xFFFFFFFF1FFF0FFF = 0)
    (hsize : field (arg vs 0) 16 13 ≤ 4096)
    (hregion : field (arg vs 0) 0 12 * 64 + field (arg vs 0) 16 13 * 16 ≤ (s1.core c).task.region)
    (hring : (s1.core c).ev.ringUsed = 0) :
    exec (.setcEvSpill a) s = .next (finished s c (s1.modEv c (fun q =>
      { q with spill := ((arg vs 0).setWidth 32).setWidth 64 }))) := by
  have hspill : ((arg vs 0).setWidth 32).setWidth 64 = BitVec.ofNat 64 ((arg vs 0).toNat % 2 ^ 32) := by
    apply BitVec.eq_of_toNat_eq
    simp
  rw [exec_setcEvSpill, execSetcEvSpill, hspill]
  refine issue_next hi ?_
  simp only [reserved_eq_false (allowed := 0xFFFFFFFF1FFF0FFF) rfl hv, Bool.false_eq_true]
  exact (if_neg (by simp)).trans ((if_neg (ringCheck_passes hsize hregion)).trans (if_neg (not_not_intro hring)))

theorem emptyLogs_of_empty {l : List (Nat × Tile)} (h : ∀ e ∈ l, e.2.logCnt = 0) : emptyLogs s c l = .ok () := by
  induction l with
  | nil => rfl
  | cons e es ih =>
    rw [emptyLogs, if_pos (h e (List.mem_cons_self ..))]
    exact ih (fun x hx => h x (List.mem_cons_of_mem _ hx))

theorem setcLogBase_next (hi : Issues s c { srcs := [(.k, a)] } vs s1) (hv : arg vs 0 &&& ~~~0x1FFF0FFF = 0)
    (hsize : field (arg vs 0) 16 13 ≤ 4096)
    (hregion : field (arg vs 0) 0 12 * 64 + field (arg vs 0) 16 13 * 16 ≤ (s1.core c).task.region)
    (hpool : (s1.core c).pool.used = []) (hlogs : ∀ e ∈ (s1.core c).tiles, e.2.logCnt = 0) :
    exec (.setcLogBase a) s = .next (finished s c (s1.modCore c (fun k =>
      { k with pool := { k.pool with base := arg vs 0 } }))) := by
  rw [exec_setcLogBase, execSetcLogBase]
  refine issue_next hi ?_
  simp only [reserved_eq_false (allowed := 0x1FFF0FFF) rfl hv, if_neg (ringCheck_passes hsize hregion), hpool,
    Res.bind_of_ok _ (emptyLogs_of_empty hlogs)]
  rfl

theorem setcTrace_next {i : Fin 2} (hi : Issues s c { srcs := [(.k, a)] } vs s1)
    (hv : arg vs 0 &&& ~~~(if i.val = 0 then 0xFFFFFFFFFFFFFFC0 else 0x80FC00000000FFFF) = 0)
    (hlegal : traceLegal c (s1.core c).task (if i.val = 0 then arg vs 0 else (s1.core c).trace.base)
      (if i.val = 0 then (s1.core c).trace.len else arg vs 0) = true) :
    exec (.setcTrace a i) s = .next (finished s c (s1.modCore c (fun k => { k with trace := { k.trace with
      base := if i.val = 0 then arg vs 0 else (s1.core c).trace.base
      len := if i.val = 0 then (s1.core c).trace.len else arg vs 0 } }))) := by
  have hmask : reserved (arg vs 0) (if i.val = 0 then 0xFFFFFFFFFFFFFFC0 else 0x80FC00000000FFFF) = false := by
    refine reserved_eq_false ?_ hv
    split <;> rfl
  rw [exec_setcTrace, execSetcTrace]
  refine issue_next hi ?_
  simp only [hmask, hlegal]
  rfl

end

/-- Settles O26, one register at a time. -/
theorem controlRegisterWrites : Obligations.ControlRegisterWrites := by
  intro a s c g sets core w1c
  refine ⟨?trapCause, ?trapPc, ?trapAddr, ?trapInfo, ?mxStat, ?evDrop, ?evWtmo, ?evc, ?evcSel, ?strmStat, ?mxMode,
    ?mxSample, ?evWin, ?evOrg, ?evSpill, ?logBase, ?trace⟩
  case trapCause => exact fun _ _ hi h => setc_next_of_allowed (by decide) hi h rfl (writeReg_trapCause ..)
  case trapPc => exact fun _ _ hi _ => setc_next (by decide) hi (writeReg_trapPc ..)
  case trapAddr => exact fun _ _ hi _ => setc_next (by decide) hi (writeReg_trapAddr ..)
  case trapInfo => exact fun _ _ hi h => setc_next_of_allowed (by decide) hi h rfl (writeReg_trapInfo ..)
  case mxStat => exact fun _ _ hi h => setc_next_of_allowed (by decide) hi h rfl (writeReg_mxStat ..)
  case evDrop => exact fun _ _ hi h => setc_next_of_allowed (by decide) hi h rfl (writeReg_evDrop ..)
  case evWtmo => exact fun _ _ hi h => setc_next_of_allowed (by decide) hi h rfl (writeReg_evWtmo ..)
  case evc => exact fun n _ _ hi _ => setc_next (by dsimp only; omega) hi (writeReg_evc _ _ n)
  case evcSel =>
    exact fun n _ _ hi h hcode =>
      setc_next_of_allowed (by dsimp only; omega) hi h rfl (writeReg_evcSel _ _ n hcode)
  case strmStat => exact fun _ _ => setc_strmStat
  case mxMode => exact fun _ _ => setcMxMode_mode
  case mxSample => exact fun _ _ => setcMxMode_sample
  case evWin => exact fun _ _ => setcEvRebase_win
  case evOrg => exact fun _ _ hi _ => setcEvRebase_org hi
  case evSpill => exact fun _ _ => setcEvSpill_next
  case logBase => exact fun _ _ => setcLogBase_next
  case trace => exact fun _ _ _ => setcTrace_next

end Sys2Proof.Machine

/-! # Tile instructions (O49) -/

namespace Sys2Proof.Machine

/-! ### A configuration (03 R70, R91) -/

section
variable (t : Tile) (cfg back : Word)

/-- The whole of what `Tile.configured` gives, but for the state and the mark of changed bytes. -/
theorem Tile.configured_eq : t.configured cfg back = { t with
    cfg := cfg, back := back, conf := true, keep := false, wanted := false, fault := none
    state := (t.configured cfg back).state, dirty := (t.configured cfg back).dirty } := by
  unfold Tile.configured
  dsimp only
  split
  · rfl
  · split <;> rfl

@[simp] theorem Tile.configured_cfg : (t.configured cfg back).cfg = cfg := by rw [configured_eq]
@[simp] theorem Tile.configured_back : (t.configured cfg back).back = back := by rw [configured_eq]
@[simp] theorem Tile.configured_conf : (t.configured cfg back).conf = true := by rw [configured_eq]
@[simp] theorem Tile.configured_keep : (t.configured cfg back).keep = false := by rw [configured_eq]
@[simp] theorem Tile.configured_paged : (t.configured cfg back).paged = flag cfg 40 := by rw [Tile.paged, configured_cfg]
@[simp] theorem Tile.configured_home : (t.configured cfg back).home = field cfg 20 1 := by rw [Tile.home, configured_cfg]
@[simp] theorem Tile.configured_place : (t.configured cfg back).place = field cfg 24 16 * 256 := by
  rw [Tile.place, configured_cfg]

/-- A READY paged tile keeps its home and its backing under the configuration. -/
def Tile.Stays : Prop :=
  t.conf = true ∧ t.paged = true ∧ t.state = stReady ∧ t.home = (t.configured cfg back).home ∧
    t.place = (t.configured cfg back).place ∧ t.back = back

variable {t cfg back}

theorem Tile.configured_of_unpaged (h : (t.configured cfg back).paged = false) :
    (t.configured cfg back).state = stReady ∧ (t.configured cfg back).dirty = false := by
  rw [configured_paged] at h
  simp [configured, Tile.paged, h]

theorem Tile.configured_of_stays (h : (t.configured cfg back).paged = true) (hs : t.Stays cfg back) :
    (t.configured cfg back).state = stReady ∧ (t.configured cfg back).dirty = t.dirty := by
  obtain ⟨hconf, hpaged, hstate, hhome, hplace, hback⟩ := hs
  rw [configured_paged] at h
  rw [configured_home, Tile.home] at hhome
  rw [configured_place, Tile.place] at hplace
  rw [Tile.paged] at hpaged
  simp [configured, Tile.paged, Tile.home, Tile.place, h, hconf, hpaged, hstate, hhome, hplace, hback]

theorem Tile.configured_of_not_stays (h : (t.configured cfg back).paged = true) (hs : ¬ t.Stays cfg back) :
    (t.configured cfg back).state = stEmpty ∧ (t.configured cfg back).dirty = false := by
  rw [configured_paged] at h
  rw [configured]
  dsimp only
  rw [if_neg (by simp [Tile.paged, h])]
  split
  · next hkept =>
    obtain ⟨hconf, hstate, hsame⟩ := hkept
    simp only [Bool.and_eq_true, beq_iff_eq] at hsame
    obtain ⟨⟨⟨hpaged, hhome⟩, hplace⟩, hback⟩ := hsame
    exact absurd ⟨hconf, hpaged, hstate, hhome.trans (configured_home ..).symm, hplace.trans (configured_place ..).symm,
      hback⟩ hs
  · exact ⟨rfl, rfl⟩

end

/-! ### The effects of the tile instructions (03 R77, R78, R91, 12 R327, R330) -/

section
variable {n : Fin 64} {a b : Fin 32} {s : State} {c : Nat} {vs : List Vec} {s1 : State}

/-- `tcfg` replaces the entry where nothing uses the tile, the shape is good, and no changed bytes would be lost. -/
theorem configure_ok {cfg back : Word} (htwin : isTwin s c n = false) (hfault : (s.tile c n).fault = none)
    (hrefs : (s.tile c n).refs = 0) (hfill : (s.tile c n).state ≠ stFilling) (hdrain : (s.tile c n).state ≠ stDraining)
    (hlog : (s.tile c n).logCnt = 0) (hshape : shapeWrong (s.core c).task.region cfg back = false)
    (hkept : (s.tile c n).conf = true → (s.tile c n).paged = true → (s.tile c n).state = stReady →
      (s.tile c n).dirty = true → ((s.tile c n).configured cfg back).paged = false ∨
        ((s.tile c n).configured cfg back).state = stReady) :
    configure s c n cfg back = .ok (s.modTile c n (fun t => t.configured cfg back)) := by
  have hbusy : ¬ ((s.tile c n).refs ≠ 0 ∨ (s.tile c n).state = stFilling ∨ (s.tile c n).state = stDraining) := by
    simp [hrefs, hfill, hdrain]
  have hlost : ¬ ((s.tile c n).conf = true ∧ (s.tile c n).state = stReady ∧ (s.tile c n).paged = true ∧
      (s.tile c n).dirty = true ∧ ((s.tile c n).configured cfg back).paged = true ∧
      ((s.tile c n).configured cfg back).state = stEmpty) := by
    rintro ⟨hconf, hstate, hpaged, hdirty, hnew, hempty⟩
    rcases hkept hconf hpaged hstate hdirty with h | h
    · simp [hnew] at h
    · simp [hempty, stEmpty, stReady] at h
  rw [configure]
  simp only [htwin, hfault, if_neg hbusy, hlog, hshape, if_neg hlost]
  rfl

theorem tcfg_next (hi : Issues s c (tileSig n [(.k, a), (.k, b)]) vs s1) (htwin : isTwin s1 c n = false)
    (hfault : (s1.tile c n).fault = none) (hrefs : (s1.tile c n).refs = 0) (hfill : (s1.tile c n).state ≠ stFilling)
    (hdrain : (s1.tile c n).state ≠ stDraining) (hlog : (s1.tile c n).logCnt = 0)
    (hshape : shapeWrong (s1.core c).task.region (arg vs 0) (arg vs 1) = false)
    (hkept : (s1.tile c n).conf = true → (s1.tile c n).paged = true → (s1.tile c n).state = stReady →
      (s1.tile c n).dirty = true → ((s1.tile c n).configured (arg vs 0) (arg vs 1)).paged = false ∨
        ((s1.tile c n).configured (arg vs 0) (arg vs 1)).state = stReady) :
    exec (.tcfg n a b) s = .next (finished s c (s1.modTile c n (fun t => t.configured (arg vs 0) (arg vs 1)))) := by
  rw [exec_tcfg, execTcfg]
  exact issue_next hi (configure_ok htwin hfault hrefs hfill hdrain hlog hshape hkept)

/-- Where a lone task's instruction issues and its effect comes about, no row of it has stopped at a fault. -/
theorem earlierRows_of_ok {into : Bool} {s2 : State} (hi : Issues s c (rowSig n a b) vs s1)
    (hb : rowBody n into c vs s1 = .ok s2) : earlierRows s n into a b = s := by
  obtain ⟨⟨hactor, _, hsolo⟩, hchecks, hoperands⟩ := hi
  have hissuer : issuer s = c := by simp [issuer, hactor, hsolo]
  have hmembers : actingMembers s c = [c] := by simp [actingMembers, gangOf, hsolo]
  have hbefore : beforePair s c = s := by simp [beforePair, hsolo]
  have hone : issueOne (rowSig n a b) (rowBody n into) s c = .ok (finished s c s2) := by
    rw [issueOne, Res.bind_of_ok _ hchecks, Res.bind_of_ok _ hoperands]
    dsimp only
    rw [Res.bind_of_ok _ hb]
    rfl
  unfold earlierRows
  simp only [hissuer, hmembers, hbefore, issueAll, hone]

/-- `tld` and `tst` complete with what their rows leave. -/
theorem rows_next {i : Instr} {into : Bool} {s2 : State}
    (hexec : exec i s = issue (rowSig n a b) (rowBody n into) (earlierRows s n into a b))
    (hi : Issues s c (rowSig n a b) vs s1) (hb : rowBody n into c vs s1 = .ok s2) :
    exec i s = .next (finished s c s2) := by
  rw [hexec, earlierRows_of_ok hi hb]
  exact issue_next hi hb

theorem tzero_next {s2 s3 : State} (hi : Issues s c (tileSig n []) vs s1) (hneed : needTile s1 c n = .ok ())
    (hrefs : (s1.tile c n).refs = 0)
    (horder : orderBefore s1 c [slotPiece c (s1.tile c n) localLoc 0 (s1.tile c n).size] = .ok s2)
    (hwrite : homeWrite s2 (homeAccess s1 c (s1.tile c n).size .write) (tileLoc c (s1.tile c n)) (s1.tile c n).size 0 =
      .ok s3) :
    exec (.tzero n) s = .next (finished s c (markDirty s3 c n)) := by
  have hwaits : writeWaits s1 c n = .ok () := if_neg (not_not_intro hrefs)
  rw [exec_tzero, execTzero]
  refine issue_next hi ?_
  rw [Res.bind_of_ok _ hneed, Res.bind_of_ok _ hwaits, Res.bind_of_ok _ horder, Res.bind_of_ok _ hwrite]
  rfl

theorem pinTile_ok {on : Bool} (hconf : (s1.tile c n).conf = true) :
    pinTile n on c vs s1 = .ok (s1.modTile c n (fun t => { t with pinned := on })) := by
  have hneed : needConf s1 c n = .ok () := if_pos hconf
  rw [pinTile, Res.bind_of_ok _ hneed]
  rfl

theorem tstat_writesLater {sel : Fin 32} (hsel : sel.val < 3) :
    WritesLater (.tstat n sel) s c { tileSig n [] with dst := some (.k, 0) } (fun _ s1 => scalar
      (if sel.val = 0 then (s1.tile c n).stat else if sel.val = 1 then (s1.tile c n).cfg else (s1.tile c n).back)) := by
  refine issue_later (exec_tstat n sel s) ?_
  intro vs s1 f d hd
  simp only [Option.some.injEq, Prod.mk.injEq] at hd
  obtain ⟨rfl, rfl⟩ := hd
  have hcases : sel.val = 0 ∨ sel.val = 1 ∨ sel.val = 2 := by omega
  rcases hcases with h | h | h <;> rw [h] <;> rfl

end

/-- Settles O49: the checks and waits of each tile instruction pass, and `Tile.configured` has its three cases. -/
theorem tileInstructionsComplete : Obligations.TileInstructionsComplete := by
  refine ⟨fun n a b s c => ⟨?tcfg, ?tld, ?tst, ?tfetch, ?tevict, ?tzero, ?pins, ?tstat⟩, fun t cfg back => ?configured⟩
  case tcfg => exact fun vs s1 hi => tcfg_next hi
  case tld => exact fun _ _ _ => rows_next (exec_tld n a b s)
  case tst => exact fun _ _ _ => rows_next (exec_tst n a b s)
  case tfetch => exact fun _ _ _ hi h => (exec_tfetch n s).trans (issue_next hi h)
  case tevict => exact fun _ _ _ hi h => (exec_tevict n s).trans (issue_next hi h)
  case tzero => exact fun _ _ _ _ hi => tzero_next hi
  case pins =>
    rintro i on vs s1 (⟨rfl, rfl⟩ | ⟨rfl, rfl⟩) hi hconf
    · exact (exec_tpin n s).trans (issue_next hi (pinTile_ok hconf))
    · exact (exec_tunpin n s).trans (issue_next hi (pinTile_ok hconf))
  case tstat => exact fun _ => tstat_writesLater
  case configured =>
    refine ⟨t.configured_conf .., t.configured_cfg .., t.configured_back .., t.configured_keep ..,
      Tile.configured_of_unpaged, fun h hconf hpaged hstate hhome hplace hback =>
        Tile.configured_of_stays h ⟨hconf, hpaged, hstate, hhome, hplace, hback⟩,
      fun h hlost => Tile.configured_of_not_stays h ?_⟩
    rintro ⟨hconf, hpaged, hstate, hhome, hplace, hback⟩
    rcases hlost with h | h | h | h | h | h
    · simp [hconf] at h
    · simp [hpaged] at h
    · exact h hstate
    · exact h hhome
    · exact h hplace
    · exact h hback

end Sys2Proof.Machine

/-! # Strided and indexed vector accesses (O17) -/

namespace Sys2Proof.Machine

/-- Where an instruction is an issue whose effect on a core is the one named, it completes with what that effect leaves. -/
theorem effects_of_issue {i : Instr} {g : Sig} {body : Body} {s : State} {c : Nat} {eff : List Vec → State → Res State}
    (hexec : exec i s = issue g body s) (hbody : ∀ vs s1, body c vs s1 = eff vs s1) : Effects i s c g eff :=
  fun vs s1 _ hi heff => hexec.trans (issue_next hi ((hbody vs s1).trans heff))

/-- The exact address of a lane, its stride signed, is at 64 bits the sum that wraps (R285). -/
theorem stridedVa_eq_toNat (base stride : Word) (i : Nat) :
    stridedVa base stride i = (base + BitVec.ofNat 64 i * stride).toNat := by
  have hexact : BitVec.ofInt 64 (base.toNat + i * stride.toInt) = base + BitVec.ofNat 64 i * stride := by
    rw [BitVec.ofInt_add, BitVec.ofInt_mul, BitVec.ofInt_natCast, BitVec.ofInt_natCast, BitVec.ofInt_toInt,
      BitVec.ofNat_toNat, BitVec.setWidth_eq]
  rw [← hexact, BitVec.toNat_ofInt]
  rfl

/-- Settles O17: each form is an issue. The lanes of the strided forms lie at their wrapped sums; those of a gather or scatter, and
the lanes that it drops, are as `gatherPlan` gives them. -/
theorem stridedAndIndexedAccessesComplete : Obligations.StridedAndIndexedAccessesComplete := by
  intro d a b t m cp kb i e s c
  refine ⟨fun _ => ?vlss, fun _ => ?vsss, ?vgth, ?vsct⟩
  case vlss =>
    refine effects_of_issue (exec_vlss d a b t cp m s) fun vs s1 => ?_
    simp only [stridedVa_eq_toNat]
    rfl
  case vsss =>
    refine effects_of_issue (exec_vsss d a b t cp m s) fun vs s1 => ?_
    simp only [stridedVa_eq_toNat]
    rfl
  case vgth => exact effects_of_issue (exec_vgth d a b kb i e m s) fun _ _ => rfl
  case vsct => exact effects_of_issue (exec_vsct d a b kb i e m s) fun _ _ => rfl

end Sys2Proof.Machine

/-! # What each atomic operation writes (O20) -/

namespace Sys2Proof.Machine

/-! ### The operations on whole numbers (06 R142)

The operation on the numbers of two words of `n` bits is the one on the words; the comparisons decide alike. -/

section
variable {n : Nat} (old v : BitVec n)

theorem ofNat_toNat_same : BitVec.ofNat n v.toNat = v := by
  rw [BitVec.ofNat_toNat, BitVec.setWidth_eq]

theorem ofNat_ite_toNat (c : Prop) [Decidable c] (x y : BitVec n) :
    BitVec.ofNat n (if c then x.toNat else y.toNat) = if c then x else y := by
  rw [← apply_ite BitVec.toNat, ofNat_toNat_same]

theorem sint_lt_iff_slt (hn : 0 < n) (x y : BitVec n) : sint x.toNat n < sint y.toNat n ↔ x.slt y = true := by
  rw [sint_eq_toInt _ _ hn, sint_eq_toInt _ _ hn, ofNat_toNat_same, ofNat_toNat_same, BitVec.slt_iff_toInt_lt]

theorem atomicNew_add : BitVec.ofNat n (atomicNew n 0 old.toNat v.toNat) = old + v := by
  apply BitVec.eq_of_toNat_eq
  simp [atomicNew]

theorem atomicNew_and : BitVec.ofNat n (atomicNew n 1 old.toNat v.toNat) = old &&& v := by
  rw [atomicNew, ← BitVec.toNat_and, ofNat_toNat_same]

theorem atomicNew_or : BitVec.ofNat n (atomicNew n 2 old.toNat v.toNat) = old ||| v := by
  rw [atomicNew, ← BitVec.toNat_or, ofNat_toNat_same]

theorem atomicNew_xor : BitVec.ofNat n (atomicNew n 3 old.toNat v.toNat) = old ^^^ v := by
  rw [atomicNew, ← BitVec.toNat_xor, ofNat_toNat_same]

theorem atomicNew_min (hn : 0 < n) : BitVec.ofNat n (atomicNew n 4 old.toNat v.toNat) = if v.slt old then v else old := by
  simp only [atomicNew, ofNat_ite_toNat, sint_lt_iff_slt hn]

theorem atomicNew_max (hn : 0 < n) : BitVec.ofNat n (atomicNew n 5 old.toNat v.toNat) = if old.slt v then v else old := by
  simp only [atomicNew, ofNat_ite_toNat, sint_lt_iff_slt hn]

theorem atomicNew_minz : BitVec.ofNat n (atomicNew n 6 old.toNat v.toNat) = if v.ult old then v else old := by
  simp only [atomicNew, ofNat_ite_toNat, BitVec.ult_iff_lt, BitVec.lt_def]

theorem atomicNew_maxz : BitVec.ofNat n (atomicNew n 7 old.toNat v.toNat) = if old.ult v then v else old := by
  simp only [atomicNew, ofNat_ite_toNat, BitVec.ult_iff_lt, BitVec.lt_def]

theorem atomicNew_swap : BitVec.ofNat n (atomicNew n 8 old.toNat v.toNat) = v := by
  rw [atomicNew, ofNat_toNat_same]

theorem atomicNew_incw : BitVec.ofNat n (atomicNew n 10 old.toNat v.toNat) = if v.ule old then 0 else old + 1 := by
  apply BitVec.eq_of_toNat_eq
  by_cases h : v.toNat ≤ old.toNat <;> simp [atomicNew, BitVec.ule_iff_le, BitVec.le_def, h]

theorem ofNat_casNew (desired : BitVec n) :
    BitVec.ofNat n (casNew v.toNat desired.toNat old.toNat) = if old = v then desired else old := by
  simp only [casNew, ofNat_ite_toNat, BitVec.toNat_inj]

end

/-! ### The sum of two FP32 numbers (06 R143, 10 R263)

A pattern's exponent and fraction say whether it is a NaN, an infinity or a finite number, and its top bit is the sign alone. -/

/-- A number that is neither NaN nor infinite. -/
def Fp.finite : Fp → Bool
  | .nan | .inf _ => false
  | .zero _ | .num _ _ _ => true

section
variable {f : Format} {x y : Nat}

theorem Format.unpack_nan (hinf : f.hasInf = true) (hexp : bits x f.fracBits f.expBits = 2 ^ f.expBits - 1)
    (hfrac : x % 2 ^ f.fracBits ≠ 0) : f.unpack x = .nan := by
  rw [Format.unpack, if_pos ⟨hexp, hinf⟩, if_neg hfrac]

theorem Format.unpack_inf (hinf : f.hasInf = true) (hexp : bits x f.fracBits f.expBits = 2 ^ f.expBits - 1)
    (hfrac : x % 2 ^ f.fracBits = 0) : f.unpack x = .inf (bit x (f.expBits + f.fracBits)) := by
  rw [Format.unpack, if_pos ⟨hexp, hinf⟩, if_pos hfrac]

theorem Format.unpack_finite (hexp : bits x f.fracBits f.expBits ≠ 2 ^ f.expBits - 1) : (f.unpack x).finite = true := by
  rw [Format.unpack, if_neg (fun h => hexp h.1), if_neg (fun h => hexp h.1)]
  split
  · split <;> rfl
  · rfl

/-- Patterns that differ in the sign alone are a number and its negative. -/
theorem Format.unpack_opposite (hexp : bits y f.fracBits f.expBits = bits x f.fracBits f.expBits)
    (hfrac : y % 2 ^ f.fracBits = x % 2 ^ f.fracBits)
    (hsign : bit y (f.expBits + f.fracBits) = !bit x (f.expBits + f.fracBits)) : f.unpack y = (f.unpack x).neg := by
  simp only [Format.unpack, hexp, hfrac, hsign, apply_ite Fp.neg]
  rfl

theorem scaled_not (neg : Bool) (m : Nat) (e u : Int) : scaled (!neg) m e u = -scaled neg m e u := by
  cases neg with
  | false => rfl
  | true => exact (Int.neg_neg _).symm

/-- A finite number and its negative cancel to the exact zero of the mode (R263). -/
theorem Fp.add_neg_self (rm : Rm) {z : Fp} (h : z.finite = true) : Fp.add rm z z.neg = .zero (rm == .dn) := by
  cases z with
  | nan => cases h
  | inf s => cases h
  | zero s => cases s <;> rfl
  | num s m e =>
    rw [Fp.neg, Fp.add, ite_self, scaled_not, Int.add_right_neg, Fp.ofInt, if_pos rfl]

theorem Fp.add_nan_right (rm : Rm) (z : Fp) : Fp.add rm z .nan = .nan := by
  cases z <;> rfl

theorem Fp.add_inf_opposite (rm : Rm) (s : Bool) : Fp.add rm (.inf s) (.inf !s) = .nan := by
  cases s <;> rfl

theorem fp32_unpack_nan (h : 0x7F800000 < x % 2 ^ 31) : fp32.unpack x = .nan := by
  have hexp : bits x 23 8 = 2 ^ 8 - 1 := by rw [bits_eq_div_mod]; omega
  have hfrac : x % 2 ^ 23 ≠ 0 := by omega
  exact Format.unpack_nan rfl hexp hfrac

theorem fp32_unpack_inf (h : x % 2 ^ 31 = 0x7F800000) : fp32.unpack x = .inf (bit x 31) := by
  have hexp : bits x 23 8 = 2 ^ 8 - 1 := by rw [bits_eq_div_mod]; omega
  have hfrac : x % 2 ^ 23 = 0 := by omega
  exact Format.unpack_inf rfl hexp hfrac

theorem fp32_unpack_finite (h : x % 2 ^ 31 < 0x7F800000) : (fp32.unpack x).finite = true := by
  have hexp : bits x 23 8 ≠ 2 ^ 8 - 1 := by rw [bits_eq_div_mod]; omega
  exact Format.unpack_finite hexp

theorem fp32_unpack_opposite (hmag : x % 2 ^ 31 = y % 2 ^ 31) (hsign : bit y 31 = !bit x 31) :
    fp32.unpack y = (fp32.unpack x).neg := by
  have hexp : bits y 23 8 = bits x 23 8 := by rw [bits_eq_div_mod, bits_eq_div_mod]; omega
  have hfrac : y % 2 ^ 23 = x % 2 ^ 23 := by omega
  exact Format.unpack_opposite hexp hfrac hsign

theorem fadd32_nan (h : 0x7F800000 < x % 2 ^ 31 ∨ 0x7F800000 < y % 2 ^ 31) : fadd32 x y = 0x7FC00000 := by
  rcases h with h | h
  · rw [fadd32, fp32_unpack_nan h]
    rfl
  · rw [fadd32, fp32_unpack_nan h, Fp.add_nan_right]
    rfl

theorem fadd32_cancel (hmag : x % 2 ^ 31 = y % 2 ^ 31) (hsign : bit y 31 = !bit x 31) (hfin : x % 2 ^ 31 < 0x7F800000) :
    fadd32 x y = 0 := by
  rw [fadd32, fp32_unpack_opposite hmag hsign, Fp.add_neg_self .rne (fp32_unpack_finite hfin)]
  rfl

theorem fadd32_inf_opposite (hmag : x % 2 ^ 31 = y % 2 ^ 31) (hsign : bit y 31 = !bit x 31) (hinf : x % 2 ^ 31 = 0x7F800000) :
    fadd32 x y = 0x7FC00000 := by
  rw [fadd32, fp32_unpack_inf hinf, fp32_unpack_inf (hmag ▸ hinf), hsign, Fp.add_inf_opposite]
  rfl

theorem fadd32_negative_zeros : fadd32 0x80000000 0x80000000 = 0x80000000 := rfl

/-- Words that differ in their top bit alone. -/
theorem bit_31_opposite {a b : BitVec 32} (hne : a ≠ b) (hmag : a.toNat % 2 ^ 31 = b.toNat % 2 ^ 31) :
    bit b.toNat 31 = !bit a.toNat 31 := by
  have hdiff : a.toNat ≠ b.toNat := fun h => hne (BitVec.eq_of_toNat_eq h)
  have htop : (b.toNat >>> 31 % 2 = 1) ↔ ¬ (a.toNat >>> 31 % 2 = 1) := by omega
  rw [bit, bit, ← decide_not]
  exact decide_eq_decide.mpr htop

end

/-- Settles O20, one operation at a time; a sum follows from what its operands' patterns unpack to. -/
theorem atomicOperations : Obligations.AtomicOperations := by
  intro n old v desired hn new
  have hpos : 0 < n := by omega
  refine ⟨atomicNew_add old v, atomicNew_and old v, atomicNew_or old v, atomicNew_xor old v, atomicNew_min old v hpos,
    atomicNew_max old v hpos, atomicNew_minz old v, atomicNew_maxz old v, atomicNew_swap old v, atomicNew_incw old v, ?fadd,
    ofNat_casNew old v desired⟩
  case fadd =>
    rintro rfl
    have hnew : ∀ {r : Nat}, fadd32 old.toNat v.toNat = r → new 9 = BitVec.ofNat 32 r := fun h => congrArg (BitVec.ofNat 32) h
    refine ⟨rfl, fun hnan => hnew (fadd32_nan hnan),
      fun hne hmag hfin => hnew (fadd32_cancel hmag (bit_31_opposite hne hmag) hfin),
      fun hne hmag hinf => hnew (fadd32_inf_opposite hmag (bit_31_opposite hne hmag) hinf), ?_⟩
    rintro rfl rfl
    exact hnew fadd32_negative_zeros

end Sys2Proof.Machine

/-! # An atomic on the core's own scratchpad (O23) -/

namespace Sys2Proof.Machine

/-! ### Where the own scratchpad lies (01 R15, R17, R19) -/

theorem rowOf_ownScratch {off : Nat} (h : off < 0x40000) : rowOf (localLoc + off) = some ⟨.ownScratch, localLoc, 0x40000⟩ := by
  have hloc : localLoc = 0xFEF0000000000000 := rfl
  have hlow : ¬ localLoc + off < 2 ^ 53 := by omega
  have hwindows : ¬ (localLoc + off < 0xFE00000000000000 ∨ 0xFF00000000000000 ≤ localLoc + off) := by omega
  have hlocal : localLoc ≤ localLoc + off ∧ localLoc + off < localLoc + 0x2000000 := by omega
  rw [rowOf, if_neg hlow, if_neg hwindows]
  dsimp only
  rw [if_neg (by omega), if_neg (by omega), if_neg (by omega), if_neg (by omega), if_pos hlocal, Nat.add_sub_cancel_left, localRow,
    if_pos h]
  rfl

theorem regionOf_scratchLoc {c off : Nat} (hc : c < 256) (hoff : off < 0x40000) :
    regionOf (scratchLoc c + off) = .scratch c off := by
  have hlow : ¬ scratchLoc c + off < 2 ^ 53 := by rw [scratchLoc]; omega
  have hhigh : scratchLoc c + off < 2 ^ 64 := by rw [scratchLoc]; omega
  have hplace : scratchLoc c + off - 0xFE00000000000000 = c * 0x100000 + off := by rw [scratchLoc]; omega
  have hpads : c * 0x100000 + off < 0x10000000 := by omega
  have hcore : (c * 0x100000 + off) / 0x100000 = c := by omega
  have hin : (c * 0x100000 + off) % 0x100000 = off := by omega
  rw [regionOf, if_neg hlow, if_neg (by omega), if_neg (by omega), if_neg (by omega), if_neg (by omega)]
  simp only [hplace, if_pos hpads, hcore, hin]

/-- The local window begins where every natural alignment of 4 or 8 bytes does. -/
theorem localLoc_add_mod {off n : Nat} (hn : n = 4 ∨ n = 8) (halign : off % n = 0) : (localLoc + off) % n = 0 := by
  rw [localLoc]
  rcases hn with rfl | rfl <;> omega

/-- The piece of an access to the own scratchpad. -/
def ownPiece (c off n : Nat) : Piece :=
  { loc := scratchLoc c + off, len := n, off := 0, va := localLoc + off, paged := false, order := .rc, cache := 2, amo := 0,
    hostb := false, size := 0, alloc := false }

/-- An access within the own scratchpad that keeps its alignment reaches it, whoever of the core's agents makes it (R41). -/
theorem checkAccess_ownScratch {s : State} {a : Access} {off : Nat} (hva : a.va = localLoc + off) (hoff : off < 0x40000)
    (hend : off + a.len ≤ 0x40000) (halign : a.va % a.align = 0) (hstruct : a.struct = false)
    (hclear : (s.square (squareOf a.core)).clearing = false) :
    checkAccess s a = .ok (⟨.ownScratch, localLoc, 0x40000⟩, .bytes (accessParts a [ownPiece a.core off a.len]), s) := by
  have hrow : rowOf a.va = some ⟨.ownScratch, localLoc, 0x40000⟩ := hva ▸ rowOf_ownScratch hoff
  have hloc : localLoc = 0xFEF0000000000000 := rfl
  have hlow : ¬ (a.va < 2 ^ 53 ∧ 2 ^ 53 < a.va + a.len) := by omega
  have hrights : windowDenies s a ⟨.ownScratch, localLoc, 0x40000⟩ = .ok () := by simp [windowDenies, hclear]
  have hfits : ¬ a.va + a.len > localLoc + 0x40000 := by omega
  have hplace : rowLoc a.core ⟨.ownScratch, localLoc, 0x40000⟩ + (a.va - localLoc) = scratchLoc a.core + off := by
    rw [hva, Nat.add_sub_cancel_left, rowLoc]
  simp only [checkAccess, hrow, if_neg hlow, halign, hstruct, hrights, if_neg hfits, hplace, ownPiece, ← hva]
  rfl

/-- An access of the task of 4 or 8 bytes that is naturally aligned is one piece (R280). -/
theorem accessParts_aligned {s : State} {c off n : Nat} {kind : AccessKind} {ps : List Piece} (hn : n = 4 ∨ n = 8)
    (halign : off % n = 0) :
    accessParts (taskAccess s c kind (localLoc + off) n n) ps = ps := by
  have hwhole : naturallyAligned (taskAccess s c kind (localLoc + off) n n) = true := by
    have hva := localLoc_add_mod hn halign
    rcases hn with rfl | rfl <;> simp only [naturallyAligned, taskAccess, hva] <;> rfl
  simp [accessParts, hwhole]

/-! ### What an access of the own scratchpad leaves besides its bytes

The access counts what it does, drops cached copies and brings the parity up to date: each of these keeps the bytes of every address
space and the quiet that `Undisturbed` names. -/

/-- The parts of a core that its accesses to its own scratchpad depend on stand. -/
structure Core.SamePort (k k' : Core) : Prop where
  ret : k'.spad.ret = k.spad.ret
  retiring : k'.spad.retiring = k.spad.retiring
  sbuf : k'.sbuf = k.sbuf
  near : k'.near = k.near
  atoms : k'.atoms = k.atoms
  trace : k'.trace = k.trace
  gang : k'.task.gang = k.task.gang

theorem State.core_atoms {s : State} (h : ∀ e ∈ s.cores, e.2.atoms = []) (c : Nat) : (s.core c).atoms = [] := by
  rw [State.core, Table.getD]
  cases hget : Table.get? s.cores c with
  | none => rfl
  | some k => exact h (c, k) (Table.mem_of_get? s.cores c k hget)

theorem Undisturbed.modCore {s : State} {c : Nat} {f : Core → Core} (h : Undisturbed s c)
    (hf : (s.core c).SamePort (f (s.core c))) : Undisturbed (s.modCore c f) c where
  core := h.core
  errors := h.errors
  ret := by rw [State.core_modCore, hf.ret, h.ret]
  retiring := by rw [State.core_modCore, hf.retiring, h.retiring]
  clearing := h.clearing
  sbuf := by rw [State.core_modCore, hf.sbuf, h.sbuf]
  near := by rw [State.core_modCore, hf.near, h.near]
  scOps := h.scOps
  atoms := fun e he => by
    rcases Table.mem_set s.cores c (f (s.core c)) e he with rfl | he
    · rw [hf.atoms, State.core_atoms h.atoms]
    · exact h.atoms e he
  trace := fun o => by
    by_cases ho : o = c
    · rw [ho, State.core_modCore, hf.trace, h.trace]
    · rw [State.core_modCore_other s c o f ho, h.trace]
  solo := by rw [State.core_modCore, hf.gang, h.solo]

/-- The quiet of a core rests on the cores, the squares, the errors and the SC operations alone. -/
theorem Undisturbed.of_same {s t : State} {c : Nat} (h : Undisturbed s c) (hcores : t.cores = s.cores)
    (hsquares : t.squares = s.squares) (herrors : t.errors = s.errors) (hscOps : t.scOps = s.scOps) : Undisturbed t c := by
  have hcore : ∀ o, t.core o = s.core o := fun o => by rw [State.core, State.core, hcores]
  have hsquare : t.square (squareOf c) = s.square (squareOf c) := by rw [State.square, State.square, hsquares]
  obtain ⟨hc, he, hret, hretiring, hclear, hsbuf, hnear, hsc, hatoms, htrace, hsolo⟩ := h
  exact ⟨hc, herrors ▸ he, hcore c ▸ hret, hcore c ▸ hretiring, hsquare ▸ hclear, hcore c ▸ hsbuf, hcore c ▸ hnear,
    hscOps ▸ hsc, hcores ▸ hatoms, fun o => hcore o ▸ htrace o, hcore c ▸ hsolo⟩

theorem Undisturbed.write_iff {s : State} {c : Nat} (a n v : Nat) : Undisturbed (s.write a n v) c ↔ Undisturbed s c :=
  ⟨fun h => h.of_same rfl rfl rfl rfl, fun h => h.of_same rfl rfl rfl rfl⟩

/-- A step from `s` to `t` keeps the bytes below the parity stores (02 R47), the commit of the core's task and its quiet. -/
structure PortUpkeep (c : Nat) (s t : State) : Prop where
  bytes : ∀ x, x < 2 ^ 66 → Mem.byte t.mem x = Mem.byte s.mem x
  committed : (s.core c).task.commit = true → (t.core c).task.commit = true
  quiet : Undisturbed s c → Undisturbed t c

namespace PortUpkeep
variable {c : Nat} {s t u : State}

theorem refl (c : Nat) (s : State) : PortUpkeep c s s := ⟨fun _ _ => rfl, id, id⟩

theorem trans (h : PortUpkeep c s t) (g : PortUpkeep c t u) : PortUpkeep c s u :=
  ⟨fun x hx => (g.bytes x hx).trans (h.bytes x hx), g.committed ∘ h.committed, g.quiet ∘ h.quiet⟩

theorem modCore {f : Core → Core} (hf : (s.core c).SamePort (f (s.core c)))
    (hcommit : (s.core c).task.commit = true → (f (s.core c)).task.commit = true) : PortUpkeep c s (s.modCore c f) :=
  ⟨fun _ _ => rfl, by rwa [State.core_modCore], fun h => h.modCore hf⟩

theorem dueOnce (d : Due) : PortUpkeep c s (s.dueOnce d) := by
  rw [State.dueOnce]
  split
  · exact refl c s
  · exact ⟨fun _ _ => rfl, id, fun h => h.of_same rfl rfl rfl rfl⟩

/-- A write of the parity stores, which lie above every address space. -/
theorem write_above {a : Nat} (ha : 2 ^ 66 ≤ a) (n v : Nat) : PortUpkeep c s (s.write a n v) :=
  ⟨fun x hx => by rw [State.write_mem, Mem.byte_write, if_neg (by omega)], id, (Undisturbed.write_iff a n v).mpr⟩

theorem ite {p : Prop} [Decidable p] (ht : PortUpkeep c s t) (hu : PortUpkeep c s u) : PortUpkeep c s (if p then t else u) := by
  split
  · exact ht
  · exact hu

theorem foldl {α : Type} {f : State → α → State} (hf : ∀ s e, PortUpkeep c s (f s e)) (l : List α) (s : State) :
    PortUpkeep c s (l.foldl f s) := by
  induction l generalizing s with
  | nil => exact refl c s
  | cons e l ih => exact (hf s e).trans (ih (f s e))

/-- The same bytes written before and after. -/
theorem write (h : PortUpkeep c s t) (a n v : Nat) : PortUpkeep c (s.write a n v) (t.write a n v) where
  bytes x hx := by rw [State.write_mem, State.write_mem, Mem.byte_write, Mem.byte_write, h.bytes x hx]
  committed := h.committed
  quiet hs := (Undisturbed.write_iff a n v).mpr (h.quiet ((Undisturbed.write_iff a n v).mp hs))

theorem read_eq (h : PortUpkeep c s t) {a n : Nat} (hend : a + n ≤ 2 ^ 66) : t.read a n = s.read a n := by
  have hbytes : Mem.bytes t.mem a n = Mem.bytes s.mem a n := by
    induction n generalizing a with
    | zero => rfl
    | succ n ih => rw [Mem.bytes, Mem.bytes, h.bytes a (by omega), ih (by omega)]
  rw [State.read, State.read, Mem.read, Mem.read, hbytes]

end PortUpkeep

section
variable (s : State) (c : Nat)

theorem evCount_upkeep (code n : Nat) : PortUpkeep c s (s.evCount c code n) := by
  rw [State.evCount]
  exact .ite (.modCore ⟨rfl, rfl, rfl, rfl, rfl, rfl, rfl⟩ id) (.refl c s)

theorem l1dInvalidate_upkeep (job va len : Nat) : PortUpkeep c s (l1dInvalidate s c job va len) :=
  .ite (.modCore ⟨rfl, rfl, rfl, rfl, rfl, rfl, rfl⟩ id) (.refl c s)

theorem bytesCharged_upkeep {a : Access} (ha : a.core = c) (loc n : Nat) : PortUpkeep c s (bytesCharged s a loc n) := by
  subst ha
  have hcharged : ∀ pad, PortUpkeep a.core s (s.modCore a.core (fun k =>
      let k1 := k.charge k.task.job (tyNrg k.task.entry) 8 n
      if pad = 0 then k1 else k1.charge k.task.job (tyNrg k.task.entry) 14 pad)) := fun pad => by
    by_cases hpad : pad = 0
    · simp only [if_pos hpad]
      exact .modCore ⟨rfl, rfl, rfl, rfl, rfl, rfl, rfl⟩ id
    · simp only [if_neg hpad]
      exact .modCore ⟨rfl, rfl, rfl, rfl, rfl, rfl, rfl⟩ id
  rw [bytesCharged]
  split
  case h_5 => exact .refl a.core s
  all_goals exact hcharged _

theorem parityLoc_ge (g w : Nat) : 2 ^ 66 ≤ parityLoc c g w := by rw [parityLoc]; omega

theorem landParity_upkeep (g : Nat) : PortUpkeep c s (landParity s c g) := by
  rw [landParity]
  split
  · exact .refl c s
  · exact (PortUpkeep.write_above (parityLoc_ge c g _) _ _).trans (.modCore ⟨rfl, rfl, rfl, rfl, rfl, rfl, rfl⟩ id)

theorem parityAfter_upkeep (row old : Nat) : PortUpkeep c s (parityAfter s c row old) := by
  rw [parityAfter]
  dsimp only
  refine .ite (.refl c s) (.ite (.write_above (parityLoc_ge c _ _) _ _) ?_)
  exact (PortUpkeep.ite (landParity_upkeep s c _) (.refl c s)).trans
    ((PortUpkeep.modCore ⟨rfl, rfl, rfl, rfl, rfl, rfl, rfl⟩ id).trans (.dueOnce _))

theorem spadWrite_upkeep (loc n v : Nat) : PortUpkeep c (s.write loc n v) (spadWrite s c loc n v) := by
  have hrow : ∀ (s : State) (e : Nat × Nat), PortUpkeep c s (parityAfter s c e.1 e.2) := fun s e =>
    parityAfter_upkeep s c e.1 e.2
  unfold spadWrite
  exact .foldl hrow _ _

end

theorem commit_upkeep (s : State) (c : Nat) : PortUpkeep c s (commit s c) :=
  .modCore ⟨rfl, rfl, rfl, rfl, rfl, rfl, rfl⟩ fun _ => rfl

theorem commit_committed (s : State) (c : Nat) : ((commit s c).core c).task.commit = true := by
  rw [commit, State.core_modCore]

/-! ### The atomic at its home (06 R145) -/

theorem orderBefore_undisturbed {s : State} {c : Nat} (h : Undisturbed s c) (ps : List Piece) : orderBefore s c ps = .ok s := by
  have hwait : orderWait s c ps = .ok () := by simp [orderWait, h.scOps, h.near]
  rw [orderBefore, Res.bind_of_ok _ hwait]
  exact if_pos h.sbuf

theorem revoked_of_no_atoms {s : State} (h : ∀ e ∈ s.cores, e.2.atoms = []) (own : Option Nat) (loc n : Nat) :
    revoked s own loc n = s := by
  have hnone : (s.cores.any fun e => e.2.atoms.any fun e => decide (loc < e.loc + 64 ∧ e.loc < loc + n)) = false :=
    List.any_eq_false.mpr fun e he => by simp [h e he]
  rw [revoked]
  dsimp only
  rw [hnone]
  rfl

@[simp] theorem metAlloc_ok {α : Type} (alloc : Bool) (x : α) : metAlloc alloc (.ok x : Res α) = .ok x := rfl

section
variable {s : State} {c pos : Nat} (h : Undisturbed s c) {p : Piece} (hp : regionOf p.loc = .scratch c pos)
include h hp

theorem portCheck_ownScratch (n va : Nat) (write : Bool) : portCheck s c p.loc n va write = .ok s := by
  rw [portCheck, hp]
  exact if_pos ⟨h.errors, h.ret, h.retiring⟩

theorem traced_ownScratch (a : Access) (kind n : Nat) : traced s a kind p.loc n = s := by
  simp [traced, hp, h.trace]

theorem mirrorPiece_ownScratch {a : Access} (ha : a.core = c) : mirrorPiece s a p = none := by
  have halone : checkerOf s c = none := by simp [checkerOf, h.solo]
  simp [mirrorPiece, mirrorCore, hp, ha, halone]

theorem checkerRead_ownScratch {a : Access} (ha : a.core = c) (v : Nat) : checkerRead s a p v = .ok s := by
  rw [checkerRead, mirrorPiece_ownScratch h hp ha]

theorem checkerWrite_ownScratch {a : Access} (ha : a.core = c) (v : Nat) : checkerWrite s a p v = .ok s := by
  rw [checkerWrite, mirrorPiece_ownScratch h hp ha]

/-- An access of the own scratchpad is served at once. -/
theorem served_ownScratch {a : Access} (ha : a.core = c) (kind : AccessKind) :
    ∃ t, served s a kind p = .ok t ∧ PortUpkeep c s t := by
  have hcharged := bytesCharged_upkeep s c ha p.loc p.len
  refine ⟨_, ?_, hcharged⟩
  have hport := portCheck_ownScratch (hcharged.quiet h) hp p.len p.va
  rw [served, revoked_of_no_atoms h.atoms, ha, hport, hp, metAlloc_ok, Res.bind_of_ok _ rfl]
  by_cases hkind : kind = .atomic
  · simp only [if_pos hkind, hport, metAlloc_ok]
    rfl
  · simp only [if_neg hkind]
    rfl

omit h in
/-- No other core's interface takes part in it. -/
theorem remoteServed_ownScratch : remoteServed (remoteSent s c [p]) c [p] = s := by
  have howner : remoteOwner c p.loc = none := by simp [remoteOwner, hp]
  simp [remoteServed, remoteSent, howner]

end

/-- An atomic on the own scratchpad gives the old value and writes the new one. -/
theorem atomicAt_ownScratch {s : State} {c pos : Nat} {p : Piece} {a : Access} (h : Undisturbed s c)
    (hp : regionOf p.loc = .scratch c pos) (hend : p.loc + p.len ≤ 2 ^ 66) (ha : a.core = c) (kind : Nat) (o : AtomicOp) :
    ∃ t, atomicAt s a kind false p o = .ok (s.read p.loc p.len, t) ∧
      PortUpkeep c (s.write p.loc p.len (o.new (8 * p.len) (s.read p.loc p.len))) t := by
  obtain ⟨s2, hserved, hs2⟩ := served_ownScratch h hp ha .atomic
  have hold : s2.read p.loc p.len = s.read p.loc p.len := hs2.read_eq hend
  have hput : ∀ v, putBytes s2 p.loc p.len v = spadWrite s2 c p.loc p.len v := fun v => by rw [putBytes, hp]
  have hwritten : ∀ v, PortUpkeep c (s.write p.loc p.len v) (spadWrite s2 c p.loc p.len v) := fun v =>
    (hs2.write p.loc p.len v).trans (spadWrite_upkeep s2 c p.loc p.len v)
  generalize hnew : o.new (8 * p.len) (s.read p.loc p.len) = new
  have hquiet := (hwritten new).quiet ((Undisturbed.write_iff _ _ _).mpr h)
  have hcounted := evCount_upkeep (spadWrite s2 c p.loc p.len new) c 0x11 1
  rw [atomicAt, if_neg Bool.false_ne_true, Res.bind_of_ok _ hserved]
  dsimp only
  rw [hold, Res.bind_of_ok _ (checkerRead_ownScratch (hs2.quiet h) hp ha _), hnew, hput,
    Res.bind_of_ok _ (checkerWrite_ownScratch hquiet hp ha _), ha]
  by_cases hown : ownAgent a = none
  · rw [if_pos hown, traced_ownScratch hquiet hp]
    exact ⟨_, rfl, hwritten new⟩
  · rw [if_neg hown, if_neg Bool.false_ne_true, remoteServed_ownScratch hp,
      traced_ownScratch (hcounted.quiet hquiet) hp]
    exact ⟨_, rfl, (hwritten new).trans hcounted⟩

/-- An atomic on a piece outside paged space performs at the home, whatever its page would ask (R145). -/
theorem atomicData_unpaged {s s1 s2 t : State} {a : Access} {r : Row} {p : Piece} {o : AtomicOp} {kind old : Nat}
    {sc acquire : Bool} {log : Option Nat} (hcheck : checkAccess s a = .ok (r, .bytes [p], s1))
    (horder : orderBefore s1 a.core [p] = .ok s2) (hp : p.paged = false)
    (hperform : atomicAt (commit (l1dInvalidate s2 a.core a.job a.va a.len) a.core) a kind false p o = .ok (old, t)) :
    atomicData s a o kind sc acquire log = .ok (.done old t) := by
  have hunpaged : ¬ p.paged = true := by simp [hp]
  rw [atomicData, Res.bind_of_ok _ hcheck]
  dsimp only
  rw [Res.bind_of_ok _ horder, if_pos (.inl hunpaged), Res.bind_of_ok _ hperform]
  rfl

/-- An atomic of the task on its own scratchpad performs at once, whatever its operation, and passes the commit point (R145,
R179). -/
theorem atomicData_ownScratch {s : State} {c off n : Nat} (h : Undisturbed s c) (hn : n = 4 ∨ n = 8) (halign : off % n = 0)
    (hend : off + n ≤ 0x40000) (o : AtomicOp) (kind : Nat) (sc acquire : Bool) (log : Option Nat) :
    ∃ t, atomicData s (taskAccess s c .atomic (localLoc + off) n n) o kind sc acquire log =
        .ok (.done (s.read (scratchLoc c + off) n) t) ∧
      PortUpkeep c (s.write (scratchLoc c + off) n (o.new (8 * n) (s.read (scratchLoc c + off) n))) t ∧
      (t.core c).task.commit = true := by
  have hoff : off < 0x40000 := by omega
  have hcheck := checkAccess_ownScratch (s := s) (a := taskAccess s c .atomic (localLoc + off) n n) rfl hoff hend
    (localLoc_add_mod hn halign) rfl h.clearing
  rw [accessParts_aligned hn halign] at hcheck
  have hready := (l1dInvalidate_upkeep s c (s.core c).task.job (localLoc + off) n).trans (commit_upkeep _ c)
  have hregion : regionOf (ownPiece c off n).loc = .scratch c off := regionOf_scratchLoc h.core hoff
  have hbelow : (ownPiece c off n).loc + (ownPiece c off n).len ≤ 2 ^ 66 := by
    have hcore : c < 256 := h.core
    simp only [ownPiece, scratchLoc]
    omega
  obtain ⟨t, hperform, ht⟩ := atomicAt_ownScratch (a := taskAccess s c .atomic (localLoc + off) n n) (hready.quiet h) hregion
    hbelow rfl kind o
  rw [hready.read_eq hbelow] at hperform ht
  refine ⟨t, ?_, (hready.write _ _ _).trans ht, ht.committed (commit_committed _ c)⟩
  exact atomicData_unpaged hcheck (orderBefore_undisturbed h _) rfl hperform

/-- Settles O23: the atomic performs at once, and what it does besides its write is the upkeep of the port. -/
theorem scratchpadAtomic : Obligations.ScratchpadAtomic := by
  intro op s c off n v h hn halign hend
  obtain ⟨t, hperform, ht, hcommit⟩ := atomicData_ownScratch h hn halign hend
    { op := op, operand := v, expected := none } 2 false false none
  have hcore : c < 256 := h.core
  refine ⟨t, hperform, ?new, fun x hx hother => ?frame, hcommit⟩
  case new => rw [ht.read_eq (by rw [scratchLoc]; omega), State.read_write]; rfl
  case frame => rw [ht.read_eq (by omega), State.read_write_other _ _ _ _ _ hother]

end Sys2Proof.Machine

namespace Sys2Proof.Machine

/-! # A trap that no trap entry handles (O35)

A unit that ends reports first and leaves its core last. So two frames are wanted: what the reports, the fault buffer and the reads that a
fault has met on its way leave of the cores, and what the core's neighbours and its square do once it is IDLE. -/

/-! ### What the homes leave of the cores -/

/-- A core differs at most in its event counters, its atomic buffer and its predictor. -/
def OwnershipOnly (k k' : Core) : Prop := k' = { k with evc := k'.evc, atoms := k'.atoms, preds := k'.preds }

/-- What the accesses of the hardware at their homes do to the cores: blocks that they own are revoked (06 R148). -/
def HomeUpkeep (s0 s : State) : Prop := ∀ c, OwnershipOnly (s0.core c) (s.core c)

namespace HomeUpkeep
variable {s0 s t : State}

theorem refl (s : State) : HomeUpkeep s s := fun _ => rfl

theorem of_cores (h : HomeUpkeep s0 s) (hcores : t.cores = s.cores) : HomeUpkeep s0 t := fun c => by
  have hcore : t.core c = s.core c := by rw [State.core, State.core, hcores]
  rw [hcore]
  exact h c

theorem trans (h : HomeUpkeep s0 s) (g : HomeUpkeep s t) : HomeUpkeep s0 t := fun c => by
  have hs := h c
  have ht := g c
  unfold OwnershipOnly at *
  rw [hs] at ht
  exact ht

theorem ite {p : Prop} [Decidable p] (hs : HomeUpkeep s0 s) (ht : HomeUpkeep s0 t) : HomeUpkeep s0 (if p then s else t) := by
  split
  · exact hs
  · exact ht

theorem foldl {α : Type} {f : State → α → State} (hf : ∀ s a, HomeUpkeep s0 s → HomeUpkeep s0 (f s a)) {l : List α} {s : State}
    (h : HomeUpkeep s0 s) : HomeUpkeep s0 (l.foldl f s) := by
  induction l generalizing s with
  | nil => exact h
  | cons a l ih => exact ih (hf s a h)

theorem modDie (h : HomeUpkeep s0 s) {d : Nat} {f : Die → Die} : HomeUpkeep s0 (s.modDie d f) := h.of_cores rfl
theorem modJob (h : HomeUpkeep s0 s) {j : Nat} {f : JobRegs → JobRegs} : HomeUpkeep s0 (s.modJob j f) := h.of_cores rfl
theorem write (h : HomeUpkeep s0 s) {a n v : Nat} : HomeUpkeep s0 (s.write a n v) := h.of_cores rfl
theorem due (h : HomeUpkeep s0 s) {d : Due} : HomeUpkeep s0 (s.due d) := h.of_cores rfl
theorem poison (h : HomeUpkeep s0 s) {l : List Nat} : HomeUpkeep s0 { s with poison := l } := h.of_cores rfl
theorem boosts (h : HomeUpkeep s0 s) {l : List (Nat × Nat × Nat)} : HomeUpkeep s0 { s with boosts := l } := h.of_cores rfl
theorem mcCount (h : HomeUpkeep s0 s) {n : Nat} : HomeUpkeep s0 { s with mcCount := n } := h.of_cores rfl
theorem unitMended (h : HomeUpkeep s0 s) {u at_ : Nat} : HomeUpkeep s0 (unitMended s u at_) := h.of_cores rfl
theorem dueOnce (h : HomeUpkeep s0 s) {d : Due} : HomeUpkeep s0 (s.dueOnce d) := .ite h h.due

theorem regs (h : HomeUpkeep s0 s) (c : Nat) : (s.core c).regs = (s0.core c).regs := by rw [h c]
theorem trap (h : HomeUpkeep s0 s) (c : Nat) : (s.core c).trap = (s0.core c).trap := by rw [h c]
theorem task (h : HomeUpkeep s0 s) (c : Nat) : (s.core c).task = (s0.core c).task := by rw [h c]
theorem pipe (h : HomeUpkeep s0 s) (c : Nat) : (s.core c).pipe = (s0.core c).pipe := by rw [h c]

end HomeUpkeep

/-- What holds of every value that a part of an instruction answers. -/
def Answers {ε α : Type} (P : α → Prop) (x : Except ε α) : Prop := ∀ a, x = .ok a → P a

namespace Answers
variable {ε α β : Type} {P : α → Prop} {Q : β → Prop}

theorem ok {a : α} (h : P a) : Answers P (.ok a : Except ε α) := fun _ e => Except.ok.inj e ▸ h

theorem error {e : ε} : Answers P (.error e) := nofun

theorem bind {x : Except ε α} {k : α → Except ε β} (hx : Answers P x) (hk : ∀ a, P a → Answers Q (k a)) : Answers Q (x >>= k) := by
  cases x with
  | error e => exact error
  | ok a => exact hk a (hx a rfl)

/-- A check before the rest. -/
theorem check {x : Except ε α} {k : α → Except ε β} (hk : ∀ a, Answers Q (k a)) : Answers Q (x >>= k) :=
  bind (P := fun _ => True) (fun _ _ => trivial) fun a _ => hk a

theorem ite {c : Prop} [Decidable c] {x y : Except ε α} (hx : Answers P x) (hy : Answers P y) :
    Answers P (if c then x else y) := by
  split
  · exact hx
  · exact hy

theorem metAlloc {x : Res α} {b : Bool} (h : Answers P x) : Answers P (metAlloc b x) := by
  unfold Machine.metAlloc
  split
  · exact error
  · exact h

theorem afterMet {x : Res α} {m : Met} (h : Answers P x) : Answers P (afterMet m x) := by
  unfold Machine.afterMet
  split
  · exact error
  · exact h

end Answers

/-- What a map of a table's values does to each of them, it does to what the table answers. -/
theorem Table.getD_map_of_values {α : Type} {R : α → α → Prop} (t : Table α) {f : Nat × α → Nat × α} (hkey : ∀ e, (f e).1 = e.1)
    (hvalue : ∀ e, R e.2 (f e).2) (k : Nat) {d : α} (hd : R d d) : R (Table.getD t k d) (Table.getD (t.map f) k d) := by
  induction t with
  | nil => exact hd
  | cons e t ih =>
    have hkey := hkey e
    have hvalue := hvalue e
    rw [List.map_cons]
    generalize f e = e' at hkey hvalue
    obtain ⟨k₁, v₁⟩ := e
    obtain ⟨k₂, v₂⟩ := e'
    obtain rfl : k₂ = k₁ := hkey
    by_cases hk : k₂ = k
    · simpa [Table.getD, Table.get?, hk] using hvalue
    · simpa [Table.getD, Table.get?, hk] using ih

section
variable {s0 s : State}

theorem evCount_homeUpkeep (h : HomeUpkeep s0 s) {c code n : Nat} : HomeUpkeep s0 (s.evCount c code n) := by
  refine h.trans fun m => ?_
  by_cases hm : m = c
  · subst hm
    rw [OwnershipOnly, evCount_core]
  · rw [(evCount_onlyCore s c code n).others m hm]
    rfl

theorem l2Return_homeUpkeep (h : HomeUpkeep s0 s) {n b : Nat} : HomeUpkeep s0 (l2Return n s b) := h.modDie

theorem l2Access_homeUpkeep (h : HomeUpkeep s0 s) {loc n : Nat} {alloc write back : Bool} :
    HomeUpkeep s0 (l2Access s loc n alloc write back) := h.modDie

/-- Owners lose their blocks: the cores are mapped one by one. -/
theorem HomeUpkeep.mapCores {t : State} (h : HomeUpkeep s0 s) {f : Nat × Core → Nat × Core} (hcores : t.cores = s.cores.map f)
    (hkey : ∀ e, (f e).1 = e.1) (hvalue : ∀ e, OwnershipOnly e.2 (f e).2) : HomeUpkeep s0 t := by
  refine h.trans fun c => ?_
  rw [State.core, State.core, hcores]
  exact Table.getD_map_of_values _ hkey hvalue c rfl

theorem revoked_homeUpkeep (h : HomeUpkeep s0 s) {own : Option Nat} {loc n : Nat} : HomeUpkeep s0 (revoked s own loc n) := by
  unfold revoked
  extract_lets hit lost blocks s1 s2
  have h1 : HomeUpkeep s0 s1 := .foldl (fun _ _ h => evCount_homeUpkeep h) h
  have h2 : HomeUpkeep s0 s2 := by
    refine h1.mapCores rfl (fun e => ?_) (fun e => ?_) <;> dsimp only <;> split <;> rfl
  exact .ite (.foldl (fun _ _ h => l2Return_homeUpkeep h) h2) h

theorem meets_homeUpkeep (h : HomeUpkeep s0 s) {own : Option Nat} {t : TrapInfo} : HomeUpkeep s0 (s.meets own t) :=
  .foldl (fun _ _ h =>
    have h1 := l2Access_homeUpkeep (revoked_homeUpkeep h)
    .ite h1.poison h1) h

theorem homePut_homeUpkeep (h : HomeUpkeep s0 s) {loc n v : Nat} : HomeUpkeep s0 (homePut s loc n v) :=
  (l2Access_homeUpkeep (revoked_homeUpkeep h)).write

theorem ringEnds_homeUpkeep (h : HomeUpkeep s0 s) {base : Nat} {x : Nat × Nat × State} (hends : ringEnds s base = some x) :
    HomeUpkeep s0 x.2.2 := by
  obtain ⟨-, hx⟩ := Option.ite_none_left_eq_some.mp hends
  rw [← Option.some.inj hx]
  exact l2Access_homeUpkeep (revoked_homeUpkeep (.ite h.unitMended h))

theorem telemetry_homeUpkeep (h : HomeUpkeep s0 s) {die kind core job detail : Nat} :
    HomeUpkeep s0 (telemetry s die kind core job detail) := by
  unfold telemetry
  split
  refine .ite h.modDie ?_
  split
  · exact h.modDie
  · next hends =>
    have h1 := ringEnds_homeUpkeep h hends
    exact .ite h1.modDie (homePut_homeUpkeep (homePut_homeUpkeep h1))

theorem eccRecord_homeUpkeep (h : HomeUpkeep s0 s) {core loc : Nat} : HomeUpkeep s0 (eccRecord s core loc) := by
  unfold eccRecord
  split
  · exact telemetry_homeUpkeep h
  · exact h

theorem wordCheck_homeUpkeep (h : HomeUpkeep s0 s) {c loc n va : Nat} {write : Bool} :
    Answers (HomeUpkeep s0 ·) (wordCheck s c loc n va write) := by
  refine .ite (.ok h) (.ite .error (.ok ?_))
  exact (HomeUpkeep.foldl (fun _ _ h => h.unitMended)
    (.foldl (fun _ _ h => .ite (eccRecord_homeUpkeep h.unitMended) h) h)).poison

theorem l2Read_homeUpkeep (h : HomeUpkeep s0 s) {a : Access} {loc n va : Nat} {alloc : Bool} :
    Answers (HomeUpkeep s0 ·.2) (l2Read s a loc n va alloc) :=
  .bind (.metAlloc (wordCheck_homeUpkeep (revoked_homeUpkeep h))) fun _ h1 => .ok (l2Access_homeUpkeep h1)

theorem l2Write_homeUpkeep (h : HomeUpkeep s0 s) {a : Access} {loc n va v : Nat} {alloc : Bool} :
    Answers (HomeUpkeep s0 ·) (l2Write s a loc n va v alloc) :=
  .bind (.metAlloc (wordCheck_homeUpkeep (revoked_homeUpkeep h))) fun _ h1 => .ok (l2Access_homeUpkeep h1).write

end

/-! ### What translation and the checks of an access leave of the cores -/

theorem walkFrom_homeUpkeep {s0 s : State} (h : HomeUpkeep s0 s) {a : Access} {va level table : Nat} {seen : List WalkEntry} :
    Answers (HomeUpkeep s0 ·.2.2) (walkFrom s a va level table seen) := by
  induction level generalizing s table seen with
  | zero =>
    rw [walkFrom]
    refine .bind (l2Read_homeUpkeep h) fun ⟨_, _⟩ h1 => .afterMet (.ite .error (.ite .error ?_))
    split
    · exact .error
    · exact .ok h1
  | succ level ih =>
    rw [walkFrom]
    dsimp only
    split
    · exact ih h
    · refine .bind (l2Read_homeUpkeep h) fun ⟨_, _⟩ h1 => .afterMet (.ite .error (.ite (.ite .error (ih h1)) (.ite ?_ .error)))
      split
      · exact .error
      · exact .ok h1

section
variable {s0 s : State}

theorem translate_homeUpkeep (h : HomeUpkeep s0 s) {a : Access} {va : Nat} : Answers (HomeUpkeep s0 ·.2) (translate s a va) := by
  unfold translate
  dsimp only
  split
  · exact .ok h
  · split
    · exact .error
    · exact .ite .error (.bind (walkFrom_homeUpkeep h) fun _ h1 => .ok h1.modDie)

theorem pagePart_homeUpkeep (h : HomeUpkeep s0 s) {a : Access} {va len off : Nat} :
    Answers (HomeUpkeep s0 ·.2) (pagePart s a va len off) :=
  .bind (translate_homeUpkeep h) fun _ h1 => .ite .error (.ok h1)

theorem hostWriteRecord_homeUpkeep (h : HomeUpkeep s0 s) {a : Access} {p : Piece} : Answers (HomeUpkeep s0 ·) (hostWriteRecord s a p) := by
  unfold hostWriteRecord
  refine .ite (.ok h) ?_
  split
  · exact .ok h
  · refine .ite (.ok h) ?_
    dsimp only
    split
    · exact .error
    · next hends => exact .ite .error (.ok (homePut_homeUpkeep (homePut_homeUpkeep (ringEnds_homeUpkeep h hends))).modDie)

theorem pagedPieces_homeUpkeep (h : HomeUpkeep s0 s) {a : Access} : Answers (HomeUpkeep s0 ·.2) (pagedPieces s a) :=
  .bind (pagePart_homeUpkeep h) fun _ h1 =>
    .ite (.bind (hostWriteRecord_homeUpkeep h1) fun _ h2 => .ok h2)
      (.bind (pagePart_homeUpkeep h1) fun _ h2 =>
        .ite .error (.bind (hostWriteRecord_homeUpkeep h2) fun _ h3 => .bind (hostWriteRecord_homeUpkeep h3) fun _ h4 => .ok h4))

theorem checkAccess_homeUpkeep (h : HomeUpkeep s0 s) {a : Access} : Answers (HomeUpkeep s0 ·.2.2) (checkAccess s a) := by
  unfold checkAccess
  split
  · exact .error
  · refine .ite .error (.ite .error (.ite .error ?_))
    split
    · exact .bind (pagedPieces_homeUpkeep h) fun _ h1 => .ok h1
    · exact .check fun _ => .ok h
    all_goals exact .check fun _ => .ite .error (.ok h)

/-! ### What the hardware's reports leave of the cores -/

theorem queuePush_homeUpkeep (h : HomeUpkeep s0 s) {a : Access} {dloc data : Nat} :
    Answers (HomeUpkeep s0 ·.2) (queuePush s a dloc data) :=
  .bind (l2Read_homeUpkeep h) fun _ h1 =>
    .ite (.ok h1) (.bind (checkAccess_homeUpkeep h1) fun _ h2 =>
      .bind (l2Write_homeUpkeep h2) fun _ h3 =>
        .bind (l2Write_homeUpkeep h3) fun _ h4 => .ok (.ite h4.write.boosts h4.write))

theorem trqPush_homeUpkeep (h : HomeUpkeep s0 s) {r : TrapRec} : HomeUpkeep s0 (trqPush s r).2 := by
  unfold trqPush
  dsimp only
  split
  · split
    · exact meets_homeUpkeep h
    · exact h
  · next hcheck =>
    have h1 := checkAccess_homeUpkeep h _ hcheck
    split
    · exact h1
    · split
      · next hpush => exact queuePush_homeUpkeep h1 _ hpush
      · split
        · exact meets_homeUpkeep h1
        · exact h1

theorem trapRecord_homeUpkeep (h : HomeUpkeep s0 s) {die : Nat} {r : TrapRec} : HomeUpkeep s0 (trapRecord s die r) := by
  unfold trapRecord
  refine .ite h.modJob ?_
  have hpushed := trqPush_homeUpkeep h (r := r)
  split
  · next hpush =>
    rwa [hpush] at hpushed
  · next hpush =>
    rw [hpush] at hpushed
    exact .ite hpushed.modDie.dueOnce hpushed.modJob

theorem machineCheck_homeUpkeep (h : HomeUpkeep s0 s) {c cause : Nat} {pc : Word} : HomeUpkeep s0 (machineCheck s c cause pc) :=
  (trapRecord_homeUpkeep (telemetry_homeUpkeep h)).mcCount

theorem fbEnter_homeUpkeep (h : HomeUpkeep s0 s) {c job : Nat} {t : TrapInfo} : HomeUpkeep s0 (fbEnter s c job t).2 := by
  unfold fbEnter
  dsimp only
  split
  · exact h
  · split
    · exact h
    · exact (homePut_homeUpkeep h).modDie.due

theorem fbHeld_homeUpkeep (h : HomeUpkeep s0 s) {c job : Nat} {t : TrapInfo} : HomeUpkeep s0 (fbHeld s c job t).2 :=
  .ite (fbEnter_homeUpkeep h).modDie (fbEnter_homeUpkeep h)

end

/-! ### The core of a unit that is over (07 R158) -/

/-- The cores keep their modes and the dies what they have. -/
structure SameModes (s t : State) : Prop where
  modes : ∀ m, (t.core m).mode = (s.core m).mode
  dies : t.dies = s.dies

namespace SameModes
variable {s t u : State}

theorem refl (s : State) : SameModes s s := ⟨fun _ => rfl, rfl⟩

theorem trans (h : SameModes s t) (g : SameModes t u) : SameModes s u :=
  ⟨fun m => (g.modes m).trans (h.modes m), g.dies.trans h.dies⟩

theorem dueOnce (s : State) (d : Due) : SameModes s (s.dueOnce d) := by
  rw [State.dueOnce]
  split
  · exact refl s
  · exact ⟨fun _ => rfl, rfl⟩

theorem modCore (s : State) (c : Nat) {f : Core → Core} (hf : (f (s.core c)).mode = (s.core c).mode) :
    SameModes s (s.modCore c f) := by
  refine ⟨fun m => ?_, rfl⟩
  by_cases hm : m = c
  · rw [hm, State.core_modCore, hf]
  · rw [State.core_modCore_other s c m f hm]

end SameModes

theorem lendingEnds_sameModes (s : State) (c : Nat) : SameModes s (lendingEnds s c) := by
  refine List.foldlRecOn (motive := SameModes s) _ _ (.refl s) fun t ht d _ => ht.trans ?_
  split
  · exact .refl t
  · dsimp only
    split
    · exact (SameModes.modCore t _ rfl).trans (.dueOnce _ _)
    · exact .refl t

theorem tryLeave_sameModes (s : State) (q : Nat) : SameModes s (tryLeave s q) := by
  rw [tryLeave]
  split
  · exact .refl s
  · refine SameModes.trans ?_ (.dueOnce _ _)
    exact ⟨fun _ => rfl, rfl⟩

/-- But for the core that becomes IDLE no mode changes. -/
theorem idleCore_sameModes (s : State) (c : Nat) :
    SameModes (s.modCore c (fun k => { k with mode := .idle, task := Task.reset, binding := false })) (idleCore s c) := by
  unfold idleCore
  extract_lets hot s1 s2
  have hlending : SameModes s1 s2 := by
    dsimp only [s2]
    split
    · exact lendingEnds_sameModes s1 c
    · exact .refl s1
  exact (hlending.trans (tryLeave_sameModes _ _)).trans (.dueOnce _ _)

theorem idleCore_holdsTask (s : State) (c : Nat) : ((idleCore s c).core c).holdsTask = false := by
  have hmode := (idleCore_sameModes s c).modes c
  rw [State.core_modCore] at hmode
  simp [Core.holdsTask, hmode]

theorem idleCore_die (s : State) (c d : Nat) : (idleCore s c).die d = s.die d := by
  rw [State.die, (idleCore_sameModes s c).dies]
  rfl

theorem unitMembers_solo {s : State} {c : Nat} (hsolo : (s.core c).task.gang = 0) : unitMembers s c = [c] := by
  simp [unitMembers, hsolo]

/-! ### A unit that ends -/

theorem discardUnit_holdsTask {s : State} {c : Nat} (hsolo : (s.core c).task.gang = 0) (fail : Bool) :
    ((discardUnit s c fail).core c).holdsTask = false := by
  rw [discardUnit, unitMembers_solo hsolo]
  exact idleCore_holdsTask _ c

/-- R414: the reports come first, and the core holds no task at the end. -/
theorem endUnit_holdsTask {s : State} {c : Nat} (hsolo : (s.core c).task.gang = 0) (t : TrapInfo) (pc : Word) :
    ((endUnit s c t pc).core c).holdsTask = false := by
  unfold endUnit
  extract_lets s1 s2
  have h1 : HomeUpkeep s s1 := trapRecord_homeUpkeep (.refl s)
  have h2 : HomeUpkeep s s2 := .ite (machineCheck_homeUpkeep h1) h1
  exact discardUnit_holdsTask (by rw [h2.task, hsolo]) true

/-! ### The trap of a lone task -/

/-- What the delivery of a trap does to a core before the trap is taken. -/
structure Delivered (k k' : Core) : Prop where
  regs : k'.regs = k.regs
  trap : k'.trap = k.trap
  task : k'.task = k.task
  pipe : k'.pipe = { k.pipe with bodyWait := none }

theorem dropHeldFaults_delivered (s : State) (c : Nat) (t : TrapInfo) : Delivered (s.core c) ((dropHeldFaults s c t).core c) := by
  unfold dropHeldFaults
  rw [State.core_modCore]
  split
  · unfold helperDelivered State.modHelper
    simp only [State.core_modCore]
    split <;> exact ⟨rfl, rfl, rfl, rfl⟩
  · exact ⟨rfl, rfl, rfl, rfl⟩

theorem meets_dropHeldFaults_delivered (s : State) (c : Nat) (t : TrapInfo) :
    Delivered (s.core c) ((dropHeldFaults (s.meets (some c) t) c t).core c) := by
  have hmet : HomeUpkeep s (s.meets (some c) t) := meets_homeUpkeep (.refl s)
  obtain ⟨hregs, htrap, htask, hpipe⟩ := dropHeldFaults_delivered (s.meets (some c) t) c t
  exact ⟨hregs.trans (hmet.regs c), htrap.trans (hmet.trap c), htask.trans (hmet.task c), by rw [hpipe, hmet.pipe]⟩

/-- The trap entry cannot take a trap: the task has none, or is in it (R413). -/
def Unhandled (k : Core) : Prop := tyTrapPc k.task.entry = 0 ∨ flag k.trap.cause 8 = true

theorem takeTrap_unhandled {s : State} {c : Nat} {t : TrapInfo} (hsolo : (s.core c).task.gang = 0) (hun : Unhandled (s.core c))
    (hclass : classOf t.cause = .entry) (pcOf : Nat → Word) : ((takeTrap s c t pcOf).core c).holdsTask = false := by
  unfold takeTrap
  extract_lets t1 s1 k
  have hdelivered : Delivered (s.core c) k := meets_dropHeldFaults_delivered s c t
  have hnoEntry : tyTrapPc k.task.entry = 0 ∨ flag k.trap.cause 8 = true := by rwa [hdelivered.task, hdelivered.trap]
  have hclass1 : classOf t1.cause = .entry := hclass
  rw [hclass1]
  dsimp only
  rw [if_pos hnoEntry]
  exact endUnit_holdsTask (by rw [← hsolo, ← hdelivered.task]) _ _

/-- An instruction whose issue ends in such a trap ends its unit. -/
theorem issue_unhandled {g : Sig} {body : Body} {s : State} {c : Nat} {t : TrapInfo} (halone : Alone s c)
    (hwaits : (s.core c).trapWaits = false) (hun : Unhandled (s.core c)) (hclass : classOf t.cause = .entry)
    (h : issueOne g body s c = .error (.trap t)) : ∃ s', issue g body s = .next s' ∧ (s'.core c).holdsTask = false :=
  ⟨_, issue_trap halone hwaits h, takeTrap_unhandled halone.solo hun hclass _⟩

/-- So does a word that is none, and a fetch that faults. -/
theorem trapHere_unhandled {s : State} {c : Nat} {t : TrapInfo} (halone : Alone s c) (hwaits : (s.core c).trapWaits = false)
    (hun : Unhandled (s.core c)) (hclass : classOf t.cause = .entry) (hpart : s.actor.part = .main) :
    ∃ s', trapHere t s = .next s' ∧ (s'.core c).holdsTask = false := by
  have hissuer : issuer s = c := by simp [issuer, halone.actor, halone.solo]
  have hacting : actingMembers s c = [c] := by simp [actingMembers, gangOf, halone.solo]
  have htaken : trapAtIssue s s c [c] [] t = takeTrap s c t (fun m => (s.core m).groupVa) := by simp [trapAtIssue, hwaits]
  have hended := takeTrap_unhandled halone.solo hun hclass (fun m => (s.core m).groupVa)
  refine ⟨takeTrap s c t (fun m => (s.core m).groupVa), ?_, hended⟩
  rw [trapHere, if_pos hpart]
  dsimp only
  rw [hissuer, if_pos halone.run, hacting, htaken, mirrored, if_neg (by simp [hended])]

/-! ### A page fault of a lone task (07 R179, 16 R416) -/

/-- The fault of a trap that a core's unit of a job holds. -/
structure Holds (h : HeldFault) (c job : Nat) (t : TrapInfo) : Prop where
  core : h.core = c
  job : h.job = job
  cause : h.trap.cause = t.cause
  va : h.va = t.addr

theorem fbHeld_holds (s : State) (c job : Nat) (t : TrapInfo) : Holds (fbHeld s c job t).1 c job t := by
  unfold fbHeld fbEnter
  dsimp only
  split
  · exact ⟨rfl, rfl, rfl, rfl⟩
  · split <;> exact ⟨rfl, rfl, rfl, rfl⟩

/-- The fault buffer takes the fault of a load or a store, and the task's commit point decides what becomes of the unit. -/
theorem bufferFault_solo {s : State} {c : Nat} {t : TrapInfo} (hsolo : (s.core c).task.gang = 0) (hlog : t.cause ≠ cLogFault)
    (haccess : t.access ≠ .fetch) (pc : Word) : ∃ s1 h, HomeUpkeep s s1 ∧ Holds h c (s.core c).task.job t ∧
      bufferFault s c t pc = if (s.core c).task.commit then parkUnit s1 c h else abortUnit s1 c (some h) := by
  have hkept : HomeUpkeep s (fbHeld s c (s.core c).task.job { t with tag := 0 }).2 := fbHeld_homeUpkeep (.refl s)
  obtain ⟨hcore, hjob, hcause, hva⟩ := fbHeld_holds s c (s.core c).task.job { t with tag := 0 }
  refine ⟨_, _, hkept, ⟨hcore, hjob, hcause, hva⟩, ?_⟩
  rw [bufferFault]
  simp only [if_neg hlog, if_neg haccess]
  rw [unitMembers_solo (by rw [hkept.task, hsolo]), List.any_cons, List.any_nil, Bool.or_false, hkept.task]

theorem takeTrap_page {s : State} {c : Nat} {t : TrapInfo} (hsolo : (s.core c).task.gang = 0)
    (hcause : t.cause = cPageAbsent ∨ t.cause = cPagePerm) (haccess : t.access ≠ .fetch) (pcOf : Nat → Word) :
    ∃ s1 h, Delivered (s.core c) (s1.core c) ∧ Holds h c (s.core c).task.job t ∧
      takeTrap s c t pcOf = if (s.core c).task.commit then parkUnit s1 c h else abortUnit s1 c (some h) := by
  have hclass : classOf t.cause = .buffer := by rcases hcause with h | h <;> rw [h] <;> rfl
  have hlog : t.cause ≠ cLogFault := by rcases hcause with h | h <;> rw [h] <;> decide
  obtain ⟨hregs, htrap, htask, hpipe⟩ := meets_dropHeldFaults_delivered s c t
  obtain ⟨s1, h, hkept, ⟨hcore, hjob, hheld, hva⟩, hbuffer⟩ := bufferFault_solo (t := { t with met := [] })
    (by rw [htask, hsolo]) hlog haccess (pcOf c)
  rw [htask] at hjob hbuffer
  refine ⟨s1, h, ⟨(hkept.regs c).trans hregs, (hkept.trap c).trans htrap, (hkept.task c).trans htask,
    (hkept.pipe c).trans hpipe⟩, ⟨hcore, hjob, hheld, hva⟩, ?_⟩
  rw [← hbuffer, takeTrap]
  simp only [hclass]

theorem parkUnit_core {s : State} {c : Nat} (hsolo : (s.core c).task.gang = 0) (hbody : (s.core c).pipe.inBody = false)
    (h : HeldFault) : (parkUnit s c h).core c = { s.core c with
      mode := .park, fault := some h
      pipe := { (s.core c).pipe with pc := (s.core c).pipe.hints.va.getD (s.core c).pipe.pc, hints := Hints.none } } := by
  have htogether : together s c = [c] := by simp [together, unitMembers_solo hsolo]
  simp [parkUnit, htogether, Core.leaveBody, hbody]

/-- A record placed in a die's queue stands there, or behind those that have spilled (15 R387). -/
theorem mem_placeReady (s : State) (d : Nat) (front : Bool) (r : Ready) :
    ∃ slot, let r1 := { r with seq := s.seq, slot := slot }
      r1 ∈ ((placeReady s d front r).die d).ready ∨ r1 ∈ ((placeReady s d front r).die d).spill := by
  unfold placeReady
  dsimp only
  split
  · unfold spillReady
    dsimp only
    split <;> exact ⟨_, .inr (by rw [State.die_modDie]; exact List.mem_append_right _ (List.mem_singleton_self _))⟩
  · refine ⟨none, .inl ?_⟩
    rw [State.die_modDie]
    cases front <;> simp

theorem abortUnit_solo {s : State} {c : Nat} (hsolo : (s.core c).task.gang = 0) (h : HeldFault) :
    ((abortUnit s c (some h)).core c).holdsTask = false ∧
      ∃ r, (r ∈ ((abortUnit s c (some h)).die (dieOf c)).ready ∨ r ∈ ((abortUnit s c (some h)).die (dieOf c)).spill) ∧
        r.record = (s.core c).task.record ∧ r.job = (s.core c).task.job ∧ r.fault = some h := by
  rw [abortUnit, unitMembers_solo hsolo]
  refine ⟨idleCore_holdsTask _ c, ?_⟩
  simp only [List.foldl_cons, List.foldl_nil, idleCore_die]
  obtain ⟨slot, hplaced⟩ := mem_placeReady (discardJobs (clearTask s c) c) (dieOf c) true
    { requeuedAs s c with rq := satAdd (requeuedAs s c).rq 1 65535, fault := some h }
  exact ⟨_, hplaced, rfl, rfl, rfl⟩

/-! ### What the issue leaves of the task -/

theorem State.core_dueOnce (s : State) (d : Due) (c : Nat) : (s.dueOnce d).core c = s.core c := by
  rw [State.dueOnce]
  split <;> rfl

theorem popStream_task (s : State) (c i : Nat) : Answers (fun x => (x.2.core c).task = (s.core c).task) (popStream s c i) := by
  have hended : ((s.modStrm c i (fun x => { x with endB := true })).core c).task = (s.core c).task := by
    rw [State.modStrm, State.core_modCore]
  rw [popStream]
  refine .check fun _ => .ite (.ok hended) ?_
  split
  · refine .ok ?_
    dsimp only
    split <;> simp [State.core_dueOnce, State.modStrm]
  · refine .ite (.ite (.ok hended) .error) ?_
    split <;> exact .error

theorem popOperands_task (s : State) (c : Nat) (l : List (RegFile × Nat)) :
    Answers (fun x => (x.2.core c).task = (s.core c).task) (popOperands s c l) := by
  induction l generalizing s with
  | nil => exact .ok rfl
  | cons e es ih =>
    rw [popOperands]
    have hrest : ∀ s1 : State, (s1.core c).task = (s.core c).task → ∀ v : Vec,
        Answers (fun x => (x.2.core c).task = (s.core c).task) (do
          let (vs, s2) ← popOperands s1 c es
          pure (v :: vs, s2)) := fun s1 h1 v => .bind (ih s1) fun _ h2 => .ok (h2.trans h1)
    dsimp only
    split
    · exact .bind (popStream_task s c _) fun x h1 => hrest x.2 h1 x.1
    · exact hrest s rfl _

theorem Issues.task {s s1 : State} {c : Nat} {g : Sig} {vs : List Vec} (h : Issues s c g vs s1) :
    (s1.core c).task = (s.core c).task := by
  rw [popOperands_task _ _ _ _ h.operands, beginIssue_task]

theorem effective64_eq (base : Word) (off : Int) : effective64 base off = (base + BitVec.ofInt 64 off).toNat := by
  have hexact : BitVec.ofInt 64 (base.toNat + off) = base + BitVec.ofInt 64 off := by
    rw [BitVec.ofInt_add, BitVec.ofInt_natCast, BitVec.ofNat_toNat, BitVec.setWidth_eq]
  rw [← hexact, BitVec.toNat_ofInt]
  rfl

/-- The address of an access at an offset of so many elements (R281). -/
theorem effective64_elements (base : Word) (off : Int) (w : Nat) :
    effective64 base (off * (2 ^ w : Nat)) = (base + BitVec.ofInt 64 (off * 2 ^ w)).toNat := by
  have hsize : ((2 ^ w : Nat) : Int) = 2 ^ w := Int.natCast_pow 2 w
  rw [effective64_eq, hsize]

theorem toNat_mod_four_ne_zero {x : Word} (h : x &&& 3 ≠ 0) : x.toNat % 4 ≠ 0 := fun hx => h (by
  apply BitVec.eq_of_toNat_eq
  rw [BitVec.toNat_and]
  exact (Nat.and_two_pow_sub_one_eq_mod x.toNat 2).trans hx)

/-- R232: a register jump to no word's address. -/
theorem registerJump_misaligned {s : State} {c : Nat} {target : Word} (hsolo : (s.core c).task.gang = 0) (h : target &&& 3 ≠ 0) :
    registerJump s c target = raise cMisalign target.toNat := by
  have hfollows : followsLeader s c = false := by simp [followsLeader, hsolo]
  rw [registerJump, hfollows, if_neg Bool.false_ne_true, if_pos (toNat_mod_four_ne_zero h)]

/-! ### The instructions -/

section Unhandled
variable {s : State} {c : Nat} (halone : Alone s c) (hwaits : (s.core c).trapWaits = false) (hun : Unhandled (s.core c))
include halone hwaits hun

theorem body_unhandled {g : Sig} {body : Body} {vs : List Vec} {s1 : State} {t : TrapInfo} (h : Issues s c g vs s1)
    (hbody : body c vs s1 = .error (.trap t)) (hclass : classOf t.cause = .entry) :
    ∃ s', issue g body s = .next s' ∧ (s'.core c).holdsTask = false :=
  issue_unhandled halone hwaits hun hclass (issueOne_trap h hbody)

theorem privileged_unhandled {g : Sig} {body : Body} (hsys : g.sys = true) (hmode : (s.core c).task.sys = false)
    (hhints : hintsIllegal (s.core c).hints g.use = false) :
    ∃ s', issue g body s = .next s' ∧ (s'.core c).holdsTask = false :=
  issue_unhandled halone hwaits hun (t := mkTrap cPriv 0) (by decide) (issueOne_denied (issueChecks_priv hwaits hhints hsys hmode))

theorem eret_unhandled {vs : List Vec} {s1 : State} (h : Issues s c { alone := true } vs s1)
    (hact : flag (s.core c).trap.cause 8 = false) : ∃ s', exec .eret s = .next s' ∧ (s'.core c).holdsTask = false := by
  have hs1 : s1 = beginIssue s c { alone := true } := (h.plain ⟨nofun, nofun⟩).1
  have htrap : (s1.core c).trap = (s.core c).trap := by rw [hs1, beginIssue_registersOnly s c]
  rw [exec_eret]
  exact body_unhandled halone hwaits hun h (t := mkTrap cIllegalOp 0) (if_pos (by rw [htrap, hact])) (by decide)

theorem fetchFault_unhandled {t : TrapInfo} (hpart : s.actor.part = .main) (hfetch : fetchHere s = .error (.trap t))
    (hclass : classOf t.cause = .entry) : ∃ s', exec .instructionFetchFault s = .next s' ∧ (s'.core c).holdsTask = false := by
  rw [exec_instructionFetchFault, execInstructionFetchFault, hfetch]
  exact trapHere_unhandled halone hwaits hun hclass hpart

end Unhandled

section Page
variable {s : State} {c : Nat} {t : TrapInfo} (hsolo : (s.core c).task.gang = 0)
  (hcause : t.cause = cPageAbsent ∨ t.cause = cPagePerm) (haccess : t.access ≠ .fetch) (pcOf : Nat → Word)
include hsolo hcause haccess

/-- R179: past its commit point the unit parks where it is, with what it holds. -/
theorem takeTrap_page_parks (hbody : (s.core c).pipe.inBody = false) (hcommit : (s.core c).task.commit = true) :
    ∃ h, ((takeTrap s c t pcOf).core c).mode = .park ∧ ((takeTrap s c t pcOf).core c).fault = some h ∧
      Holds h c (s.core c).task.job t ∧ ((takeTrap s c t pcOf).core c).regs = (s.core c).regs ∧
      ((takeTrap s c t pcOf).core c).trap = (s.core c).trap ∧
      ((takeTrap s c t pcOf).core c).pipe.pc = (s.core c).pipe.hints.va.getD (s.core c).pipe.pc := by
  obtain ⟨s1, h, ⟨hregs, htrap, htask, hpipe⟩, hheld, htaken⟩ := takeTrap_page hsolo hcause haccess pcOf
  rw [htaken, if_pos hcommit, parkUnit_core (by rw [htask, hsolo]) (by rw [hpipe, hbody]) h]
  exact ⟨h, rfl, rfl, hheld, hregs, htrap, by rw [hpipe]⟩

/-- R179: before its commit point the unit is aborted, and its record waits for the fault in the ready queue. -/
theorem takeTrap_page_aborts (hcommit : (s.core c).task.commit = false) :
    ∃ r h, ((takeTrap s c t pcOf).core c).holdsTask = false ∧
      (r ∈ ((takeTrap s c t pcOf).die (dieOf c)).ready ∨ r ∈ ((takeTrap s c t pcOf).die (dieOf c)).spill) ∧
      r.record = (s.core c).task.record ∧ r.job = (s.core c).task.job ∧ r.fault = some h ∧
      Holds h c (s.core c).task.job t := by
  obtain ⟨s1, h, ⟨-, -, htask, -⟩, hheld, htaken⟩ := takeTrap_page hsolo hcause haccess pcOf
  obtain ⟨hover, r, hplaced, hrecord, hjob, hfault⟩ := abortUnit_solo (s := s1) (by rw [htask, hsolo]) h
  rw [htask] at hrecord hjob
  rw [htaken, if_neg (by simp [hcommit])]
  exact ⟨r, h, hover, hplaced, hrecord, hjob, hfault, hheld⟩

end Page

/-- A load or a store whose access faults ends its issue with the fault. -/
theorem exec_ld_faults {d : Fin 16} {a : Fin 32} {w : Fin 4} {m : Fin 2} {cp : Fin 4} {o : Fin 2048} {s : State} {c : Nat}
    {vs : List Vec} {s1 : State} {f : TrapInfo} (hwaits : (s.core c).trapWaits = false)
    (h : Issues s c { srcs := [(.k, a)], dst := some (.k, d), cls := 4, use := { imm := 11 } } vs s1)
    (hload : loadData s1 (taskAccess s1 c .read (arg vs 0 + BitVec.ofInt 64 (immOf (s1.core c).hints 11 o true * 2 ^ w.val)).toNat
      (2 ^ w.val) 1) (some cp) = .error (.trap f)) :
    exec (.ld d a w m cp o) s = .next (takeTrap s c f (fun m => (s.core m).groupVa)) := by
  rw [← effective64_elements] at hload
  refine issue_trap h.alone hwaits (issueOne_trap h ?_)
  dsimp only
  rw [hload]
  rfl

@[inherit_doc exec_ld_faults]
theorem exec_st_faults {a b : Fin 32} {w cp : Fin 4} {o : Fin 2048} {s : State} {c : Nat} {vs : List Vec} {s1 : State} {f : TrapInfo}
    (hwaits : (s.core c).trapWaits = false) (h : Issues s c { srcs := [(.k, a), (.k, b)], cls := 4, use := { imm := 11 } } vs s1)
    (hstore : storeData s1 { taskAccess s1 c .write
        (arg vs 0 + BitVec.ofInt 64 (immOf (s1.core c).hints 11 o true * 2 ^ w.val)).toNat (2 ^ w.val) 1 with cp := cp.val }
      ((arg vs 1).toNat % 2 ^ (8 * 2 ^ w.val)) true false = .error (.trap f)) :
    exec (.st b a w cp o) s = .next (takeTrap s c f (fun m => (s.core m).groupVa)) := by
  rw [← effective64_elements] at hstore
  exact issue_trap h.alone hwaits (issueOne_trap h hstore)

/-- Settles O35: a trap without an entry ends the unit once its reports are made, and a page fault's unit goes on by its commit
point. -/
theorem unhandledTrapEndsTheUnit : Obligations.UnhandledTrapEndsTheUnit := by
  intro d a b w cp o s c vs s1 halone hwaits _ k ends
  refine ⟨fun hun => ⟨fun h => ?brk, fun h => ⟨?trap, fun hodd => ?jr⟩, fun hmode hhints => ⟨?halt, ?tlbinv⟩,
    fun hact h => eret_unhandled halone hwaits hun h hact,
    fun hpart => ⟨trapHere_unhandled halone hwaits hun (by decide) hpart,
      fun f hfetch hclass _ => fetchFault_unhandled halone hwaits hun hpart hfetch hclass⟩⟩,
    fun i f hcause _ haccess hbody hfaults => ?page⟩
  case brk => exact body_unhandled halone hwaits hun h (t := { mkTrap cBrk 0 with skip := true }) rfl (by decide)
  case trap =>
    exact body_unhandled halone hwaits hun h (t := { mkTrap cSwTrap (arg vs 0).toNat with skip := true }) rfl rfl
  case jr =>
    have hsolo : (s1.core c).task.gang = 0 := by rw [h.task, halone.solo]
    exact body_unhandled halone hwaits hun h (registerJump_misaligned hsolo hodd) rfl
  case halt => exact privileged_unhandled halone hwaits hun rfl hmode hhints
  case tlbinv => exact privileged_unhandled halone hwaits hun rfl hmode hhints
  case page =>
    have hexec : exec i s = .next (takeTrap s c f (fun m => (s.core m).groupVa)) := by
      rcases hfaults with ⟨m, rfl, h, hload⟩ | ⟨rfl, h, hstore⟩
      · exact exec_ld_faults hwaits h hload
      · exact exec_st_faults hwaits h hstore
    refine ⟨fun hcommit => ?parks, fun hcommit => ?aborts⟩
    case parks =>
      obtain ⟨h, hmode, hfault, ⟨hcore, hjob, hheld, hva⟩, hregs, htrap, hpc⟩ :=
        takeTrap_page_parks halone.solo hcause haccess (fun m => (s.core m).groupVa) hbody hcommit
      exact ⟨_, h, hexec, hmode, hfault, ⟨hcore, hjob, hheld, hva⟩, hregs, htrap, hpc⟩
    case aborts =>
      obtain ⟨r, h, hover, hplaced, hrecord, hjob, hfault, ⟨hcore, hheldJob, hheld, hva⟩⟩ :=
        takeTrap_page_aborts halone.solo hcause haccess (fun m => (s.core m).groupVa) hcommit
      exact ⟨_, r, h, hexec, hover, hplaced, hrecord, hjob, hfault, hcore, hheldJob, hheld, hva⟩

end Sys2Proof.Machine

/-! # Decoding inverts encoding (O1) -/

namespace Sys2Proof.Laws.RoundTrip

/-- Each instruction by the lemma of its constructor, in the order of the constructors. -/
theorem statement : ∀ i : Instr, Statement i := @Instr.rec Statement
  add sub and or xor andn orn sll srl sra rol ror min max minz maxz addx2 addx4 addx8 addx16 clmul clmulh clz ctz pop brev
  bswap sextb sexth sextw zextb zexth zextw neg not mov mul mulh mulhz mulhsz div divz rem remz seq sne slt sge slo shs sel
  bfx bfxs bfi addi andi ori xori slli srli srai roli cmpi li getc setc setcLogBase setcTrace setcEvRebase setcEvSpill
  setcMxMode br jmp call jr callr lnest lnext rep repw wait done yield trap brk eret chk nop cancel cancelh tlbinv fbflush
  halt ld st ldx stx ldAcq stRel ldSc stSc amoAdd amoAnd amoOr amoXor amoMin amoMax amoMinz amoMaxz amoSwap amoFadd amoIncw
  redAdd redAnd redOr redXor redMin redMax redMinz redMaxz redSwap redFadd cas fenceAcq fenceRel fenceFull pf l1inv sbind
  sunbind sstat ejob vaddFp vsubFp vmulFp vmlaFp vmlsFp vminFp vmaxFp vabsFp vnegFp vdiv vsqrt vrcp vrsq vaddInt vsubInt
  vmulInt vmlaInt vminInt vmaxInt vminz vmaxz vabsInt vnegInt vadds vsubs vaddsz vsubsz vmulh vdot4 vdot4z vclmul vclmulh
  vand vor vxor vandn vnot vshl vshr vsra vpopc vclz vshli vshri vsrai veq vne vlt vge vlo vhs vfeq vflt vfle vfun mand mor
  mxor mandn mpop mffs vsel vcvt vf2i vi2f vnarrow vwiden vperm vslideup vslidedn vcompress vexpand vzipLo vzipHi vuzpEv
  vuzpOd vrev vpack vradd vrmin vrmax vrminz vrmaxz vrand vror vrxor vrfadd vscanAdd vscanXor vscanMax vsplat vext vins vmov
  vidx vbits vmsk vld vst vlss vsss vgth vsct vldl vldlx vstl vstlx tcfg tld tst tfetch tevict tzero tstat tpin tunpin mwld
  mwldSp mmeta mmul mmulSc mwsc mst mld mfence cpush cflush carm evpop evpay evsend evwinClose evwinOrigin evwinSlots evstat
  spawn dec qpush qpop bar hntStall hntImm hntMod hntBr hntNop ylLdFifo ylLdReg ylPush ylBase ylWait ylEnd ylPop ylSt
  helperRv32Instr helperFence helperEbreak resultWriteback storePerform l1dSectorFill fbEventResend faultRetry tlbinvComplete
  parityLand scrubStep sqmScrubStep epochEnd bankRetire lendClearDone lendEndClearDone squareClearDone cspClearDone
  tileFillLastBeat logApplyEntry tileDrainDone tileTransferFault beaconWindow traceRecordWrite engineJobStart
  engineJobComplete engineJobFault ownershipGrant revoke revokeDataReturn dramRefresh streamFetchReturn mxeLatchLoadDone
  mxeCommandStart mxeRowInject mxeCommandComplete mxeQueueWindowStore copyQueueWindowStore coalescerApply coalescerTimeout
  coalescerTwinReady eventArrive windowStaleTimeout waitWake waitTimeout barRelease taskEnd selectionRound taskBind taskStart
  agingTick stealRequest stealReply stealBackoff halfExchange lanternCircuit forecastTick railSettle slewStep nrgUpdate
  trqRetry watchdog lockstepMismatch preemptDrainDone jobPtbWrite cspOwnWrite spadForceRetire jobPartWrite jobCtlWrite
  hbwBaseWrite fbKill preCtlReq pwrCapWrite secAtreq secPolWrite ethRouteWrite registerWrite ethFrameReceive roceWrite
  roceRead roceFetchAdd roceCompareSwap place hostDec hostCancel hostCancelh ucieModuleFail thermalThreshold memTempChange
  tamperAlarm debugUnlockFail coldReset bootDatagram bootTransferEnd illegalOpEncoding instructionFetchFault loaderReadReturn
  gptpMessageReceive roceUnsupportedRequest attestationReportDone

/-- Settles O1. -/
theorem decodingInvertsEncoding : Obligations.DecodingInvertsEncoding := statement

end Sys2Proof.Laws.RoundTrip

/-! # Words of the encodings (O2) -/

namespace Sys2Proof

/-- Settles O2: each word is read at its fields. -/
theorem wordsDecode : Obligations.WordsDecode :=
  ⟨rfl, rfl, rfl, rfl, rfl, rfl, rfl, rfl, rfl, rfl, rfl, rfl, rfl, rfl, rfl, rfl, rfl, rfl, rfl, rfl, rfl, rfl, rfl⟩

end Sys2Proof

/-! # The step that an empty agenda gives (O3)

Every eighth cycle a request of the host that waits for a clear is tried again (log entry 70), before any step under way; so the head of
`todo` is not the step that runs in such a cycle, though no unit could issue. -/

namespace Sys2Proof.Machine

/-- The reset state in cycle 6, its first clears still to come, where a request of the host waits. -/
def hostWaits : State := { State.reset with cyc := 6, eth := { Eth.reset with held := [(0, .unsupported)] } }

/-- The steps under way that an outcome leaves. -/
def leftToDo : Out → List Due
  | .next t => t.todo
  | _ => []

/-- The request is answered, and both clears are still to come. -/
theorem leftToDo_step_hostWaits : leftToDo (step hostWaits) = [.squareClear 0, .squareClear 32] := by decide +kernel

/-- The first clear, were it the step that runs, would be over. -/
theorem leftToDo_clear_hostWaits :
    leftToDo (exec (dueInstr (.squareClear 0)) { tick hostWaits with todo := [.squareClear 32] }) =
      [.squareClear 32, .selection 0] := by decide +kernel

theorem tick_hostWaits : (tick hostWaits).halted = false ∧ (tick hostWaits).todo = [.squareClear 0, .squareClear 32] ∧
    runnable (tick hostWaits) = [] := by decide +kernel

/-- Refutes O3: where a request of the host waits, it is tried again in the turn that the statement gives to the head of `todo`. -/
theorem not_stepRunsTheDecodedInstruction : ¬ Obligations.StepRunsTheDecodedInstruction := by
  intro h
  obtain ⟨-, -, -, hdue, -⟩ := h hostWaits 0 false []
  obtain ⟨hhalted, htodo, hrunnable⟩ := tick_hostWaits
  have hstep := hdue _ _ rfl hhalted htodo hrunnable
  have hleft := leftToDo_clear_hostWaits
  rw [← hstep, leftToDo_step_hostWaits] at hleft
  exact absurd hleft (by decide)

end Sys2Proof.Machine

/-! # A lone task

What the definitions for the units of gangs come to where the task of a core is no gang (07 R175). -/

namespace Sys2Proof.Machine

theorem Alone.issuer_eq {s : State} {c : Nat} (h : Alone s c) : issuer s = c := by
  simp [issuer, h.actor, h.solo]

theorem Alone.actingMembers_eq {s : State} {c : Nat} (h : Alone s c) : actingMembers s c = [c] := by
  simp [actingMembers, gangOf, h.solo]

theorem Alone.beforePair_eq {s : State} {c : Nat} (h : Alone s c) : beforePair s c = s := by
  simp [beforePair, h.solo]

theorem mirrored_solo {s : State} {c : Nat} (h : (s.core c).task.gang = 0) : mirrored s c = s := by
  simp [mirrored, h]

theorem Issues.solo {s s1 : State} {c : Nat} {g : Sig} {vs : List Vec} (h : Issues s c g vs s1) : (s1.core c).task.gang = 0 := by
  rw [h.task, h.alone.solo]

end Sys2Proof.Machine

/-! # Immediate forms (O12) -/

namespace Sys2Proof.Machine

/-! ### The shifts by an amount below the width, as operations on bit vectors (09 R220, R227) -/

section
variable {n j : Nat} (hj : j < n) (x : BitVec n)
include hj

theorem ofNat_shl : BitVec.ofNat n (shl n x.toNat j) = x <<< j := by
  rw [shl, Nat.mod_eq_of_lt hj]
  apply BitVec.eq_of_toNat_eq
  simp

theorem ofNat_shr : BitVec.ofNat n (shr n x.toNat j) = x >>> j := by
  rw [shr, Nat.mod_eq_of_lt hj, ← BitVec.toNat_ushiftRight, ofNat_toNat_same]

theorem ofNat_sar : BitVec.ofNat n (sar n x.toNat j) = x.sshiftRight j := by
  rw [sar, Nat.mod_eq_of_lt hj, ofNat_wrap, sint_eq_toInt _ _ (Nat.zero_lt_of_lt hj), ofNat_toNat_same,
    BitVec.sshiftRight, Int.shiftRight_eq_div_pow]

theorem ofNat_rotl : BitVec.ofNat n (rotl n x.toNat j) = x.rotateLeft j := by
  have hhigh : x.toNat >>> (n - j) < 2 ^ n := Nat.lt_of_le_of_lt (Nat.shiftRight_le _ _) x.isLt
  rw [rotl, Nat.mod_eq_of_lt hj, BitVec.rotateLeft_eq_rotateLeftAux_of_lt hj]
  apply BitVec.eq_of_toNat_eq
  simp [BitVec.rotateLeftAux, Nat.or_mod_two_pow, Nat.mod_eq_of_lt hhigh]

end

theorem li_writes (d : Fin 16) (i : Fin 65536) (s : State) (c : Nat) :
    Writes (.li d i) s c { dst := some (.k, d), lat := 1, use := { imm := 16 } }
      (fun _ s1 => scalar (BitVec.ofInt 64 (immOf (s1.core c).hints 16 i true))) := by
  refine issue_writes (exec_li d i s) fun vs s1 f d' hd => ?_
  obtain ⟨rfl, rfl⟩ := Prod.mk.inj (Option.some.inj hd)
  rfl

/-- Settles O12, each form by what its operation computes on bit vectors. -/
theorem scalarImmediateResults : Obligations.ScalarImmediateResults := by
  intro d a w sh i s c is shifts imm
  refine ⟨?addi, ?andi, ?ori, ?xori, li_writes d i s c, fun hlt => ?shifts⟩
  case addi => exact scalarImm_writes (exec_addi d a i s) fun x y => by rw [BitVec.ofNat_add, ofNat_toNat_same, ofNat_toNat_same]
  case andi => exact scalarImm_writes (exec_andi d a i s) fun x y => by rw [← BitVec.toNat_and, ofNat_toNat_same]
  case ori => exact scalarImm_writes (exec_ori d a i s) fun x y => by rw [← BitVec.toNat_or, ofNat_toNat_same]
  case xori => exact scalarImm_writes (exec_xori d a i s) fun x y => by rw [← BitVec.toNat_xor, ofNat_toNat_same]
  case shifts =>
    have hsh : ∀ n, n = widthOf w → sh.val < n := by
      rintro _ rfl
      unfold widthOf
      split <;> omega
    exact ⟨scalarShift_writes (exec_slli d a w sh s) fun n hn => ofNat_shl (hsh n hn),
      scalarShift_writes (exec_srli d a w sh s) fun n hn => ofNat_shr (hsh n hn),
      scalarShift_writes (exec_srai d a w sh s) fun n hn => ofNat_sar (hsh n hn),
      scalarShift_writes (exec_roli d a w sh s) fun n hn => ofNat_rotl (hsh n hn)⟩

end Sys2Proof.Machine

/-! # Reads of control registers (O25) -/

namespace Sys2Proof.Machine

/-- An instruction whose effect, once it issues, gives a result of fixed latency completes with it. -/
theorem writes_of_issue {i : Instr} {s : State} {c : Nat} {g : Sig} {val : List Vec → State → Vec} {body : Body}
    (hi : exec i s = issue g body s)
    (hb : ∀ vs s1 f d, g.dst = some (f, d) → Issues s c g vs s1 → body c vs s1 = putResult s1 c f d g.lat (val vs s1)) :
    Writes i s c g val := by
  intro vs s1 f d hd h
  have hbody := hb vs s1 f d hd h
  refine ⟨fun hs => ?_, fun s2 hp => hi.trans (issue_next h (hbody.trans hp))⟩
  have h1 := (h.plain hs).1
  have hp := putResult_plain (s := s1) (lat := g.lat) (v := val vs s1) fun r hr => by
    rw [h1, beginIssue_boundAt]
    exact hs.dest r (hd ▸ hr)
  exact ⟨_, hi.trans (issue_next h (hbody.trans hp)), wrote hd hs (by rw [← h1]; exact hp)⟩

theorem Issues.core_lt {s s1 : State} {c : Nat} {g : Sig} {vs : List Vec} (h : Issues s c g vs s1) : c < 256 :=
  h.alone.actor ▸ s.actor.core.isLt

section
variable {d : Fin 16} {n : Fin 4096} {s : State} {c : Nat} {v : State → Word} {sys : Bool}

/-- `getc` of a register held in the core (08 R190). -/
theorem getc_writes (hlocal : remoteReg n = false) (hsys : decide (0x800 ≤ n.val) = sys)
    (hv : ∀ s1, c < 256 → readReg s1 c n = some (v s1)) :
    Writes (.getc d n) s c { dst := some (.k, d), lat := 1, sys := sys } (fun _ s1 => scalar (v s1)) := by
  subst hsys
  refine writes_of_issue (by rw [exec_getc, execGetc, hlocal]; rfl) fun vs s1 f d' hd h => ?_
  obtain ⟨rfl, rfl⟩ := Prod.mk.inj (Option.some.inj hd)
  have hsolo : (s1.core c).task.gang ≠ 3 := by simp [h.task, h.alone.solo]
  simp only [hsolo, and_false, if_false, hv s1 h.core_lt]
  rfl

/-- `getc` of a register held outside the core. -/
theorem getc_writesLater (hremote : remoteReg n = true) (hv : ∀ s1, readReg s1 c n = some (v s1)) :
    WritesLater (.getc d n) s c { dst := some (.k, d) } (fun _ s1 => scalar (v s1)) := by
  have hn : 0x040 ≤ n.val ∧ n.val < 0x800 := by
    simp only [remoteReg, Bool.or_eq_true, decide_eq_true_eq] at hremote
    omega
  refine issue_later (by rw [exec_getc, execGetc, hremote, decide_eq_false (by omega)]; rfl) fun vs s1 f d' hd => ?_
  obtain ⟨rfl, rfl⟩ := Prod.mk.inj (Option.some.inj hd)
  have hn0 : n.val ≠ 0 := by omega
  simp only [hn0, false_and, if_false, hv s1]
  rfl

end

/-! ### The registers whose number or value is no constant (R191, R352, R411, R436) -/

theorem readReg_coreId (s1 : State) {c : Nat} (hc : c < 256) : readReg s1 c 0x000 = some (BitVec.ofNat 64
    (c + 2 ^ 8 * squareOf c + 2 ^ 14 * districtOf (squareOf c) + 2 ^ 17 * dieOf c)) := by
  have hsq : squareOf c < 64 := by
    simp only [squareOf, coreY, coreX]
    omega
  have hdistrict : districtOf (squareOf c) < 8 := by
    simp only [districtOf]
    omega
  have hdie : dieOf c < 2 := by
    unfold dieOf
    split <;> omega
  refine congrArg (some ∘ BitVec.ofNat 64) ?_
  simp only [joinFields, List.foldl_cons, List.foldl_nil]
  omega

theorem readReg_check (s1 : State) (c : Nat) :
    readReg s1 c 0x002 = some (if tyCheck (s1.core c).task.entry then 1 else 0) := by
  refine congrArg some ?_
  unfold b2n
  split <;> rfl

/-- From 0x080 up to 0x0A0 a register is an element of one of three banks. -/
theorem readReg_bank (s1 : State) (c : Nat) {n : Nat} (hlow : 0x080 ≤ n) (hhigh : n < 0x0A0) :
    readReg s1 c n = if 0x080 ≤ n ∧ n < 0x090 then (s1.job (s1.core c).task.job).nrg[n - 0x080]?
      else if 0x090 ≤ n ∧ n < 0x098 then (s1.core c).evc[n - 0x090]?
      else if 0x098 ≤ n ∧ n < 0x0A0 then (s1.core c).evcSel[n - 0x098]? else none := by
  unfold readReg
  dsimp only
  split
  case h_28 => rfl
  -- The registers named one by one stand outside the banks.
  all_goals omega

theorem readReg_nrg (s1 : State) (c : Nat) (n : Fin 16) :
    readReg s1 c (0x080 + n) = some (s1.job (s1.core c).task.job).nrg[n] := by
  rw [readReg_bank s1 c (by omega) (by omega), if_pos (by omega), Nat.add_sub_cancel_left]
  exact Vector.getElem?_eq_getElem n.isLt

theorem readReg_evc (s1 : State) (c : Nat) (n : Fin 8) : readReg s1 c (0x090 + n) = some (s1.core c).evc[n] := by
  rw [readReg_bank s1 c (by omega) (by omega), if_neg (by omega), if_pos (by omega), Nat.add_sub_cancel_left]
  exact Vector.getElem?_eq_getElem n.isLt

theorem readReg_evcSel (s1 : State) (c : Nat) (n : Fin 8) : readReg s1 c (0x098 + n) = some (s1.core c).evcSel[n] := by
  rw [readReg_bank s1 c (by omega) (by omega), if_neg (by omega), if_neg (by omega), if_pos (by omega), Nat.add_sub_cancel_left]
  exact Vector.getElem?_eq_getElem n.isLt

/-- Settles O25: each register by the value that `readReg` gives of it. -/
theorem controlRegisterReads : Obligations.ControlRegisterReads := by
  intro d s c num local_ remote
  refine ⟨?local_, ?remote, fun n => ?nrg, fun n => ⟨?evc, ?evcSel⟩, ?lost, ?mcCount⟩
  case local_ =>
    refine List.forall_mem_cons.2 ⟨getc_writes rfl rfl fun s1 hc => readReg_coreId s1 hc, List.forall_mem_cons.2 ⟨getc_writes rfl rfl fun _ _ => rfl,
      List.forall_mem_cons.2 ⟨getc_writes rfl rfl fun s1 _ => readReg_check s1 c, ?_⟩⟩⟩
    repeat refine List.forall_mem_cons.2 ⟨getc_writes rfl rfl fun _ _ => rfl, ?_⟩
    exact List.forall_mem_nil _
  case remote =>
    repeat refine List.forall_mem_cons.2 ⟨getc_writesLater rfl fun _ => rfl, ?_⟩
    exact List.forall_mem_nil _
  case nrg => exact getc_writesLater (by simp [remoteReg]; omega) fun s1 => readReg_nrg s1 c n
  case evc =>
    exact getc_writes (by simp [remoteReg]; omega) (decide_eq_false (by dsimp only; omega)) fun s1 _ => readReg_evc s1 c n
  case evcSel =>
    exact getc_writes (by simp [remoteReg]; omega) (decide_eq_false (by dsimp only; omega)) fun s1 _ => readReg_evcSel s1 c n
  case lost => exact getc_writes rfl rfl fun _ _ => rfl
  case mcCount => exact getc_writes rfl rfl fun _ _ => rfl

end Sys2Proof.Machine

/-! # Repetitions (O30) -/

namespace Sys2Proof.Machine

theorem followsLeader_solo {s : State} {c : Nat} (h : (s.core c).task.gang = 0) : followsLeader s c = false := by
  simp [followsLeader, h]

/-- What a core is where a repetition of a counted total begins (09 R240, 08 R211). -/
theorem beginRep_counted (k : Core) (pc : Word) (stalls : List Nat) (total : Nat) (r : Rep) :
    beginRep k pc stalls (if total = 0 then none else some r) = { k with pipe := { k.pipe with
      pc := pc, stalls := stalls, rep := if total = 0 then none else some { r with clock := k.pipe.clock }
      pend := k.pipe.pend.map (fun p => { p with cross := p.schedAt }) } } := by
  unfold beginRep
  split <;> rfl

/-- Settles O30. -/
theorem repetitionsComplete : Obligations.RepetitionsComplete := by
  intro n a st t count s c g
  refine ⟨fun vs s1 body after stalls s2 hi hrep hbody => ?rep, fun vs s1 s2 hi hs2 => ?repw⟩
  case rep =>
    rw [exec_rep, execRep]
    refine issue_next hi ?_
    simp only [followsLeader_solo hi.solo, hrep, hbody, Option.isSome_none, Bool.false_eq_true, if_false]
    simp only [bind, Except.bind, pure, Except.pure, State.modCore, beginRep_counted]
  case repw =>
    rw [exec_repw]
    exact issue_next hi hs2

end Sys2Proof.Machine

/-! # Instructions that fault (O34) -/

namespace Sys2Proof.Machine

/-! ### A trap of the trap entry (16 R412) -/

/-- The trap is one of the trap entry's, and reports nothing but its cause and its address. -/
structure Reported (t : TrapInfo) : Prop where
  entry : classOf t.cause = .entry
  info : t.info = 0
  skip : t.skip = false
  met : t.met = []

theorem reported_mkTrap {cause : Nat} (h : classOf cause = .entry) (addr : Nat) : Reported (mkTrap cause addr) := ⟨h, rfl, rfl, rfl⟩

/-- An outcome is that of core `c` entering its trap entry with the cause and the address. -/
def EntersTrap (s : State) (c : Nat) (out : Out) (cause : Nat) (addr : Word) : Prop :=
  ∃ t, out = .next t ∧ Trapped s t c cause (s.core c).groupVa addr 0

section
variable {s : State} {c : Nat} (halone : Alone s c) (hcan : CanTrap s c)
include halone hcan

theorem takeTrap_trapped {t : TrapInfo} (ht : Reported t) :
    Trapped s (takeTrap s c t (fun m => (s.core m).groupVa)) c t.cause (s.core c).groupVa t.addr 0 := by
  have htaken := takeTrap_entry (f := fun m => (s.core m).groupVa) halone.solo ht.entry hcan.entry hcan.idle
    (by rw [ht.info]; rfl) ht.met
  rw [ht.info, ht.skip] at htaken
  exact htaken

theorem issue_entersTrap {g : Sig} {body : Body} {t : TrapInfo} (ht : Reported t) (h : issueOne g body s c = .error (.trap t)) :
    EntersTrap s c (issue g body s) t.cause t.addr :=
  ⟨_, issue_trap halone hcan.settled h, takeTrap_trapped halone hcan ht⟩

theorem body_entersTrap {g : Sig} {body : Body} {vs : List Vec} {s1 : State} {t : TrapInfo} (hi : Issues s c g vs s1)
    (hbody : body c vs s1 = .error (.trap t)) (ht : Reported t) : EntersTrap s c (issue g body s) t.cause t.addr :=
  issue_entersTrap halone hcan ht (issueOne_trap hi hbody)

/-- What is no instruction traps the same way. -/
theorem trapHere_entersTrap {t : TrapInfo} (ht : Reported t) (hpart : s.actor.part = .main) :
    EntersTrap s c (trapHere t s) t.cause t.addr := by
  have htrapped := takeTrap_trapped halone hcan ht
  have hsolo : ((takeTrap s c t (fun m => (s.core m).groupVa)).core c).task.gang = 0 := by rw [htrapped.core, halone.solo]
  have htaken : trapAtIssue s s c [c] [] t = takeTrap s c t (fun m => (s.core m).groupVa) := by simp [trapAtIssue, hcan.settled]
  refine ⟨_, ?_, htrapped⟩
  rw [trapHere, if_pos hpart]
  dsimp only
  rw [halone.issuer_eq, if_pos halone.run, halone.actingMembers_eq, htaken, mirrored_solo hsolo]

theorem privileged_entersTrap {g : Sig} {body : Body} (hsys : g.sys = true) (hmode : (s.core c).task.sys = false)
    (hhints : hintsIllegal (s.core c).hints g.use = false) : EntersTrap s c (issue g body s) cPriv 0 :=
  issue_entersTrap halone hcan (reported_mkTrap (by decide) 0) (issueOne_denied (issueChecks_priv hcan.settled hhints hsys hmode))

end

/-! ### The instructions that take a hint or none (08 R199, R202 to R205) -/

section
variable {s : State} {c : Nat} (halone : Alone s c) {t : TrapInfo}
include halone

/-- Where the checks at issue fail, no row of a tile is moved before. -/
theorem earlierRows_of_denied {n : Fin 64} {into : Bool} {a b : Fin 32}
    (hdenied : issueChecks s c (rowSig n a b) = .error (.trap t)) : earlierRows s n into a b = s := by
  unfold earlierRows
  simp only [halone.issuer_eq, halone.actingMembers_eq, halone.beforePair_eq, issueAll, issueOne_denied hdenied, hdenied]

/-- Where they fail, no access to a ring commits the task. -/
theorem ringCommit_of_denied {g : Sig} {body : Body} (hdenied : issueChecks s c g = .error (.trap t)) :
    ringCommit g body s = s := by
  unfold ringCommit
  simp only [halone.issuer_eq, halone.actingMembers_eq, halone.beforePair_eq, issueAll, issueOne_denied hdenied, hdenied]

end

/-- The meaning of an instruction of a core's word is its issue, with the hints that it takes; what some do before their issue is
nothing where the checks at issue fail. -/
structure IsIssue (i : Instr) (s : State) (g : Sig) (body : Body) (s1 : State) : Prop where
  exec : exec i s = issue g body s1
  hints : hintsOf i = some g.use
  denied : ∀ c t, Alone s c → issueChecks s c g = .error (.trap t) → s1 = s

theorem isIssue_of_hintsOf {i : Instr} {u : HintUse} (h : hintsOf i = some u) (s : State) :
    ∃ g body s1, IsIssue i s g body s1 := by
  cases i
  case tld => exact ⟨_, _, _, exec_tld .., rfl, fun _ _ halone => earlierRows_of_denied halone⟩
  case tst => exact ⟨_, _, _, exec_tst .., rfl, fun _ _ halone => earlierRows_of_denied halone⟩
  case qpush => exact ⟨_, _, _, exec_qpush .., rfl, fun _ _ halone => ringCommit_of_denied halone⟩
  case qpop => exact ⟨_, _, _, exec_qpop .., rfl, fun _ _ halone => ringCommit_of_denied halone⟩
  -- Hints, the helpers' words and what has no word take no hint.
  all_goals try exact absurd (h.symm.trans rfl) (Option.some_ne_none u)
  -- The other instructions issue in the state as it is.
  all_goals exact ⟨_, _, s, rfl, rfl, fun _ _ _ _ => rfl⟩

theorem illegalHint_entersTrap {s : State} {c : Nat} (halone : Alone s c) (hcan : CanTrap s c) {i : Instr} {u : HintUse}
    (h : hintsOf i = some u) (hillegal : hintsIllegal (s.core c).hints u = true) :
    EntersTrap s c (exec i s) cIllegalOp 0 := by
  obtain ⟨g, body, s1, hexec, hhints, hs1⟩ := isIssue_of_hintsOf h s
  obtain rfl : u = g.use := Option.some.inj (h.symm.trans hhints)
  have hdenied := issueChecks_hint hcan.settled hillegal
  rw [hexec, hs1 c _ halone hdenied]
  exact issue_entersTrap halone hcan (reported_mkTrap (by decide) 0) (issueOne_denied hdenied)

/-! ### Jumps, returns and fetches (09 R232, R233, R253) -/

/-- The trap of a jump to no word's address. -/
def misaligned (target : Word) : TrapInfo := { mkTrap cMisalign 0 with addr := target }

theorem reported_misaligned (target : Word) : Reported (misaligned target) := ⟨rfl, rfl, rfl, rfl⟩

theorem registerJump_traps {s : State} {c : Nat} {target : Word} (hsolo : (s.core c).task.gang = 0) (h : target &&& 3 ≠ 0) :
    registerJump s c target = .error (.trap (misaligned target)) := by
  rw [registerJump_misaligned hsolo h, raise, mkTrap, ofNat_toNat_same]
  rfl

section
variable {s s1 : State} {c : Nat} {vs : List Vec} (halone : Alone s c) (hcan : CanTrap s c)
include halone hcan

theorem eret_entersTrap (hi : Issues s c { alone := true } vs s1) : EntersTrap s c (exec .eret s) cIllegalOp 0 := by
  have hs1 : s1 = beginIssue s c { alone := true } := (hi.plain ⟨nofun, nofun⟩).1
  have htrap : (s1.core c).trap = (s.core c).trap := by rw [hs1, beginIssue_registersOnly s c]
  rw [exec_eret]
  exact body_entersTrap halone hcan hi (if_pos (by rw [htrap, hcan.idle])) (reported_mkTrap (cause := cIllegalOp) (by decide) 0)

theorem fetchFault_entersTrap {t : TrapInfo} (hpart : s.actor.part = .main) (hfetch : fetchHere s = .error (.trap t))
    (ht : Reported t) : EntersTrap s c (exec .instructionFetchFault s) t.cause t.addr := by
  rw [exec_instructionFetchFault, execInstructionFetchFault, hfetch]
  exact trapHere_entersTrap halone hcan ht hpart

end

/-- Settles O34. -/
theorem faultingInstructionsTrap : Obligations.FaultingInstructionsTrap := by
  intro d a b s c halone hcan traps
  refine ⟨fun hmode hhints => ⟨?halt, ?tlbinv, ?fbflush, ?getc, fun hb => ⟨?cancel, ?cancelh⟩⟩,
    fun i u h hillegal => illegalHint_entersTrap halone hcan h hillegal, fun vs s1 hi hodd => ?jr, fun vs s1 hi hodd => ?callr,
    fun vs s1 hi => eret_entersTrap halone hcan hi, fun hpart => ⟨?illegal, fun f hfetch hclass hinfo hskip hmet => ?fetch⟩⟩
  case halt => exact privileged_entersTrap halone hcan rfl hmode hhints
  case tlbinv => exact privileged_entersTrap halone hcan rfl hmode hhints
  case fbflush => exact privileged_entersTrap halone hcan rfl hmode hhints
  case getc => exact privileged_entersTrap halone hcan rfl hmode hhints
  case cancel => exact privileged_entersTrap halone hcan (decide_eq_true hb) hmode hhints
  case cancelh => exact privileged_entersTrap halone hcan (decide_eq_true hb) hmode hhints
  case jr => exact body_entersTrap halone hcan hi (registerJump_traps hi.solo hodd) (reported_misaligned _)
  case callr =>
    refine body_entersTrap halone hcan hi ?_ (reported_misaligned _)
    rw [registerJump_traps hi.solo hodd]
    rfl
  case illegal => exact trapHere_entersTrap halone hcan (reported_mkTrap (by decide) 0) hpart
  case fetch => exact fetchFault_entersTrap halone hcan hpart hfetch ⟨hclass, hinfo, hskip, hmet⟩

end Sys2Proof.Machine

/-! # Conversions (O43) -/

namespace Sys2Proof.Machine

/-! ### Clamping (00 R14, 10 R273) -/

theorem sat_eq_max_min {x lo hi : Int} (h : lo ≤ hi) : sat x lo hi = max lo (min x hi) := by
  unfold sat
  split
  · omega
  · split <;> omega

theorem ofNat_satS (e : Nat) (x : Int) : BitVec.ofNat e (satS e x) = clampS e x := by
  have hpow : 0 < 2 ^ (e - 1) := Nat.two_pow_pos _
  rw [satS, ofNat_wrap, clampS, sat_eq_max_min (by unfold sMin sMax; omega)]
  rfl

theorem ofNat_satU (e : Nat) (x : Int) : BitVec.ofNat e (satU e x) = clampU e x := by
  have hpow : 0 < 2 ^ e := Nat.two_pow_pos _
  rw [satU, ofNat_wrap, clampU, sat_eq_max_min (by omega)]

/-! ### The forms -/

section
variable (d : Fin 16) (a : Fin 32) (r q : Fin 4) (f t m : Fin 8) (s : State) (c : Nat)

/-- The instruction converts the first lanes of `es` bits to lanes of `ed` bits; the lanes above are 0, and inactive lanes keep what
they held (R271). -/
def Converts (i : Instr) (use : HintUse) (es ed : Nat) (conv : Hints → BitVec es → BitVec ed) : Prop :=
  Writes i s c { srcs := [(.v, a)], also := maskReg m, dst := some (.v, d), lat := 3, cls := 3, use := use } (fun vs s1 =>
    vecOf ed (fun j => if 512 / max es ed ≤ j then 0
      else if active s1 c m j then conv (s1.core c).hints (laneOf es (argV vs 0) j) else laneOf ed (oldVec s1 c d) j))

variable {d a f t m s c}

theorem vecConvert_converts {i : Instr} {es ed : Nat} {use : HintUse} {g : Hints → Nat → Nat}
    {conv : Hints → BitVec es → BitVec ed} (hi : exec i s = vecConvert es ed use g d a m s)
    (h : ∀ hs y, BitVec.ofNat ed (g hs y.toNat) = conv hs y) : Converts d a m s c i use es ed conv := by
  refine issue_writes hi fun vs s1 f' d' hd => ?_
  obtain ⟨rfl, rfl⟩ := Prod.mk.inj (Option.some.inj hd)
  refine congrArg (putResult s1 c .v d 3) (ofLanes_vecOf fun j _ => ?_)
  rw [apply_ite (BitVec.ofNat ed), apply_ite (BitVec.ofNat ed), lane_eq, h, ofNat_lane, active_eq]
  rfl

theorem laneBits_pos (n : Nat) : 0 < laneBits n := Nat.mul_pos (by decide) (Nat.two_pow_pos n)

/-- The rounded number that a conversion to floating point gives. -/
def rounded (r : Fin 4) (t : Fin 8) (h : Hints) (y : Fp) : Nat :=
  (fmtFormat t).round (rmWith h (rmOf r)) (satField h == 1) y

theorem vcvt_converts : Converts d a m s c (.vcvt d a r f t m) useCvt (floatBits f) (floatBits t)
    (fun h y => BitVec.ofNat _ (rounded r t h ((fmtFormat f).unpack y.toNat))) := by
  have hi := exec_vcvt d a r f t m s
  unfold execVcvt at hi
  exact vecConvert_converts hi fun _ _ => rfl

theorem vf2i_converts : Converts d a m s c (.vf2i d a r f t m) useCvt (floatBits f) (laneBits t) (fun h y =>
    BitVec.ofInt _ (Fp.toIntSat (rmWith h (rmOf r)) ((fmtFormat f).unpack y.toNat) (sMin (laneBits t)) (sMax (laneBits t)))) := by
  have hi := exec_vf2i d a r f t m s
  unfold execVf2i at hi
  exact vecConvert_converts hi fun _ _ => ofNat_wrap _ _

theorem vi2f_converts_signed (hf : f.val < 4) : Converts d a m s c (.vi2f d a r f t m) useCvt (laneBits f) (floatBits t)
    (fun h y => BitVec.ofNat _ (rounded r t h (Fp.ofInt y.toInt 0 false))) := by
  have hi := exec_vi2f d a r f t m s
  unfold execVi2f at hi
  rw [Nat.mod_eq_of_lt hf] at hi
  refine vecConvert_converts hi fun hs y => ?_
  rw [if_pos hf, sint_eq_toInt _ _ (laneBits_pos f), ofNat_toNat_same]
  rfl

theorem vi2f_converts_unsigned (hf : 4 ≤ f.val) : Converts d a m s c (.vi2f d a r f t m) useCvt (laneBits (f.val - 4))
    (floatBits t) (fun h y => BitVec.ofNat _ (rounded r t h (Fp.ofInt y.toNat 0 false))) := by
  have hi := exec_vi2f d a r f t m s
  have hmod : f.val % 4 = f.val - 4 := by omega
  unfold execVi2f at hi
  rw [hmod] at hi
  refine vecConvert_converts hi fun hs y => ?_
  rw [if_neg (Nat.not_lt_of_le hf)]
  rfl

/-- The narrowed lane of a mode (10 R273). -/
def narrowed {es : Nat} (ed mode : Nat) (y : BitVec es) : BitVec ed :=
  match mode with
  | 0 => y.setWidth ed
  | 1 => clampS ed y.toInt
  | 2 => clampU ed y.toInt
  | _ => clampU ed y.toNat

theorem vnarrow_converts : Converts d a m s c (.vnarrow d a q f t m) useSat (laneBits f) (laneBits t)
    (fun h y => narrowed (laneBits t) (narrowMode (satField h) q) y) := by
  have hi := exec_vnarrow d a q f t m s
  unfold execVnarrow at hi
  refine vecConvert_converts hi fun hs y => ?_
  have hy : sint y.toNat (laneBits f) = y.toInt := by rw [sint_eq_toInt _ _ (laneBits_pos f), ofNat_toNat_same]
  rw [hy]
  match narrowMode (satField hs) q with
  | 0 => exact BitVec.ofNat_toNat _ y
  | 1 => exact ofNat_satS _ _
  | 2 => exact ofNat_satU _ _
  | _ + 3 => exact ofNat_satU _ _

theorem vwiden_writes {h x : Fin 2} : Writes (.vwiden d a h x f t m) s c
    { srcs := [(.v, a)], also := maskReg m, dst := some (.v, d), lat := 3, cls := 3, use := useSat }
    (fun vs s1 => masked s1 c d m (laneBits t) (fun j =>
      let y := laneOf (laneBits f) (argV vs 0) (h.val * (512 / laneBits t) + j)
      if x.val = 0 then y.signExtend (laneBits t) else y.zeroExtend (laneBits t))) := by
  refine issue_writes (exec_vwiden ..) fun vs s1 f' d' hd => ?_
  obtain ⟨rfl, rfl⟩ := Prod.mk.inj (Option.some.inj hd)
  refine (putLanes_eq fun j _ => ?_).trans (if_neg (by decide))
  rw [apply_ite (BitVec.ofNat _), ofNat_wrap, lane_eq, sint_eq_toInt _ _ (laneBits_pos f), ofNat_toNat_same, BitVec.ofNat_toNat]
  rfl

end

/-- Settles O43: each conversion by what it makes of a lane. -/
theorem conversionResults : Obligations.ConversionResults := by
  intro d a r q h x f t m s c
  exact ⟨fun _ _ => vcvt_converts r, fun _ _ => vf2i_converts r, fun _ hf => vi2f_converts_signed r hf,
    fun _ hf => vi2f_converts_unsigned r hf, fun _ _ => vnarrow_converts q, fun _ _ => vwiden_writes⟩

end Sys2Proof.Machine

/-! # Pops and pushes of streams (O47) -/

namespace Sys2Proof.Machine

/-! ### A stream changed -/

section
variable {s : State} {c i : Nat} {f : Strm → Strm}

theorem State.strm_modStrm (h : i < 8) : ((s.modStrm c i f).core c).strm i = f ((s.core c).strm i) := by
  simp [State.modStrm, Core.strm, h]

theorem State.strm_modStrm_other {j : Nat} (h : j ≠ i) : ((s.modStrm c i f).core c).strm j = (s.core c).strm j := by
  simp [State.modStrm, Core.strm, Vector.getElem?_setIfInBounds_ne h.symm]

theorem State.regs_modStrm : ((s.modStrm c i f).core c).regs = (s.core c).regs := by
  rw [State.modStrm, State.core_modCore]

theorem OnlyCore.modStrm : OnlyCore s (s.modStrm c i f) c := OnlyCore.modCore _ _ _

/-- The state after a pop of an element, which its instruction may still give back (R189). -/
def popped (s : State) (c i : Nat) (v : Vec) (rest : List Vec) : State :=
  (s.modStrm c i (fun x => { x with fifo := rest, pos := x.pos + 1 })).modCore c (fun k => { k with
    pipe := { k.pipe with pops := k.pipe.pops ++ [(i, v)] } })

section
variable {v : Vec} {rest : List Vec}

theorem popped_onlyCore : OnlyCore s (popped s c i v rest) c := OnlyCore.modStrm.trans (OnlyCore.modCore _ _ _)

theorem core_popped : (popped s c i v rest).core c = { (s.modStrm c i (fun x => { x with fifo := rest, pos := x.pos + 1 })).core c with
    pipe := ((popped s c i v rest).core c).pipe } := by
  rw [popped, State.core_modCore]

theorem strm_popped (h : i < 8) : ((popped s c i v rest).core c).strm i =
    { (s.core c).strm i with fifo := rest, pos := ((s.core c).strm i).pos + 1 } := by
  rw [core_popped]
  exact State.strm_modStrm h

theorem strm_popped_other {j : Nat} (h : j ≠ i) : ((popped s c i v rest).core c).strm j = (s.core c).strm j := by
  rw [core_popped]
  exact State.strm_modStrm_other h

theorem regs_popped : ((popped s c i v rest).core c).regs = (s.core c).regs := by
  rw [core_popped]
  exact State.regs_modStrm

end

theorem State.dueOnce_bytes (s : State) (d : Due) : SameBytes s (s.dueOnce d) := by
  rw [State.dueOnce]
  split <;> exact fun _ => rfl

end

section
variable {s : State} {c i : Nat} {x : Strm} (hx : (s.core c).strm i = x) (hfault : streamFault s c x.mode = .ok ())
include hx hfault

/-! ### Pops (08 R189, 11 R298) -/

theorem popStream_past (h : x.total ≤ x.pos) : popStream s c i = .ok (0, s.modStrm c i (fun y => { y with endB := true })) := by
  rw [popStream, hx, Res.bind_of_ok _ hfault, if_pos h]
  rfl

/-- A stream of the loader without elements: its end, once no read is on its way to it (14 R379), or a wait. -/
theorem popStream_empty (hpos : x.pos < x.total) (hempty : x.fifo = []) (hmode : x.mode = mLoader) :
    popStream s c i = if x.endMark = true ∧ ¬ ∃ r ∈ (s.core c).loader.reads, r.fifo = i
      then .ok (0, s.modStrm c i (fun y => { y with endB := true })) else .error (.stall []) := by
  rw [popStream, hx, Res.bind_of_ok _ hfault, if_neg (Nat.not_le_of_lt hpos), hempty]
  refine (if_pos hmode).trans (ite_congr (propext ?_) (fun _ => rfl) (fun _ => rfl))
  simp

theorem popStream_element (hpos : x.pos < x.total) {v : Vec} {rest : List Vec} (hfifo : x.fifo = v :: rest) :
    popStream s c i = .ok (v, if x.mode = mAgen ∧ x.fetched < x.total
      then (popped s c i v rest).dueOnce (.streamFetch (coreId c) ⟨i % 8, Nat.mod_lt _ (by decide)⟩) else popped s c i v rest) := by
  rw [popStream, hx, Res.bind_of_ok _ hfault, if_neg (Nat.not_le_of_lt hpos), hfifo]
  rfl

/-- An element leaves its stream, and nothing else of memory, registers and streams changes. -/
theorem popStream_element_frame (hi : i < 8) (hpos : x.pos < x.total) {v : Vec} {rest : List Vec} (hfifo : x.fifo = v :: rest) :
    ∃ t, popStream s c i = .ok (v, t) ∧ SameBytes s t ∧ (t.core c).strm i = { x with fifo := rest, pos := x.pos + 1 } ∧
      (t.core c).regs = (s.core c).regs ∧ ∀ j, j < 8 → j ≠ i → (t.core c).strm j = (s.core c).strm j := by
  refine ⟨_, popStream_element hx hfault hpos hfifo, ?_⟩
  have hbytes : SameBytes s (popped s c i v rest) := popped_onlyCore.bytes
  split
  · rw [State.core_dueOnce, strm_popped hi, regs_popped, hx]
    exact ⟨fun a => (State.dueOnce_bytes _ _ a).trans (hbytes a), rfl, rfl, fun j _ hj => strm_popped_other hj⟩
  · rw [strm_popped hi, regs_popped, hx]
    exact ⟨hbytes, rfl, rfl, fun j _ hj => strm_popped_other hj⟩

/-! ### Pushes -/

theorem pushStream_dropped (v : Vec) (h : x.total ≤ x.pos ∨ (x.mode = mStorer ∧ x.endMark = true)) :
    pushStream s c i v = .ok (s.modStrm c i (fun y => { y with overB := true })) := by
  rw [pushStream, hx, Res.bind_of_ok _ hfault, if_pos h]
  rfl

theorem pushStream_stored (hpos : x.pos < x.total) (hmode : x.mode = mAgen) {v : Vec} {t : State}
    (hstore : storeData s (pushAccess s c x) (v.toNat % 2 ^ (8 * x.ew)) (decide (x.ew ≤ 8)) false = .ok t) :
    pushStream s c i v = .ok (t.modStrm c i (fun y => { y with pos := y.pos + 1 })) := by
  have hroom : ¬ (x.total ≤ x.pos ∨ (x.mode = mStorer ∧ x.endMark = true)) := by
    rw [hmode]
    simp [mAgen, mStorer, hpos]
  rw [pushStream, hx, Res.bind_of_ok _ hfault, if_neg hroom, if_pos hmode, Res.bind_of_ok _ hstore]
  rfl

section
variable (hpos : x.pos < x.total) (hmode : x.mode = mStorer) (hend : x.endMark = false) (v : Vec)
include hpos hmode hend

theorem pushStream_full (hfull : 8 ≤ x.fifo.length) : pushStream s c i v = .error (.stall []) := by
  have hroom : ¬ (x.total ≤ x.pos ∨ (x.mode = mStorer ∧ x.endMark = true)) := by simp [hpos, hend]
  rw [pushStream, hx, Res.bind_of_ok _ hfault, if_neg hroom, if_neg (by rw [hmode]; decide), if_pos hfull]
  rfl

/-- An element enters the storer's FIFO once the task's earlier accesses have performed (14 R380). -/
theorem pushStream_queued (hplace : x.fifo.length < 8) {t : State} (hsettle : settleTask s c 0 = .ok t) :
    pushStream s c i v = .ok (t.modStrm c i (fun y => { y with
      fifo := y.fifo ++ [BitVec.ofNat 512 (v.toNat % 2 ^ (8 * x.ew))], pos := y.pos + 1 })) := by
  have hroom : ¬ (x.total ≤ x.pos ∨ (x.mode = mStorer ∧ x.endMark = true)) := by simp [hpos, hend]
  rw [pushStream, hx, Res.bind_of_ok _ hfault, if_neg hroom, if_neg (by rw [hmode]; decide),
    if_neg (Nat.not_le_of_lt hplace)]
  exact Res.bind_of_ok _ hsettle

end

end

/-- Settles O47: each mode's pops and pushes by the cases of a stream's position, its elements and its end. -/
theorem streamPopsAndPushes : Obligations.StreamPopsAndPushes := by
  intro s c i hi x pops past dropped stored
  have hpops : streamFault s c x.mode = .ok () → pops := fun hfault _ _ hpos hfifo =>
    popStream_element_frame rfl hfault hi hpos hfifo
  have hpast : popStream s c i = .ok (0, s.modStrm c i (fun y => { y with endB := true })) → past :=
    fun hpop => ⟨_, hpop, OnlyCore.modStrm, State.strm_modStrm hi⟩
  have hdropped : streamFault s c x.mode = .ok () → x.total ≤ x.pos ∨ (x.mode = mStorer ∧ x.endMark = true) → dropped :=
    fun hfault h v => ⟨_, pushStream_dropped rfl hfault v h, OnlyCore.modStrm, State.strm_modStrm hi⟩
  refine ⟨fun hmode => ?agen, fun hmode hfault => ?loader, fun hmode hfault => ?storer⟩
  case agen =>
    have hfault : streamFault s c x.mode = .ok () := by
      rw [hmode]
      rfl
    exact ⟨hpops hfault, fun h => ⟨hpast (popStream_past rfl hfault h), hdropped hfault (.inl h)⟩,
      fun hpos _ _ => pushStream_stored rfl hfault hpos hmode⟩
  case loader =>
    refine ⟨hpops hfault, fun h => hpast ?past, fun hpos hempty hgoes => ?waits⟩
    case past =>
      by_cases hpos : x.total ≤ x.pos
      · exact popStream_past rfl hfault hpos
      · obtain ⟨hempty, hend⟩ := h.resolve_left hpos
        exact (popStream_empty rfl hfault (Nat.lt_of_not_le hpos) hempty hmode).trans (if_pos hend)
    case waits =>
      refine (popStream_empty rfl hfault hpos hempty hmode).trans (if_neg fun hend => ?_)
      exact hgoes.elim (fun h => Bool.false_ne_true (h.symm.trans hend.1)) hend.2
  case storer =>
    refine ⟨fun h => hdropped hfault (h.imp_right fun hend => ⟨hmode, hend⟩), fun hpos hend v => ⟨?_, ?_⟩⟩
    · exact pushStream_full rfl hfault hpos hmode hend v
    · exact fun hplace _ => pushStream_queued rfl hfault hpos hmode hend v hplace

end Sys2Proof.Machine

/-! # Hints (O54) -/

namespace Sys2Proof.Machine

/-- The core with a hint noted. -/
def Core.hinted (k : Core) (x : Hints × List Nat) : Core :=
  { k with pipe := { k.pipe with hints := x.1, stalls := x.2, pc := k.pipe.pc + 4 } }

/-- R200: a hint of a lone task passes, with what it notes alone. -/
theorem passHint_next {s : State} {c : Nat} (h : Alone s c) (kind payload : Nat) : passHint kind payload s =
    .next (s.modCore c (fun k => k.hinted (noteHint k.pipe.hints k.pipe.stalls k.pipe.pc kind payload))) := by
  simp only [passHint, h.issuer_eq, h.run, if_true, h.actingMembers_eq, List.foldl_cons, List.foldl_nil]
  rw [mirrored_solo (by rw [State.core_modCore]; exact h.solo)]
  rfl

theorem passHint_leaves {i : Instr} {s : State} {c kind payload : Nat} {hints : Hints} {stalls : List Nat} (h : Alone s c)
    (hexec : exec i s = passHint kind payload s)
    (hnote : noteHint (s.core c).pipe.hints (s.core c).pipe.stalls (s.core c).pipe.pc kind payload = (hints, stalls)) :
    ∃ t, exec i s = .next t ∧ OnlyCore s t c ∧ t.core c = (s.core c).hinted (hints, stalls) :=
  ⟨_, hexec.trans (passHint_next h kind payload), OnlyCore.modCore _ _ _, by rw [State.core_modCore, hnote]⟩

/-- R201: the payload's slices of three bits are the counts. -/
theorem stallCounts_joinFields (x7 x6 x5 x4 x3 x2 x1 : Fin 8) :
    (List.range 7).map (fun i => bits (joinFields [(x7.val, 3), (x6.val, 3), (x5.val, 3), (x4.val, 3), (x3.val, 3), (x2.val, 3),
      (x1.val, 3)]) (3 * i) 3) = [x1.val, x2.val, x3.val, x4.val, x5.val, x6.val, x7.val] := by
  simp only [List.range, List.range.loop, List.map_cons, List.map_nil, joinFields, List.foldl_cons, List.foldl_nil, bits_eq_div_mod,
    List.cons.injEq, and_true]
  omega

/-- Settles O54. -/
theorem hintsComplete : Obligations.HintsComplete := by
  intro x7 x6 x5 x4 x3 x2 x1 k p s c halone h h1 st leaves
  refine ⟨passHint_leaves halone (exec_hntStall ..) ?_, passHint_leaves halone (exec_hntImm p s) rfl,
    passHint_leaves halone (exec_hntMod p s) rfl, passHint_leaves halone (exec_hntBr p s) rfl,
    passHint_leaves halone (exec_hntNop k p s) rfl⟩
  exact congrArg (Prod.mk h1) (stallCounts_joinFields x7 x6 x5 x4 x3 x2 x1)

end Sys2Proof.Machine
